-- ==== Sys2Proof/Word.lean ====
section
/-! DEFINITION. The word types of the Hynte hub model. -/

namespace Sys2Proof

/-- One byte of a packet, a frame, a record or a memory. -/
abbrev Byte := BitVec 8

/-- One CSR word (R4: every CSR is 32 bits wide). -/
abbrev Word := BitVec 32

/-- One signal entry (R261), queue word (R192), nonce, unique ID or fabric address (R20). -/
abbrev DWord := BitVec 64

/-- A command tag (R33), taken modulo 65,536 (R39). -/
abbrev Tag := BitVec 16

/-- A table with few entries that differ from what an unlisted key reads as: keys strictly rising. -/
abbrev Sparse (α : Type) := List (Nat × α)

end Sys2Proof
end

