-- ==== Sys2Proof/Syntax.lean ====
section
/-! DEFINITION. The commands of the hub: one constructor per row of the table of operations and events.
Host commands (groups 0x00 to 0x0B) carry the header fields of R33 in a `Ctx` and the parameters of R57; events carry the
unit they happen at and the quantities that reach the hub from outside with them. -/

namespace Sys2Proof

/-- The two ring ports (R65, R98). -/
inductive Port where
  | east | west
  deriving DecidableEq, Repr

/-- The four switch outputs, and the ingresses of R104. -/
inductive Output where
  | east | west | local | pcie
  deriving DecidableEq, Repr

/-- How much of a ring frame comes: all of it, its header, or what follows the header (R80, R104, R113). -/
inductive RxPart where
  | whole | header | rest
  deriving DecidableEq, Repr

/-- The memory windows of the PCIe endpoint (R317). -/
inductive Bar where
  | bar0 | bar2 | bar4
  deriving DecidableEq, Repr

/-- The path on which a host packet arrives (R48). -/
inductive Path where
  | pcie
  | maint
  | ring (node : Fin 256)
  deriving DecidableEq, Repr

/-- The header of a host command (R33, R34, R37): what stands in the packet beside opcode and parameters.
`flags` is byte 1; EFFC stands exactly when `effc` is present. -/
structure Ctx where
  path    : Path
  session : Fin 256
  tag     : Tag
  flags   : Byte
  target  : BitVec 16
  effc    : Option DWord
  part    : BitVec 16
  deriving DecidableEq, Repr

/-- Fault of a received character (R230). -/
inductive LineFault where
  | framing | parity | break_
  deriving DecidableEq, Repr

/-- How a CAN attempt or a reception went wrong (R228). -/
inductive CanErr where
  | stuff | form | ack | bitRecessive | bitDominant | crc
  deriving DecidableEq, Repr

/-- Where in a frame an error was found: in its arbitration field, elsewhere at the arbitration rate, in the data phase (R222). -/
inductive CanPlace where
  | arbitration | nominal | dataPhase
  deriving DecidableEq, Repr

/-- How a transmit attempt on CAN ends (R219). Of an error: whether the channel saw a dominant bit while it sent its passive error
flag, and how often the standard's rules of dominant bits and flag errors add 8 more (R206, R222). -/
inductive CanEnd where
  | left (leaveNs : Nat)
  | arbLost
  | error (kind : CanErr) (place : CanPlace) (dominant : Bool) (eights : Nat)
  deriving DecidableEq, Repr

/-- What the far device answered to an ISDU (R254). -/
inductive IsduEnd where
  | ok (data : List Byte)
  | deviceError (code additional : Byte)
  deriving DecidableEq, Repr

/-- How an M-sequence of one master cycle ends (R252, R253). -/
inductive SeqEnd where
  /-- the reply's PD in, its validity, and the tick of the end of its last stop bit (R252) -/
  | ok (pdIn : List Byte) (pdValid : Bool) (stamp : Nat)
  | repeat_
  | failed
  deriving DecidableEq, Repr

/-- The phase step of a performance-level transition (R374). -/
inductive PlStep where
  | clocks | vcore
  deriving DecidableEq, Repr

/-- The commands: host opcodes first, in the table's order, then the hub's own events. -/
inductive Instr where
  -- group 0x00
  | nop (c : Ctx)
  | sessionOpen (c : Ctx) (nonce : DWord) (revMin revMax window resv1 : Byte) (lease resv2 : BitVec 16)
  | sessionClose (c : Ctx)
  | echo (c : Ctx) (data : List Byte)
  | getReply (c : Ctx) (tag : Tag)
  | getState (c : Ctx)
  | setEvents (c : Ctx) (mask : Word)
  | memRead (c : Ctx) (addr : DWord) (length : Word)
  | memWrite (c : Ctx) (addr : DWord) (group : Byte) (resv : BitVec 24) (data : List Byte)
  -- group 0x01
  | cfgStage (c : Ctx) (offset : Word) (data : List Byte)
  | cfgValidate (c : Ctx)
  | cfgActivate (c : Ctx)
  | cfgStatus (c : Ctx)
  | cfgRead (c : Ctx) (slot sect : Byte) (resv : BitVec 16) (offset length : Word)
  -- group 0x02
  | chEnable (c : Ctx)
  | chDisable (c : Ctx) (mode : Byte)
  | chReset (c : Ctx)
  | chRateDetect (c : Ctx) (timeoutMs : Word)
  | chSend (c : Ctx) (release : DWord) (length : BitVec 16) (data : List Byte)
  | chReceive (c : Ctx) (maxItems : BitVec 16)
  | chRelease (c : Ctx)
  | chStatus (c : Ctx)
  -- group 0x03
  | sigWrite (c : Ctx) (first : Word) (count resv : BitVec 16) (entries : List DWord)
  | sigRead (c : Ctx) (first : Word) (count resv : BitVec 16) (cycle : DWord)
  | mapChange (c : Ctx) (first : Word) (count resv : BitVec 16) (rules : List Byte)
  | mapStatus (c : Ctx)
  | subAdd (c : Ctx) (node resv : Byte) (count : BitVec 16) (remote loc : Word)
  | subRemove (c : Ctx) (node resv1 : Byte) (resv2 : BitVec 16) (loc : Word)
  -- group 0x04
  | txMbRead (c : Ctx) (slave func : Byte) (addr qty : BitVec 16)
  | txMbWrite (c : Ctx) (slave func : Byte) (addr qty : BitVec 16) (data : List Byte)
  | txMbRw (c : Ctx) (slave resv : Byte) (rAddr rQty wAddr wQty : BitVec 16) (data : List Byte)
  | txIolRead (c : Ctx) (index : BitVec 16) (subindex resv : Byte)
  | txIolWrite (c : Ctx) (index : BitVec 16) (subindex resv : Byte) (data : List Byte)
  | txCanReq (c : Ctx) (timeoutMs resv : BitVec 16) (respId respMask : Word) (frame : List Byte)
  | txPop (c : Ctx) (count : BitVec 16)
  | txPush (c : Ctx) (words : List DWord)
  | txReRead (c : Ctx) (first : Word) (count : BitVec 16)
  | txLock (c : Ctx) (holdMs : BitVec 16)
  | txUnlock (c : Ctx)
  -- group 0x05
  | leHalt (c : Ctx)
  | leLoad (c : Ctx) (first count : BitVec 16) (entries : List Byte)
  | leRestart (c : Ctx) (flags : Byte)
  | leGroupStart (c : Ctx) (mask : Word) (startTick : DWord)
  | leStatus (c : Ctx)
  | dlWrite (c : Ctx) (value mask : BitVec 16)
  | dlRead (c : Ctx)
  -- group 0x06
  | outSet (c : Ctx) (on : Byte)
  | outClear (c : Ctx)
  | outStatus (c : Ctx)
  | plSet (c : Ctx) (level : Byte)
  | sleepEnter (c : Ctx) (level : Byte)
  | pwrStatus (c : Ctx)
  -- group 0x07
  | timeGet (c : Ctx)
  | syncOutSet (c : Ctx) (first : DWord) (period width : Word)
  | stampRead (c : Ctx) (maxEntries : Byte)
  | peerDelayGet (c : Ctx)
  -- group 0x08
  | fltRead (c : Ctx) (first count : BitVec 16)
  | fltClear (c : Ctx) (source : BitVec 16)
  | fltInject (c : Ctx) (source : BitVec 16)
  | fltReactSet (c : Ctx) (source : BitVec 16) (mask : Byte)
  -- group 0x09
  | updBlock (c : Ctx) (component resv1 : Byte) (resv2 : BitVec 16) (offset : Word) (data : List Byte)
  | updCommit (c : Ctx) (component : Byte)
  | updConfirm (c : Ctx) (component : Byte)
  | updAbort (c : Ctx)
  | updStatus (c : Ctx)
  -- group 0x0A
  | idRead (c : Ctx)
  | tagRead (c : Ctx) (record : Byte)
  | tagWrite (c : Ctx) (record : Byte) (resv : BitVec 24) (content : List Byte)
  | tagLock (c : Ctx) (record : Byte)
  -- group 0x0B
  | ringStatus (c : Ctx)
  | lightListRead (c : Ctx)
  | spanAdmin (c : Ctx) (up : Byte)
  | ringBackupSet (c : Ctx) (node : Byte)
  | proofTakeover (c : Ctx) (cycles : Word)
  | unwrapHoldoffSet (c : Ctx) (ms : Word)
  -- command handling
  | effectiveCycleApply
  | multipartTimeout (session : Fin 256)
  | sessionLeaseLapse (session : Fin 256)
  | suspendedSessionFree (session : Fin 256)
  | cmdqSqTailWrite (value : Word)
  | cmdqCqHeadWrite (value : Word)
  | cmdqRingCfgWrite (value : Word)
  | submissionFetch (bytes : List Byte)
  | completionWrite
  | mntPointerWrite (pointer : Byte)
  | packetIn (bytes : List Byte) (repeatedStart : Bool)
  | outAck (seq : BitVec 16)
  | inClear (value : Byte)
  | i2cAddressMatch (addr : BitVec 7)
  -- registers and windows
  | csrWrite (requester : BitVec 16) (bar : Bar) (offset size : Nat) (value : DWord)
  | rxPop (ch : Fin 128) (size : Nat)
  | windowTxPush (ch : Fin 128) (word : DWord)
  | enginePop (eng : Fin 32) (size : Nat)
  | enginePush (eng : Fin 32) (word : Word)
  | canObjectHeadRead (ch : Fin 128) (obj : Fin 64)
  | canObjectEndRead (ch : Fin 128) (obj : Fin 64)
  | canLockTimeout (ch : Fin 128) (obj : Fin 64)
  | pciePushDrop
  | windowPushTimeout (session : Fin 256)
  | lockExpiry (ch : Fin 128)
  | lockWaitTimeout (ch : Fin 128)
  -- reset and start-up
  | rstCtlCold (key : Byte) (kind : Fin 4) (index : BitVec 7)
  | rstCtlWarm (key : Byte) (kind : Fin 4) (index : BitVec 7)
  | rstCtlService (key : Byte) (kind : Fin 4) (index : BitVec 7)
  | rstCtlBlock (key : Byte) (kind : Fin 4) (index : BitVec 7)
  | commandResetAssert
  | rstRecClr
  | rstRecModeWrite (mode : Bool)
  | powerOn (backupEmpty : Bool)
  /-- `us`: for how long the voltage stands there, and so for the temperature of THERMAL -/
  | brownOut (mv us : Nat)
  | vinOvervoltage (mv us : Nat)
  | vinStageOn (mv : Nat) (fetDeciC : Int)
  | vinStageLimit (entering : Bool)
  | vinTrip (fetDeciC : Int)
  | pwrgdRise
  | pwrgdFall (rails : Byte)
  | thermal (junctionDeciC : Int) (us : Nat)
  | porstN (lowNs : Nat)
  | wrstN (lowNs : Nat)
  | watchdog (unservicedUs : Nat)
  | critical (source : BitVec 16)
  | resetRelease (cause : Fin 16)
  | resetEnd
  | bootStep (verified : BitVec 4)
  | spanAllowanceExpiry (p : Port)
  | bootBeaconTimeout
  -- the cycle
  | firstCycle
  | cycleBoundary
  | publish
  | remoteGather
  | packAndClose
  | mapOverrun (stage : Fin 3) (firstUnfinished : Nat)
  | historyCopyDone
  | outputRelease
  | mbRoundOpen (ch : Fin 128)
  -- ring frames
  | ringFrameRx (p : Port) (bytes : List Byte) (rxTime : Nat) (part : RxPart)
  | outputFrameSend (o : Output) (txTime : Nat)
  | cycFrameRx
  | streamFrameRx (cls : Fin 5)
  | multicastReqRx
  | deliveryReportRx
  | multicastRoundEnd (item : Word)
  -- span training
  | trainRx
  | trainSend (p : Port)
  | trainingTimeout (p : Port)
  | fecLockTimeout (p : Port)
  | losRise (p : Port)
  | losFall (p : Port)
  | moduleInsert (p : Port) (page : Option (List Byte))
  | txfltRise (p : Port)
  | txfltHoldEnd (p : Port)
  | cageSupplyTrip (p : Port)
  | livenessLoss (p : Port)
  | keepMarkerSend (p : Port)
  | ringPcfgWrite (p : Port) (value : Word)
  -- ring time
  | beaconRx
  | holdoverEntry
  | pdelayReqSend (p : Port) (t1 : Nat)
  | pdelayReqRx (t3 : Nat)
  | pdelayRspRx
  | pdelayRspTimeout (p : Port)
  -- recovery
  | ackRx
  | ackTimer (src : Fin 256) (cls : Fin 5)
  | replayNoAdvance (dst : Fin 256) (cls : Fin 5)
  | gapTimeout (src : Fin 256) (cls : Fin 5) (group : Option (Fin 256))
  | wrapNoticeRx
  | spanReportRx
  | lightRx
  | lightSend
  | joinSend
  | joinRx
  | assignRx
  | assignWaitTimeout
  | unplannedRemoval (node : Fin 256)
  | unwrapHoldoffElapse (p : Port)
  | unwrapStart (p : Port)
  | drainRx
  | drainTimeout (p : Port) (cls : Fin 5)
  | masterLost
  | masterTakeover
  | masterHandBack (ready : Bool)
  | proofFail
  | beaconLost
  | wakeRx
  | pwrWakeTx (node : Byte)
  -- SYNC and snapshots
  | syncInEdge (ringNs : Nat)
  | ppsLost
  | syncOutPulse
  | timeSnapTake
  -- channels
  | chnCtlEnable (ch : Fin 128) (value : BitVec 4)
  | chnCtlDrain (ch : Fin 128) (value : BitVec 4)
  | chnCtlAbort (ch : Fin 128) (value : BitVec 4)
  | chnCtlReset (ch : Fin 128) (value : BitVec 4)
  | channelJoin (ch : Fin 128)
  | channelResetEnd (ch : Fin 128)
  | drainComplete (ch : Fin 128)
  | txItemComplete (ch : Fin 128) (leaveNs : Nat)
  | tatRelease (ch : Fin 128)
  | statusReportWrite (ch : Fin 128)
  | producerWriteResume (ch : Fin 128)
  | serialRateConfirm (ch : Fin 128) (rate : Nat)
  | rateDetectTimeout (ch : Fin 128)
  | canRateConfirm (ch : Fin 128) (nominal : Nat) (dataRate : Option Nat)
  /-- the characters from one idle to the next. `ticks`: for each, the tick of the end of its last bit at the ball (R169); `idle`: that of
  the end of the idle behind them; `fault`: the first character received with a fault, and which -/
  | serialFrameRx (ch : Fin 128) (bytes : List Byte) (ticks : List Nat) (idle : Nat) (fault : Option (Nat × LineFault))
  /-- `stamp`: the tick of the end of the sixth bit of its end of frame (R169, R213) -/
  | canFrameRx (ch : Fin 128) (record : List Byte) (stamp : Nat)
  | canAttemptEnd (ch : Fin 128) (how : CanEnd)
  | busOffRecovery (ch : Fin 128)
  | onceWindowEnd (ch : Fin 128)
  | canReqTimeout (ch : Fin 128)
  | mbRequestStart (ch : Fin 128)
  /-- `stamp`: the tick of its completion (R169) -/
  | mbReplyRx (ch : Fin 128) (bytes : List Byte) (gapOver15 : Bool) (stamp : Nat)
  | mbResponseTimeout (ch : Fin 128)
  | mbBroadcastEnd (ch : Fin 128)
  | iolPowerGood (ch : Fin 128)
  | iolPowerLost (ch : Fin 128)
  | iolWakeUp (ch : Fin 128)
  | iolComTryEnd (ch : Fin 128) (replied : Bool)
  | iolStartupDone (ch : Fin 128) (page : List Byte)
  | iolMSequence (ch : Fin 128) (how : SeqEnd)
  | isduComplete (ch : Fin 128) (how : IsduEnd)
  | isduTimeout (ch : Fin 128)
  | iolDeviceEvent (ch : Fin 128) (events : List (Byte × BitVec 16)) (stamp : Nat)
  | iolDiEdge (ch : Fin 128) (ballB : Bool) (level : Bool) (stamp : Nat)
  | iolDqOverload (ch : Fin 128)
  -- discrete lines and engines
  /-- the change stands at the ball since the instant of the stamp, for `heldNs` -/
  | discreteEdge (line : Fin 128) (level : Bool) (stampTick heldNs : Nat)
  /-- `loadMa` is what the load draws, without the limit; it has done so for `us`; `fetC` is the FET's temperature in °C -/
  | dlLineTrip (line : Fin 128) (loadMa us fetC : Nat)
  | dlLineTripClear (bank : Fin 8) (mask : BitVec 16)
  /-- the sum of the bank's output currents, and for how long it stands there -/
  | dlBankTrip (bank : Fin 8) (sumMa us : Nat)
  | dlBankTripClear (bank : Fin 8)
  | dlBankUv (bank : Fin 8) (low : Bool)
  | engineStart (eng : Fin 32)
  /-- `ns`: the ring time of the edge -/
  | engineStep (eng : Fin 32) (ns : Nat)
  | leCtlHalt (eng : Fin 32) (value : BitVec 4)
  | leCtlRestart (eng : Fin 32) (value : BitVec 4)
  | leCtlReset (eng : Fin 32) (value : BitVec 4)
  -- scrub and verify
  | scrubStep (contentGood : Bool)
  | imageVerify (image : Fin 9) (contentGood : Bool)
  -- outlets and power
  | outletStartOk (o : Fin 32)
  | outletOvercurrent (o : Fin 32) (ma : Nat)
  | tFltExpiry (o : Fin 32)
  | tStartExpiry (o : Fin 32)
  | outletTempTrip (o : Fin 32) (deciC : Int)
  | cooldownEnd (o : Fin 32)
  | tForgiveExpiry (o : Fin 32)
  | vfbUv (bank : Fin 4) (mv : Nat)
  | junctionTempHigh (deciC : Int)
  | plTransitionStep (step : PlStep)
  | sleepEntry
  | sleepPortsDown
  | wakeSequenceEnd (spanUp verifyOk : Bool)
  | pwrVinStatClr
  -- faults and update
  | injectedDetection (source : BitVec 16)
  | faultLogCommit
  | fltFfClear (group : Fin 11)
  | mapCfClear
  | trialExpiry
  | ownerLapse
  | componentStart
  | tagWordWrite (offset : Nat) (value : Word)
  -- ring, added rows
  | blockLock (p : Port) (peerFec : Bool)
  | moduleRemove (p : Port)
  | keepMarkerRx (p : Port) (node : Byte) (spanState : BitVec 4) (rev : BitVec 4) (missed : Nat)
  | clampEvent (ch : Fin 128) (ns : Nat)
  | lineGlitch (line : Fin 128) (heldNs : Nat)
  /-- `eights`: how often the standard's rules of dominant bits and flag errors add 8 to REC (R206, R222) -/
  | canReceiveError (ch : Fin 128) (kind : CanErr) (dataPhase : Bool) (eights : Nat)
  | rcRegisterRead (requester : BitVec 16) (bar : Bar) (offset size : Nat)
  | brsWaitExpiry (ch : Fin 128)
  deriving DecidableEq, Repr

end Sys2Proof
end

