-- ==== Sys2Proof/Decode.lean ====
section
/-! DEFINITION. The command that a word of the table spells. No row of the table gives its command any bits (a command reaches
the hub as a packet, a frame, a pin event or an instant of time), so no word spells one. -/

namespace Sys2Proof

/-- The command that the word `_w` of `_nbits` bits spells by the table: none, since no row gives bits. -/
def decodeTableWord (_nbits _w : Nat) : Option Instr := none

end Sys2Proof
end

