-- ==== Sys2Proof/Machine/Bits.lean ====
section
/-! DEFINITION. Bit fields, byte order (R3) and the check values with fixed or given parameters (R35, R36, R349, R350). -/

namespace Sys2Proof.Machine

open Sys2Proof

/-- `n` little-endian bytes of `v` (R3). -/
def leBytes : Nat → Nat → List Byte
  | 0, _ => []
  | n + 1, v => BitVec.ofNat 8 v :: leBytes n (v / 256)

/-- The number that little-endian bytes spell (R3). -/
def leVal : List Byte → Nat
  | [] => 0
  | b :: t => b.toNat + 256 * leVal t

/-- Bytes `off` to `off + n − 1`. -/
def slice (bs : List Byte) (off n : Nat) : List Byte := (bs.drop off).take n

/-- The little-endian field of `n` bytes at `off`. -/
def rd (bs : List Byte) (off n : Nat) : Nat := leVal (slice bs off n)

/-- Bits `[lo + w − 1 : lo]` of `v`. -/
def bits (v lo w : Nat) : Nat := (v >>> lo) % 2 ^ w

/-- Bit `i` of `v`. -/
def bit (v i : Nat) : Bool := (v >>> i) % 2 == 1

/-- `v` with bits `[lo + w − 1 : lo]` replaced by `x`. -/
def setBits (v lo w x : Nat) : Nat := v - (bits v lo w) * 2 ^ lo + (x % 2 ^ w) * 2 ^ lo

/-- 1 for true, 0 for false. -/
def b2n (b : Bool) : Nat := if b then 1 else 0

/-- The signed number a `w`-bit pattern spells. -/
def toSigned (w v : Nat) : Int := if v % 2 ^ w < 2 ^ (w - 1) then (v % 2 ^ w : Nat) else (v % 2 ^ w : Nat) - (2 ^ w : Nat)

/-- The `w`-bit two's complement pattern of `v`. -/
def ofSigned (w : Nat) (v : Int) : Nat := (v % (2 ^ w : Nat)).toNat

/-- `l` with its `i`-th element replaced. -/
def setAt {α : Type} : List α → Nat → α → List α
  | [], _, _ => []
  | _ :: t, 0, v => v :: t
  | a :: t, i + 1, v => a :: setAt t i v

/-- `bs` with the bytes from `off` on replaced by `new`; bytes beyond the end are not written. -/
def overwrite (bs : List Byte) (off : Nat) (new : List Byte) : List Byte :=
  bs.take off ++ (new.take (bs.length - off)) ++ bs.drop (off + new.length)

/-- `n` zero bytes. -/
def zeros (n : Nat) : List Byte := List.replicate n 0

/-- `bs` padded with zero bytes to `n`. -/
def padTo (n : Nat) (bs : List Byte) : List Byte := bs ++ zeros (n - bs.length)

/-- The numbers `a` to `a + n − 1`. -/
def upFrom (a n : Nat) : List Nat := (List.range n).map (a + ·)

/-- ceil(a / b). -/
def ceilDiv (a b : Nat) : Nat := (a + b - 1) / b

/-- One bit of R349's loop: `fb` is the message bit. -/
def crcBit (width poly reg : Nat) (d : Bool) : Nat :=
  let top := bit reg (width - 1)
  let sh := (reg * 2) % 2 ^ width
  if top != d then Nat.xor sh poly else sh

/-- One byte of R349's loop, most significant bit first. -/
def crcByte (width poly reg d : Nat) : Nat :=
  [7, 6, 5, 4, 3, 2, 1, 0].foldl (fun r i => crcBit width poly r (bit d i)) reg

/-- The low `w` bits of `v` in reverse order (reflect8, reflect_width of R349). -/
def reflect (w v : Nat) : Nat :=
  (List.range w).foldl (fun acc i => acc * 2 + bits v i 1) 0

/-- A parameter set of a check-value unit (R348). -/
structure CrcParams where
  width  : Nat
  poly   : Nat
  init   : Nat
  refin  : Bool
  refout : Bool
  xorout : Nat
  deriving DecidableEq, Repr

/-- The check value of R349. -/
def crcCompute (p : CrcParams) (bs : List Byte) : Nat :=
  let reg := bs.foldl (fun r d => crcByte p.width p.poly r (if p.refin then reflect 8 d.toNat else d.toNat)) p.init
  Nat.xor (if p.refout then reflect p.width reg else reg) p.xorout

/-- Validity of a parameter set (R348). -/
def CrcParams.valid (p : CrcParams) : Bool :=
  decide (1 ≤ p.width) && decide (p.width ≤ 64) && decide (p.poly < 2 ^ p.width) && decide (p.init < 2 ^ p.width)
    && decide (p.xorout < 2 ^ p.width) && bit p.poly 0

/-- The header CRC-16 (R35). -/
def crc16Params : CrcParams := ⟨16, 0x1021, 0xFFFF, false, false, 0⟩

/-- The CRC-32C (R36). -/
def crc32cParams : CrcParams := ⟨32, 0x1EDC6F41, 0xFFFFFFFF, true, true, 0xFFFFFFFF⟩

/-- The Modbus CRC-16 (R236). -/
def modbusParams : CrcParams := ⟨16, 0x8005, 0xFFFF, true, true, 0⟩

/-- Header CRC-16 of R35. -/
def crc16 (bs : List Byte) : Nat := crcCompute crc16Params bs

/-- CRC-32C of R36. -/
def crc32c (bs : List Byte) : Nat := crcCompute crc32cParams bs

/-- Modbus CRC of R236. -/
def crcModbus (bs : List Byte) : Nat := crcCompute modbusParams bs

end Sys2Proof.Machine
end

