-- ==== Sys2Proof/Machine/State.lean ====
section
/-! DEFINITION. The state of one hub as plain data: every register, queue, memory, mode and timer the spec gives it, the
model's own fields (named so), the reasons a step can stop, and the state right after a power-on reset. -/

namespace Sys2Proof.Machine

open Sys2Proof

/-- Why a step stops with a fault. The spec gives every input of the hub an effect, a refusal status or a discard, so no
meaning of this model raises one. -/
inductive Fault where
  /-- Raised by no meaning: kept so that the type is inhabited; safe, since nothing answers it. -/
  | unused
  deriving DecidableEq, Repr

/-- Why a command has no meaning. -/
inductive Refusal where
  /-- Raised by the dispatcher alone, for a command without a meaning in this model; safe: nothing is claimed of it. -/
  | notModelled (mnemonic : String)
  deriving DecidableEq, Repr

/-- Status codes (R56), in the order of their values. -/
inductive Status where
  | ok | notReady | busy | tooLate | badCrc | badLength | unknownOpcode | version | denied | locked | aborted | lost
  | timeout | noAck | expired | engineActive | queueFull | farError | budget
  deriving DecidableEq, Repr

/-- Hub states (R15). -/
inductive HubState where
  | off | boot | held | run | sleep | isolated
  deriving DecidableEq, Repr

/-- Reset reaches, widest first (R9, R386). -/
inductive Reach where
  | cold | warm | service | block
  deriving DecidableEq, Repr

/-! ## Command packets, sessions and host paths (R32 to R64, R303 to R321) -/

/-- Where an accepted command stands (R42 to R46). -/
inductive Phase where
  /-- accepted, not started: an earlier command of its session has not taken effect -/
  | waiting
  /-- EFFC command held until the boundary of its cycle, with the results that its acceptance gave (R44, R279) -/
  | heldUntil (cycle : Nat) (results : List Byte)
  /-- posted write of which some words stand in the target; the rest waits for room (R316) -/
  | pushing (words : Nat)
  /-- started; the reply follows a later event -/
  | issued
  /-- complete; the reply waits behind earlier ones of the session (R42) -/
  | ready (status : Status) (results : List Byte)
  deriving DecidableEq, Repr

/-- A command in flight (R42): its header, parameters, processing tick and the revision it was accepted under. -/
structure Cmd where
  path    : Path
  session : Nat
  tag     : Tag
  opcode  : Nat
  flags   : Byte
  target  : Nat
  effc    : Option DWord
  params  : List Byte
  tick    : Nat
  up      : Nat
  rev     : Nat
  phase   : Phase
  /-- repeats that wait for the reply (R40) -/
  repeats : Nat
  /-- the effect took place (R42): a transaction once issued, any other command once applied -/
  effected : Bool
  deriving DecidableEq, Repr

/-- A multi-part command being received (R45). -/
structure Assembly where
  cmd     : Cmd
  next    : Nat
  lastUp  : Nat
  deriving DecidableEq, Repr

/-- A retained reply (R41): the last 256, oldest first. -/
structure Reply where
  session : Nat
  tag     : Tag
  opcode  : Nat
  status  : Status
  results : List Byte
  /-- nonce of the session it belongs to, or of the open it answers -/
  nonce   : DWord
  /-- the reply of a SESSION_OPEN (R48) -/
  opening : Bool
  /-- kept in MRAM with the session record (R53) -/
  inMram  : Bool
  deriving DecidableEq, Repr

/-- An undelivered event of a session (R54, R55), with its place in the order of production (R64). -/
structure Event where
  code   : Nat
  seq    : BitVec 16
  loss   : Bool
  params : List Byte
  made   : Nat
  deriving DecidableEq, Repr

/-- An open or suspended session (R48 to R55). -/
structure Session where
  num       : Nat
  nonce     : DWord
  path      : Path
  rev       : Nat
  window    : Nat
  lease     : Nat
  expected  : Tag
  lastUp    : Nat
  mask      : Word
  evSeq     : BitVec 16
  events    : List Event
  lossPend  : Bool
  suspended : Bool
  abortedCount : Nat
  firstAborted : Tag
  deriving DecidableEq, Repr

/-- A command that stays in flight until its reply is sent (R42): session, tag, opcode. -/
structure Owed where
  session : Nat
  tag     : Tag
  opcode  : Nat
  deriving DecidableEq, Repr

/-- A packet on its way out to a host path: its session, the command in flight that its sending answers (R42), its bytes, its
place in the order of production (R64), and whether it was counted as held for room (R109). -/
structure OutPkt where
  path    : Path
  session : Nat
  frees   : Option Owed
  bytes   : List Byte
  made    : Nat
  counted : Bool
  deriving DecidableEq, Repr

/-- A channel lock of a session (R308): holder, expiry tick, and the tick of the first grant of the unbroken hold. -/
structure Lock where
  session : Nat
  path    : Path
  expiry  : Nat
  first   : Nat
  deriving DecidableEq, Repr

/-- A posted PCIe window write held for room (R319): target channel or engine, word, arrival. -/
structure HeldPush where
  engine : Bool
  unit   : Nat
  word   : DWord
  up     : Nat
  requester : Nat
  deriving DecidableEq, Repr

/-- The command interpreter and its host paths. -/
structure CmdState where
  sessions  : List Session := []
  inflight  : List Cmd := []
  partials  : List Assembly := []
  retained  : List Reply := []
  /-- replies that wait for a completion slot (R60) or for room in the maintenance port's queue (R64), oldest first -/
  out       : List OutPkt := []
  /-- replies and events produced so far: the order in which they enter an outbound queue (R64) -/
  made      : Nat := 0
  /-- content of the completion slots in host memory, as last written (the model's own view of host memory) -/
  cqSlots   : Sparse (List Byte) := []
  /-- maintenance port outbound queue with sequence numbers (R62, R64) -/
  mntOut    : List (BitVec 16 × List Byte) := []
  mntSeq    : BitVec 16 := 0
  mntPtr    : Byte := 0
  mntInBad  : Bool := false
  /-- MSI-X messages sent, by vector (the model's own observation of the PCIe link) -/
  msix      : Sparse Nat := []
  locks     : Sparse Lock := []
  heldPushes : List HeldPush := []
  /-- data of the last PCIe read completion (the model's own observation of the PCIe link) -/
  barData   : List Byte := []
  /-- command reset waiting for its 1 ms (R390): reach, assertion tick, session and tag of the write -/
  pendingReset : Option (Reach × Nat) := none
  /-- own-time tick in which the hub last left BOOT, for the 60 s of R53 -/
  leftBootUp : Nat := 0
  deriving DecidableEq, Repr

/-! ## Ring ports and links (R65 to R100) -/

/-- A ring frame (R79) with what the switch keeps of it: the port it came by, its corrected receive time and tick (R162, R169),
the bank it matched with this hub's number and membership there (R115), its cells and cut-through mark (R102), poison (R113),
whether it may be chosen (R111), the port by which its rest still arrives (R104), the first bytes of its packet (R134), and the
command in flight that its sending answers (R42, R109). This hub's own packets at PCIE carry `src` 0. -/
structure Frame where
  cls     : Nat
  dst     : Nat
  src     : Nat
  first   : Bool
  last    : Bool
  replay  : Bool
  twin    : Bool
  seq     : Word
  gen     : BitVec 16
  mgroup  : Nat
  ccw     : Bool
  wrapped : Bool
  hops    : Nat
  stampId : BitVec 16
  frag    : Nat
  cycle   : Nat
  payload : List Byte
  ingress : Output
  rxTime  : Nat
  rxTick  : Nat
  bankPrev : Bool
  bankNode : Nat
  member  : Bool
  cells   : List Nat
  cut     : Bool
  poison  : Bool
  eligible : Bool
  arriving : Option Port
  head    : List Byte
  frees   : Option Owed
  deriving DecidableEq, Repr

/-- A frame whose header was taken and whose rest still arrives: the frame, what came of its payload with the header, whether it is
removed here at its source (R82), and whether its CYC content comes here (R105). -/
structure Arriving where
  frame   : Frame
  got     : List Byte
  removed : Bool
  cyc     : Bool
  deriving DecidableEq, Repr

/-- Span states (R72). -/
inductive SpanState where
  | down | locking | training | up | refused | miswired | adminDown | foreign
  deriving DecidableEq, Repr

/-- The content of the last TRAIN received that R73 compares. -/
structure TrainInfo where
  port   : Nat
  revMin : Nat
  revMax : Nat
  ringId : Nat
  deriving DecidableEq, Repr

/-- The peer-delay engine of a port (R160, R161), times in 2^-16 ns. -/
structure PeerDelay where
  seq       : BitVec 16 := 0
  t1        : Option Nat := none
  sentUp    : Nat := 0
  samples   : List Nat := []
  accepted  : Nat := 0
  outliers  : Nat := 0
  deriving DecidableEq, Repr

/-- One ring port. -/
structure PortSt where
  span       : SpanState := .adminDown
  rev        : Nat := 0
  fecOn      : Bool := false
  txFec      : Bool := true
  modPresent : Bool := false
  los        : Bool := true
  txFault    : Bool := false
  /-- peer of the last TRAIN, and as its keep markers show it while UP (R71, R84) -/
  peerNode   : Nat := 0
  keepNode   : Nat := 0
  peerPort   : Nat := 0
  peerUid    : DWord := 0
  /-- the peer's TRAIN shows it as ring master (R84, R144) -/
  peerMasterInit : Bool := false
  /-- A0h page bytes, 24 words (R67) -/
  modId      : List Byte := []
  train      : Option TrainInfo := none
  consistent : Nat := 0
  /-- own-time tick in which the present attempt started (R75) -/
  lockUp     : Nat := 0
  fecFailUp  : Nat := 0
  /-- TXDIS is high until this own-time tick (R68) -/
  txdisUntil : Option Nat := none
  cageOff    : Bool := false
  cageUp     : Nat := 0
  /-- port block reset: back to DOWN at this own-time tick (R387) -/
  blockUntil : Option Nat := none
  keepCount  : Byte := 0
  /-- keep markers sent (the model's own observation): last D1 to D3 -/
  keepSent   : Option (Byte × Byte × Byte) := none
  peerUp     : Bool := false
  /-- start of the unwrap hold-off count (R138) -/
  holdUp     : Option Nat := none
  /-- planned unwrap cycle (R138) -/
  unwrapAt   : Option Nat := none
  /-- 100,000 ticks since step 4 passed without UP (R396) -/
  allowanceOver : Bool := false
  /-- the span has been unwrapped since it came UP (R138) -/
  unwrapDone : Bool := false
  /-- the frame whose rest still arrives (R104) -/
  rx         : Option Arriving := none
  /-- classes whose DRAIN has come, the tick from which the port drains, and the copies held meanwhile with their outputs (R139) -/
  drainDone  : List Nat := []
  drainTick  : Nat := 0
  drainHeld  : List (Output × Frame) := []
  pd         : PeerDelay := {}
  deriving DecidableEq, Repr

/-- One entry of the light list (R91). -/
structure LightEntry where
  node    : Nat
  flags   : Byte
  state   : Byte
  role    : Byte
  uid     : DWord
  east    : Byte
  west    : Byte
  eastPeer : Byte
  westPeer : Byte
  code    : Byte
  step    : Byte
  cfgCrc  : Word
  members : List Byte
  grant   : Word
  deriving DecidableEq, Repr

/-- The light list (R91). -/
structure LightList where
  gen       : BitVec 16
  master    : Byte
  backup    : Byte
  ringId    : Word
  flags     : Byte
  n         : Word
  effective : DWord
  cycUsed   : Word
  cycLimit  : Word
  entries   : List LightEntry
  deriving DecidableEq, Repr

/-- A JOIN as the master received it (R85). -/
structure JoinReq where
  cfgNode : Nat
  eastNode : Nat
  westNode : Nat
  uid     : DWord
  charge  : Nat
  cfgCrc  : Word
  code    : Byte
  step    : Byte
  deriving DecidableEq, Repr

/-- An ASSIGN addressed to this hub that takes effect at a cycle (R87). -/
structure AssignPend where
  node  : Nat
  reason : Nat
  grant : Nat
  cycle : Nat
  deriving DecidableEq, Repr

/-- A subscription request of another node that waits for the ASSIGN of a larger charge (R96): requester, its session and
tag, range, own-time tick, effective cycle. -/
structure PubWait where
  node    : Nat
  session : Nat
  tag     : Tag
  first   : Nat
  count   : Nat
  up      : Nat
  effc    : Option Nat
  deriving DecidableEq, Repr

/-- Ring link state beyond the registers. -/
structure RingState where
  east      : PortSt := {}
  west      : PortSt := {}
  node      : Nat := 0
  light     : Option LightList := none
  /-- LIGHT fragments held for an incomplete generation (R90): total, fragments -/
  fragments : List (Nat × Nat × List Byte) := []
  /-- complete generation waiting for its boundary (R90) -/
  nextLight : Option LightList := none
  assign    : Option AssignPend := none
  joinReason : Nat := 0
  grant     : Nat := 0
  /-- CYC charge requested in the last JOIN (R85) -/
  charge    : Nat := 0
  pubWaits  : List PubWait := []
  joinUp    : Nat := 0
  joinSent  : Bool := false
  /-- an ASSIGN of this hub's unique ID has come (R85) -/
  answered  : Bool := false
  /-- master: last time each absent UNPLANNED node was present, in own ticks (R92) -/
  absentSince : Sparse Nat := []
  lightSentUp : Nat := 0
  /-- source of the last accepted beacon: the master while no light list is held -/
  beaconSrc : Nat := 0
  /-- master: spans reported DOWN, as (reporter, peer) (R92, R143) -/
  spanDown  : List (Nat × Nat) := []
  deriving DecidableEq, Repr

/-! ## Switch (R101 to R124) and recovery (R125 to R150) -/

/-- A replay-buffer copy (R131, R133). -/
structure Copy where
  frame   : Frame
  sentUp  : Nat
  sends   : Nat
  deriving DecidableEq, Repr

/-- A hold-back state of a received stream (R135), with its acknowledgement duty (R132). -/
structure HoldBack where
  src      : Nat
  dst      : Nat
  group    : Option Nat
  cls      : Nat
  expected : Word
  held     : List Frame
  gapUp    : Nat
  uncovered : Nat
  timerUp  : Nat
  deriving DecidableEq, Repr

/-- A CYC twin window (R120): highest SEQ accepted, the mask of accepted SEQs, and for R121 the payloads last accepted. -/
structure TwinWin where
  src   : Nat
  group : Nat
  high  : Word
  mask  : DWord
  kept  : List (Word × Nat × Word × Word)
  deriving DecidableEq, Repr

/-- A multicast item this hub sent and collects reports for (R119). -/
structure McItem where
  id       : Word
  session  : Nat
  tag      : Tag
  expected : List Nat
  reports  : List (Nat × Nat)
  /-- destinations on the way to which the item was lost -/
  lost     : List Nat
  sentUp   : Nat
  rounds   : Nat
  payload  : List Byte
  deriving DecidableEq, Repr

/-- Table bank of the switch (R114). -/
structure Bank where
  gen     : BitVec 16 := 0
  node    : Nat := 0
  members : List Nat := [0]
  deriving DecidableEq, Repr

structure SwState where
  /-- queues by output·8 + class (R104), oldest frame first -/
  queues   : Sparse (List Frame) := []
  /-- limits and reserves waiting for the next boundary (R107): address and value -/
  pendingCfg : List (Nat × Word) := []
  deficit  : Sparse Nat := []
  /-- CYC bytes sent per output in the current cycle (R110) -/
  cycBytes : Sparse Nat := []
  current  : Bank := {}
  previous : Bank := {}
  twins    : List TwinWin := []
  /-- statuses of the last item IDs, by source (R118) -/
  mcDone   : Sparse (List (Word × Nat)) := []
  mcItems  : List McItem := []
  mcNext   : Word := 1
  /-- next SEQ by (destination or group, class), keyed class·65536 + group flag·256 + number (R79) -/
  nextSeq  : Sparse Word := []
  /-- originated frames held for queue or replay room (R109, R131) -/
  heldOut  : List Frame := []
  replayCw : List Copy := []
  replayCcw : List Copy := []
  /-- own-time tick of the last advance of NEXT, by stream key (R133) -/
  advanceUp : Sparse Nat := []
  holdBack : List HoldBack := []
  /-- delivered frames, in order, waiting for the island that takes them: REQ, RSP, BULK -/
  delivered : List Frame := []
  eastWrap : Bool := false
  westWrap : Bool := false
  eastDrain : Bool := false
  westDrain : Bool := false
  /-- lowest cell never used, and the cells freed since, in the order in which the free list links them (R102) -/
  nextCell : Nat := 0
  freed    : List Nat := []
  /-- checked CYC copies for this hub that stand before the twin window (R120) -/
  cycIn    : List Frame := []
  /-- last frame sent on each output, with its transmit time (the model's own observation of the wire) -/
  wire     : Sparse Frame := []
  deriving DecidableEq, Repr

/-- What the backup keeps in MRAM (R142): the light list, the ring epoch and N, the last beacon's cycle and ring time, and the
master's frequency offset. -/
structure SavedRing where
  light : Option LightList := none
  n     : Nat := 0
  epoch : DWord := 0
  cycle : Nat := 0
  time  : Nat := 0
  rate  : Int := 0
  deriving DecidableEq, Repr

/-- Ring master and backup (R142 to R147). -/
structure MasterState where
  /-- 0 none, 1 master, 2 backup on standby, 3 backup acting -/
  role      : Nat := 0
  proof     : Bool := false
  proofCycles : Nat := 0
  proofStartCycle : Nat := 0
  proofUp   : Nat := 0
  stopped   : Bool := false
  lostUp    : Option Nat := none
  takeoverMs : Nat := 0
  /-- cycle of the first beacon of the acting backup (R146) -/
  firstBeacon : Option Nat := none
  /-- the old master has joined again since the backup acts (R145) -/
  returned  : Bool := false
  saved     : SavedRing := {}
  handBackAt : Option Nat := none
  backup    : Nat := 0
  deriving DecidableEq, Repr

/-! ## Time (R151 to R176, R466) -/

structure TimeState where
  /-- the hub's own 500 ns counter (R364), which runs on through every reset while power holds -/
  up       : Nat := 0
  seconds  : Nat := 0
  ns       : Nat := 0
  frac     : Nat := 0
  holds    : Bool := false
  /-- in a WARM or COLD reset: the shadow from which the reset record is timed still runs (R389, R402) -/
  shadow   : Bool := false
  locked   : Bool := false
  holdover : Bool := false
  source   : Nat := 0
  ppsLock  : Bool := false
  rate     : Int := 0
  rates    : List Int := []
  offset   : Int := 0
  good     : Nat := 0
  lastBeaconUp : Nat := 0
  /-- cycle of the last accepted beacon; cycles of every one accepted (R159); ring ns at which the last stood at the balls, its RATE,
  and whether a backup sent it (R142, R144) -/
  lastBeacon : Option Nat := none
  accepted : List Nat := []
  lastRef  : Nat := 0
  lastRate : Int := 0
  lastBackup : Bool := false
  /-- EPOCH_LABEL of the last accepted beacon (R157) -/
  label    : DWord := 0
  /-- cycle boundaries since a beacon was accepted (R143, R154) -/
  missed   : Nat := 0
  /-- own-time tick of the first span UP of this BOOT (R396) -/
  firstUpUp : Option Nat := none
  /-- stamp queues: ID and ring ns (R165), and losses since the last STAMP_READ -/
  stampsEast : List (BitVec 16 × Nat) := []
  stampsWest : List (BitVec 16 × Nat) := []
  lostEast : Nat := 0
  lostWest : Nat := 0
  syncIn   : Nat := 0
  syncInAccepted : Option Nat := none
  syncInGood : Nat := 0
  /-- SYNC_OUT: next edge in ring ns, and the ball's level (none: high-impedance) (R168) -/
  syncNext : Option Nat := none
  syncBall : Option Bool := none
  snapSec  : Nat := 0
  snapNs   : Nat := 0
  snapFrac : Nat := 0
  /-- ring time was stepped since the last cycle ran (R155) -/
  stepped  : Bool := false
  deriving DecidableEq, Repr

/-! ## Channels (R177 to R260) -/

/-- Channel states (R184). -/
inductive ChState where
  | off | disabled | joining | active | alone | detect | draining | partner
  deriving DecidableEq, Repr

/-- Who queued a TX item: a session's command, a push, the maps, or the transaction service. -/
inductive Producer where
  | send (session : Nat) (tag : Tag)
  | push
  | map
  | txn (session : Nat) (tag : Tag)
  deriving DecidableEq, Repr

/-- One TX item (R192): release ring ns if timed, data bytes, item sequence, producer. -/
structure TxItem where
  seq      : Nat
  release  : Option Nat
  data     : List Byte
  producer : Producer
  /-- a defect found while pushed word by word (R193): reported in position, never sent -/
  bad      : Option Status
  attempts : Nat
  deriving DecidableEq, Repr

/-- A pending or queued STATUS word (R192, R197). -/
structure StatusWord where
  status : Status
  first  : Nat
  count  : Nat
  deriving DecidableEq, Repr

/-- Main buffer, shadow and readers of a CAN BUFFER object (R216, R217). -/
structure MoBuf where
  main    : Option (Nat × List Byte) := none
  new_    : Bool := false
  shadow  : Option (Nat × List Byte) := none
  ovr     : Bool := false
  /-- own-time ticks at which the present locks were taken -/
  locks   : List Nat := []
  replaced : Nat := 0
  overruns : Nat := 0
  deriving DecidableEq, Repr

/-- An outstanding TX_CAN_REQ (R304). -/
structure CanReq where
  session : Nat
  tag     : Tag
  respId  : Nat
  respMask : Nat
  timeoutMs : Nat
  itemSeq : Nat
  left    : Bool
  startUp : Nat
  deriving DecidableEq, Repr

/-- The CAN controller of a channel (R206 to R228). -/
structure CanState where
  tec     : Nat := 0
  rec_    : Nat := 0
  busOff  : Bool := false
  lec     : Nat := 0
  dlec    : Nat := 0
  ackRun  : Nat := 0
  objects : Sparse MoBuf := []
  reqs    : List CanReq := []
  /-- the item on the bus: its sequence -/
  onBus   : Option Nat := none
  /-- the bus is not idle before this instant, on the scale of `nsNow` (R219, R221) -/
  idleFrom : Nat := 0
  nominalFound : Option Nat := none
  nominalUp : Nat := 0
  brsSeen : Bool := false
  deriving DecidableEq, Repr

/-- What runs on the Modbus line (R241, R244): a poll entry or a transaction. -/
inductive MbUser where
  | poll (entry : Nat)
  | txn (session : Nat) (tag : Tag)
  deriving DecidableEq, Repr

/-- An entry of a poll round (R244, R246): its index, the data it writes as its slots stood in cycle k − 1, and whether one of them was
not VALID. -/
structure RoundEntry where
  entry : Nat
  data  : List Byte
  held  : Bool
  deriving DecidableEq, Repr

/-- One Modbus exchange on the wire. -/
structure MbExchange where
  user    : MbUser
  slave   : Nat
  func    : Nat
  request : List Byte
  addr    : Nat
  qty     : Nat
  timeoutMs : Nat
  retries : Nat
  startUp : Nat
  broadcast : Bool
  /-- the request has been sent and its reply is awaited (false: a retry waits for t3.5 of idle) -/
  sent    : Bool
  deriving DecidableEq, Repr

/-- The newest outcome of a poll entry (R245): stamp tick, status, and the newest OK data. -/
structure MbOutcome where
  stamp  : Nat
  status : Status
  values : List Nat
  /-- the outcome before this one, for a gather between the two stamps (R245) -/
  before : Option (Nat × Status × List Nat)
  deriving DecidableEq, Repr

structure MbState where
  /-- entries of the running round not yet started -/
  round    : List RoundEntry := []
  exchange : Option MbExchange := none
  /-- transactions waiting, in order: session and tag -/
  waiting  : List (Nat × Tag) := []
  pollLast : Bool := false
  outcomes : Sparse MbOutcome := []
  roundCycle : Nat := 0
  deriving DecidableEq, Repr

/-- IO-Link port states (R259). -/
inductive IolSt where
  | inactive | noPower | wake | noDevice | startup | preoperate | operate | compFault | sioDi | sioDq | dqOverload
  deriving DecidableEq, Repr

structure IolState where
  st       : IolSt := .inactive
  com      : Nat := 0
  rev      : Nat := 0
  cycle    : Nat := 0
  vidRead  : Nat := 0
  didRead  : Nat := 0
  wakes    : Nat := 0
  tryCom   : Nat := 0
  seqUp    : Nat := 0
  repeats  : Nat := 0
  failed   : Nat := 0
  pdIn     : List Byte := []
  pdInTick : Option Nat := none
  pdInOk   : Bool := false
  /-- the PD in before this one, for a gather between the two stamps (R252): stamp, bytes, valid -/
  pdBefore : Option (Nat × List Byte × Bool) := none
  pdOut    : List Byte := []
  pdOutOk  : Bool := true
  /-- ISDUs waiting, oldest first: session, tag; the head runs once issued -/
  isdu     : List (Nat × Tag) := []
  isduRuns : Bool := false
  isduUp   : Nat := 0
  unconfirmed : Nat := 0
  di       : Bool := false
  diB      : Bool := false
  /-- the DI levels before the edges of their last edge tick (R256, R271) -/
  diWas    : Bool := false
  diTick   : Nat := 0
  diBWas   : Bool := false
  diBTick  : Nat := 0
  dq       : Bool := false
  deriving DecidableEq, Repr

/-- A rate detection running on a channel (R201, R226). -/
structure Detect where
  session : Nat
  tag     : Tag
  startUp : Nat
  timeoutMs : Nat
  deriving DecidableEq, Repr

/-- One channel. -/
structure Chan where
  st       : ChState := .off
  busIdle  : Bool := false
  /-- the channel counts as enabled for R190 step 6 -/
  enabled  : Bool := false
  txq      : List TxItem := []
  /-- the item now leaving, by sequence -/
  onWire   : Option Nat := none
  /-- the line is not ready before this instant, on the scale of `nsNow`: TAIL and GUARD of the last item (R231) -/
  turnUntil : Nat := 0
  /-- RX words, oldest first (R192) -/
  rxq      : List DWord := []
  pendRpt  : Option StatusWord := none
  /-- failures that the pending word could not take, oldest first (R198; log entry 99) -/
  rptWaits : List StatusWord := []
  txSeq    : Nat := 0
  rxSeq    : Nat := 0
  joinTick : Nat := 0
  rateFound : Nat := 0
  popSeq   : Nat := 0
  /-- the last 64 words taken: sequence and word (R314) -/
  history  : List (Nat × DWord) := []
  detect   : Option Detect := none
  /-- session and tag of a CH_ENABLE that waits for its join, with its processing time (R187) -/
  enabling : Option (Nat × Tag × Nat) := none
  /-- session and tag of each CH_DISABLE that waits for the drain (R188) -/
  draining : List (Nat × Tag) := []
  /-- items aborted by the CH_DISABLE that waits for the frame on the bus (R188) -/
  drainAborted : Nat := 0
  /-- the frame on the bus is the last of a CH_DISABLE mode 1 (R188) -/
  aborting : Bool := false
  /-- end of a block reset (R190): own-time tick at the latest -/
  resetting : Bool := false
  /-- words of an item pushed word by word, not yet ended (R316) -/
  partPush : List DWord := []
  /-- words of the present item are discarded up to END (R316) -/
  dropPush : Bool := false
  /-- a service producer is held for want of a cell (R195): item and its session, tag, time -/
  stalled  : List (TxItem × Nat) := []
  aliveTx  : Byte := 0
  aliveRx  : Byte := 0
  aliveSync : Bool := false
  /-- bytes of the last item as they started, on CAN its record (the model's own observation of the line) -/
  lastSent : List Byte := []
  /-- transactions blocked by another session's lock (R309): session, tag -/
  lockWaits : List (Nat × Tag) := []
  can      : CanState := {}
  mb       : MbState := {}
  iol      : IolState := {}
  deriving DecidableEq, Repr

/-! ## Process image (R261 to R302) -/

/-- Phase of the running cycle (R275). -/
inductive CyclePhase where
  | idle | stageA | stageB | stageC | packed
  deriving DecidableEq, Repr

/-- A host write of a slot that waits for its gather (R266): the slot, its entry, the tick in which its command was processed, and the
command's session. -/
structure HostWrite where
  slot    : Nat
  entry   : DWord
  tick    : Nat
  session : Nat
  deriving DecidableEq, Repr

/-- Carried state of one lane of a rule (R268): previous input, count, delay line (newest first). -/
structure LaneState where
  prev  : Bool
  count : Int
  line  : List (Nat × Nat × Nat)
  deriving DecidableEq, Repr

/-- Carried state of one lane in pass 2 (R290): previous input, coded count, coded line of values and statuses. -/
structure CodedLane where
  prev  : Bool
  count : Int
  line  : List (Int × Nat)
  deriving DecidableEq, Repr

/-- A subscription (R281). -/
structure Subscr where
  node   : Nat
  remote : Nat
  local_ : Nat
  count  : Nat
  deriving DecidableEq, Repr

/-- A source payload as a gather took it: bytes, receive tick (none: never). -/
structure Snap where
  desc  : Nat
  mask  : Nat
  mtch  : Nat
  bytes : List Byte
  tick  : Option Nat
  /-- the source gives its own status rather than an age (R271): code -/
  given : Option Nat
  deriving DecidableEq, Repr

/-- A change of map or subscriptions accepted for a cycle (R279): rule bytes by index, or a subscription. -/
inductive Change where
  | rules (session : Nat) (tag : Tag) (cycle : Nat) (first : Nat) (bytes : List Byte)
  | subAdd (session : Nat) (tag : Tag) (cycle : Nat) (sub : Subscr)
  | subRemove (session : Nat) (tag : Tag) (cycle : Nat) (node local_ : Nat)
  | config (session : Nat) (tag : Tag) (cycle : Nat) (image : List Byte)
  deriving DecidableEq, Repr

/-- A target instance built for release (R272, R274): target descriptor, release ring ns, bytes, and for banks a mask. -/
structure Instance_ where
  target : Nat
  cycle  : Nat
  release : Nat
  bytes  : List Byte
  mask   : Nat
  valid  : Bool
  deriving DecidableEq, Repr

/-- A received CYC publication frame (R280). -/
structure CycRx where
  src   : Nat
  group : Nat
  cycle : Nat
  first : Nat
  entries : List DWord
  tick  : Nat
  deriving DecidableEq, Repr

/-- The first-failure latch of the map group (R301). -/
structure CfLatch where
  kind  : Nat
  stage : Nat
  lane  : Nat
  inj   : Bool
  rule  : Nat
  cycle : Nat
  p1    : DWord
  p2    : DWord
  deriving DecidableEq, Repr

/-- The image of a closed cycle, with the descriptors in force then (R282). -/
structure ClosedImage where
  cycle : Nat
  slots : Sparse DWord
  descs : Sparse (List Byte)
  deriving DecidableEq, Repr

/-- A CFG_ACTIVATE that waits for the publishers of its image's subscriptions (R96): its session and tag, effective cycle, image, the tags
of the requests not yet answered with their subscriptions, and the own-time tick of its start. -/
structure ActWait where
  session : Nat
  tag     : Tag
  effc    : Option Nat
  image   : List Byte
  asked   : List (Nat × Subscr)
  up      : Nat
  deriving DecidableEq, Repr

/-- The map engine and the process image. -/
structure MapState where
  /-- a configuration is in force and cycles may run -/
  active   : Bool := false
  /-- cycle length in ticks in force -/
  n        : Nat := 2000
  /-- number of the last cycle boundary taken -/
  boundary : Option Nat := none
  phase    : CyclePhase := .idle
  /-- the running cycle, and the last closed one (none: R283) -/
  cycle    : Nat := 0
  lastClosed : Option Nat := none
  copied   : Option Nat := none
  /-- current image by slot; an unlisted slot reads as its descriptor's INIT entry -/
  slots    : Sparse DWord := []
  /-- last cycle in which the slot was VALID, if any since the configuration took effect -/
  everValid : Sparse Nat := []
  descs    : Sparse (List Byte) := []
  /-- rule bytes by index, 32 bytes each; unlisted: NOP -/
  rules    : Sparse (List Byte) := []
  lanes    : Sparse LaneState := []
  /-- rule indices that have run once since they were written -/
  started  : List Nat := []
  changes  : List Change := []
  acts     : List ActWait := []
  /-- requests made under session 0 so far, whose tags they are -/
  asks     : Nat := 0
  subs     : List Subscr := []
  /-- ranges published: subscriber node, first, count (R280) -/
  published : List (Nat × Nat × Nat) := []
  snaps    : List Snap := []
  cycRx    : List CycRx := []
  /-- streams whose second copy differed in used bytes by the horizon: source, group, cycle (R121) -/
  twinDiff : List (Nat × Nat × Nat) := []
  /-- subscriptions that were in force before the change of a cycle, oldest first (R116) -/
  pastSubs : List (Nat × List Subscr) := []
  /-- host writes not yet gathered: slot, value entry, stamp tick (R266) -/
  hostWrites : List HostWrite := []
  /-- cycle of the newest gathered host write, by slot -/
  hostCycle : Sparse Nat := []
  /-- history regions by cycle mod 16 (R282) -/
  history  : Sparse ClosedImage := []
  /-- the closed cycle whose copy runs, and the image that its region shows until then (R282, R283) -/
  copying  : Option Nat := none
  replaced : Option ClosedImage := none
  instances : List Instance_ := []
  effLast  : Nat := 0
  /-- coded image by slot: coded value and complemented status (R290) -/
  codedImg : Sparse (Int × Nat) := []
  codedLanes : Sparse CodedLane := []
  /-- rules that failed in the running cycle (R294, R296), and pending injections by source -/
  codedFail : List Nat := []
  /-- slots that hold FAULT under R294 or R296 in the running cycle -/
  codedFault : List Nat := []
  codedInject : List (Nat × Nat) := []
  /-- injections that act in the running cycle (R299) -/
  codedArmed : List (Nat × Nat) := []
  /-- first rule of the running cycle that an overrun left unfinished (R278) -/
  overrun  : Option Nat := none
  /-- scrub mismatch: rule blocks whose slots hold FAULT, each from a cycle on (R356) -/
  badBlocks : List (Nat × Nat) := []
  cf       : Option CfLatch := none
  cfOvf    : Bool := false
  deriving DecidableEq, Repr

/-! ## Discrete lines and engines (R322 to R347) -/

/-- One discrete line: filtered level, the level before the edges of tick `edgeTick` (R329), commanded level, enable of an
engine-owned output (R332), trip mark. -/
structure Line where
  level   : Bool := false
  before  : Bool := false
  edgeTick : Nat := 0
  commanded : Bool := false
  enabled : Bool := true
  tripped : Bool := false
  /-- rising edges stamped since the last gather: ticks (CATCH, R328) -/
  rises   : List Nat := []
  deriving DecidableEq, Repr

/-- A scheduled DL_WRITE (R330): tick, bank, value, mask. -/
structure DlPend where
  tick  : Nat
  bank  : Nat
  value : Nat
  mask  : Nat
  deriving DecidableEq, Repr

structure DlBank where
  trip : Bool := false
  uv   : Bool := false
  deriving DecidableEq, Repr

structure DlState where
  lines : Sparse Line := []
  banks : Sparse DlBank := []
  pend  : List DlPend := []
  deriving DecidableEq, Repr

/-- Engine states (R337). -/
inductive LeSt where
  | off | idle | armed | run | wait | stallPush | stallPull | halted
  deriving DecidableEq, Repr

/-- One LUT engine. -/
structure Engine where
  st      : LeSt := .off
  lstate  : Nat := 0
  count   : Nat := 0
  shift   : Nat := 0
  counter : Nat := 0
  tickPend : Bool := false
  hwidth  : Nat := 0
  evtCode : Nat := 0
  evtPend : Bool := false
  /-- push FIFO: word and stamp tick; pull FIFO: word and the own-time tick from which it is visible -/
  push    : List (Nat × Nat) := []
  pull    : List (Nat × Nat) := []
  popSeq  : Nat := 0
  history : List (Nat × DWord) := []
  table   : Sparse (BitVec 24) := []
  /-- start tick while ARMED, KEEP_SHIFT of the restart -/
  startTick : Nat := 0
  keepShift : Bool := false
  /-- output levels and enables in force -/
  outs    : Nat := 0
  enables : Nat := 0
  /-- entry kept by a stalled step -/
  stalled : Option (BitVec 24) := none
  waitTick : Nat := 0
  /-- LE_HALT that awaits the next edge: session, tag -/
  halting : List (Nat × Tag) := []
  haltPend : Bool := false
  abandoned : Bool := false
  /-- tick in which TICK_PEND was last looked at -/
  lastTick : Nat := 0
  /-- ring ns of the first edge not yet taken (R334) -/
  nextEdge : Nat := 0
  deriving DecidableEq, Repr

/-! ## Power (R360 to R385) -/

/-- Outlet states (R367). -/
inductive OutSt where
  | off | starting | on | limit | cooldown | latched | supplyOff
  deriving DecidableEq, Repr

/-- One outlet. -/
structure Outlet where
  st      : OutSt := .supplyOff
  used    : Nat := 0
  cmd     : Bool := false
  /-- latched while standing in SUPPLY_OFF (R365) -/
  latched : Bool := false
  ma      : Nat := 0
  deciC   : Int := 250
  /-- own-time tick of entry into the present state; of the last tick with current above I_TRIP in STARTING -/
  sinceUp : Nat := 0
  okUp    : Nat := 0
  /-- a start waits for the FET to cool (R368) -/
  waitCool : Bool := false
  /-- a retry was due while the bank stood without supply (R372) -/
  cooling : Bool := false
  deriving DecidableEq, Repr

structure PowerState where
  vinMv    : Nat := 24000
  fetDeciC : Int := 250
  stageOn  : Bool := true
  limit    : Bool := false
  limitUp  : Nat := 0
  tripUp   : Option Nat := none
  tripPend : Bool := false
  ovLock   : Bool := false
  trips    : Nat := 0
  ov       : Nat := 0
  gated    : Bool := false
  /-- a start is held back by the FET's temperature (R362) -/
  gateWait : Bool := false
  rails    : Byte := 0xFF
  /-- own-time ticks from which the step of rails now rising runs (R363), and from which PWRGD's 10 ms count (R364) -/
  stepUp   : Nat := 0
  railsUp  : Nat := 0
  pwrgd    : Bool := true
  junctionDeciC : Int := 250
  tjHigh   : Bool := false
  level    : Nat := 0
  plTarget : Option Nat := none
  plClocks : Bool := false
  plVcore  : Bool := false
  plUp     : Nat := 0
  plLastUs : Nat := 0
  /-- PL_SET that awaits its transition, and those that wait behind it: session, tag, level -/
  plCmds   : List (Nat × Tag × Nat) := []
  vfbMv    : Sparse Nat := []
  vfbLow   : List Nat := []
  outlets  : Sparse Outlet := []
  /-- sleep entry awaited: level, cycle, session and tag of the command -/
  sleepAt  : Option (Nat × Nat × Nat × Tag) := none
  sleepLevel : Nat := 0
  /-- own-time tick of the entry into SLEEP; the field side of SL2 and SL3 is down (R376) -/
  sleepUp  : Nat := 0
  portsDown : Bool := false
  /-- the wake sequence is complete; RUN or ISOLATED follows at a boundary (R379) -/
  wakeDone : Bool := false
  waking   : Bool := false
  wakeSource : Nat := 0
  wakeUp   : Nat := 0
  i2cAddr  : Nat := 0x5C
  lastSl   : Nat := 0
  lastSource : Nat := 0
  lastMs   : Nat := 0
  deriving DecidableEq, Repr

/-! ## Reset and start-up (R386 to R404) -/

structure ResetState where
  /-- asserted sources: cause code, own-time tick of assertion, in order of assertion -/
  asserted : List (Nat × Nat) := []
  inReset  : Bool := false
  /-- widest reach asserted since the first assertion of the present reset (R388) -/
  reach    : Reach := .cold
  lastReleaseUp : Nat := 0
  bootStep : Nat := 1
  bootFail : Nat := 0
  bootUp   : Nat := 0
  bootLastMs : Nat := 0
  heldCause : Nat := 0
  heldSection : Nat := 0xFF
  heldOffset : Nat := 0
  /-- reset record (R401 to R403), in the backup domain -/
  countMode : Bool := false
  recValid : Bool := true
  recTv    : Bool := false
  recLoss  : Bool := true
  recCause : Nat := 0
  recReach : Nat := 0
  recSec   : Nat := 0
  recNs    : Nat := 0
  counts   : Sparse Nat := []
  step4Up  : Nat := 0
  deriving DecidableEq, Repr

/-! ## Faults (R405 to R423) -/

/-- States of a fault source (R406). -/
inductive SrcSt where
  | idle | active | pending
  deriving DecidableEq, Repr

structure Source where
  st      : SrcSt := .idle
  pinHeld : Bool := false
  injPend : Bool := false
  occur   : Nat := 0
  /-- session that armed the injection, and the tick it was armed in -/
  injBy   : Nat := 0
  injTick : Nat := 0
  /-- record in handling (R416): log index, and own-time tick of the detection -/
  handling : Option (Nat × Nat) := none
  deriving DecidableEq, Repr

/-- A fault log entry (R412). -/
structure LogEntry where
  seq      : Nat
  source   : Nat
  flags    : Nat
  reaction : Nat
  time     : Nat
  address  : Nat
  initiator : Nat
  initKind : Nat
  access   : Nat
  merges   : Nat
  detail   : Nat
  deriving DecidableEq, Repr

structure FaultState where
  sources  : Sparse Source := []
  log      : Sparse LogEntry := []
  head     : Nat := 1
  frozen   : Bool := false
  frozenCount : Nat := 0
  /-- critical record in the backup domain (R415) -/
  backup   : Option LogEntry := none
  pend     : Nat := 0
  /-- first-fault latches by group: source, SEQ, injected (R417); and OVF -/
  latches  : Sparse (Nat × Nat × Bool) := []
  ovf      : List Nat := []
  /-- records whose commit and later reactions are outstanding: log index, tick -/
  commits  : List (Nat × Nat) := []
  /-- state snapshots taken, by buffer (R409) -/
  snaps    : Sparse Nat := []
  snapBase : Nat := 0
  deriving DecidableEq, Repr

/-! ## Update, configuration slots, tag area and identity (R424 to R446) -/

/-- Firmware slot states (R425). -/
inductive SlotSt where
  | empty | receiving | complete | valid | trial | bad
  deriving DecidableEq, Repr

structure FwSlot where
  st    : SlotSt := .empty
  bytes : List Byte := []
  crc   : Word := 0
  deriving DecidableEq, Repr

structure FwComp where
  active : Bool := false
  a      : FwSlot := {}
  b      : FwSlot := {}
  bootAlt : Bool := false
  deriving DecidableEq, Repr

/-- Lehr states (R440). -/
inductive LehrSt where
  | empty | receiving | complete | valid | kept | bad
  deriving DecidableEq, Repr

structure UpdState where
  comps   : List FwComp := [{}, {}, {}, {}]
  active  : List Byte := []
  /-- the image whose configuration is in use (R439) -/
  inForce : List Byte := []
  lehr    : List Byte := []
  lehrSt  : LehrSt := .empty
  owner   : Option (Nat × Path) := none
  /-- the owner's last transfer: component (4: configuration) and LENGTH; in progress while fewer bytes are received -/
  recv    : Option (Nat × Nat) := none
  recvCount : Nat := 0
  lastBlockUp : Nat := 0
  /-- component on trial and the tick its remaining time ends -/
  trial   : Option (Nat × Nat) := none
  /-- component whose start follows (R424), with the tick it is due and the cycle for E -/
  start   : Option (Nat × Nat) := none
  startPort : Nat := 0
  /-- component that fell back, until its event is sent (R434) -/
  fellBack : Option Nat := none
  idBad   : Bool := false
  recovery : Bool := false
  tags    : Sparse Byte := []
  tagLocks : Nat := 0
  ident   : Sparse Byte := []
  deriving DecidableEq, Repr

/-- Scrub and check-value units (R348 to R359). -/
structure CvState where
  next     : Nat := 0
  restarts : Nat := 0
  /-- the scrub in progress is abandoned (R357) -/
  abandoned : Bool := false
  lastScrubUp : Nat := 0
  lastImageUp : Nat := 0
  results  : Sparse DWord := []
  expects  : Sparse DWord := []
  deriving DecidableEq, Repr

/-- The hub: registers, subsystems, the model's free-value counter and the commands that wait. -/
structure State where
  /-- commands waiting, first in, first out -/
  pending : List Instr := []
  hub     : HubState := .boot
  changes : Nat := 0
  /-- register fields with no other home, by space-0 address; unlisted: the register's reset value (RegTable) -/
  csr     : Sparse Word := []
  /-- reset values that the configuration in force determines (R439), by space-0 address -/
  cfgRegs : Sparse Word := []
  /-- running totals of space 6 (R23), by space-0 address of the register -/
  totals  : Sparse DWord := []
  /-- counters and totals of a channel's registers under another personality or service than the present one, by that one and the
  address: nothing but a reset clears them (R23) -/
  shelf   : Sparse (Word × DWord) := []
  cmd     : CmdState := {}
  ring    : RingState := {}
  sw      : SwState := {}
  master  : MasterState := {}
  time    : TimeState := {}
  chans   : Sparse Chan := []
  maps    : MapState := {}
  dl      : DlState := {}
  engines : Sparse Engine := []
  power   : PowerState := {}
  reset_  : ResetState := {}
  faults  : FaultState := {}
  upd     : UpdState := {}
  cv      : CvState := {}
  /-- the model's own counter of free values drawn (no state of the hub; DESIGN CHOICE at reset) -/
  fresh   : Nat := 0
  deriving DecidableEq, Repr

/-- The vendor identity block of State.reset as (offset, byte) pairs (R443): LHY128-AI, stepping 1, unique ID 1, ordering code in ASCII,
a stand-in for KEY0 and no KEY1, its CRC-32C over bytes 0 to 4091. DESIGN CHOICE (log entry 3): the spec gives no factory content. -/
def factoryIdent : Sparse Byte :=
  [(0, 0x4C), (1, 0x59), (2, 0x49), (3, 0x44), (4, 1), (5, 1), (6, 1), (8, 1),
   (16, 0x4C), (17, 0x48), (18, 0x59), (19, 0x31), (20, 0x32), (21, 0x38), (22, 0x2D), (23, 0x41), (24, 0x49), (48, 1),
   (4092, 0x52), (4093, 0xc6), (4094, 0xef), (4095, 0x60)]

/-- The firmware image that slot A of a component holds at State.reset (R426): version 1.0.0, windows that accept every version,
S reading both formats, no code. DESIGN CHOICE (log entry 3): the spec gives no factory content. -/
def factoryImage (c : Nat) : List Byte :=
  let window (k : Nat) : List Byte := if k = c then [0, 0, 0, 0, 0, 0, 0, 0] else [0, 0, 0, 0, 0xFF, 0xFF, 0xFF, 0xFF]
  [0x4C, 0x59, 0x46, 0x57, 1, BitVec.ofNat 8 c, 0, if c = 2 then 0x60 else 0, 0, 0, 0, 1, 0x40, 1, 0, 0]
    ++ window 0 ++ window 1 ++ window 2 ++ window 3 ++ List.replicate 272 0

/-- A component at State.reset: slot A VALID with its factory image and check value (R431), slot B EMPTY. -/
def factoryComp (c : Nat) (crc : Word) : FwComp := { a := { st := .valid, bytes := factoryImage c, crc := crc } }

/-- The firmware slots at State.reset. -/
def factoryComps : List FwComp :=
  [factoryComp 0 0x7c635dbf, factoryComp 1 0x6357243b, factoryComp 2 0xb47c9fcb, factoryComp 3 0xe1c9aadf]

/-- The hub right after the power-on reset has ended (R386, R395): BOOT, step 1, nothing commanded, rails good. -/
def State.reset : State :=
  { upd := { comps := factoryComps, ident := factoryIdent } }

end Sys2Proof.Machine
end

