-- ==== Sys2Proof/Machine/Packet.lean ====
section
/-! DEFINITION. Packets of the command transport as bytes (R32 to R37). -/

namespace Sys2Proof.Machine

open Sys2Proof

/-- The header fields of a packet (R33). `target` is the status of a reply. -/
structure Head where
  kind    : Nat
  flags   : Nat
  opcode  : Nat
  session : Nat
  tag     : Nat
  target  : Nat
  part    : Nat
  deriving DecidableEq, Repr

/-- Bytes 0 to 13 of a header. -/
def headBytes (h : Head) (length : Nat) : List Byte :=
  [BitVec.ofNat 8 (64 + h.kind % 16), BitVec.ofNat 8 h.flags] ++ leBytes 2 h.opcode ++ leBytes 1 h.session ++ [0]
    ++ leBytes 2 h.tag ++ leBytes 2 length ++ leBytes 2 h.target ++ leBytes 2 h.part

/-- A whole packet (R32): header, effective cycle, parameters, CRC-32C. -/
def packetBytes (h : Head) (effc : Option Nat) (params : List Byte) : List Byte :=
  let b := headBytes h params.length
  let body := (match effc with | some k => leBytes 8 k | none => []) ++ params
  b ++ leBytes 2 (crc16 b) ++ body ++ leBytes 4 (crc32c body)

/-- Largest parameter length (R32). -/
def maxParams : Nat := 16352

end Sys2Proof.Machine
end

