-- ==== Sys2Proof/Machine/Catalogue.lean ====
section
/-! DEFINITION. The catalogue of opcodes (R464): revisions, flags, targets, parameter layouts, and the checks of steps 8 to 11 of
R38 that rest on it. -/

namespace Sys2Proof.Machine

open Sys2Proof

/-- What TARGET names (R464). -/
inductive TargetKind where
  | none | channel | unit | engine | bank | outlet | port
  deriving DecidableEq, Repr

/-- One opcode: first revision that defines it, the flags E, M and L, its target, and the bounds on LENGTH. -/
structure OpRow where
  code : Nat
  rev  : Nat
  e    : Bool
  m    : Bool
  l    : Bool
  target : TargetKind
  lo   : Nat
  hi   : Nat
  deriving DecidableEq, Repr

/-- Groups 0x00 and 0x01. -/
def opsSystem : List OpRow :=
  [⟨0x0000, 1, false, false, false, .none, 0, 0⟩,
   ⟨0x0001, 1, false, false, false, .none, 16, 16⟩,
   ⟨0x0002, 1, false, false, false, .none, 0, 0⟩,
   ⟨0x0003, 1, false, false, false, .none, 0, 16352⟩,
   ⟨0x0004, 1, false, false, false, .none, 2, 2⟩,
   ⟨0x0005, 1, false, false, false, .none, 0, 0⟩,
   ⟨0x0006, 1, false, false, false, .none, 4, 4⟩,
   ⟨0x0007, 1, false, false, false, .none, 12, 12⟩,
   ⟨0x0008, 1, true, false, false, .none, 12, 16352⟩,
   ⟨0x0100, 1, false, false, false, .none, 4, 8196⟩,
   ⟨0x0101, 1, false, false, false, .none, 0, 0⟩,
   ⟨0x0102, 1, true, false, false, .none, 0, 0⟩,
   ⟨0x0103, 1, false, false, false, .none, 0, 0⟩,
   ⟨0x0104, 1, false, false, false, .none, 12, 12⟩]

/-- Groups 0x02 and 0x03. -/
def opsField : List OpRow :=
  [⟨0x0200, 2, true, false, false, .channel, 0, 0⟩,
   ⟨0x0201, 2, true, false, false, .channel, 1, 1⟩,
   ⟨0x0202, 2, false, false, false, .channel, 0, 0⟩,
   ⟨0x0203, 2, false, false, false, .channel, 4, 4⟩,
   ⟨0x0204, 2, false, false, true, .channel, 10, 4106⟩,
   ⟨0x0205, 2, false, false, false, .channel, 2, 2⟩,
   ⟨0x0206, 2, false, false, false, .channel, 0, 0⟩,
   ⟨0x0207, 2, false, false, false, .channel, 0, 0⟩,
   ⟨0x0300, 1, true, false, false, .none, 8, 16352⟩,
   ⟨0x0301, 1, false, false, false, .none, 16, 16⟩,
   ⟨0x0302, 2, true, true, false, .none, 8, 16328⟩,
   ⟨0x0303, 1, false, false, false, .none, 0, 0⟩,
   ⟨0x0304, 4, true, false, false, .none, 12, 12⟩,
   ⟨0x0305, 4, true, false, false, .none, 8, 8⟩]

/-- Groups 0x04 and 0x05. -/
def opsWork : List OpRow :=
  [⟨0x0400, 3, false, false, true, .channel, 6, 6⟩,
   ⟨0x0401, 3, false, false, true, .channel, 6, 16352⟩,
   ⟨0x0402, 3, false, false, true, .channel, 10, 16352⟩,
   ⟨0x0403, 3, false, false, true, .channel, 4, 4⟩,
   ⟨0x0404, 3, false, false, true, .channel, 4, 236⟩,
   ⟨0x0405, 3, false, false, true, .channel, 12, 16352⟩,
   ⟨0x0406, 3, false, false, true, .unit, 2, 2⟩,
   ⟨0x0407, 3, false, false, true, .unit, 0, 16352⟩,
   ⟨0x0408, 4, false, false, false, .unit, 6, 6⟩,
   ⟨0x0409, 3, false, false, false, .channel, 2, 2⟩,
   ⟨0x040A, 3, false, false, false, .channel, 0, 0⟩,
   ⟨0x0500, 3, false, false, false, .engine, 0, 0⟩,
   ⟨0x0501, 3, false, true, false, .engine, 4, 16351⟩,
   ⟨0x0502, 3, false, false, false, .engine, 1, 1⟩,
   ⟨0x0503, 3, false, false, false, .none, 12, 12⟩,
   ⟨0x0504, 3, false, false, false, .engine, 0, 0⟩,
   ⟨0x0505, 3, true, false, false, .bank, 4, 4⟩,
   ⟨0x0506, 3, false, false, false, .bank, 0, 0⟩]

/-- Groups 0x06 to 0x08. -/
def opsBoard : List OpRow :=
  [⟨0x0600, 2, true, false, false, .outlet, 1, 1⟩,
   ⟨0x0601, 2, false, false, false, .outlet, 0, 0⟩,
   ⟨0x0602, 2, false, false, false, .outlet, 0, 0⟩,
   ⟨0x0603, 2, true, false, false, .none, 1, 1⟩,
   ⟨0x0604, 2, true, false, false, .none, 1, 1⟩,
   ⟨0x0605, 2, false, false, false, .none, 0, 0⟩,
   ⟨0x0700, 2, false, false, false, .none, 0, 0⟩,
   ⟨0x0701, 2, true, false, false, .none, 16, 16⟩,
   ⟨0x0702, 2, false, false, false, .port, 1, 1⟩,
   ⟨0x0703, 2, false, false, false, .port, 0, 0⟩,
   ⟨0x0800, 1, false, false, false, .none, 4, 4⟩,
   ⟨0x0801, 1, false, false, false, .none, 2, 2⟩,
   ⟨0x0802, 1, true, false, false, .none, 2, 2⟩,
   ⟨0x0803, 1, true, false, false, .none, 3, 3⟩]

/-- Groups 0x09 to 0x0B. -/
def opsUpkeep : List OpRow :=
  [⟨0x0900, 1, false, false, false, .none, 8, 8200⟩,
   ⟨0x0901, 1, false, false, false, .none, 1, 1⟩,
   ⟨0x0902, 1, false, false, false, .none, 1, 1⟩,
   ⟨0x0903, 1, false, false, false, .none, 0, 0⟩,
   ⟨0x0904, 1, false, false, false, .none, 0, 0⟩,
   ⟨0x0A00, 1, false, false, false, .none, 0, 0⟩,
   ⟨0x0A01, 1, false, false, false, .none, 1, 1⟩,
   ⟨0x0A02, 1, false, false, false, .none, 256, 256⟩,
   ⟨0x0A03, 1, false, false, false, .none, 1, 1⟩,
   ⟨0x0B00, 2, false, false, false, .none, 0, 0⟩,
   ⟨0x0B01, 2, false, false, false, .none, 0, 0⟩,
   ⟨0x0B02, 2, true, false, false, .port, 1, 1⟩,
   ⟨0x0B03, 2, true, false, false, .none, 1, 1⟩,
   ⟨0x0B04, 4, true, false, false, .none, 4, 4⟩,
   ⟨0x0B05, 2, false, false, false, .port, 4, 4⟩]

/-- The catalogue (R464). -/
def opTable : List OpRow := opsSystem ++ opsField ++ opsWork ++ opsBoard ++ opsUpkeep

/-- The row of an opcode. -/
def opRow (op : Nat) : Option OpRow := opTable.find? (fun r => r.code == op)

/-- TARGET is in range (R464); 0xFFFF names none. -/
def targetFits (k : TargetKind) (t : Nat) : Bool :=
  match k with
  | .none => t == 0xFFFF
  | .channel => decide (t < 128)
  | .unit => decide (t < 128) || (decide (0x100 ≤ t) && decide (t < 0x120))
  | .engine | .outlet => decide (t < 32)
  | .bank => decide (t < 8)
  | .port => decide (t < 2)

/-- Counts and length fields match LENGTH, and a range stays within its table (step 9, R464). -/
def countsFit (op : Nat) (p : List Byte) : Bool :=
  let n := p.length
  match op with
  | 0x0007 => decide (rd p 8 4 ≤ maxParams)
  | 0x0104 => decide (rd p 8 4 ≤ maxParams)
  | 0x0204 => n == 10 + rd p 8 2
  | 0x0300 => n == 8 + 8 * rd p 4 2 && decide (rd p 4 2 ≤ 2043) && decide (rd p 0 4 + rd p 4 2 ≤ 262144)
  | 0x0301 => decide (rd p 4 2 ≤ 2043) && decide (rd p 0 4 + rd p 4 2 ≤ 262144)
  | 0x0302 => n == 8 + 32 * rd p 4 2 && decide (rd p 0 4 + rd p 4 2 ≤ 65536)
  | 0x0304 => decide (rd p 4 4 + rd p 2 2 ≤ 262144) && decide (rd p 8 4 + rd p 2 2 ≤ 262144)
  | 0x0406 => decide (rd p 0 2 ≤ 2043)
  | 0x0407 => n % 8 == 0
  | 0x0408 => decide (rd p 4 2 ≤ 64)
  | 0x0501 => n == 4 + 3 * rd p 2 2 && decide (rd p 0 2 + rd p 2 2 ≤ 16384)
  | 0x0702 => decide (rd p 0 1 ≤ 16)
  | _ => true

/-- LENGTH fits the opcode's layout (step 9). -/
def lengthFits (r : OpRow) (p : List Byte) : Bool :=
  decide (r.lo ≤ p.length) && decide (p.length ≤ r.hi) && countsFit r.code p

/-- Reserved values are 0 and no count, length or data length is 0 where the catalogue gives a bound (step 10, R464). -/
def valuesFit (op : Nat) (p : List Byte) : Bool :=
  let n := p.length
  match op with
  | 0x0001 => rd p 11 1 == 0 && rd p 14 2 == 0
  | 0x0007 => rd p 8 4 != 0
  | 0x0008 => rd p 9 3 == 0 && decide (12 < n)
  | 0x0100 => decide (4 < n)
  | 0x0104 => rd p 2 2 == 0 && rd p 8 4 != 0
  | 0x0300 => rd p 6 2 == 0 && rd p 4 2 != 0
  | 0x0301 => rd p 6 2 == 0 && rd p 4 2 != 0
  | 0x0302 => rd p 6 2 == 0 && rd p 4 2 != 0
  | 0x0304 => rd p 1 1 == 0
  | 0x0305 => rd p 1 3 == 0
  | 0x0402 => rd p 1 1 == 0
  | 0x0403 => rd p 3 1 == 0
  | 0x0404 => rd p 3 1 == 0 && decide (4 < n)
  | 0x0405 => rd p 2 2 == 0
  | 0x0406 => rd p 0 2 != 0
  | 0x0408 => rd p 4 2 != 0
  | 0x0501 => rd p 2 2 != 0
  | 0x0702 => rd p 0 1 != 0
  | 0x0900 => rd p 1 3 == 0 && decide (8 < n)
  | 0x0A02 => rd p 1 3 == 0
  | _ => true

/-- Flags allowed for the opcode and the revision (step 10, R34, R44 to R47, R49): FENCE from revision 2 on, LOCKED and MORE from
revision 3 on and only where the catalogue marks them, EFFC from revision 2 on, where it is marked, with bits 63:48 at 0 (R37). -/
def flagsFit (r : OpRow) (rev flags : Nat) (effc : Option Nat) : Bool :=
  (!bit flags 0 || decide (2 ≤ rev)) && (!bit flags 3 || (decide (3 ≤ rev) && r.l)) && (!bit flags 4 || (decide (3 ≤ rev) && r.m))
    && (match effc with | some k => decide (2 ≤ rev) && r.e && decide (k < 2 ^ 48) | none => true)

/-- The hub state admits the opcode's group (step 11, R15, R16, R435). -/
def stateAdmits (hub : HubState) (recovery : Bool) (op : Nat) (p : List Byte) : Bool :=
  let g := op / 256
  match hub with
  | .boot =>
    if recovery then
      op == 0x0001 || op == 0x0A00 || op == 0x0904 || op == 0x0901 || op == 0x0903 || (op == 0x0900 && rd p 0 1 == 3)
    else op != 0x0001 && (g == 0 || g == 8 || g == 0xA || g == 0xB)
  | .held => !(decide (2 ≤ g) && decide (g ≤ 6))
  | .sleep => g == 0
  | .off => false
  | .run | .isolated => true

/-- Steps 8 to 11 of R38 for an opcode under a revision: the refusal, if any. -/
def catalogueRefusal (hub : HubState) (recovery : Bool) (rev op flags target : Nat) (effc : Option Nat) (p : List Byte) :
    Option Status :=
  match opRow op with
  | none => some .unknownOpcode
  | some r =>
    if rev < r.rev then some .unknownOpcode
    else if !lengthFits r p then some .badLength
    else if !(flagsFit r rev flags effc && targetFits r.target target && valuesFit op p) then some .denied
    else if !stateAdmits hub recovery op p then some .notReady
    else none

end Sys2Proof.Machine
end

