-- ==== Sys2Proof/Config.lean ====
section
/-! DEFINITION. What the spec leaves open: constants without a body, so that no proof can see a value of them. -/

namespace Sys2Proof.Config

open Sys2Proof

/-- Outcome of the signature check of R427 and R437: public key, signed bytes, signature. The spec names the algorithm and
gives no arithmetic for it; the model leaves its outcome open (log entry 4). -/
opaque signatureGood : List Byte → List Byte → List Byte → Bool

/-- A byte of the debug view of DRAM (space 7), whose contents the spec does not lay out: the n-th draw, by offset (R21; log
entry 5). -/
opaque dramByte : Nat → Nat → Byte

/-- A value that the spec leaves open at one place: the n-th draw (log entry 5). -/
opaque freeValue : Nat → Nat

/-- MIN or MAX in binary32 where an operand is NaN, or where the operands are zeros of both signs: the spec says that the rule
computes in binary32 and states no result there (R270; log entry 5). True for MAX; the operands' bit patterns. -/
opaque minMaxOpen : Bool → Nat → Nat → Nat

/-- Whether unicast frames of a class to a node are sent on CCW: the spec names no rule by which a source chooses the ring of
a unicast stream (R131, R133; log entry 6). By destination and class. -/
opaque unicastCcw : Nat → Nat → Bool

end Sys2Proof.Config
end

