-- ==== Sys2Proof/Machine/RegTable.lean ====
section
/-! DEFINITION. The register tables: for every CSR address of space 0 its fields, their types, reaches, reset values and
allowed encodings, as the register tables of the chapters give them (R5, R7 to R9, R26). -/

namespace Sys2Proof.Machine

open Sys2Proof

/-- Field types (R5). -/
inductive FTy where
  | ro | rw | w1c | w1s | rc | wo
  deriving DecidableEq, Repr

/-- One field of a register table: place, type, reach of its Reset column (none: "—"), reset value, allowed encodings
(inclusive ranges; none listed: all), and whether a configuration sets it although it is RO (R439). -/
structure FieldRow where
  lo    : Nat
  w     : Nat
  ty    : FTy
  reach : Option Reach
  rst   : Nat := 0
  allow : List (Nat × Nat) := []
  cfg   : Bool := false
  deriving DecidableEq, Repr

/-- An RO field. -/
def ro (lo w : Nat) (r : Option Reach) (rst : Nat := 0) : FieldRow := { lo := lo, w := w, ty := .ro, reach := r, rst := rst }
/-- An RO field that the configuration sets (R439). -/
def roc (lo w : Nat) (r : Option Reach) (allow : List (Nat × Nat) := []) (rst : Nat := 0) : FieldRow :=
  { lo := lo, w := w, ty := .ro, reach := r, rst := rst, allow := allow, cfg := true }
/-- An RW field. -/
def rw_ (lo w : Nat) (r : Reach) (rst : Nat := 0) (allow : List (Nat × Nat) := []) : FieldRow :=
  { lo := lo, w := w, ty := .rw, reach := some r, rst := rst, allow := allow }
/-- A W1C field. -/
def w1c (lo w : Nat) (r : Option Reach) : FieldRow := { lo := lo, w := w, ty := .w1c, reach := r }
/-- A WO field. -/
def wo (lo w : Nat) : FieldRow := { lo := lo, w := w, ty := .wo, reach := none }
/-- An RC counter register: COUNT in [31:0] (R61 and its like). -/
def cnt (r : Reach) : List FieldRow := [{ lo := 0, w := 32, ty := .rc, reach := some r }]

/-- Offset `off` lies at `base + i·stride` for some i below `n`. -/
def atStride (off base stride n : Nat) : Bool :=
  decide (base ≤ off) && decide ((off - base) % stride = 0) && decide ((off - base) / stride < n)

/-- SYS block (R19). -/
def sysFields : Nat → List FieldRow
  | 0x000 => [ro 0 8 (some .cold), ro 8 8 (some .cold), ro 16 16 (some .cold)]
  | 0x004 => [ro 0 4 (some .service) 1, ro 4 2 (some .service), ro 6 1 (some .warm), ro 7 1 (some .warm), ro 16 16 (some .warm)]
  | 0x008 => [w1c 0 1 (some .warm), w1c 1 1 (some .warm), w1c 2 1 (some .warm)]
  | 0x00C => [ro 0 8 (some .warm), ro 8 8 (some .warm), ro 16 8 (some .warm)]
  | _ => []

/-- RST block (R404). -/
def rstFields (off : Nat) : List FieldRow :=
  match off with
  | 0x000 => [wo 0 2, wo 2 2, wo 4 7, wo 24 8]
  | 0x004 => [ro 0 16 none]
  | 0x008 => [{ lo := 0, w := 1, ty := .rw, reach := none }, ro 1 1 none, ro 2 1 none, w1c 3 1 none, ro 4 4 none, ro 8 2 none, wo 31 1]
  | 0x00C => [ro 0 32 none]
  | 0x010 => [ro 0 32 none]
  | 0x014 => [ro 0 32 none]
  | 0x040 => [ro 0 4 (some .service) 1, ro 4 4 (some .service), ro 16 16 (some .warm)]
  | 0x044 => [ro 0 4 (some .service), ro 8 8 (some .service) 0xFF]
  | 0x048 => [ro 0 32 (some .service)]
  | _ => if atStride off 0x020 4 8 then [ro 0 16 none, ro 16 16 none] else []

/-- PWR block (R382, R383). -/
def pwrFields (off : Nat) : List FieldRow :=
  match off with
  | 0x000 => [ro 0 8 none, ro 8 8 none, ro 16 1 none, wo 24 1]
  | 0x004 => [ro 0 8 (some .warm), ro 8 1 (some .warm), ro 9 1 (some .warm), ro 10 2 (some .warm), ro 12 1 (some .warm)]
  | 0x008 => [ro 0 16 (some .warm), ro 16 16 (some .warm)]
  | 0x00C => [ro 0 16 (some .warm), ro 16 16 (some .warm)]
  | 0x010 => [roc 0 2 (some .warm), ro 16 16 (some .warm)]
  | 0x014 => [roc 0 7 none [] 0x5C, rw_ 7 1 .warm 1, ro 8 2 none, ro 10 2 none, ro 16 16 none]
  | 0x018 => [wo 0 8]
  | _ => if atStride off 0x100 4 4 then cnt .warm else []

/-- OUT block (R384, R385). `itripMax` is 60 on LHY128-AI and 44 on LHY128-AX (R2). -/
def outFields (itripMax off : Nat) : List FieldRow :=
  if off < 0x200 then
    match off % 0x10 with
    | 0x0 => [rw_ 0 6 .warm 0 [(0, itripMax)], rw_ 8 7 .warm 10 [(1, 100)], rw_ 16 8 .warm 20 [(1, 200)], rw_ 24 3 .warm 2,
              roc 27 1 (some .warm), roc 28 1 (some .warm)]
    | 0x4 => [rw_ 0 7 .warm 10 [(1, 100)], rw_ 16 16 .warm 60 [(1, 65535)]]
    | 0x8 => [ro 0 3 (some .warm), ro 3 3 (some .warm), ro 6 1 (some .warm)]
    | 0xC => [ro 0 16 (some .warm), ro 16 16 (some .warm)]
    | _ => []
  else if atStride off 0x200 4 4 then [ro 0 14 (some .warm), ro 14 1 (some .warm), ro 16 16 (some .warm)]
  else if atStride off 0x300 4 6 then cnt .warm
  else []

/-- TIME block (R175, R176). -/
def timeFields (off : Nat) : List FieldRow :=
  match off with
  | 0x000 => [rw_ 0 1 .warm, rw_ 1 1 .warm, rw_ 2 1 .warm, rw_ 3 1 .warm]
  | 0x004 => [ro 0 1 (some .warm), ro 1 1 (some .warm), ro 2 1 (some .warm), ro 3 1 (some .warm), ro 4 1 (some .warm), ro 5 3 (some .warm)]
  | 0x008 => [wo 0 1]
  | 0x00C => [ro 0 32 (some .warm)]
  | 0x010 => [ro 0 32 (some .warm)]
  | 0x014 => [ro 0 32 (some .warm)]
  | 0x018 => [ro 0 32 (some .warm)]
  | 0x020 => [ro 0 32 (some .warm)]
  | 0x024 => [ro 0 32 (some .warm)]
  | 0x030 => [ro 0 32 (some .warm)]
  | 0x034 => [ro 0 32 (some .warm)]
  | 0x038 => [rw_ 0 32 .warm 0 [(0, 100000), (2 ^ 32 - 100000, 2 ^ 32 - 1)]]
  | 0x03C => [rw_ 0 32 .warm 0 [(0, 100000), (2 ^ 32 - 100000, 2 ^ 32 - 1)]]
  | 0x040 => [rw_ 0 32 .warm]
  | 0x044 => [rw_ 0 32 .warm]
  | 0x048 => [rw_ 0 32 .warm]
  | 0x04C => [rw_ 0 32 .warm]
  | 0x050 => [ro 0 32 (some .warm)]
  | 0x054 => [ro 0 32 (some .warm)]
  | 0x060 => [ro 0 5 (some .warm), ro 8 5 (some .warm), w1c 16 1 (some .warm), w1c 17 1 (some .warm)]
  | _ => if atStride off 0x100 4 8 then cnt .warm else []

/-- One port set of the RING block (R98, R99). -/
def portFields (off : Nat) : List FieldRow :=
  match off with
  | 0x000 => [rw_ 0 1 .warm 1, rw_ 1 2 .warm 2 [(0, 2)], rw_ 4 4 .warm 2 [(2, 3)], rw_ 8 4 .warm 3 [(2, 3)]]
  | 0x004 => [ro 0 4 (some .warm), ro 4 4 (some .warm), ro 8 1 (some .warm), ro 9 1 (some .warm), ro 10 1 (some .warm),
              ro 11 1 (some .warm), ro 16 8 (some .warm), ro 24 1 (some .warm)]
  | 0x008 => [ro 0 32 (some .warm)]
  | 0x00C => [ro 0 32 (some .warm)]
  | _ => if atStride off 0x080 4 24 then [ro 0 32 (some .warm)] else if atStride off 0x020 4 11 then cnt .warm else []

/-- RING block (R98 to R100, R149, R150). -/
def ringFields (off : Nat) : List FieldRow :=
  if off < 0x200 then portFields (off % 0x100)
  else
    match off with
    | 0x400 => [roc 0 8 (some .warm) [(0, 254)], roc 8 1 (some .warm), roc 9 1 (some .warm)]
    | 0x404 => [roc 0 32 (some .warm)]
    | 0x408 => [ro 0 16 (some .warm), ro 16 8 (some .warm), ro 24 1 (some .warm), ro 28 3 (some .warm)]
    | 0x430 => [ro 0 32 (some .warm)]
    | 0x434 => [ro 0 32 (some .warm)]
    | 0x438 => [ro 0 32 (some .warm)]
    | 0x600 => [ro 0 1 (some .warm), ro 1 1 (some .warm), ro 2 1 (some .warm), ro 3 1 (some .warm)]
    | 0x604 => [rw_ 0 32 .warm 2000 [(10, 3600000)]]
    | 0x608 => [rw_ 0 32 .warm 2000 [(10, 3600000)]]
    | 0x60C => [ro 0 15 (some .warm)]
    | 0x610 => [ro 0 15 (some .warm)]
    | 0x614 => [ro 0 2 (some .warm), ro 2 1 (some .warm), w1c 3 1 (some .warm), ro 16 16 (some .warm)]
    | _ =>
      if atStride off 0x410 4 8 then [roc 0 32 (some .warm)]
      else if atStride off 0x440 4 5 then cnt .warm
      else if atStride off 0x620 4 14 then cnt .warm
      else []

/-- Reset limit of the queue of output `o`, class `c` (R106). -/
def limitReset (o c : Nat) : Nat :=
  match c with
  | 0 => if o = 3 then 4096 else 16384
  | 1 => if o < 2 then 32768 else 16384
  | 2 => 32768
  | 3 => if o < 2 then 65536 else 32768
  | _ => 1024

/-- SW block (R123, R124). -/
def swFields (off : Nat) : List FieldRow :=
  match off with
  | 0x000 => [rw_ 0 1 .warm, rw_ 8 8 .warm 10 [(1, 255)], rw_ 16 3 .warm 2]
  | 0x004 => [rw_ 0 5 .warm 0x17, rw_ 8 5 .warm 0x17]
  | 0x008 => [ro 0 16 (some .warm), ro 16 16 (some .warm)]
  | 0x00C => [ro 0 20 (some .warm)]
  | 0x010 => [{ lo := 0, w := 20, ty := .rc, reach := some .warm, rst := 487424 }]
  | 0x014 => [rw_ 0 8 .warm 16 [(1, 255)], rw_ 8 8 .warm 8 [(1, 255)], rw_ 16 8 .warm 4 [(1, 255)]]
  | _ =>
    let cell := (off % 0x20) / 4
    if off % 4 = 0 ∧ 0x100 ≤ off ∧ off < 0x180 ∧ cell < 5 then [rw_ 0 20 .warm (limitReset ((off - 0x100) / 0x20) cell)]
    else if atStride off 0x180 8 4 then [rw_ 0 20 .warm 8192]
    else if atStride off 0x184 8 4 then [rw_ 0 20 .warm 1024]
    else if off % 4 = 0 ∧ 0x200 ≤ off ∧ off < 0x280 ∧ cell < 5 then [ro 0 20 (some .warm)]
    else if off % 4 = 0 ∧ 0x300 ≤ off ∧ off < 0x400 ∧ cell < 5 then cnt .warm
    else if atStride off 0x400 4 15 then cnt .warm
    else []

/-- Channel registers common to all personalities (R204, R205). -/
def chnFields (off : Nat) : List FieldRow :=
  match off with
  | 0x000 => [roc 0 3 (some .service) [(0, 4)], roc 3 1 (some .service), rw_ 4 2 .service 0 [(0, 2)], rw_ 6 1 .service]
  | 0x004 => [ro 0 3 (some .block), ro 3 1 (some .block), ro 4 1 (some .block), ro 5 1 (some .block), ro 6 1 (some .block)]
  | 0x008 => [wo 0 1, wo 1 1, wo 2 1, wo 3 1]
  | 0x010 => [rw_ 0 15 .service 512, rw_ 16 15 .service 8]
  | 0x014 => [rw_ 0 15 .service 512, rw_ 16 15 .service 8]
  | 0x018 => [ro 0 15 (some .service), ro 16 16 (some .service)]
  | 0x01C => [ro 0 15 (some .service), ro 16 16 (some .service)]
  | 0x020 => [ro 0 17 (some .service)]
  | 0x024 => [ro 0 32 (some .service)]
  | 0x028 => [ro 0 32 (some .service)]
  | 0x030 => [ro 0 32 (some .service)]
  | 0x038 => [ro 0 32 (some .service)]
  | 0x03C => [ro 0 32 (some .service)]
  | _ => if atStride off 0x080 4 13 then cnt .service else []

/-- CAN registers (R228). -/
def canFields (off : Nat) : List FieldRow :=
  match off with
  | 0x100 => [rw_ 0 1 .service, rw_ 1 1 .service 1, rw_ 2 1 .service, rw_ 8 8 .service 16 [(1, 255)], rw_ 16 16 .service]
  | 0x104 => [ro 0 8 (some .block), ro 8 8 (some .block), ro 16 2 (some .block), ro 18 3 (some .block), ro 21 3 (some .block), ro 24 8 (some .block)]
  | 0x108 => [rw_ 0 10 .service 1, rw_ 10 8 .service 158, rw_ 18 7 .service 39, rw_ 25 7 .service 39]
  | 0x10C => [rw_ 0 5 .service 3, rw_ 5 5 .service 17, rw_ 10 4 .service 5, rw_ 14 4 .service 5, rw_ 18 1 .service, rw_ 19 7 .service]
  | _ =>
    if atStride off 0x180 4 14 then cnt .service
    else if 0x200 ≤ off ∧ off < 0x600 then
      match off % 0x10 with
      | 0x0 => [rw_ 0 2 .service 0 [(0, 2)], rw_ 2 1 .service, rw_ 3 2 .service 0 [(0, 2)], rw_ 5 1 .service, rw_ 6 1 .service,
                rw_ 7 1 .service, rw_ 8 4 .service, rw_ 12 1 .service]
      | 0x4 => [rw_ 0 29 .service]
      | 0x8 => [rw_ 0 29 .service 0x1FFFFFFF]
      | 0xC => [ro 0 1 (some .block), ro 1 1 (some .block), w1c 2 1 (some .block), ro 3 3 (some .block)]
      | _ => []
    else []

/-- Serial registers (R257, R260). -/
def serFields (off : Nat) : List FieldRow :=
  match off with
  | 0x100 => [rw_ 0 2 .service 0 [(0, 1)], rw_ 2 2 .service 1 [(0, 2)], rw_ 4 1 .service]
  | 0x104 => [rw_ 0 25 .service 19200 [(1200, 20000000)]]
  | 0x108 => [rw_ 0 4 .service, rw_ 4 8 .service 1, rw_ 12 16 .service]
  | 0x10C => [rw_ 0 2 .service 0 [(0, 2)], rw_ 2 6 .service 7 [(3, 63)], rw_ 8 1 .service, rw_ 9 1 .service, rw_ 10 1 .service,
              rw_ 16 8 .service, rw_ 24 8 .service]
  | 0x110 => [rw_ 0 4 .service, rw_ 4 1 .service, rw_ 5 1 .service, rw_ 8 8 .service, rw_ 16 13 .service 4096 [(1, 4096)]]
  | 0x114 => [rw_ 0 12 .service]
  | _ => if atStride off 0x180 4 8 then cnt .service else []

/-- Modbus registers (R258, R260). -/
def mbFields (off : Nat) : List FieldRow :=
  match off with
  | 0x200 => [roc 0 1 (some .service), rw_ 1 1 .service 1, rw_ 16 10 .service 100 [(1, 1000)]]
  | 0x204 => [rw_ 0 16 .service 100 [(1, 10000)], rw_ 16 3 .service 2]
  | 0x208 => [ro 0 9 (some .block) 0x1FF, ro 9 1 (some .block), ro 10 1 (some .block), ro 11 1 (some .block)]
  | _ => if atStride off 0x280 4 10 then cnt .service else []

/-- IO-Link registers (R259, R260). -/
def iolFields (off : Nat) : List FieldRow :=
  match off with
  | 0x300 => [roc 0 3 (some .service) [(0, 4)], roc 3 5 (some .service) [(0, 15)], rw_ 8 10 .service 100 [(10, 1000)], rw_ 18 11 .service 20 [(4, 1328)]]
  | 0x304 => [ro 0 4 (some .block), ro 4 2 (some .block), ro 8 8 (some .block), ro 16 16 (some .block)]
  | 0x308 => [rw_ 0 16 .service, ro 16 16 (some .block)]
  | 0x30C => [rw_ 0 24 .service]
  | 0x310 => [ro 0 24 (some .block)]
  | 0x314 => [roc 0 6 (some .service) [(0, 32)], roc 8 6 (some .service) [(0, 32)]]
  | _ => if atStride off 0x380 4 8 then cnt .service else []

/-- All registers of a channel block under personality `pers`, with the Modbus service running or not. -/
def channelFields (pers : Nat) (mb : Bool) (off : Nat) : List FieldRow :=
  if off < 0x100 then chnFields off
  else if pers = 3 then canFields off
  else if pers = 1 ∨ pers = 2 then
    if off < 0x200 then serFields off else if mb ∨ off = 0x200 then mbFields off else []
  else if pers = 4 then iolFields off
  else []

/-- Engine block (R346, R347). -/
def leFields (off : Nat) : List FieldRow :=
  let sel (r : Nat) (al : List (Nat × Nat)) : List FieldRow :=
    [rw_ 0 5 .service r al, rw_ 8 5 .service r al, rw_ 16 5 .service r al, rw_ 24 5 .service r al]
  match off with
  | 0x000 => [roc 0 1 (some .service), roc 1 1 (some .service), rw_ 2 1 .service, rw_ 3 6 .service 32 [(1, 32)], rw_ 9 6 .service, rw_ 15 1 .service]
  | 0x004 => [rw_ 0 16 .service]
  | 0x008 => sel 20 [(0, 20)]
  | 0x00C => sel 20 [(0, 20)]
  | 0x010 => sel 31 [(0, 15), (31, 31)]
  | 0x014 => sel 31 [(0, 15), (31, 31)]
  | 0x018 => [rw_ 0 32 .service]
  | 0x01C => [rw_ 0 8 .service, rw_ 8 8 .service]
  | 0x020 => [rw_ 0 32 .service]
  | 0x030 => [ro 0 3 (some .block), ro 3 6 (some .block), ro 9 6 (some .block), ro 15 5 (some .block), ro 20 5 (some .block), ro 25 1 (some .block), ro 26 6 (some .block)]
  | 0x034 => [ro 0 32 (some .block)]
  | 0x038 => [ro 0 32 (some .block)]
  | 0x03C => [ro 0 5 (some .block), w1c 5 1 (some .block)]
  | 0x040 => [wo 0 1, wo 1 1, wo 2 1, wo 3 1]
  | _ => if atStride off 0x080 4 5 then cnt .service else []

/-- DL block (R344, R345). -/
def dlFields (off : Nat) : List FieldRow :=
  if off < 0x200 then
    if off % 4 = 0 then
      [roc 0 3 (some .service) [(0, 4)], rw_ 3 4 .service 0 [(0, 14)], rw_ 7 1 .service, roc 8 2 (some .service) [(0, 2)],
       roc 10 5 (some .service), roc 15 1 (some .service)]
    else []
  else if off < 0x280 then
    match off % 0x10 with
    | 0x0 => [w1c 0 1 (some .service), ro 1 1 (some .service), ro 2 1 (some .service)]
    | 0x4 => [ro 0 16 (some .service)]
    | 0x8 => [w1c 0 16 (some .service)]
    | 0xC => [ro 0 16 (some .service)]
    | _ => []
  else if atStride off 0x300 4 3 then cnt .service
  else []

/-- MAP block (R284, R285, R301, R302). -/
def mapFields (off : Nat) : List FieldRow :=
  match off with
  | 0x000 => [roc 0 18 (some .service)]
  | 0x004 => [roc 0 18 (some .service)]
  | 0x008 => [roc 0 18 (some .service)]
  | 0x00C => [roc 0 17 (some .service)]
  | 0x010 => [roc 0 17 (some .service)]
  | 0x020 => [ro 0 32 (some .service) 0xFFFFFFFF]
  | 0x024 => [ro 0 32 (some .service) 0xFFFF]
  | 0x028 => [ro 0 32 (some .service) 0xFFFFFFFF]
  | 0x02C => [ro 0 32 (some .service) 0xFFFF]
  | 0x040 => [ro 0 17 (some .service)]
  | 0x080 => [ro 0 3 (some .service), ro 3 2 (some .service), ro 5 4 (some .service), ro 9 1 (some .service), w1c 30 1 (some .service), w1c 31 1 (some .service)]
  | 0x084 => [ro 0 16 (some .service)]
  | _ =>
    if atStride off 0x030 4 4 ∨ off = 0x048 ∨ off = 0x04C ∨ atStride off 0x088 4 7 then [ro 0 32 (some .service)]
    else if atStride off 0x100 4 10 ∨ atStride off 0x140 4 5 then cnt .service
    else []

/-- CV block (R358, R359). -/
def cvFields (off : Nat) : List FieldRow :=
  let word (inl : Bool) (r : Nat) : List FieldRow := if inl then [rw_ 0 32 .service r] else [roc 0 32 (some .service) [] r]
  let unit (inl : Bool) (o : Nat) : List FieldRow :=
    match o with
    | 0x00 => if inl then [rw_ 0 7 .service 32 [(1, 64)], rw_ 7 1 .service 1, rw_ 8 1 .service 1]
              else [roc 0 7 (some .service) [(1, 64)] 32, roc 7 1 (some .service) [] 1, roc 8 1 (some .service) [] 1]
    | 0x04 => word inl 0x1EDC6F41
    | 0x08 => word inl 0
    | 0x0C => word inl 0xFFFFFFFF
    | 0x10 => word inl 0
    | 0x14 => word inl 0xFFFFFFFF
    | 0x18 => word inl 0
    | 0x1C => [ro 0 32 (some .service)]
    | 0x20 => [ro 0 32 (some .service)]
    | 0x24 => [ro 0 32 (some .service)]
    | 0x28 => [ro 0 32 (some .service)]
    | 0x2C => if inl then [rw_ 0 1 .service, rw_ 1 1 .service, rw_ 2 1 .service, rw_ 3 12 .service, rw_ 15 3 .service] else []
    | 0x30 => if inl then [ro 0 8 (some .block), ro 8 8 (some .block), ro 16 1 (some .block)] else []
    | _ => if inl ∧ atStride o 0x34 4 3 then cnt .service else []
  if off < 0x200 then unit false (off % 0x40)
  else if 0x1000 ≤ off ∧ off < 0x3000 then unit true (off % 0x40)
  else
    match off with
    | 0x3000 => [rw_ 0 10 .warm 10 [(1, 1000)], rw_ 10 1 .warm 1]
    | 0x3004 => [ro 0 9 (some .warm), { lo := 16, w := 16, ty := .rc, reach := some .warm }]
    | 0x3010 => cnt .warm
    | 0x3014 => cnt .warm
    | 0x3018 => cnt .warm
    | _ => []

/-- Fault sources of R407: code, condition source, default mask, unit kind a BLOCK reaction resets (0 channel, 1 engine,
2 outlet; none: not allowed). -/
def sourceTable : List (Nat × Bool × Nat × Option Nat) :=
  [(0x0001, false, 1, none), (0x0002, false, 1, none), (0x0101, false, 1, none), (0x0102, true, 1, none),
   (0x0103, true, 1, none), (0x0104, false, 1, some 2), (0x0105, true, 17, some 2),
   (0x0201, false, 8, none), (0x0202, false, 8, none), (0x0203, false, 8, none), (0x0204, false, 8, none),
   (0x0205, false, 8, none), (0x0206, false, 8, none),
   (0x0301, false, 1, none), (0x0302, false, 1, none), (0x0303, true, 1, none),
   (0x0401, true, 1, none), (0x0402, true, 1, none), (0x0501, false, 1, none),
   (0x0601, false, 1, some 0), (0x0602, false, 1, some 0), (0x0603, false, 1, some 0), (0x0604, true, 1, some 0),
   (0x0605, false, 1, some 0), (0x0606, false, 1, some 0), (0x0607, true, 1, some 0),
   (0x0701, false, 1, none), (0x0702, false, 17, none), (0x0703, false, 17, none), (0x0704, false, 17, none),
   (0x0705, false, 17, none),
   (0x0801, true, 1, none), (0x0802, true, 1, none), (0x0803, true, 1, none), (0x0804, false, 1, some 1),
   (0x0805, false, 4, some 1), (0x0901, false, 1, some 0), (0x0902, false, 1, none), (0x0903, false, 17, none),
   (0x0A01, true, 1, none)]

/-- Row of a source code in R407. -/
def sourceRow (code : Nat) : Option (Nat × Bool × Nat × Option Nat) := sourceTable.find? (fun r => r.1 == code)

/-- FLT block (R422, R423). -/
def fltFields (off : Nat) : List FieldRow :=
  match off with
  | 0x000 => [rw_ 0 1 .warm, rw_ 8 5 .warm 0x11, rw_ 16 16 .warm 200 [(200, 20000)]]
  | 0x004 => [ro 0 1 (some .warm), ro 1 1 (some .warm), ro 16 9 (some .warm)]
  | 0x008 => [ro 0 32 (some .cold)]
  | 0x00C => [ro 0 32 (some .cold)]
  | 0x010 => [w1c 0 11 (some .warm)]
  | _ =>
    if 0x100 ≤ off ∧ off < 0x158 then
      match off % 8 with
      | 0 => [ro 0 16 (some .warm), w1c 16 1 (some .warm), w1c 17 1 (some .warm), ro 18 1 (some .warm)]
      | 4 => [ro 0 32 (some .warm)]
      | _ => []
    else if atStride off 0x200 4 6 then cnt .warm
    else if 0x1000 ≤ off ∧ off % 4 = 0 then
      match sourceRow (((off - 0x1000) / 4 / 32) * 256 + ((off - 0x1000) / 4) % 32) with
      | some r => [rw_ 0 5 .warm r.2.2.1, ro 6 2 (some .warm), ro 8 1 (some .warm), ro 9 1 (some .warm), ro 16 16 (some .warm)]
      | none => []
    else []

/-- UPD block (R444, R445). -/
def updFields (off : Nat) : List FieldRow :=
  match off with
  | 0x000 => [rw_ 0 17 .warm 600 [(60, 86400)]]
  | 0x004 => [ro 0 8 (some .warm), ro 8 8 (some .warm), ro 16 1 (some .warm), ro 17 1 (some .warm), ro 18 2 (some .warm), ro 20 1 (some .warm)]
  | 0x008 => [ro 0 32 (some .warm)]
  | 0x00C => [ro 0 32 (some .warm)]
  | 0x010 => [ro 0 1 (some .cold), ro 1 1 (some .cold), ro 2 1 (some .cold)]
  | _ =>
    if 0x040 ≤ off ∧ off < 0x080 then
      match off % 0x10 with
      | 0x0 => [ro 0 1 (some .cold), ro 1 3 (some .cold), ro 4 3 (some .cold), ro 7 1 (some .cold)]
      | 0x4 => [ro 0 32 (some .cold)]
      | 0x8 => [ro 0 32 (some .cold)]
      | _ => []
    else if atStride off 0x100 4 5 then cnt .warm
    else []

/-- TAG block (R446). -/
def tagFields : Nat → List FieldRow
  | 0x000 => [ro 0 16 (some .cold)]
  | 0x004 => [ro 0 16 (some .cold)]
  | 0x010 => cnt .warm
  | _ => []

/-- CMDQ block (R60, R61, R321). -/
def cmdqFields (off : Nat) : List FieldRow :=
  match off with
  | 0x000 => [rw_ 0 8 .warm 16 [(1, 64)], rw_ 16 16 .warm 30]
  | 0x004 => [ro 0 8 (some .warm), ro 8 9 (some .warm)]
  | 0x040 => [rw_ 12 20 .warm]
  | 0x044 => [rw_ 0 32 .warm]
  | 0x048 => [rw_ 0 4 .warm 4 [(4, 8)], rw_ 4 1 .warm]
  | 0x04C => [rw_ 0 8 .warm]
  | 0x050 => [ro 0 8 (some .warm)]
  | 0x054 => [ro 0 8 (some .warm)]
  | 0x058 => [rw_ 0 8 .warm]
  | _ => if atStride off 0x010 4 7 ∨ atStride off 0x080 4 7 then cnt .warm else []

/-- A space-0 address lies in no reserved range of R26. -/
def inBlock (addr : Nat) : Bool :=
  decide (addr < 0x150000) && !(decide (0x70000 ≤ addr) && decide (addr < 0x80000))

/-- The fields of the word at a space-0 address; empty where no register stands there. `pers` and `mb` give the
personality of each channel and whether it runs the Modbus service. -/
def fieldsOf (itripMax : Nat) (pers : Nat → Nat) (mb : Nat → Bool) (addr : Nat) : List FieldRow :=
  let off := addr % 0x10000
  match addr / 0x10000 with
  | 0x00 => sysFields off
  | 0x01 => rstFields off
  | 0x02 => pwrFields off
  | 0x03 => outFields itripMax off
  | 0x04 => timeFields off
  | 0x05 => ringFields off
  | 0x06 => swFields off
  | 0x0E => dlFields off
  | 0x0F => mapFields off
  | 0x10 => cvFields off
  | 0x11 => fltFields off
  | 0x12 => updFields off
  | 0x13 => tagFields off
  | 0x14 => cmdqFields off
  | b =>
    if 0x08 ≤ b ∧ b < 0x0C then
      let n := (addr - 0x80000) / 0x800
      channelFields (pers n) (mb n) ((addr - 0x80000) % 0x800)
    else if 0x0C ≤ b ∧ b < 0x0E then leFields (addr % 0x1000)
    else []

/-- The word that the reset values of a row spell. -/
def resetWord (fs : List FieldRow) : Nat := fs.foldl (fun w f => setBits w f.lo f.w f.rst) 0

/-- The row is a counter register: one RC field of 32 bits (R23). -/
def isCounter (fs : List FieldRow) : Bool :=
  match fs with
  | [f] => f.ty == .rc && f.lo == 0 && f.w == 32
  | _ => false

/-- The reach `r` of a reset covers a field's reach (R9). -/
def Reach.covers (r f : Reach) : Bool :=
  match r, f with
  | .cold, _ => true
  | .warm, .cold => false
  | .warm, _ => true
  | .service, .service => true
  | .service, .block => true
  | .service, _ => false
  | .block, .block => true
  | .block, _ => false

end Sys2Proof.Machine
end

