-- ==== Sys2Proof/Machine/Sparse.lean ====
section
/-! DEFINITION. Tables with few entries: reading, writing and their canonical form. -/

namespace Sys2Proof.Machine

open Sys2Proof

/-- What key `k` holds: its entry, or `d` where it is not listed. -/
def sget {α : Type} (d : α) : Sparse α → Nat → α
  | [], _ => d
  | (a, v) :: t, k => if a = k then v else sget d t k

/-- Insert or replace the entry of `k`, keeping keys rising. -/
def sins {α : Type} : Sparse α → Nat → α → Sparse α
  | [], k, v => [(k, v)]
  | (a, w) :: t, k, v =>
    if k < a then (k, v) :: (a, w) :: t
    else if a = k then (k, v) :: t
    else (a, w) :: sins t k v

/-- Drop the entry of `k`. -/
def sdel {α : Type} : Sparse α → Nat → Sparse α
  | [], _ => []
  | (a, w) :: t, k => if a = k then t else (a, w) :: sdel t k

/-- Write `v` at `k`: a value equal to what an unlisted key reads as (`d`) removes the entry. -/
def sput {α : Type} [DecidableEq α] (d : α) (m : Sparse α) (k : Nat) (v : α) : Sparse α :=
  if v = d then sdel m k else sins m k v

/-- Change what `k` holds by `f`. -/
def smod {α : Type} [DecidableEq α] (d : α) (m : Sparse α) (k : Nat) (f : α → α) : Sparse α :=
  sput d m k (f (sget d m k))

/-- Keys strictly rising, all above `lo` where one is given. -/
def srising {α : Type} : Option Nat → Sparse α → Bool
  | _, [] => true
  | none, (a, _) :: t => srising (some a) t
  | some b, (a, _) :: t => decide (b < a) && srising (some a) t

/-- The canonical form: keys strictly rising, no entry equal to what an unlisted key reads as. -/
def swf {α : Type} [DecidableEq α] (d : α) (m : Sparse α) : Bool :=
  srising none m && m.all (fun e => decide (e.2 ≠ d))

end Sys2Proof.Machine
end

