-- ==== Sys2Proof/Machine/Ops.lean ====
section
/-! DEFINITION. Shared operations: time, register words and counters, events, hub state, fault detections, completion of
commands, and access to ports, channels, engines and outlets. -/

namespace Sys2Proof.Machine

open Sys2Proof

/-! ## Time (R11, R12, R364) -/

/-- Ring nanoseconds: seconds · 10⁹ + nanoseconds (R11). -/
def ringNs (s : State) : Nat := s.time.seconds * 1000000000 + s.time.ns

/-- The present tick: of ring time where the hub holds it (R11, R466), else of its own counter (R148, R364). -/
def tickNow (s : State) : Nat := if s.time.holds then ringNs s / 500 else s.time.up

/-- The present time in ns on the scale of `tickNow`. -/
def nsNow (s : State) : Nat := if s.time.holds then ringNs s else s.time.up * 500

/-- The cycle of the present tick (R12). -/
def cycleNow (s : State) : Nat := tickNow s / s.maps.n

/-- What one own tick of 500 ns adds to ring time, in 2^−16 ns: its length corrected by the rate adjustment (R151, R152; log entry 2). -/
def tickFine (rate : Int) : Nat := (32768000 + 32768000 * rate / 1000000000000).toNat

/-- Ring time one own tick later (R151): the fraction carries into NS, and NS into SECONDS. -/
def ringTick (t : TimeState) : TimeState :=
  let f := t.frac + tickFine t.rate
  let n := t.ns + f / 65536
  { t with frac := f % 65536, ns := n % 1000000000, seconds := (t.seconds + n / 1000000000) % 2 ^ 48 }

/-- Where the next tick begins, on the scale of `nsNow` (R151). -/
def nextNs (s : State) : Nat :=
  if s.time.holds then (let t := ringTick s.time; t.seconds * 1000000000 + t.ns) else (s.time.up + 1) * 500

/-- Own ticks passed since `t` (R364). -/
def since (t : Nat) (s : State) : Nat := s.time.up - t

/-! ## Sparse lookups -/

/-- The entry of `k`, if listed. -/
def slook {α : Type} : Sparse α → Nat → Option α
  | [], _ => none
  | (a, v) :: t, k => if a = k then some v else slook t k

/-! ## Register words -/

/-- Address of a channel register (R26). -/
def chnAddr (ch off : Nat) : Nat := 0x80000 + ch * 0x800 + off

/-- Address of an engine register (R26). -/
def leAddr (e off : Nat) : Nat := 0xC0000 + e * 0x1000 + off

/-- Base of a port set of the RING block (R98). -/
def portAddr (p : Port) (off : Nat) : Nat := 0x50000 + (match p with | .east => 0 | .west => 0x100) + off

/-- Word of a register whose reset value is given by `rst` or by the configuration in force (R439). -/
def wordOr (s : State) (addr : Nat) (rst : Nat) : Nat :=
  match slook s.csr addr with
  | some w => w.toNat
  | none => match slook s.cfgRegs addr with | some w => w.toNat | none => rst

/-- Personality of a channel: CHN_CFG.PERS (R204). -/
def pers (s : State) (ch : Nat) : Nat := bits (wordOr s (chnAddr ch 0) 0) 0 3

/-- MB_CFG.SERVICE of a channel (R258). -/
def mbOn (s : State) (ch : Nat) : Bool := bit (wordOr s (chnAddr ch 0x200) 0) 0

/-- Ordering code of the identity block: 1 LHY128-AI, 2 LHY128-AX (R19, R443). -/
def orderCode (s : State) : Nat := (sget 0 s.upd.ident 5).toNat

/-- Largest code of OUT_CFG0.ITRIP (R2). -/
def itripMax (s : State) : Nat := if orderCode s = 2 then 44 else 60

/-- The field rows of the register at a space-0 address. -/
def rowsAt (s : State) (addr : Nat) : List FieldRow := fieldsOf (itripMax s) (pers s) (mbOn s) addr

/-- Reset word of a register: what the configuration in force sets (R439), else its table's. -/
def resetOf (s : State) (addr : Nat) : Nat :=
  match slook s.cfgRegs addr with | some w => w.toNat | none => resetWord (rowsAt s addr)

/-- The register word kept in the CSR bank. -/
def csr (s : State) (addr : Nat) : Nat :=
  match slook s.csr addr with | some w => w.toNat | none => resetOf s addr

/-- Set the register word kept in the CSR bank: a word equal to the reset word is not listed. -/
def csrPut (addr w : Nat) (s : State) : State :=
  { s with csr := if w % 2 ^ 32 = resetOf s addr then sdel s.csr addr else sins s.csr addr (BitVec.ofNat 32 w) }

/-- Field `[lo + w − 1 : lo]` of a register. -/
def fld (s : State) (addr lo w : Nat) : Nat := bits (csr s addr) lo w

/-- Set one field of a register. -/
def setFld (addr lo w v : Nat) (s : State) : State := csrPut addr (setBits (csr s addr) lo w v) s

/-- Count `n` events in a counter register, saturating (R61 and its like), and in its total of space 6, modulo 2^64 (R23). -/
def bumpBy (addr n : Nat) (s : State) : State :=
  let w := min 0xFFFFFFFF (wordOr s addr 0 + n)
  { s with
    csr := if w = 0 then sdel s.csr addr else sins s.csr addr (BitVec.ofNat 32 w)
    totals := sput 0 s.totals addr (sget 0 s.totals addr + BitVec.ofNat 64 n) }

/-- Count one event. -/
def bump (addr : Nat) (s : State) : State := bumpBy addr 1 s

/-- Set a sticky bit of SYS_ERR (R19): 0 BAD_ENC, 1 BAD_ALIGN, 2 BAD_SPACE. -/
def sysErr (i : Nat) (s : State) : State := setFld 0x008 i 1 1 s

/-! ## Ports, channels, engines, outlets -/

def portSt (s : State) : Port → PortSt
  | .east => s.ring.east
  | .west => s.ring.west

def setPort (p : Port) (v : PortSt) (s : State) : State :=
  match p with
  | .east => { s with ring := { s.ring with east := v } }
  | .west => { s with ring := { s.ring with west := v } }

def modPort (p : Port) (f : PortSt → PortSt) (s : State) : State := setPort p (f (portSt s p)) s

/-- The number of a port: 0 EAST, 1 WEST. -/
def portNo : Port → Nat
  | .east => 0
  | .west => 1

def otherPort : Port → Port
  | .east => .west
  | .west => .east

def portOf (n : Nat) : Port := if n = 0 then .east else .west

def chan (s : State) (ch : Nat) : Chan := sget {} s.chans ch
def setChan (ch : Nat) (v : Chan) (s : State) : State := { s with chans := sput {} s.chans ch v }
def modChan (ch : Nat) (f : Chan → Chan) (s : State) : State := setChan ch (f (chan s ch)) s
def modCan (ch : Nat) (f : CanState → CanState) (s : State) : State := modChan ch (fun c => { c with can := f c.can }) s
def modMb (ch : Nat) (f : MbState → MbState) (s : State) : State := modChan ch (fun c => { c with mb := f c.mb }) s
def modIol (ch : Nat) (f : IolState → IolState) (s : State) : State := modChan ch (fun c => { c with iol := f c.iol }) s

def engine (s : State) (e : Nat) : Engine := sget {} s.engines e
def setEngine (e : Nat) (v : Engine) (s : State) : State := { s with engines := sput {} s.engines e v }
def modEngine (e : Nat) (f : Engine → Engine) (s : State) : State := setEngine e (f (engine s e)) s

def outlet (s : State) (o : Nat) : Outlet := sget {} s.power.outlets o
def setOutlet (o : Nat) (v : Outlet) (s : State) : State :=
  { s with power := { s.power with outlets := sput {} s.power.outlets o v } }
def modOutlet (o : Nat) (f : Outlet → Outlet) (s : State) : State := setOutlet o (f (outlet s o)) s

def line (s : State) (l : Nat) : Line := sget {} s.dl.lines l
def setLine (l : Nat) (v : Line) (s : State) : State := { s with dl := { s.dl with lines := sput {} s.dl.lines l v } }
def modLine (l : Nat) (f : Line → Line) (s : State) : State := setLine l (f (line s l)) s

def dlBank (s : State) (b : Nat) : DlBank := sget {} s.dl.banks b
def modDlBank (b : Nat) (f : DlBank → DlBank) (s : State) : State :=
  { s with dl := { s.dl with banks := sput {} s.dl.banks b (f (dlBank s b)) } }

def modSw (f : SwState → SwState) (s : State) : State := { s with sw := f s.sw }
def modRing (f : RingState → RingState) (s : State) : State := { s with ring := f s.ring }
def modTime (f : TimeState → TimeState) (s : State) : State := { s with time := f s.time }
def modMaster (f : MasterState → MasterState) (s : State) : State := { s with master := f s.master }
def modMaps (f : MapState → MapState) (s : State) : State := { s with maps := f s.maps }
def modPower (f : PowerState → PowerState) (s : State) : State := { s with power := f s.power }
def modReset (f : ResetState → ResetState) (s : State) : State := { s with reset_ := f s.reset_ }
def modFaults (f : FaultState → FaultState) (s : State) : State := { s with faults := f s.faults }
def modUpd (f : UpdState → UpdState) (s : State) : State := { s with upd := f s.upd }
def modCv (f : CvState → CvState) (s : State) : State := { s with cv := f s.cv }
def modCmd (f : CmdState → CmdState) (s : State) : State := { s with cmd := f s.cmd }

/-- Apply `f` to each of a list of units in order. -/
def forEach (l : List Nat) (f : Nat → State → State) (s : State) : State := l.foldl (fun s i => f i s) s

/-- Do `f` where `b` holds. -/
def onlyIf (b : Bool) (f : State → State) (s : State) : State := if b then f s else s

/-! ## Free values -/

/-- Draw a value that the spec leaves open (log entry 5). -/
def draw (s : State) : Nat × State := (Config.freeValue s.fresh, { s with fresh := s.fresh + 1 })

/-! ## Events (R54, R55) -/

/-- Events of a session that stand unread in the maintenance outbound queue or in the PCIE queues: undelivered still (R55, log
entry 28). -/
def outEvents (s : State) (n : Nat) : Nat :=
  let isEvent (b : List Byte) : Bool := b.getD 0 0 == 0x42 && b.getD 4 0 == BitVec.ofNat 8 n
  s.cmd.mntOut.countP (fun p => isEvent p.2) + (sget [] s.sw.queues 26).countP (fun f => f.src == 0 && isEvent f.payload)

/-- Give one event to one session that has `out` more undelivered: queue it, or count it lost and mark the loss. -/
def eventTo (code : Nat) (params : List Byte) (out made : Nat) (se : Session) : Session × Bool :=
  if se.events.length + out < 64 then
    ({ se with events := se.events ++ [⟨code, se.evSeq, se.lossPend, params, made⟩], evSeq := se.evSeq + 1, lossPend := false }, false)
  else ({ se with evSeq := se.evSeq + 1, lossPend := true }, true)

/-- A session takes an event: STATE goes to all, others by the mask; a suspended session is not open (R53). -/
def takesEvent (code : Nat) (se : Session) : Bool :=
  !se.suspended && (code == 1 || bit se.mask.toNat code)

/-- Send an event to the sessions it concerns, with the tick in front of its parameters. -/
def emit (code : Nat) (params : List Byte) (s : State) : State :=
  let ps := leBytes 8 (tickNow s) ++ params
  let r := s.cmd.sessions.map (fun se => if takesEvent code se then eventTo code ps (outEvents s se.num) s.cmd.made se else (se, false))
  bumpBy 0x140024 (r.countP (·.2)) { s with cmd := { s.cmd with sessions := r.map (·.1), made := s.cmd.made + 1 } }

/-- Number of a hub state (R15). -/
def hubNo : HubState → Nat
  | .off => 0
  | .boot => 1
  | .held => 2
  | .run => 3
  | .sleep => 4
  | .isolated => 5

/-- Change the hub state (R15, R17, R19): count it and send a STATE event. Where the spec gives no cause byte it is a free
value (log entry 5). -/
def toHub (new : HubState) (cause : Option Nat) (s : State) : State :=
  if s.hub = new then s
  else
    let (c, s) := match cause with | some c => (c, s) | none => draw s
    let s := if s.hub = .boot then modReset (fun x => { x with bootLastMs := if new = .off then x.bootLastMs else min 0xFFFF (since x.bootUp s / 2000) })
        (modCmd (fun x => { x with leftBootUp := s.time.up }) s) else s
    emit 1 (leBytes 1 (hubNo s.hub) ++ leBytes 1 (hubNo new) ++ leBytes 1 c)
      { s with hub := new, changes := min 0xFFFF (s.changes + 1) }

/-- The field side is live: maps, outputs and HEALTH as configured (R15). -/
def fieldLive (s : State) : Bool := s.hub == .run || s.hub == .isolated

/-! ## Completion of commands (R42) -/

/-- Store the outcome of a command in flight; its reply leaves in its place of the session. -/
def complete (session : Nat) (tag : Tag) (st : Status) (results : List Byte) (s : State) : State :=
  modCmd (fun c => { c with inflight := c.inflight.map (fun x =>
    if x.session = session ∧ x.tag = tag then
      match x.phase with
      | .ready _ _ => x
      | _ => { x with phase := .ready st results, effected := true }
    else x) }) s

/-! ## Faults (R405 to R421) -/

/-- Register address of a fault source (R422). -/
def srcAddr (code : Nat) : Nat := 0x111000 + ((code / 256) * 32 + code % 256 % 32) * 4

def faultSrc (s : State) (code : Nat) : Source := sget {} s.faults.sources code

def modSrc (code : Nat) (f : Source → Source) (s : State) : State :=
  modFaults (fun x => { x with sources := sput {} x.sources code (f (faultSrc s code)) }) s

/-- What a detection reports beside its source (R412). -/
structure Report where
  detail    : Nat := 0
  address   : Nat := 0
  initiator : Nat := 0
  initKind  : Nat := 0
  access    : Nat := 4
  inj       : Bool := false
  deriving DecidableEq, Repr

/-- DETAIL of a unit-scoped source: kind (0 channel, 1 engine, 2 outlet, 3 line, 4 bank) and number (R412). -/
def unitDetail (kind n : Nat) : Nat := kind * 256 + n

/-- MERGE_TICKS (R422). -/
def mergeTicks (s : State) : Nat := fld s 0x110000 16 16

/-- State of a source after a detection (R406, R420). -/
def srcAfter (cond inj : Bool) (st : SrcSt) : SrcSt :=
  if cond then (if inj then (if st = .active then .active else .pending) else .active) else .pending

/-- A further detection inside the handling interval merges (R416). -/
def mergeInto (code idx : Nat) (r : Report) (cond : Bool) (s : State) : State :=
  let same := match slook s.faults.log idx with
    | some e => r.inj && decide (e.time = (if s.time.holds then tickNow s * 500 else s.time.up)) && bit e.flags 0
    | none => false
  if same then
    -- R421: an injection of the very tick of a real record joins it as INJ_ALSO
    modSrc code (fun x => { x with st := srcAfter cond r.inj x.st })
      (modFaults (fun f => { f with log := match slook f.log idx with
        | some e => sins f.log idx { e with flags := setBits e.flags 2 1 1 }
        | none => f.log }) s)
  else
    let s := modFaults (fun f => { f with
      log := match slook f.log idx with
        | some e => sins f.log idx { e with merges := min 0xFFFF (e.merges + 1) }
        | none => f.log
      ovf := if (slook f.latches (code / 256)).isSome && !f.ovf.contains (code / 256) then (code / 256) :: f.ovf else f.ovf }) s
    bump 0x110204 (modSrc code (fun x => { x with st := srcAfter cond r.inj x.st, occur := min 0xFFFF (x.occur + 1) }) s)

/-- Write a new record (R411 to R413), fill or overflow the first-fault latch (R417), take PIN (R418), and queue the commit
and the reactions after it (R409). -/
def newRecord (code mask : Nat) (r : Report) (cond : Bool) (s : State) : State :=
  let seq := s.faults.head
  let idx := seq % 512
  let tv := s.time.holds
  let e : LogEntry := { seq := seq, source := code, flags := (if r.inj then 2 else 1) + (if tv then 16 else 0), reaction := mask,
                        time := (if tv then tickNow s * 500 else s.time.up), address := r.address, initiator := r.initiator,
                        initKind := r.initKind, access := r.access, merges := 0, detail := r.detail }
  let s := onlyIf (slook s.faults.log idx).isSome (bump 0x11020C) s
  let g := code / 256
  let full := (slook s.faults.latches g).isSome
  let s := modFaults (fun f => { f with
    log := sins f.log idx e
    head := if seq ≥ 0xFFFFFFFF then 1 else seq + 1
    latches := (if full then f.latches else sins f.latches g (code, seq, r.inj))
    ovf := if full && !f.ovf.contains g then g :: f.ovf else f.ovf
    commits := f.commits ++ [(idx, s.time.up)] }) s
  bump 0x110200 (modSrc code (fun x => { x with
    st := srcAfter cond r.inj x.st, occur := min 0xFFFF (x.occur + 1)
    pinHeld := x.pinHeld || bit mask 4, handling := some (idx, s.time.up) }) s)

/-- One detection of a source (R406, R409, R411, R415 to R417). -/
def detect (code : Nat) (r : Report) (s : State) : State :=
  match sourceRow code with
  | none => s
  | some row =>
    let cond := row.2.1
    if s.faults.frozen then
      bump 0x110214 (modFaults (fun f => { f with frozenCount := f.frozenCount + 1 }) s)
    else
      let react := bits (csr s (srcAddr code)) 0 5
      let mask := if r.inj then Nat.land react (fld s 0x110000 8 5) else react
      match (faultSrc s code).handling with
      | some (idx, t0) =>
        if since t0 s < mergeTicks s then mergeInto code idx r cond s else newRecord code mask r cond s
      | none => newRecord code mask r cond s

/-- A fault of a unit (R412). -/
def unitFault (code kind n : Nat) (s : State) : State := detect code { detail := unitDetail kind n, initiator := n } s

/-- A condition of a condition source has ended (R406): PENDING unless `still` some unit shows it. -/
def condEnd (code : Nat) (still : Bool) (s : State) : State :=
  onlyIf (!still) (modSrc code (fun x => if x.st = .active then { x with st := .pending } else x)) s

/-- A PCIe access refused under R4 or R22. -/
def pcieBad (requester addr : Nat) (write : Bool) (s : State) : State :=
  detect 0x0001 { address := addr, initiator := requester, initKind := 2, access := if write then 2 else 1 } s

/-- HEALTH (R15, R394, R418): the level of the ball; low where it is not driven. -/
def health (s : State) : Bool :=
  (fieldLive s || (s.hub == .sleep && s.power.sleepLevel == 1)) && !(s.faults.sources.any (·.2.pinHeld))

/-- Number of a status code (R56). -/
def statusNo : Status → Nat
  | .ok => 0
  | .notReady => 1
  | .busy => 2
  | .tooLate => 3
  | .badCrc => 4
  | .badLength => 5
  | .unknownOpcode => 6
  | .version => 7
  | .denied => 8
  | .locked => 9
  | .aborted => 10
  | .lost => 11
  | .timeout => 12
  | .noAck => 13
  | .expired => 14
  | .engineActive => 15
  | .queueFull => 16
  | .farError => 17
  | .budget => 18

end Sys2Proof.Machine
end

