-- ==== Sys2Proof/Machine/Discrete.lean ====
section
/-! DEFINITION. Discrete lines: edges, levels, trips and outputs (R322 to R330). -/

namespace Sys2Proof.Machine

open Sys2Proof

/-! ## Settings (R344) -/

def dlMode (s : State) (l : Nat) : Nat := fld s (0xE0000 + l * 4) 0 3
def dlFilt (s : State) (l : Nat) : Nat := fld s (0xE0000 + l * 4) 3 4
def dlCatch (s : State) (l : Nat) : Bool := fld s (0xE0000 + l * 4) 7 1 == 1
def dlOwn (s : State) (l : Nat) : Nat := fld s (0xE0000 + l * 4) 8 2
def dlEngine (s : State) (l : Nat) : Nat := fld s (0xE0000 + l * 4) 10 5
def dlInit (s : State) (l : Nat) : Bool := fld s (0xE0000 + l * 4) 15 1 == 1

def isOutput (s : State) (l : Nat) : Bool := dlMode s l == 3 || dlMode s l == 4

/-- Lines of a bank. -/
def bankLines (b : Nat) : List Nat := upFrom (16 * b) 16

/-- The bank is faulted (R325). -/
def bankFault (s : State) (b : Nat) : Bool := (dlBank s b).trip || (dlBank s b).uv

/-- Sixteen bits from one function of the lines of a bank. -/
def bankBits (b : Nat) (f : Nat → Bool) : Nat := ((List.range 16).map (fun i => b2n (f (16 * b + i)) * 2 ^ i)).sum

/-! ## Levels (R323, R326 to R329) -/

/-- Filtered level of a line at the end of the tick before `t`; 0 in mode OFF (R323, R329). -/
def levelBefore (s : State) (l t : Nat) : Bool :=
  dlMode s l != 0 && (if (line s l).edgeTick ≥ t then (line s l).before else (line s l).level)

/-- Filtered level of a line now. -/
def levelNow (s : State) (l : Nat) : Bool := dlMode s l != 0 && (line s l).level

/-- What the hub drives on a line: none while it is high-impedance or sinks nothing (R322, R324 to R326). -/
def lineDrive (s : State) (l : Nat) : Option Bool :=
  if isOutput s l && (line s l).enabled && !(line s l).tripped && !bankFault s (l / 16)
      && (fieldLive s || (s.hub == .sleep && s.power.sleepLevel == 1)) then
    (if (line s l).commanded then some true else if dlMode s l = 4 then some false else none)
  else none

/-- Filter time of a line in ns (R327). -/
def filterNs (s : State) (l : Nat) : Nat :=
  match dlFilt s l with
  | 0 => 0
  | 1 => 1000
  | 2 => 2000
  | 3 => 5000
  | 4 => 10000
  | 5 => 20000
  | 6 => 50000
  | 7 => 100000
  | 8 => 200000
  | 9 => 500000
  | 10 => 1000000
  | 11 => 2000000
  | 12 => 3000000
  | 13 => 5000000
  | _ => 10000000

/-- LINE_GLITCH (R327): a change held for `heldNs` only, less than the filter time, is removed and counted. A line in mode OFF is not
sampled. -/
def lineGlitch (l heldNs : Nat) (s : State) : State :=
  onlyIf (dlMode s l != 0 && decide (heldNs < filterNs s l) && !s.reset_.inReset) (bump 0xE0300) s

/-- DISCRETE_EDGE (R323, R327): a change at the ball, whatever drives it, that has held for `heldNs`; one that has not held for the filter
time is removed. A line that is not sampled stamps no edge: it stands at the ball's level when it is sampled again. -/
def discreteEdge (l : Nat) (lv : Bool) (stamp heldNs : Nat) (s : State) : State :=
  if (line s l).level = lv then s
  else if dlMode s l = 0 ∨ s.reset_.inReset then modLine l (fun x => { x with level := lv, before := lv }) s
  else if heldNs < filterNs s l then lineGlitch l heldNs s
  else modLine l (fun x => { x with
    level := lv
    before := if x.edgeTick = stamp then x.before else x.level
    edgeTick := stamp
    rises := if lv then x.rises ++ [stamp] else x.rises }) s

/-- Level that the gather of cycle k takes for a line (R271, R328). -/
def gatherLine (s : State) (l k : Nat) : Bool :=
  let tk := k * s.maps.n
  levelBefore s l tk || (dlCatch s l && dlMode s l != 0
    && (line s l).rises.any (fun t => decide (t + s.maps.n ≥ tk) && decide (t < tk)))

/-- Rising edges of the cycles gathered are forgotten. -/
def dropRises (k : Nat) (s : State) : State :=
  forEach (List.range 128) (fun l => modLine l (fun x => { x with rises := x.rises.filter (fun t => decide (t ≥ k * s.maps.n)) })) s

/-! ## Trips (R324, R325) -/

def anyLineTripped (s : State) : Bool := (List.range 128).any (fun l => (line s l).tripped)
def anyBankTripped (s : State) : Bool := (List.range 8).any (fun b => (dlBank s b).trip)
def anyBankUv (s : State) : Bool := (List.range 8).any (fun b => (dlBank s b).uv)

/-- Rated current of a line and of a bank in mA, by ordering code (R1, R322). -/
def lineRating (s : State) : Nat := if orderCode s = 2 then 400 else 500
def bankRating (s : State) : Nat := if orderCode s = 2 then 1600 else 2000

/-- The current limit of a line (R324). -/
def lineLimit (s : State) : Nat := lineRating s * 3 / 2

/-- DL_LINE_TRIP (R324): held in its limit for 1 ms while driven, or its FET above 150 °C at any time. -/
def dlLineTrip (l loadMa us fetC : Nat) (s : State) : State :=
  let limited := (lineDrive s l).isSome && decide (lineLimit s ≤ loadMa) && decide (1000 ≤ us)
  if isOutput s l && !(line s l).tripped && (decide (150 < fetC) || limited) then
    unitFault 0x0801 3 l (bump 0xE0304 (modLine l (fun x => { x with tripped := true }) s))
  else s

/-- DL_LINE_TRIP_CLEAR (R324): ones written to DL_LINE_TRIP; the lines take their commanded levels. -/
def dlLineTripClear (b mask : Nat) (s : State) : State :=
  let s := forEach ((List.range 16).filter (fun i => bit mask i)) (fun i => modLine (16 * b + i) (fun x => { x with tripped := false })) s
  condEnd 0x0801 (anyLineTripped s) s

/-- DL_BANK_TRIP (R325): the sum of the output currents stands above the bank rating for 5 ms. -/
def dlBankTrip (b sumMa us : Nat) (s : State) : State :=
  if (dlBank s b).trip || !(bankLines b).any (fun l => (lineDrive s l).isSome) || decide (sumMa ≤ bankRating s) || decide (us < 5000) then s
  else unitFault 0x0802 4 b (bump 0xE0308 (modDlBank b (fun x => { x with trip := true }) s))

/-- DL_BANK_TRIP_CLEAR (R325). -/
def dlBankTripClear (b : Nat) (s : State) : State :=
  let s := modDlBank b (fun x => { x with trip := false }) s
  condEnd 0x0802 (anyBankTripped s) s

/-- DL_BANK_UV (R325): the bank's VFB falls below 16 V, or recovers. -/
def dlBankUv (b : Nat) (low : Bool) (s : State) : State :=
  if (dlBank s b).uv = low then s
  else if low then unitFault 0x0803 4 b (modDlBank b (fun x => { x with uv := true }) s)
  else
    let s := modDlBank b (fun x => { x with uv := false }) s
    condEnd 0x0803 (anyBankUv s) s

/-! ## Outputs (R330) -/

/-- Set the lines of a bank that `mask` names to the bits of `value`. -/
def setLines (b value mask : Nat) (s : State) : State :=
  forEach ((List.range 16).filter (fun i => bit mask i)) (fun i => modLine (16 * b + i) (fun x => { x with commanded := bit value i })) s

/-- A DL_WRITE mask names host-owned outputs only (R330). -/
def dlMaskOk (s : State) (b mask : Nat) : Bool :=
  (List.range 16).all (fun i => !bit mask i || (isOutput s (16 * b + i) && dlOwn s (16 * b + i) == 0))

/-- DL_WRITE without EFFC, processed in tick `t`: the levels change at the start of tick t + 40 (R330). -/
def dlSchedule (t b value mask : Nat) (s : State) : State :=
  { s with dl := { s.dl with pend := s.dl.pend ++ [⟨t + 40, b, value, mask⟩] } }

/-- Scheduled writes whose tick has come take effect, in order (R330). -/
def dlRelease (s : State) : State :=
  let due := s.dl.pend.filter (fun p => decide (p.tick ≤ tickNow s))
  let s := { s with dl := { s.dl with pend := s.dl.pend.filter (fun p => decide (p.tick > tickNow s)) } }
  due.foldl (fun s p => setLines p.bank p.value p.mask s) s

/-- Outputs at the activation boundary (R326): INIT, for lines no engine owns. A tripped line stays off (R324). -/
def linesActivate (s : State) : State :=
  forEach (List.range 128) (fun l s =>
    modLine l (fun x => { x with commanded := isOutput s l && dlInit s l, enabled := true }) s) s

end Sys2Proof.Machine
end

