-- ==== Sys2Proof/Machine/Engines.lean ====
section
/-! DEFINITION. LUT engines: steps, FIFOs, stalls, starts, halts, loads and resets (R331 to R343). -/

namespace Sys2Proof.Machine

open Sys2Proof

/-! ## Settings (R346) -/

def leFld (s : State) (e off lo w : Nat) : Nat := fld s (leAddr e off) lo w
def leEn (s : State) (e : Nat) : Bool := leFld s e 0 0 1 == 1
def leAuto (s : State) (e : Nat) : Bool := leFld s e 0 1 1 == 1
def leMsb (s : State) (e : Nat) : Bool := leFld s e 0 2 1 == 1
def leWidth (s : State) (e : Nat) : Nat := leFld s e 0 3 6
def leInit (s : State) (e : Nat) : Nat := leFld s e 0 9 6

/-- Source of input position `p`, and line of output position `p` (31: none). -/
def leIn (s : State) (e p : Nat) : Nat := leFld s e (0x008 + (p / 4) * 4) (p % 4 * 8) 5
def leOut (s : State) (e p : Nat) : Nat := leFld s e (0x010 + (p / 4) * 4) (p % 4 * 8) 5

/-- Active states (R337). -/
def leActive : LeSt → Bool
  | .off => false
  | .idle => false
  | .halted => false
  | _ => true

def leNo : LeSt → Nat
  | .off => 0
  | .idle => 1
  | .armed => 2
  | .run => 3
  | .wait => 4
  | .stallPush => 5
  | .stallPull => 6
  | .halted => 7

/-- State of an engine as LE_STAT reports it: OFF while LE_CFG.EN is 0, IDLE once configured (R337). -/
def leState (s : State) (e : Nat) : LeSt :=
  if !leEn s e then .off
  else match (engine s e).st with
    | .off => .idle
    | x => x

/-- TICK_PEND (R331): set at every tick boundary, whatever the engine's state. -/
def tickPendNow (s : State) (e : Nat) : Bool :=
  let x := engine s e
  leEn s e && (x.tickPend || tickNow s != x.lastTick)

/-- Words of the pull FIFO visible to the engine (R335). -/
def pullVisible (s : State) (e : Nat) : List (Nat × Nat) := (engine s e).pull.filter (fun w => decide (w.2 ≤ s.time.up))

/-- Level of an input source (R331). -/
def leInput (s : State) (e src : Nat) : Bool :=
  if src < 16 then levelNow s (16 * (e / 4) + src)
  else match src with
    | 16 => (engine s e).count == leWidth s e
    | 17 => (pullVisible s e).isEmpty
    | 18 => decide ((engine s e).push.length ≥ 16)
    | 19 => tickPendNow s e
    | _ => false

/-- The eight input bits at an edge. -/
def leInputs (s : State) (e : Nat) : Nat := ((List.range 8).map (fun p => b2n (leInput s e (leIn s e p)) * 2 ^ p)).sum

/-- The engine's output levels and enables reach the lines that it owns (R332). -/
def drivePins (e : Nat) (s : State) : State :=
  forEach (List.range 8) (fun p s =>
    let l := leOut s e p
    if l < 16 ∧ dlOwn s (16 * (e / 4) + l) = 2 ∧ dlEngine s (16 * (e / 4) + l) = e then
      modLine (16 * (e / 4) + l) (fun x => { x with
        commanded := bit (engine s e).outs p, enabled := bit (engine s e).enables p }) s
    else s) s

/-- Halt values (R337): positions with HALTE take HALTV and are driven; the others keep level and enable. -/
def haltPins (e : Nat) (s : State) : State :=
  let v := leFld s e 0x01C 0 8
  let m := leFld s e 0x01C 8 8
  drivePins e (modEngine e (fun x => { x with
    outs := Nat.lor (Nat.land x.outs (255 - m)) (Nat.land v m), enables := Nat.lor x.enables m }) s)

/-! ## Actions (R333) -/

/-- A bit enters or leaves: SDIR 0 shifts right, SDIR 1 left (R333). -/
def shiftIn (msb : Bool) (w sh : Nat) (b : Bool) : Nat :=
  if msb then (sh * 2 + b2n b) % 2 ^ w else sh / 2 + b2n b * 2 ^ (w - 1)
def shiftOut (msb : Bool) (w sh : Nat) : Bool × Nat :=
  if msb then (bit sh (w - 1), (sh * 2) % 2 ^ w) else (bit sh 0, sh / 2)

/-- The entry stalls: PUSH on a full FIFO, PULL without a visible word (R336). -/
def stallOf (s : State) (e act : Nat) : Option LeSt :=
  if act = 3 ∧ (engine s e).push.length ≥ 16 then some .stallPush
  else if act = 4 ∧ (pullVisible s e).isEmpty then some .stallPull
  else none

/-- One entry is applied whole (R332 to R334). -/
def applyEntry (e : Nat) (ent : Nat) (ins : Nat) (s : State) : State :=
  let x := engine s e
  let w := leWidth s e
  let msb := leMsb s e
  let act := bits ent 5 3
  let arg := bits ent 0 5
  let out0 := bits ent 10 8
  let en := leFld s e 0x018 (8 * bits ent 8 2) 8
  let t := tickNow s
  let base : Engine := { x with
    lstate := bits ent 18 6, outs := out0, enables := en, st := .run, stalled := none, lastTick := t, tickPend := tickPendNow s e }
  let x' : Engine := match act with
    | 1 => { base with shift := shiftIn msb w x.shift (bit ins (arg % 8)), count := min w (x.count + 1) }
    | 2 =>
      let o := shiftOut msb w x.shift
      { base with shift := o.2, count := min w (x.count + 1), outs := setBits out0 (arg % 8) 1 (b2n o.1) }
    | 3 =>
      if arg % 2 = 0 then { base with push := x.push ++ [(x.shift, t)], shift := 0, count := 0, tickPend := false }
      else { base with push := x.push ++ [(x.counter, t)], tickPend := false }
    | 4 =>
      match pullVisible s e with
      | v :: _ => { base with pull := x.pull.erase v, shift := v.1 % 2 ^ w, count := 0 }
      | [] => base
    | 5 => { base with counter := match arg % 4 with
        | 0 => (x.counter + 1) % 2 ^ 32
        | 1 => (x.counter + 2 ^ 32 - 1) % 2 ^ 32
        | 2 => csr s (leAddr e 0x020)
        | _ => 0 }
    | 6 => { base with st := .wait, waitTick := t + arg + 1 }
    | 7 => { base with evtCode := arg, evtPend := true }
    | _ => base
  let s := drivePins e (setEngine e x' s)
  if act = 7 then
    let s := bump (leAddr e 0x088) s
    if leFld s e 0 15 1 = 1 then unitFault 0x0804 1 e s else s
  else s

/-- Results of LE_HALT (R340). -/
def haltResults (x : Engine) (abandoned inactive : Bool) : List Byte :=
  [BitVec.ofNat 8 (x.lstate % 64 + b2n abandoned * 64 + b2n inactive * 128), BitVec.ofNat 8 x.count, 0, 0] ++ leBytes 4 x.shift

/-- A stall spans the tick in which it begins, and every one that begins while it lasts (R336; log entry 13). -/
def stallTicks (e : Nat) (s : State) : State := onlyIf (engine s e).stalled.isSome (bump (leAddr e 0x084)) s

/-- The engine halts (R340): commands that asked for it are answered. -/
def haltNow (e : Nat) (s : State) : State :=
  let x := engine s e
  let ab := x.stalled.isSome
  let s := modEngine e (fun x => { x with
    st := .halted, hwidth := leWidth s e, stalled := none, haltPend := false, halting := [], abandoned := ab }) s
  x.halting.foldl (fun s c => complete c.1 c.2 .ok (haltResults x ab false) s) (haltPins e s)

/-- Ask for a halt (R340): at once in ARMED or WAIT, else at the next edge. -/
def askHalt (e : Nat) (who : Option (Nat × Tag)) (s : State) : State :=
  let st := leState s e
  let s := modEngine e (fun x => { x with haltPend := true, halting := x.halting ++ who.toList }) s
  if st = .armed ∨ st = .wait then haltNow e s else s

/-- What the engine does at an edge: it halts where that was asked (R340), waits (R333), or steps (R334, R336). -/
def takeEdge (e : Nat) (s : State) : State :=
  let x := engine s e
  if x.haltPend then haltNow e s
  else if leState s e = .wait ∧ tickNow s < x.waitTick then s
  else
    let ins := leInputs s e
    let ent := match x.stalled with
      | some v => v.toNat
      | none => (sget 0 x.table (x.lstate * 256 + ins)).toNat
    match stallOf s e (bits ent 5 3) with
    | some k =>
      if x.stalled.isSome then s
      else stallTicks e (bump (leAddr e 0x080) (modEngine e (fun x => { x with
        st := k, stalled := some (BitVec.ofNat 24 ent), tickPend := tickPendNow s e, lastTick := tickNow s }) s))
    | none => applyEntry e ent ins s

/-- Ring ns between two edges of an engine: DIV periods of 5 ns (R334, R346). -/
def edgeNs (s : State) (e : Nat) : Nat := 5 * (leFld s e 0x004 0 16 + 1)

/-- `ns` is an edge of the engine, in this tick and behind the edges that it has taken: start + j · DIV · 5 ns (R334). -/
def atEdge (s : State) (e ns : Nat) : Bool :=
  let x := engine s e
  decide (x.nextEdge ≤ ns) && (ns - x.nextEdge) % edgeNs s e == 0 && ns / 500 == tickNow s

/-- ENGINE_STEP (R334, R336, R340): the engine's edge at ring time `ns`. An instant off the engine's grid is no edge. -/
def engineStep (e ns : Nat) (s : State) : State :=
  let st := leState s e
  if !leActive st || st == .armed || !fieldLive s || !atEdge s e ns then s
  else takeEdge e (modEngine e (fun x => { x with nextEdge := ns + edgeNs s e }) s)

/-! ## Starts (R338, R339) -/

/-- Arm an engine for a start tick. -/
def arm (e tick : Nat) (keep : Bool) (s : State) : State :=
  modEngine e (fun x => { x with st := .armed, startTick := tick, keepShift := keep, haltPend := false }) s

/-- The start itself. -/
def startNow (e : Nat) (s : State) : State :=
  modEngine e (fun x => { x with
    st := .run, lstate := leInit s e, counter := 0, tickPend := false, lastTick := tickNow s, stalled := none, nextEdge := x.startTick * 500
    shift := if x.keepShift then x.shift else 0, count := if x.keepShift then x.count else 0, keepShift := false }) s

/-- ENGINE_START (R338, R339): the start tick of an ARMED engine has come. -/
def engineStart (e : Nat) (s : State) : State :=
  if leState s e = .armed ∧ (engine s e).startTick ≤ tickNow s ∧ fieldLive s then startNow e s else s

/-- LE_RESTART processed in tick `t` (R338): the refusal, or the state with the engine armed. -/
def restart (e t : Nat) (keep : Bool) (s : State) : Status × State :=
  let st := leState s e
  if st = .off then (.denied, s)
  else if leActive st then (.engineActive, s)
  else if keep ∧ leWidth s e ≠ (engine s e).hwidth then (.denied, s)
  else (.ok, arm e (t + 40) keep s)

/-- LE_GROUP_START processed in tick `t` (R339). A start tick that has begun when the command starts is too late, too. -/
def groupStart (mask tick t : Nat) (s : State) : Status × State :=
  let es := (List.range 32).filter (fun e => bit mask e)
  if es.any (fun e => leActive (leState s e)) then (.engineActive, s)
  else if es.any (fun e => leState s e == .off) then (.denied, s)
  else if tick > t + 120000000 then (.denied, s)
  else if tick < t + 40 ∨ tick ≤ tickNow s then (.tooLate, s)
  else (.ok, forEach es (fun e => arm e tick false) s)

/-! ## Loads and resets (R341, R342) -/

/-- Entry `i` of load bytes. -/
def loadEntry (bs : List Byte) (i : Nat) : Nat := rd bs (3 * i) 3

/-- Bits of ARG that an action does not use are 0 (R332, R333). -/
def entryOk (ent : Nat) : Bool :=
  let arg := bits ent 0 5
  match bits ent 5 3 with
  | 0 => arg == 0
  | 1 => decide (arg < 8)
  | 2 => decide (arg < 8)
  | 3 => decide (arg < 2)
  | 4 => arg == 0
  | 5 => decide (arg < 4)
  | _ => true

/-- Write table entries; an entry of 0 is not listed. -/
def writeTable (e first : Nat) (bs : List Byte) (s : State) : State :=
  modEngine e (fun x => { x with
    table := (List.range (bs.length / 3)).foldl (fun t i => sput 0 t (first + i) (BitVec.ofNat 24 (loadEntry bs i))) x.table }) s

/-- BLOCK reset of an engine (R342). -/
def engineReset (e : Nat) (s : State) : State :=
  let s := if leActive (leState s e) then haltNow e s else s
  let x := engine s e
  bumpBy (leAddr e 0x08C) (x.push.length + x.pull.length) (modEngine e (fun x => { x with
    lstate := 0, shift := 0, count := 0, counter := 0, push := [], pull := [], tickPend := false, lastTick := tickNow s, evtCode := 0, evtPend := false
    stalled := none, haltPend := false, abandoned := false }) s)

/-! ## FIFOs (R313 to R315, R335) -/

/-- Take one push-FIFO word on a host path: the engine word, its pop sequence; an empty read takes nothing (R314). -/
def popEngine (e : Nat) (s : State) : DWord × Nat × State :=
  let x := engine s e
  match x.push with
  | (w, _) :: t =>
    let q : DWord := BitVec.ofNat 64 (w + 2 ^ 63)
    (q, x.popSeq, modEngine e (fun x => { x with
      push := t, popSeq := (x.popSeq + 1) % 2 ^ 32
      history := (x.history ++ [(x.popSeq, q)]).drop (x.history.length + 1 - 64) }) s)
  | [] => (0, x.popSeq, s)

/-- Place one word in the pull FIFO, visible at tick t + 2 (R335); answers whether there was a place. -/
def pushEngine (e w : Nat) (s : State) : Bool × State :=
  if (engine s e).pull.length < 16 then (true, modEngine e (fun x => { x with pull := x.pull ++ [(w, s.time.up + 2)] }) s)
  else (false, s)

/-- A PACK word at its release instant (R335); a full FIFO has no place for it (log entry 14). -/
def packEngine (e w : Nat) (s : State) : State :=
  modEngine e (fun x => if x.pull.length < 16 then { x with pull := x.pull ++ [(w, s.time.up)] } else x) s

/-- LE_CTL with several action bits: the highest-ranked acts, RESET, HALT, RESTART, and BAD_ENC is set (R343). -/
def leCtl (e v : Nat) (s : State) : State :=
  let n := b2n (bit v 0) + b2n (bit v 1) + b2n (bit v 3)
  let s := onlyIf (decide (n > 1)) (sysErr 0) s
  if bit v 3 then engineReset e s
  else if bit v 0 then (if leActive (leState s e) then askHalt e none s else s)
  else if bit v 1 then (restart e (tickNow s) (bit v 2) s).2
  else s

end Sys2Proof.Machine
end

