-- ==== Sys2Proof/Machine/Channels.lean ====
section
/-! DEFINITION. What every channel has in common: queue words, the queue pool, item reports, states, join, disable and block
reset (R177 to R205). -/

namespace Sys2Proof.Machine

open Sys2Proof

/-! ## Queue words (R192) -/

/-- A queue word as it is taken from a queue: VALID set. -/
def qWord (end_ : Bool) (kind nb body : Nat) : DWord :=
  BitVec.ofNat 64 (2 ^ 63 + b2n end_ * 2 ^ 62 + kind * 2 ^ 59 + nb * 2 ^ 56 + body % 2 ^ 56)

def wordEnd (w : DWord) : Bool := bit w.toNat 62
def wordKind (w : DWord) : Nat := bits w.toNat 59 3
def wordNb (w : DWord) : Nat := bits w.toNat 56 3
def wordBody (w : DWord) : Nat := bits w.toNat 0 56

/-- DATA words of some bytes, END in the last (R192). `n` bounds the words. -/
def dataWords : Nat → List Byte → List DWord
  | 0, _ => []
  | n + 1, bs =>
    if bs.isEmpty then []
    else
      let part := bs.take 7
      let rest := bs.drop 7
      qWord rest.isEmpty 0 part.length (leVal part) :: dataWords n rest

/-- The bytes of DATA words. -/
def wordsData (ws : List DWord) : List Byte :=
  ws.flatMap (fun w => if wordKind w = 0 then leBytes (wordNb w) (wordBody w) else [])

/-- A received packet: STAMP, then DATA (R192). -/
def packetWords (tick : Nat) (bs : List Byte) : List DWord :=
  qWord bs.isEmpty 1 0 tick :: dataWords bs.length bs

/-- A STATUS word (R192). -/
def statusWord (w : StatusWord) : DWord := qWord true 2 0 (w.count * 2 ^ 48 + w.first % 2 ^ 32 * 2 ^ 16 + statusNo w.status)

/-- Words of a TX item in its queue (R192, R193). -/
def itemWords (i : TxItem) : Nat := b2n i.release.isSome + ceilDiv i.data.length 7

/-! ## The queue pool (R191, R194, R195) -/

/-- Cells of a number of queue words (R191). -/
def cellsFor (words : Nat) : Nat := ceilDiv words 8

def isMapItem (i : TxItem) : Bool := match i.producer with | .map => true | _ => false

def txWords (c : Chan) : Nat := (c.txq.map itemWords).sum + c.partPush.length
def txCells (c : Chan) : Nat := cellsFor (txWords c)
def rxCells (c : Chan) : Nat := cellsFor c.rxq.length

def txLimit (s : State) (ch : Nat) : Nat := bits (wordOr s (chnAddr ch 0x10) 0x00080200) 0 15
def txResv (s : State) (ch : Nat) : Nat := bits (wordOr s (chnAddr ch 0x10) 0x00080200) 16 15
def rxLimit (s : State) (ch : Nat) : Nat := bits (wordOr s (chnAddr ch 0x14) 0x00080200) 0 15
def rxResv (s : State) (ch : Nat) : Nat := bits (wordOr s (chnAddr ch 0x14) 0x00080200) 16 15

/-- Shared cells that a channel's queues hold: TX cells but those of cycle-released frames within the reserve, RX cells above
the reserve (R194, R195). -/
def sharedUsed (s : State) (ch : Nat) : Nat :=
  let c := chan s ch
  let m := cellsFor (((c.txq.filter isMapItem).map itemWords).sum)
  (txCells c - m) + (m - txResv s ch) + (rxCells c - rxResv s ch)

/-- CHN_POOL.SHARED_FREE (R195, R204). -/
def chPoolFree (s : State) : Nat :=
  65536 - ((List.range 128).map (fun ch => txResv s ch + rxResv s ch + sharedUsed s ch)).sum

/-- The TX queue takes an item (R195). -/
def txFits (s : State) (ch : Nat) (i : TxItem) : Bool :=
  let c := chan s ch
  let now := txCells c
  let cells := cellsFor (txWords c + itemWords i)
  decide (cells ≤ txLimit s ch) &&
    (if isMapItem i then
      let m := cellsFor (((c.txq.filter isMapItem).map itemWords).sum + itemWords i)
      let held := cellsFor (((c.txq.filter isMapItem).map itemWords).sum)
      decide (m ≤ txResv s ch) || decide (m - max held (txResv s ch) ≤ chPoolFree s)
    else decide (cells - now ≤ chPoolFree s))

/-- The RX queue takes `n` more words (R195, R196). -/
def rxFits (s : State) (ch n : Nat) : Bool :=
  let c := chan s ch
  let cells := cellsFor (c.rxq.length + n)
  decide (cells ≤ rxLimit s ch) &&
    (decide (cells ≤ rxResv s ch) || decide (cells - max (rxCells c) (rxResv s ch) ≤ chPoolFree s))

/-! ## Reports in queue position (R196 to R198) -/

def pushRx (ch : Nat) (ws : List DWord) (s : State) : State := modChan ch (fun c => { c with rxq := c.rxq ++ ws }) s

/-- Write the pending STATUS word once a cell is free (R198); the next failure that waits behind it is then the pending one. -/
def flushReport (ch : Nat) (s : State) : State :=
  match (chan s ch).pendRpt with
  | some w =>
    if rxFits s ch 1 then modChan ch (fun c => { c with
      rxq := c.rxq ++ [statusWord w], pendRpt := c.rptWaits.head?, rptWaits := c.rptWaits.drop 1 }) s
    else s
  | none => s

/-- Two failures merge: same status, consecutive sequences, a count up to 255 (R197). -/
def mergeable (w : StatusWord) (st : Status) (seq : Nat) : Bool :=
  decide (w.status = st) && (w.first + w.count) % 2 ^ 32 == seq % 2 ^ 32 && decide (w.count < 255)

/-- A failure enters a list of words: merged into the last one, or a word of its own (R197). -/
def addReport (st : Status) (seq : Nat) : List StatusWord → List StatusWord
  | [] => [⟨st, seq, 1⟩]
  | [w] => if mergeable w st seq then [{ w with count := w.count + 1 }] else [w, ⟨st, seq, 1⟩]
  | w :: t => w :: addReport st seq t

/-- The words not yet written: the pending one, and failures that wait behind it. -/
def rptWords (c : Chan) : List StatusWord := c.pendRpt.toList ++ c.rptWaits

/-- Report one failure (R197, R198): a word that it cannot join is written where a cell is free; else the failure waits its turn
behind it (log entry 99). -/
def report (ch : Nat) (st : Status) (seq : Nat) (s : State) : State :=
  let joins : Bool := match (rptWords (chan s ch)).getLast? with | some w => mergeable w st seq | none => true
  let s := onlyIf (!joins) (flushReport ch) s
  modChan ch (fun c =>
    let ws := addReport st seq (rptWords c)
    { c with pendRpt := ws.head?, rptWaits := ws.drop 1 }) s

/-- A received frame for which there is no room, or that stands behind a pending report (R196, R198). -/
def dropRx (ch : Nat) (s : State) : State :=
  let q := (chan s ch).rxSeq
  let s := bump (chnAddr ch 0x88) s
  report ch .queueFull q (modChan ch (fun c => { c with rxSeq := (q + 1) % 2 ^ 32 }) s)

/-- Place a received packet whole in the RX queue, stamped with the tick of its completion (R169, R192, R196, R198). -/
def storeRx (ch : Nat) (bs : List Byte) (stamp : Nat) (s : State) : State :=
  let s := flushReport ch s
  let ws := packetWords stamp bs
  if (chan s ch).pendRpt.isNone && rxFits s ch ws.length then
    bump (chnAddr ch 0x84) (modChan ch (fun c => { c with rxq := c.rxq ++ ws, rxSeq := (c.rxSeq + 1) % 2 ^ 32 }) s)
  else dropRx ch s

/-- Answer the producer of an item: the reply of a CH_SEND (R198), or of a transaction. -/
def answerItem (i : TxItem) (st : Status) (results : List Byte) (s : State) : State :=
  match i.producer with
  | .send se tag => complete se tag st results s
  | .txn se tag => complete se tag st results s
  | _ => s

/-- A TX item that does not complete OK: counted, reported at its place, answered (R197, R205). -/
def failItem (ch : Nat) (i : TxItem) (st : Status) (s : State) : State :=
  let s := match st with
    | .aborted => bump (chnAddr ch 0x94) s
    | .tooLate => bump (chnAddr ch 0x98) s
    | .noAck => bump (chnAddr ch 0x19C) s
    | _ => s
  let s := if st = .tooLate ∧ isMapItem i then unitFault 0x0601 0 ch s else s
  answerItem i st [] (report ch st i.seq s)

/-- Take an item out of the TX queue. -/
def removeItem (ch seq : Nat) (s : State) : State :=
  modChan ch (fun c => { c with
    txq := c.txq.filter (fun i => i.seq != seq)
    onWire := if c.onWire = some seq then none else c.onWire }) s

/-- Items complete with a status in queue order. -/
def failAll (ch : Nat) (is : List TxItem) (st : Status) (s : State) : State :=
  is.foldl (fun s i => failItem ch i st (removeItem ch i.seq s)) s

/-- An item that left in full (R197, R205). -/
def sentItem (ch : Nat) (i : TxItem) (leaveNs : Nat) (s : State) : State :=
  let s := bump (chnAddr ch 0x80) (removeItem ch i.seq s)
  match i.producer with
  | .send se tag => complete se tag .ok (leBytes 4 i.seq ++ leBytes 8 leaveNs) s
  | _ => s

/-- The transaction that an item belongs to knows the item by its sequence (R304). -/
def bindReq (i : TxItem) (seq : Nat) (r : CanReq) : CanReq :=
  if i.producer = .txn r.session r.tag then { r with itemSeq := seq } else r

/-- Queue an item (R195, R197): its sequence is the next of the channel. -/
def queueItem (ch : Nat) (i : TxItem) (s : State) : State :=
  modChan ch (fun c => { c with
    txq := c.txq ++ [{ i with seq := c.txSeq }], txSeq := (c.txSeq + 1) % 2 ^ 32
    can := { c.can with reqs := c.can.reqs.map (bindReq i c.txSeq) } }) s

/-- CHANNEL event (R54). -/
def channelEvent (ch kind : Nat) (s : State) : State := emit 4 [BitVec.ofNat 8 ch, BitVec.ofNat 8 kind] s

/-! ## States (R184 to R190) -/

/-- The channel takes part in a bus: its driver may work. -/
def sending (c : Chan) : Bool := (c.st == .active || c.st == .draining) && !c.resetting

/-- A frame partly received at a disable or reset is discarded and counted (R188, R190). Whether one stands there is an input
that no command names: a free value (log entry 5). -/
def cutPartial (ch : Nat) (s : State) : State :=
  let r := draw s
  bumpBy (chnAddr ch 0x8C) (r.1 % 2) r.2

/-- An item that the channel ends before it is queued takes its number and is reported (R188, R197). -/
def failOffer (ch : Nat) (i : TxItem) (st : Status) (s : State) : State :=
  let q := (chan s ch).txSeq
  failItem ch { i with seq := q } st (modChan ch (fun c => { c with txSeq := (q + 1) % 2 ^ 32 }) s)

/-- End what waits for the channel with ABORTED: a detection, an enable, stalled producers and transactions. -/
def abortWaiters (ch : Nat) (s : State) : State :=
  let c := chan s ch
  let s := match c.detect with | some d => complete d.session d.tag .aborted [] s | none => s
  let s := match c.enabling with | some (se, tag, _) => complete se tag .ok (leBytes 8 0) s | none => s
  let s := c.stalled.foldl (fun s x => failOffer ch x.1 .aborted s) s
  let s := c.can.reqs.foldl (fun s r => complete r.session r.tag .aborted [] s) s
  let s := match c.mb.exchange with
    | some x => (match x.user with | .txn se tag => complete se tag .aborted [] s | .poll _ => s)
    | none => s
  let s := c.mb.waiting.foldl (fun s w => complete w.1 w.2 .aborted [] s) s
  let s := c.iol.isdu.foldl (fun s w => complete w.1 w.2 .aborted [] s) s
  modChan ch (fun c => { c with
    detect := none, enabling := none, stalled := []
    can := { c.can with reqs := [], onBus := none }
    mb := { c.mb with exchange := none, waiting := [], round := [] }
    iol := { c.iol with isdu := [], isduRuns := false } }) s

/-- The channel enters DISABLED; each CH_DISABLE that waited for it is answered with the items aborted (R188). -/
def enterDisabled (ch : Nat) (s : State) : State :=
  let c := chan s ch
  let s := c.draining.foldl (fun s w => complete w.1 w.2 .ok (leBytes 4 c.drainAborted) s) s
  modChan ch (fun c => { c with
    st := .disabled, enabled := false, busIdle := false, onWire := none, draining := [], drainAborted := 0, aborting := false }) s

/-- CH_ENABLE (R187): DISABLED enters JOINING, after a block reset at its end (R189, R190). -/
def chanEnable (ch : Nat) (s : State) : State :=
  modChan ch (fun c => { c with st := if c.resetting then c.st else .joining, enabled := true, busIdle := false }) s

/-- The channel joins (R186, R187): the join tick answers an enable of the last millisecond. -/
def joinNow (ch : Nat) (s : State) : State :=
  let c := chan s ch
  let t := tickNow s
  let back : Bool := pers s ch == 3 && c.can.busOff
  let s := modChan ch (fun c => { c with
    st := .active, busIdle := true, joinTick := t, enabling := none, aliveSync := false
    can := if back then { c.can with busOff := false, tec := 0, rec_ := 0 } else c.can }) s
  let s := condEnd 0x0604 ((List.range 128).any (fun i => (chan s i).can.busOff)) s
  let s := channelEvent ch 3 (bump (chnAddr ch 0xA8) s)
  match c.enabling with
  | some (se, tag, up) => complete se tag .ok (leBytes 8 (if since up s ≤ 2000 then t else 0)) s
  | none => s

/-- The drained channel enters DISABLED and answers (R188). -/
def drainComplete (ch : Nat) (s : State) : State :=
  let c := chan s ch
  if c.st = .draining ∧ c.txq.isEmpty ∧ c.can.onBus.isNone then enterDisabled ch (abortWaiters ch (cutPartial ch s)) else s

/-- CH_DISABLE mode 0 (R188). In a block reset the channel rests in DISABLED at its end (R189, R190). -/
def chanDrain (ch : Nat) (s : State) : State :=
  let c := chan s ch
  match c.st with
  | .detect => enterDisabled ch (abortWaiters ch s)
  | .disabled => modChan ch (fun c => { c with enabled := false }) s
  | .off | .partner => s
  | _ => modChan ch (fun c => { c with st := .draining }) s

/-- CH_DISABLE mode 1 (R188): every queued item but a CAN frame on the bus completes with ABORTED; answers how many. -/
def chanAbort (ch : Nat) (s : State) : Nat × State :=
  let c := chan s ch
  match c.st with
  | .detect => (c.txq.length, enterDisabled ch (abortWaiters ch (failAll ch c.txq .aborted s)))
  | .off | .partner => (0, s)
  | .disabled => (c.txq.length, modChan ch (fun c => { c with enabled := false }) (failAll ch c.txq .aborted s))
  | _ =>
    let is := c.txq.filter (fun i => c.can.onBus != some i.seq)
    let s := modChan ch (fun c => { c with drainAborted := c.drainAborted + is.length }) (failAll ch is .aborted s)
    if c.can.onBus.isSome ∧ pers s ch = 3 then (is.length, modChan ch (fun c => { c with st := .draining, aborting := true }) s)
    else (is.length, enterDisabled ch (abortWaiters ch (cutPartial ch s)))

/-- Words of an item that no END has ended: the item completes with ABORTED, and what follows of it is discarded (R31, R316). -/
def cutPush (ch : Nat) (s : State) : State :=
  let ws := (chan s ch).partPush
  if ws.isEmpty then s
  else
    let i : TxItem := { seq := 0, release := none, data := wordsData ws, producer := .push, bad := none, attempts := 0 }
    failOffer ch i .aborted (modChan ch (fun c => { c with partPush := [], dropPush := true }) s)

/-- Block reset of a channel (R190); answers how many items were aborted. A drain that it interrupts has its queue empty, and ends with
the reset. -/
def chanReset (ch : Nat) (s : State) : Nat × State :=
  let c := chan s ch
  if c.st = .off ∨ c.st = .partner then (0, s)
  else
    let s := cutPush ch (failAll ch c.txq .aborted s)
    let s := abortWaiters ch (cutPartial ch s)
    let s := onlyIf (c.st == .draining) (enterDisabled ch) s
    let s := modChan ch (fun x => { x with
      st := .disabled, resetting := true, busIdle := false, onWire := none
      aliveTx := 0, aliveRx := 0, aliveSync := false, turnUntil := 0
      can := {}, mb := { outcomes := x.mb.outcomes, roundCycle := x.mb.roundCycle }, iol := {} }) s
    (c.txq.length, condEnd 0x0607 ((List.range 128).any (fun i => (chan s i).iol.st == .dqOverload))
      (condEnd 0x0604 ((List.range 128).any (fun i => (chan s i).can.busOff)) s))

/-- CHANNEL_RESET_END (R190). -/
def channelResetEnd (ch : Nat) (s : State) : State :=
  modChan ch (fun c => if c.resetting then
      { c with resetting := false, st := (if c.enabled then .joining else .disabled) } else c) s

/-- CLAMP_EVENT (R183): counted when longer than 1 µs. -/
def clampEvent (ch ns : Nat) (s : State) : State := onlyIf (decide (ns > 1000)) (bump (chnAddr ch 0xAC)) s

/-! ## Offering items (R173, R188, R195) -/

/-- The limits of 20 µs and 60 s from the processing tick of the command (R59, R173). -/
def releaseStatus (tick release : Nat) : Option Status :=
  let base := tick * 500
  if release < base + 20000 then some .tooLate else if release > base + 60000000000 then some .denied else none

/-- A release instant on the 5 ns grid (R172). -/
def onGrid (ns : Nat) : Nat := ceilDiv ns 5 * 5

/-- The status that the channel's state gives an item at once, if any (R188). -/
def offerStatus (c : Chan) : Option Status :=
  match c.st with
  | .partner => some .denied
  | .off | .disabled | .draining => some .aborted
  | _ => none

/-- The next failure of a status at a sequence would join the words not yet written, or none stands there: the channel may take the
item (R198). -/
def mayFail (c : Chan) (st : Status) (seq : Nat) : Bool :=
  c.pendRpt.isNone || (match (rptWords c).getLast? with | some w => mergeable w st seq | none => true)

/-- An item ends in its queue position with a status, once its report can be held (R197, R198). -/
def endItem (ch : Nat) (i : TxItem) (st : Status) (s : State) : State :=
  let s := flushReport ch s
  if mayFail (chan s ch) st i.seq then failItem ch i st (removeItem ch i.seq s) else s

/-- The item on the wire (R173, R185). -/
def wireItem (c : Chan) : Option TxItem := c.onWire.bind (fun q => c.txq.find? (fun i => i.seq == q))

/-- PRODUCER_WRITE_RESUME (R195): the stalled writer completes its write once a cell is free. -/
def producerWriteResume (ch : Nat) (s : State) : State :=
  match (chan s ch).stalled with
  | (i, _) :: t => if txFits s ch i then queueItem ch i (modChan ch (fun c => { c with stalled := t }) s) else s
  | [] => s

/-! ## Taking words (R200, R314) -/

/-- Take one word of the RX queue: the word, or all 0 from an empty queue, which is counted (R200). The word taken is kept
for re-reading with its sequence (R314, R315). -/
def popRx (ch : Nat) (s : State) : DWord × Nat × State :=
  let c := chan s ch
  match c.rxq with
  | w :: t =>
    (w, c.popSeq, modChan ch (fun c => { c with
      rxq := t, popSeq := (c.popSeq + 1) % 2 ^ 32
      history := (c.history ++ [(c.popSeq, w)]).drop (c.history.length + 1 - 64) }) s)
  | [] => (0, c.popSeq, bump (chnAddr ch 0xA4) s)

/-- Packets waiting: END words in the queue (R199, R204). -/
def rxPkts (c : Chan) : Nat := c.rxq.countP wordEnd

/-! ## Rate detection (R201, R202) -/

/-- Rates of R203. -/
def serialRates : List Nat :=
  [1200, 2400, 4800, 9600, 19200, 38400, 57600, 115200, 230400, 250000, 460800, 500000, 921600, 1000000, 2000000, 2500000,
   4000000, 5000000, 10000000, 12000000, 16000000, 20000000]

/-- SERIAL_RATE_CONFIRM (R202). -/
def serialRateConfirm (ch rate : Nat) (s : State) : State :=
  let c := chan s ch
  match c.detect with
  | some d =>
    if serialRates.contains rate ∧ (pers s ch = 1 ∨ pers s ch = 2) then
      let s := setFld (chnAddr ch 0x104) 0 25 rate s
      let s := modChan ch (fun c => { c with st := .disabled, detect := none, rateFound := rate }) s
      complete d.session d.tag .ok (leBytes 4 rate ++ leBytes 4 0) (channelEvent ch 1 s)
    else s
  | none => s

end Sys2Proof.Machine
end

