-- ==== Sys2Proof/Machine/Can.lean ====
section
/-! DEFINITION. The message-bus personality: frame records, reception, message objects, transmission, error states and rate
detection (R206 to R228). -/

namespace Sys2Proof.Machine

open Sys2Proof

/-! ## Frame records (R210 to R212) -/

def recId (b : List Byte) : Nat := bits (rd b 0 4) 0 29
def recIde (b : List Byte) : Bool := bit (rd b 0 4) 29
def recRtr (b : List Byte) : Bool := bit (rd b 0 4) 30
def recFdf (b : List Byte) : Bool := bit (rd b 0 4) 31
def recDlc (b : List Byte) : Nat := bits (rd b 4 1) 0 4
def recBrs (b : List Byte) : Bool := bit (rd b 4 1) 4
def recMode (b : List Byte) : Nat := rd b 5 1

/-- Payload bytes of a DLC (R211). -/
def dlcBytes (fdf rtr : Bool) (dlc : Nat) : Nat :=
  if rtr then 0
  else if !fdf then min dlc 8
  else match dlc with
    | 9 => 12
    | 10 => 16
    | 11 => 20
    | 12 => 24
    | 13 => 32
    | 14 => 48
    | 15 => 64
    | n => n

def recLen (b : List Byte) : Nat := dlcBytes (recFdf b) (recRtr b) (recDlc b)

def canAddr (ch off : Nat) : Nat := chnAddr ch off
def fdEn (s : State) (ch : Nat) : Bool := fld s (canAddr ch 0x100) 0 1 == 1

/-- The fault of a transmit record, if any (R212). -/
def recordFault (fd timed : Bool) (b : List Byte) : Option Status :=
  if b.length < 8 ∨ b.length ≠ 8 + recLen b then some .badLength
  else if (!recIde b && decide (recId b > 0x7FF)) || (recRtr b && recFdf b) || (recBrs b && !recFdf b) || (recFdf b && !fd)
    || (timed && decide (recMode b > 1)) || bits (rd b 4 1) 6 2 != 0 || rd b 6 2 != 0 then some .denied
  else none

/-! ## Object registers (R228) -/

def moCfg (s : State) (ch m : Nat) : Nat := csr s (canAddr ch (0x200 + m * 0x10))
def moId (s : State) (ch m : Nat) : Nat := csr s (canAddr ch (0x204 + m * 0x10))
def moMask (s : State) (ch m : Nat) : Nat := csr s (canAddr ch (0x208 + m * 0x10))

/-- The object admits the frame (R214). -/
def moMatches (s : State) (ch m : Nat) (b : List Byte) : Bool :=
  let c := moCfg s ch m
  let fmt := bits c 3 2
  bits c 0 2 == 1 && Nat.land (recId b) (moMask s ch m) == Nat.land (moId s ch m) (moMask s ch m) && recIde b == bit c 5
    && (fmt == 2 || (fmt == 1 && recFdf b) || (fmt == 0 && !recFdf b)) && (!recRtr b || bit c 6)

def moBuf (c : Chan) (m : Nat) : MoBuf := sget {} c.can.objects m
def modMo (ch m : Nat) (f : MoBuf → MoBuf) (s : State) : State :=
  modCan ch (fun x => { x with objects := sput {} x.objects m (f (sget {} x.objects m)) }) s

/-- A frame taken by a BUFFER object (R216). -/
def placeBuffer (ch m : Nat) (b : List Byte) (stamp : Nat) (s : State) : State :=
  let o := moBuf (chan s ch) m
  let fr := (stamp, b)
  if o.locks.isEmpty then
    if o.main.isSome ∧ o.new_ then
      bump (canAddr ch 0x1A8) (modMo ch m (fun o => { o with main := some fr, new_ := true, replaced := o.replaced + 1 }) s)
    else modMo ch m (fun o => { o with main := some fr, new_ := true }) s
  else if o.shadow.isNone then modMo ch m (fun o => { o with shadow := some fr }) s
  else
    unitFault 0x0603 0 ch (bump (canAddr ch 0x1AC) (modMo ch m (fun o => { o with shadow := some fr, ovr := true, overruns := o.overruns + 1 }) s))

/-- A lock is given back; with the last one a full shadow moves to main (R216). -/
def unlockMo (ch m : Nat) (s : State) : State :=
  modMo ch m (fun o =>
    let o := { o with locks := o.locks.drop 1 }
    if o.locks.isEmpty ∧ o.shadow.isSome then { o with main := o.shadow, new_ := true, shadow := none } else o) s

/-- The object is a BUFFER object for receiving (R216, R217). -/
def isBuffer (s : State) (ch m : Nat) : Bool := pers s ch == 3 && bits (moCfg s ch m) 0 2 == 1 && bit (moCfg s ch m) 2

/-- CAN_OBJECT_HEAD_READ (R217): the word read, the state after. A fifth lock is not taken. -/
def headRead (ch m : Nat) (s : State) : DWord × State :=
  if !isBuffer s ch m then (0, s)
  else
    let o := moBuf (chan s ch) m
    if o.locks.length ≥ 4 then (BitVec.ofNat 64 (b2n o.new_ * 2 ^ 62 + b2n o.ovr * 2 ^ 61), s)
    else
      let tick := match o.main with | some f => f.1 | none => 0
      (BitVec.ofNat 64 (b2n o.main.isSome * 2 ^ 63 + b2n o.new_ * 2 ^ 62 + b2n o.ovr * 2 ^ 61 + tick % 2 ^ 56),
       modMo ch m (fun o => { o with locks := o.locks ++ [s.time.up], new_ := false }) s)

/-- CAN_OBJECT_END_READ (R217). -/
def endRead (ch m : Nat) (s : State) : DWord × State :=
  if !isBuffer s ch m then (0, s)
  else
    let o := moBuf (chan s ch) m
    (BitVec.ofNat 64 (o.replaced % 2 ^ 32 + o.overruns % 2 ^ 32 * 2 ^ 32),
     unlockMo ch m (modMo ch m (fun o => { o with replaced := 0, overruns := 0 }) s))

/-- CAN_LOCK_TIMEOUT (R217): a lock held for 100 µs. -/
def canLockTimeout (ch m : Nat) (s : State) : State :=
  match (moBuf (chan s ch) m).locks with
  | t :: _ => if since t s ≥ 200 then bump (canAddr ch 0x1B0) (unlockMo ch m s) else s
  | [] => s

/-! ## Reception (R213 to R215, R224, R225) -/

/-- REC after a frame received without error, as ISO 11898-1 counts: above 127 it takes a value from 119 to 127 that the
standard leaves open (R206, R222; log entry 5). -/
def recDown (ch : Nat) (s : State) : State :=
  let r := (chan s ch).can.rec_
  if r = 0 then s
  else if r ≤ 127 then modCan ch (fun x => { x with rec_ := x.rec_ - 1 }) s
  else
    let d := draw s
    modCan ch (fun x => { x with rec_ := 119 + d.1 % 9 }) d.2

/-- The channel receives: its state and the bus admit it (R213, R222). -/
def canHears (c : Chan) : Bool :=
  (c.st == .active || c.st == .alone || c.st == .draining) && !c.can.busOff && !c.resetting

/-- Error-type counter of an error (R228). -/
def errOff : CanErr → Nat
  | .stuff => 0x180
  | .form => 0x184
  | .ack => 0x188
  | .bitRecessive => 0x18C
  | .bitDominant => 0x18C
  | .crc => 0x190

/-- Error code of LEC and DLEC (R228). -/
def errCode : CanErr → Nat
  | .stuff => 1
  | .form => 2
  | .ack => 3
  | .bitRecessive => 4
  | .bitDominant => 5
  | .crc => 6

def noteErr (ch : Nat) (k : CanErr) (dataPhase : Bool) (s : State) : State :=
  bump (canAddr ch (errOff k)) (modCan ch (fun x => if dataPhase then { x with dlec := errCode k } else { x with lec := errCode k }) s)

/-- CAN_RECEIVE_ERROR (R213): counted; REC rises by 1, and by 8 for each of the standard's cases of a dominant bit after the error
flag, a bit error in a flag and a run of dominant bits, of which there were `eights` (R206; log entry 33). In DETECT nothing is counted
against the bus (R226). -/
def canReceiveError (ch : Nat) (k : CanErr) (dataPhase : Bool) (eights : Nat) (s : State) : State :=
  if pers s ch = 3 ∧ canHears (chan s ch) then
    modCan ch (fun x => { x with rec_ := min 255 (x.rec_ + 1 + 8 * eights), idleFrom := 0 })
      (noteErr ch k dataPhase (bump (chnAddr ch 0x90) s))
  else s

/-- Transactions whose response a frame is (R214 step 1, R304). -/
def giveReqs (ch : Nat) (b : List Byte) (s : State) : Bool × State :=
  let hit (r : CanReq) : Bool := r.left && Nat.land (recId b) (bits r.respMask 0 29) == Nat.land (bits r.respId 0 29) (bits r.respMask 0 29)
    && recIde b == bit r.respId 29
  let rs := (chan s ch).can.reqs.filter hit
  (!rs.isEmpty, rs.foldl (fun s r => complete r.session r.tag .ok b s) (modCan ch (fun x => { x with reqs := x.reqs.filter (fun r => !hit r) }) s))

/-! ## Transmission (R219 to R221) -/

/-- Bit time of the arbitration phase, and of the data phase, in ns (R208). -/
def nomBitNs (s : State) (ch : Nat) : Nat :=
  let r := csr s (canAddr ch 0x108)
  5 * (bits r 0 10 + 1) * (1 + (bits r 10 8 + 1) + (bits r 18 7 + 1))
def dataBitNs (s : State) (ch : Nat) : Nat :=
  let r := csr s (canAddr ch 0x10C)
  5 * (bits r 0 5 + 1) * (1 + (bits r 5 5 + 1) + (bits r 10 4 + 1))

/-- Longest duration of a frame, stuff bits at their maximum and intermission included, in ns (R220). -/
def longestNs (s : State) (ch : Nat) (b : List Byte) : Nat :=
  let n := recLen b
  let nb := nomBitNs s ch
  if !recFdf b then
    let fixed := if recIde b then 64 else 44
    let stuffed := if recIde b then 54 else 34
    (fixed + 8 * n + (stuffed + 8 * n - 1) / 4 + 3) * nb
  else
    let head := if recIde b then 36 else 17
    let crc := if n ≤ 16 then 17 + 4 + 6 else 21 + 4 + 7
    let body := 5 + 8 * n
    let db := if recBrs b then dataBitNs s ch else nb
    (head + head / 4 + 12) * nb + (body + body / 4 + crc + 1) * db

/-- The window of the first 16 items (R219). -/
def canWindow (c : Chan) : List TxItem := c.txq.take 16

def sameId (a b : TxItem) : Bool := recId a.data == recId b.data && recIde a.data == recIde b.data

/-- Key of arbitration: a smaller one wins (R219). -/
def arbKey (b : List Byte) : Nat :=
  let base := if recIde b then recId b / 2 ^ 18 else recId b
  ((base * 2 + b2n (recIde b)) * 2 ^ 18 + (if recIde b then recId b % 2 ^ 18 else 0)) * 2 + b2n (recRtr b)

def onceWin (s : State) (ch : Nat) : Nat := fld s (canAddr ch 0x100) 16 16

/-- A timed ONCE item (R221). -/
def isOnce (i : TxItem) : Bool := i.release.isSome && recMode i.data == 1

/-- The longest frame of an item, started now, would reach into the release instant of a timed item of the window (R220). At that instant
the timed item goes first. -/
def guardBars (s : State) (ch : Nat) (i : TxItem) : Bool :=
  let now := nsNow s
  (canWindow (chan s ch)).any (fun j => match j.release with
    | some q => decide (now ≤ onGrid q) && decide (onGrid q < now + longestNs s ch i.data)
    | none => false)

/-- An attempt of the item may start in the present tick (R219 to R221). -/
def canEligible (s : State) (ch : Nat) (before : List TxItem) (i : TxItem) : Bool :=
  let now := nsNow s
  !before.any (fun j => sameId j i) && i.bad.isNone
    && (match i.release with
        | none => !guardBars s ch i
        | some r => decide (onGrid r < nextNs s) && (decide (now ≤ onGrid r)
            || ((!isOnce i || decide (now ≤ onGrid r + onceWin s ch * 1000)) && !guardBars s ch i)))

/-- Items of the window with those before them. -/
def withBefore : List TxItem → List TxItem → List (List TxItem × TxItem)
  | _, [] => []
  | pre, i :: t => (pre, i) :: withBefore (pre ++ [i]) t

/-- The item that the channel offers the bus (R219). -/
def canChoose (s : State) (ch : Nat) : Option TxItem :=
  let el := (withBefore [] (canWindow (chan s ch))).filterMap (fun p => if canEligible s ch p.1 p.2 then some p.2 else none)
  el.foldl (fun m i => match m with
    | none => some i
    | some j => if arbKey i.data < arbKey j.data then some i else some j) none

/-- A ONCE item has no further attempt (R221). -/
def onceOver (s : State) (ch : Nat) (i : TxItem) : Bool :=
  match i.release with
  | some r => isOnce i && (onceWin s ch == 0 || decide (onGrid r + onceWin s ch * 1000 < nsNow s))
  | none => false

/-- The window of a ONCE item is over and the item is not on the bus (R221). -/
def onceGone (s : State) (ch : Nat) (i : TxItem) : Bool :=
  isOnce i && (chan s ch).can.onBus != some i.seq && (match i.release with
    | some r => decide (onGrid r + onceWin s ch * 1000 < nsNow s)
    | none => false)

/-- ONCE_WINDOW_END (R221): the first ONCE item of the queue whose window is over and which is not on the bus. In ALONE and in bus-off
it is held. -/
def onceWindowEnd (ch : Nat) (s : State) : State :=
  let c := chan s ch
  if pers s ch ≠ 3 ∨ c.st = .alone ∨ c.can.busOff then s
  else match c.txq.find? (onceGone s ch) with
    | some i => endItem ch i .tooLate s
    | none => s

/-- The channel is back from ALONE or bus-off: ONCE items whose window has passed end first, in queue order (R221). -/
def backToBus (ch : Nat) (s : State) : State := failAll ch ((chan s ch).txq.filter (onceGone s ch)) .tooLate s

/-- The record as it stands on the bus: ESI shows the error state, whatever the item asks (R207). -/
def wireRecord (c : Chan) (b : List Byte) : List Byte :=
  let passive := decide (c.can.tec > 127) || decide (c.can.rec_ > 127)
  if recFdf b then setAt b 4 (BitVec.ofNat 8 (setBits (rd b 4 1) 5 1 (b2n passive))) else b

/-- An attempt starts (R219): each after the first of its item is counted. -/
def canStart (ch : Nat) (i : TxItem) (s : State) : State :=
  modChan ch (fun c => { c with
    busIdle := false, lastSent := wireRecord c i.data
    txq := c.txq.map (fun j => if j.seq = i.seq then { j with attempts := j.attempts + 1 } else j)
    can := { c.can with onBus := some i.seq } }) (onlyIf (decide (i.attempts > 0)) (bump (canAddr ch 0x198)) s)

/-- What keeps an item at the head of the queue from being sent at all: a defect, or the FD format while it is not enabled (R207, R212;
log entry 100). -/
def canDefect (s : State) (ch : Nat) (i : TxItem) : Option Status :=
  match i.bad with
  | some st => some st
  | none => if recFdf i.data && !fdEn s ch then some .denied else none

/-- The channel offers the bus its choice, where the bus is idle (R219). -/
def canOffer (ch : Nat) (s : State) : State :=
  let c := chan s ch
  if pers s ch ≠ 3 ∨ c.can.onBus.isSome ∨ !sending c ∨ c.can.busOff then s
  else
    match c.txq.head?.bind (fun i => (canDefect s ch i).map (fun st => (i, st))) with
    | some (i, st) => endItem ch i st s
    | none =>
      if !c.busIdle ∨ c.pendRpt.isSome then s
      else match canChoose s ch with
        | some i => if (canDefect s ch i).isSome then s else canStart ch i s
        | none => s

/-- Bus-off entry (R223): without automatic recovery the channel enters DISABLED and keeps its items. -/
def busOffEnter (ch : Nat) (s : State) : State :=
  let s := modCan ch (fun x => { x with busOff := true, tec := 255, onBus := none }) s
  let s := unitFault 0x0604 0 ch (bump (canAddr ch 0x1A0) s)
  if fld s (canAddr ch 0x100) 1 1 = 1 then s else enterDisabled ch s

/-- BUS_OFF_RECOVERY (R223). -/
def busOffRecovery (ch : Nat) (s : State) : State :=
  if (chan s ch).can.busOff ∧ fld s (canAddr ch 0x100) 1 1 = 1 then
    backToBus ch (condEnd 0x0604 ((List.range 128).any (fun i => i != ch && (chan s i).can.busOff))
      (modCan ch (fun x => { x with busOff := false, tec := 0, rec_ := 0 }) s))
  else s

/-- CHANNEL_JOIN (R186): a channel in JOINING has seen idle. IO-Link joins by its start-up instead. -/
def channelJoin (ch : Nat) (s : State) : State :=
  let c := chan s ch
  if c.st = .joining ∧ !c.resetting ∧ pers s ch ≠ 4 then
    onlyIf (pers s ch == 3 && c.can.busOff) (backToBus ch) (joinNow ch s)
  else s

/-- The item leaves the queue with a status after the attempt. -/
def canEnd (ch : Nat) (i : TxItem) (st : Status) (s : State) : State :=
  let s := modCan ch (fun x => { x with onBus := none, reqs := x.reqs.filter (fun r => r.itemSeq != i.seq) }) s
  failItem ch i st (removeItem ch i.seq s)

/-- The last frame of a CH_DISABLE mode 1 did not leave: it is aborted too (R188). -/
def canAborted (ch : Nat) (i : TxItem) (s : State) : State :=
  modChan ch (fun c => { c with drainAborted := c.drainAborted + 1 }) (canEnd ch i .aborted s)

/-- What an error adds to TEC, as ISO 11898-1 counts (R206, R222, R224; log entry 33): nothing for a missing ACK of an error-passive
channel that saw no dominant bit in its error flag, nor for a stuff error in arbitration; else 8; and 8 for each further case. -/
def tecStep (passive : Bool) (k : CanErr) (place : CanPlace) (dominant : Bool) (eights : Nat) : Nat :=
  (if (k = .ack ∧ passive ∧ !dominant) ∨ (k = .stuff ∧ place = .arbitration) then 0 else 8) + 8 * eights

/-- Error of an attempt (R222 to R224). -/
def canAttemptError (ch : Nat) (i : TxItem) (k : CanErr) (place : CanPlace) (dominant : Bool) (eights : Nat) (s : State) : State :=
  let c := chan s ch
  let passive := decide (c.can.tec > 127) || decide (c.can.rec_ > 127)
  let s := noteErr ch k (place == .dataPhase) s
  let s := modCan ch (fun x => { x with
    tec := x.tec + tecStep passive k place dominant eights, ackRun := if k = .ack then min 255 (x.ackRun + 1) else x.ackRun }) s
  if (chan s ch).can.tec > 255 then busOffEnter ch (onlyIf c.aborting (canAborted ch i) s)
  else if k = .ack ∧ (chan s ch).can.ackRun ≥ fld s (canAddr ch 0x100) 8 8 then
    channelEvent ch 0 (modChan ch (fun c => { c with st := if c.st = .draining then c.st else .alone }) (canEnd ch i .noAck s))
  else if onceOver s ch i then canEnd ch i .tooLate s
  else if c.aborting then canAborted ch i s
  else s

/-- Where the bus may be idle again after an attempt that left: intermission, and the suspension of an error-passive transmitter
(R220, R222). -/
def idleAfter (s : State) (ch : Nat) : Nat :=
  let c := chan s ch
  let passive := decide (c.can.tec > 127) || decide (c.can.rec_ > 127)
  nsNow s + (if passive then 11 else 3) * nomBitNs s ch

/-- CAN_ATTEMPT_END (R219): the attempt under way ends. The item's leave instant is that of its start-of-frame bit. -/
def canAttemptEnd (ch : Nat) (how : CanEnd) (s : State) : State :=
  let c := chan s ch
  match (if pers s ch = 3 then c.can.onBus.bind (fun q => c.txq.find? (fun i => i.seq == q)) else none) with
  | none => s
  | some i =>
    let s := modCan ch (fun x => { x with onBus := none, idleFrom := 0 }) s
    match how with
    | .left leaveNs =>
      let s := modCan ch (fun x => { x with
        tec := x.tec - 1, ackRun := 0
        reqs := x.reqs.map (fun r => if r.itemSeq = i.seq then { r with left := true, startUp := s.time.up } else r) }) s
      modCan ch (fun x => { x with idleFrom := idleAfter s ch }) (sentItem ch i leaveNs s)
    | .arbLost =>
      let s := bump (canAddr ch 0x194) s
      if onceOver s ch i then canEnd ch i .tooLate s
      else if c.aborting then canAborted ch i s
      else s
    | .error k place dominant eights => canAttemptError ch i k place dominant eights s

/-! ## Frames received whole (R214) -/

/-- CAN_FRAME_RX (R214): `record` is the frame as received, in the record layout with OBJECT not yet set, `stamp` the tick of
its completion (R169, R213). -/
def canFrameRx (ch : Nat) (record : List Byte) (stamp : Nat) (s : State) : State :=
  let c := chan s ch
  if pers s ch ≠ 3 ∨ !canHears c then s
  else if recFdf record ∧ !fdEn s ch then (let d := draw s; canReceiveError ch .form false d.1 d.2)
  else if record.length ≠ 8 + recLen record then s
  else
    let back := c.st == .alone
    let s := recDown ch (modChan ch (fun c => { c with
      st := (if c.st = .alone then .active else c.st), busIdle := false
      can := { c.can with ackRun := 0, idleFrom := nsNow s + 4 * nomBitNs s ch } }) s)
    let s := onlyIf back (backToBus ch) s
    let (taken, s) := giveReqs ch record s
    match (List.range 64).find? (fun m => moMatches s ch m record) with
    | some m =>
      let b := setAt record 5 (BitVec.ofNat 8 m)
      if bit (moCfg s ch m) 2 then placeBuffer ch m b stamp s else storeRx ch b stamp s
    | none =>
      if fld s (canAddr ch 0x100) 2 1 = 1 then storeRx ch (setAt record 5 0xFF) stamp s
      else if taken then s
      else bump (canAddr ch 0x1A4) s

/-- CAN_REQ_TIMEOUT (R188, R304): the first request whose time has passed, from the leave instant, or from the processing tick
while the channel is JOINING or ALONE; its item still queued is reported. -/
def canReqTimeout (ch : Nat) (s : State) : State :=
  let held := (chan s ch).st == .joining || (chan s ch).st == .alone
  match (chan s ch).can.reqs.find? (fun r => (r.left || held) && decide (since r.startUp s ≥ r.timeoutMs * 2000)) with
  | some r =>
    let s := modCan ch (fun x => { x with reqs := x.reqs.filter (fun q => !(q.session == r.session && q.tag == r.tag)) }) s
    match (chan s ch).txq.find? (fun i => i.seq == r.itemSeq) with
    | some i => failItem ch i .timeout (removeItem ch i.seq s)
    | none =>
      let mine (x : TxItem × Nat) : Bool := x.1.producer == .txn r.session r.tag
      match (chan s ch).stalled.find? mine with
      | some x => failOffer ch x.1 .timeout (modChan ch (fun c => { c with stalled := c.stalled.filter (fun y => !mine y) }) s)
      | none => complete r.session r.tag .timeout [] s
  | none => s

/-! ## Rate detection (R226, R227) -/

/-- BRP, TSEG1, TSEG2 and SJW of a nominal rate (R209). -/
def nomTiming : Nat → Option (Nat × Nat × Nat × Nat)
  | 1000000 => some (1, 159, 40, 40)
  | 800000 => some (2, 99, 25, 25)
  | 500000 => some (2, 159, 40, 40)
  | 250000 => some (4, 159, 40, 40)
  | 125000 => some (8, 159, 40, 40)
  | 100000 => some (10, 159, 40, 40)
  | 83333 => some (12, 159, 40, 40)
  | 62500 => some (16, 159, 40, 40)
  | 50000 => some (20, 159, 40, 40)
  | 33333 => some (30, 159, 40, 40)
  | 20000 => some (50, 159, 40, 40)
  | 10000 => some (100, 159, 40, 40)
  | _ => none

/-- DBRP, DTSEG1, DTSEG2, DSJW, TDC and TDCO of a data rate (R209). -/
def dataTiming : Nat → Option (Nat × Nat × Nat × Nat × Nat × Nat)
  | 1000000 => some (5, 29, 10, 10, 0, 0)
  | 2000000 => some (4, 18, 6, 6, 0, 0)
  | 4000000 => some (2, 18, 6, 6, 1, 38)
  | 5000000 => some (1, 29, 10, 10, 1, 30)
  | 8000000 => some (1, 18, 6, 6, 1, 19)
  | _ => none

/-- Write the timings found (R226). -/
def writeTimings (ch nominal : Nat) (data : Option Nat) (s : State) : State :=
  let s := match nomTiming nominal with
    | some (a, b, c, d) => csrPut (canAddr ch 0x108) ((a - 1) + (b - 1) * 2 ^ 10 + (c - 1) * 2 ^ 18 + (d - 1) * 2 ^ 25) s
    | none => s
  match data.bind dataTiming with
  | some (a, b, c, d, t, o) =>
    setFld (canAddr ch 0x100) 0 1 1
      (csrPut (canAddr ch 0x10C) ((a - 1) + (b - 1) * 2 ^ 5 + (c - 1) * 2 ^ 10 + (d - 1) * 2 ^ 14 + t * 2 ^ 18 + o * 2 ^ 19) s)
  | none => s

/-- Detection ends OK (R226). -/
def detectOk (ch nominal : Nat) (data : Option Nat) (d : Detect) (s : State) : State :=
  let s := writeTimings ch nominal data s
  let s := modChan ch (fun c => { c with
    st := .disabled, detect := none, rateFound := nominal, can := { c.can with nominalFound := none, brsSeen := false } }) s
  complete d.session d.tag .ok (leBytes 4 nominal ++ leBytes 4 (data.getD 0)) (channelEvent ch 1 s)

/-- CAN_RATE_CONFIRM (R226): the nominal rate, and the data rate when it is confirmed too. -/
def canRateConfirm (ch nominal : Nat) (data : Option Nat) (s : State) : State :=
  match (chan s ch).detect with
  | some d =>
    if pers s ch = 3 ∧ (nomTiming nominal).isSome ∧ (match data with | some r => (dataTiming r).isSome | none => true) = true then
      match data with
      | some r => detectOk ch nominal (some r) d s
      | none =>
        modCan ch (fun x => { x with
          nominalFound := some (x.nominalFound.getD nominal), nominalUp := if x.nominalFound.isSome then x.nominalUp else s.time.up
          brsSeen := x.nominalFound.isSome }) s
    else s
  | none => s

/-- BRS_WAIT_EXPIRY (R226): 100 ms after the nominal rate without a frame with BRS. -/
def brsWaitExpiry (ch : Nat) (s : State) : State :=
  let c := chan s ch
  match c.detect, c.can.nominalFound with
  | some d, some n => if !c.can.brsSeen ∧ since c.can.nominalUp s ≥ 200000 then detectOk ch n none d s else s
  | _, _ => s

/-- RATE_DETECT_TIMEOUT (R202, R226). -/
def rateDetectTimeout (ch : Nat) (s : State) : State :=
  let c := chan s ch
  match c.detect with
  | some d =>
    if since d.startUp s ≥ d.timeoutMs * 2000 then
      match c.can.nominalFound with
      | some n => detectOk ch n none d (bump (canAddr ch 0x1B4) s)
      | none => channelEvent ch 2 (complete d.session d.tag .timeout [] (modChan ch (fun c => { c with st := .disabled, detect := none }) s))
    else s
  | none => s

/-! ## Settings (R208) -/

/-- Periods of 5 ns in a bit of the arbitration phase, and of the data phase (R208). -/
def nominalClocks (nbt : Nat) : Nat := (bits nbt 0 10 + 1) * (1 + (bits nbt 10 8 + 1) + (bits nbt 18 7 + 1))
def dataClocks (dbt : Nat) : Nat := (bits dbt 0 5 + 1) * (1 + (bits dbt 5 5 + 1) + (bits dbt 10 4 + 1))

/-- The bounds of R208 on CAN_NBT, and those on CAN_DBT beside it. -/
def nominalValid (nbt : Nat) : Bool :=
  decide (5000 * nominalClocks nbt ≤ 200000000) && decide (200000000 ≤ 1000000 * nominalClocks nbt) && decide (bits nbt 10 8 + 1 ≥ 2)
    && decide (bits nbt 25 7 ≤ bits nbt 18 7)
def dataValid (fd : Bool) (nbt dbt : Nat) : Bool :=
  (!fd || (decide (dataClocks dbt ≤ nominalClocks nbt) && decide (200000000 ≤ 8000000 * dataClocks dbt)))
    && decide (bits dbt 14 4 ≤ bits dbt 10 4) && (!decide (200000000 > 2000000 * dataClocks dbt) || bit dbt 18)

/-- A set of CAN_CFG.FD_EN, CAN_NBT and CAN_DBT is valid (R208). -/
def timingValid (fd : Bool) (nbt dbt : Nat) : Bool := nominalValid nbt && dataValid fd nbt dbt

end Sys2Proof.Machine
end

