-- ==== Sys2Proof/Machine/F32.lean ====
section
/-! DEFINITION. IEEE 754 binary32 arithmetic as R269 and R270 use it: exact values and one rounding, to nearest with ties to
even. -/

namespace Sys2Proof.Machine

open Sys2Proof

/-- What a binary32 pattern stands for: a finite number is ±m·2^e. -/
inductive Fl where
  | nan
  | inf (neg : Bool)
  | fin (neg : Bool) (m : Nat) (e : Int)
  deriving DecidableEq, Repr

def fDec (b : Nat) : Fl :=
  let neg := bit b 31
  let e := bits b 23 8
  let f := bits b 0 23
  if e = 255 then (if f = 0 then .inf neg else .nan)
  else if e = 0 then .fin neg f (-149)
  else .fin neg (f + 2 ^ 23) ((e : Int) - 150)

def fNaN : Nat := 0x7FC00000
def fInf (neg : Bool) : Nat := 0x7F800000 + b2n neg * 2 ^ 31
def fMax (neg : Bool) : Nat := 0x7F7FFFFF + b2n neg * 2 ^ 31

/-- m / 2^k rounded to nearest, ties to even. -/
def rneShift (m k : Nat) : Nat :=
  let q := m / 2 ^ k
  let r := m % 2 ^ k
  if 2 * r > 2 ^ k ∨ (2 * r = 2 ^ k ∧ q % 2 = 1) then q + 1 else q

/-- ±m·2^e rounded to binary32. -/
def fRound (neg : Bool) (m : Nat) (e : Int) : Nat :=
  if m = 0 then b2n neg * 2 ^ 31
  else
    let q : Int := max ((Nat.log2 m : Int) + e - 23) (-149)
    let m' := if q ≤ e then m * 2 ^ (e - q).toNat else rneShift m (q - e).toNat
    let enc := (q + 149).toNat * 2 ^ 23 + m'
    if enc ≥ 0x7F800000 then fInf neg else enc + b2n neg * 2 ^ 31

/-- An exact integer as binary32 (R269). -/
def fOfInt (v : Int) : Nat := fRound (decide (v < 0)) v.natAbs 0

/-- The integer m of ±m·2^e scaled to a lower exponent e0. -/
def atExp (neg : Bool) (m : Nat) (e e0 : Int) : Int :=
  let v : Int := m * 2 ^ (e - e0).toNat
  if neg then -v else v

/-- Exact sum of two finite numbers, rounded once. An exact zero is −0 only where both are. -/
def addFin (n1 : Bool) (m1 : Nat) (e1 : Int) (n2 : Bool) (m2 : Nat) (e2 : Int) : Nat :=
  let e0 := min e1 e2
  let v := atExp n1 m1 e1 e0 + atExp n2 m2 e2 e0
  if v = 0 then fRound (n1 && n2) 0 0 else fRound (decide (v < 0)) v.natAbs e0

/-- Sum of two values. -/
def addFl : Fl → Fl → Nat
  | .nan, _ => fNaN
  | _, .nan => fNaN
  | .inf a, .inf b => if a = b then fInf a else fNaN
  | .inf a, _ => fInf a
  | _, .inf b => fInf b
  | .fin n1 m1 e1, .fin n2 m2 e2 => addFin n1 m1 e1 n2 m2 e2

/-- Exact product of two values. -/
def mulFl : Fl → Fl → Fl
  | .nan, _ => .nan
  | _, .nan => .nan
  | .inf a, .inf b => .inf (a != b)
  | .inf a, .fin n m _ => if m = 0 then .nan else .inf (a != n)
  | .fin n m _, .inf b => if m = 0 then .nan else .inf (b != n)
  | .fin n1 m1 e1, .fin n2 m2 e2 => .fin (n1 != n2) (m1 * m2) (e1 + e2)

def negFl : Fl → Fl
  | .nan => .nan
  | .inf a => .inf (!a)
  | .fin n m e => .fin (!n) m e

/-- An integer as an exact value. -/
def flOfInt (v : Int) : Fl := .fin (decide (v < 0)) v.natAbs 0

/-- a·x + b with one rounding (R270). -/
def fMulAdd (a x b : Fl) : Nat := addFl (mulFl a x) b

/-- a < b; false where one is NaN. -/
def ltFl : Fl → Fl → Bool
  | .nan, _ => false
  | _, .nan => false
  | .inf a, .inf b => a && !b
  | .inf a, .fin _ _ _ => a
  | .fin _ _ _, .inf b => !b
  | .fin n1 m1 e1, .fin n2 m2 e2 =>
    let e0 := min e1 e2
    decide (atExp n1 m1 e1 e0 < atExp n2 m2 e2 e0)

/-- a = b as numbers; false where one is NaN. -/
def eqFl : Fl → Fl → Bool
  | .nan, _ => false
  | _, .nan => false
  | a, b => !ltFl a b && !ltFl b a

/-- The number is not 0 (NaN is not 0). -/
def fNonZero (b : Nat) : Bool := bits b 0 31 != 0

/-- MIN or MAX of two patterns (R270). -/
def fMinMax (isMax : Bool) (a b : Nat) : Nat :=
  let x := fDec a
  let y := fDec b
  if a = b ∧ x ≠ .nan then a
  else if ltFl x y then (if isMax then b else a)
  else if ltFl y x then (if isMax then a else b)
  else Config.minMaxOpen isMax a b

/-- A binary32 value rounded to an integer, ties to even (R269): none for NaN; ±∞ as a number beyond every type's range. -/
def fToInt (b : Nat) : Option Int :=
  match fDec b with
  | .nan => none
  | .inf neg => some (if neg then -(2 ^ 200) else 2 ^ 200)
  | .fin neg m e =>
    let v : Int := if e ≥ 0 then m * 2 ^ e.toNat else rneShift m (-e).toNat
    some (if neg then -v else v)

/-- Conversion of a result to an F32 slot (R269): value, limited, NaN. -/
def fSat (b : Nat) : Nat × Bool × Bool :=
  match fDec b with
  | .nan => (0, false, true)
  | .inf neg => (fMax neg, true, false)
  | .fin _ _ _ => (b % 2 ^ 32, false, false)

end Sys2Proof.Machine
end

