-- ==== Sys2Proof/Machine/Image.lean ====
section
/-! DEFINITION. Configuration images as bytes: header, section directory, records (R437 to R439). -/

namespace Sys2Proof.Machine

open Sys2Proof

/-- LENGTH of an image (R437). -/
def imgLength (b : List Byte) : Nat := rd b 8 4

/-- FORMAT of an image (R437). -/
def imgFormat (b : List Byte) : Nat := rd b 4 1

/-- The trailing whole-image CRC-32C (R437): the active configuration CRC. -/
def imgCrc (b : List Byte) : Nat := if imgLength b < 4 then 0 else rd b (imgLength b - 4) 4

/-- A directory entry (R437). -/
structure DirEntry where
  at_  : Nat
  code : Nat
  off  : Nat
  size : Nat
  crc  : Nat
  deriving DecidableEq, Repr

/-- The directory entries of an image, in order (R437). -/
def directory (b : List Byte) : List DirEntry :=
  (List.range (min (rd b 5 1) 11)).map (fun i =>
    let a := 64 + 16 * i
    ⟨a, rd b a 1, rd b (a + 4) 4, rd b (a + 8) 4, rd b (a + 12) 4⟩)

/-- The directory entry of a section. -/
def dirOf (b : List Byte) (code : Nat) : Option DirEntry := (directory b).find? (fun d => d.code == code)

/-- One record: image offset of its header, kind, body (R438). -/
structure Rec where
  at_  : Nat
  kind : Nat
  body : List Byte
  deriving DecidableEq, Repr

/-- The records that fill `left` bytes from image offset `at_` on; `bad` is the offset of a record that runs beyond the section
(R438). -/
def recordsFrom (b : List Byte) : Nat → Nat → Nat → List Rec × Option Nat
  | 0, _, _ => ([], none)
  | fuel + 1, at_, left =>
    if left = 0 then ([], none)
    else if left < 8 then ([], some at_)
    else
      let len := rd b (at_ + 4) 4
      let whole := 8 + (len + 7) / 8 * 8
      if whole > left then ([], some at_)
      else
        let r := recordsFrom b fuel (at_ + whole) (left - whole)
        (⟨at_, rd b at_ 2, slice b (at_ + 8) len⟩ :: r.1, r.2)

/-- Bytes in front of the first record: the prefix of format 6 (R438). -/
def prefixLen (b : List Byte) : Nat := if imgFormat b = 6 then 8 else 0

/-- Records of a section and the offset of a defective one. -/
def sectionScan (b : List Byte) (d : DirEntry) : List Rec × Option Nat :=
  recordsFrom b (d.size / 8 + 1) (d.off + prefixLen b) (d.size - prefixLen b)

/-- Records of a section of an image; none where the section is absent. -/
def records (b : List Byte) (code : Nat) : List Rec :=
  match dirOf b code with
  | some d => (sectionScan b d).1
  | none => []

/-- Entries of `n` bytes in a body from `off` on. -/
def entries (n off : Nat) (body : List Byte) : List (List Byte) :=
  (List.range ((body.length - off) / n)).map (fun i => slice body (off + n * i) n)

/-- The last RING_PARAMS of an image: N, designated backup, EPOCH_LABEL (R439). -/
def ringParams (b : List Byte) : Option (Nat × Nat × Nat) :=
  ((records b 1).filter (fun r => r.kind == 0x0101)).getLast?.map (fun r => (rd r.body 0 4, rd r.body 4 1, rd r.body 8 8))

/-- A PLAN entry (R439). -/
structure Plan where
  node   : Nat
  capable : Bool
  east   : Nat
  west   : Nat
  uid    : Nat
  deriving DecidableEq, Repr

/-- The planned nodes of an image (R439). -/
def plans (b : List Byte) : List Plan :=
  ((records b 1).filter (fun r => r.kind == 0x0102)).flatMap (fun r =>
    (entries 16 0 r.body).map (fun e => ⟨rd e 0 1, bit (rd e 1 1) 0, rd e 2 1, rd e 3 1, rd e 8 8⟩))

end Sys2Proof.Machine
end

