-- ==== Sys2Proof/Machine/Signals.lean ====
section
/-! DEFINITION. Signal slots: entries, descriptors, the current image and closed images (R261 to R265, R282). -/

namespace Sys2Proof.Machine

open Sys2Proof

/-! ## Entries (R261) -/

def eVal (e : DWord) : Nat := bits e.toNat 0 32
def eVcyc (e : DWord) : Nat := bits e.toNat 32 16
def eStat (e : DWord) : Nat := bits e.toNat 48 3
def eHigh (e : DWord) : Nat := bits e.toNat 51 1
def eType (e : DWord) : Nat := bits e.toNat 52 4

/-- An entry of R261. -/
def mkEntry (val vcyc stat high type : Nat) : DWord :=
  BitVec.ofNat 64 (val % 2 ^ 32 + vcyc % 65536 * 2 ^ 32 + stat % 8 * 2 ^ 48 + high % 2 * 2 ^ 51 + type % 16 * 2 ^ 52)

/-- Status codes of a slot (R261). -/
def stValid : Nat := 0
def stStale : Nat := 1
def stLate : Nat := 2
def stFault : Nat := 3
def stNotReady : Nat := 4
def stExpired : Nat := 5

/-- Rank of a status (R265): a smaller one is worse. -/
def statRank : Nat → Nat
  | 3 => 1
  | 5 => 2
  | 2 => 3
  | 1 => 4
  | 4 => 5
  | _ => 6

/-- The worse of two statuses (R265). -/
def worse (a b : Nat) : Nat := if statRank b < statRank a then b else a

def worstOf (l : List Nat) : Nat := l.foldl worse stValid

/-! ## Types -/

def tBool : Nat := 0
def tU64 : Nat := 4
def tS64 : Nat := 8
def tQ : Nat := 9
def tF32 : Nat := 10

/-- The type occupies two slots (R262). -/
def wide (t : Nat) : Bool := t == 4 || t == 8

/-- The type is signed: S8 to S64 or Q (R261). -/
def signedT (t : Nat) : Bool := decide (5 ≤ t) && decide (t ≤ 9)

/-- Range of an integer or Q type (R261, R269). -/
def tMin : Nat → Int
  | 5 => -(2 ^ 7)
  | 6 => -(2 ^ 15)
  | 7 => -(2 ^ 31)
  | 8 => -(2 ^ 63)
  | 9 => -(2 ^ 31)
  | _ => 0
def tMax : Nat → Int
  | 0 => 1
  | 1 => 2 ^ 8 - 1
  | 2 => 2 ^ 16 - 1
  | 3 => 2 ^ 32 - 1
  | 4 => 2 ^ 64 - 1
  | 5 => 2 ^ 7 - 1
  | 6 => 2 ^ 15 - 1
  | 7 => 2 ^ 31 - 1
  | 8 => 2 ^ 63 - 1
  | 9 => 2 ^ 31 - 1
  | _ => 0

/-! ## Descriptors (R263) -/

/-- Descriptor bytes of a slot; a slot that the image does not name has all bytes 0. -/
def descOf (s : State) (slot : Nat) : List Byte := sget (zeros 12) s.maps.descs slot

def dType (d : List Byte) : Nat := rd d 0 1
def dHostW (d : List Byte) : Bool := bit (rd d 2 1) 0
def dKeep (d : List Byte) : Bool := bit (rd d 2 1) 1
def dHold (d : List Byte) : Nat := rd d 4 2
def dInit (d : List Byte) : Nat := rd d 8 4

def slotType (s : State) (slot : Nat) : Nat := dType (descOf s slot)

/-- HIGH of a slot: the odd slot of a 64-bit signal (R262). -/
def highOf (t slot : Nat) : Nat := if wide t ∧ slot % 2 = 1 then 1 else 0

/-- The INIT entry of a slot with a status and a VCYCLE. -/
def initEntry (s : State) (slot stat vcyc : Nat) : DWord :=
  let d := descOf s slot
  mkEntry (dInit d) vcyc stat (highOf (dType d) slot) (dType d)

/-- The current entry of a slot. An unlisted slot has no writer: INIT, VALID, of the running cycle (R264). -/
def nowEntry (s : State) (slot : Nat) : DWord :=
  match slook s.maps.slots slot with
  | some e => e
  | none => initEntry s slot stValid s.maps.cycle

/-- The entry of a slot as a cycle closed (R264, R282). -/
def closedEntry (img : ClosedImage) (slot : Nat) : DWord :=
  match slook img.slots slot with
  | some e => e
  | none =>
    let d := sget (zeros 12) img.descs slot
    mkEntry (dInit d) img.cycle stValid (highOf (dType d) slot) (dType d)

/-- The retained image of a closed cycle (R282, R283). -/
def closedImage (s : State) (cycle : Nat) : Option ClosedImage :=
  match slook s.maps.history (cycle % 16) with
  | some c => if c.cycle = cycle then some c else none
  | none => none

/-- An integer that an entry spells in its type; a wide signal takes both slots (R261, R262). -/
def entryInt (t lo hi : Nat) : Int :=
  if t = 4 then (lo + hi * 2 ^ 32 : Nat)
  else if t = 8 then toSigned 64 (lo + hi * 2 ^ 32)
  else if signedT t then toSigned 32 lo
  else (lo : Nat)

/-- VALUE of an integer in a type: the low word, and the high word of a wide one (R261, R262). -/
def intWords (t : Nat) (v : Int) : Nat × Nat :=
  if wide t then
    let n := ofSigned 64 v
    (n % 2 ^ 32, n / 2 ^ 32)
  else (ofSigned 32 v, 0)

/-- VALUE lies inside its type (R266): canonical encodings of R261. -/
def valueFits (t val : Nat) : Bool :=
  if t = 10 ∨ t = 4 ∨ t = 8 ∨ t = 9 ∨ t = 7 ∨ t = 3 then decide (val < 2 ^ 32)
  else if t > 10 then false
  else if signedT t then decide (tMin t ≤ toSigned 32 val) && decide (toSigned 32 val ≤ tMax t) && decide (val < 2 ^ 32)
  else decide ((val : Int) ≤ tMax t)

/-- Put an entry into the current image; VCYCLE follows R264: the running cycle when VALID, else what the slot last had. -/
def putSlot (slot : Nat) (e : DWord) (s : State) : State :=
  modMaps (fun m => { m with slots := sins m.slots slot e }) s

/-- Write a value with a status: KEEP holds the VALUE of a result that is not VALID (R265), VCYCLE follows R264. -/
def writeSlot (slot val stat : Nat) (s : State) : State :=
  let d := descOf s slot
  let old := nowEntry s slot
  let ever := slook s.maps.everValid slot
  let v := if dKeep d ∧ stat ≠ stValid then eVal old else val
  let s := onlyIf (stat == stValid) (modMaps (fun m => { m with everValid := sins m.everValid slot m.cycle })) s
  let vc := if stat = stValid then s.maps.cycle else ever.getD 0
  putSlot slot (mkEntry v vc stat (highOf (dType d) slot) (dType d)) s

/-- Write an integer already within its type, over both slots of a wide signal. -/
def writeInt (slot : Nat) (v : Int) (stat : Nat) (s : State) : State :=
  let t := slotType s slot
  let w := intWords t v
  let s := writeSlot slot w.1 stat s
  if wide t then writeSlot (slot + 1) w.2 stat s else s

/-- An entry with status FAULT, else unchanged. -/
def markFault (e : DWord) : DWord := mkEntry (eVal e) (eVcyc e) stFault (eHigh e) (eType e)

/-- Change only the status of a slot to FAULT, VALUE unchanged (R294, R278, R356). -/
def faultSlot (slot : Nat) (s : State) : State :=
  putSlot slot (markFault (nowEntry s slot)) s

/-! ## Map settings (R276, R284) -/

def mapH (s : State) : Nat := wordOr s 0xF0000 (s.maps.n / 4)
def mapP (s : State) : Nat := wordOr s 0xF0004 (s.maps.n / 8)
def mapDout (s : State) : Nat := wordOr s 0xF0008 20
def splitPub (s : State) : Nat := wordOr s 0xF000C 0
def splitSub (s : State) : Nat := wordOr s 0xF0010 0

end Sys2Proof.Machine
end

