-- ==== Sys2Proof/Machine/Rules.lean ====
section
/-! DEFINITION. Map rules: their fields, the conversion to a slot's type, and the evaluation of one rule, pass 1 (R267 to R270). -/

namespace Sys2Proof.Machine

open Sys2Proof

/-! ## Rules as bytes (R267) -/

/-- The fields of a rule. -/
structure Rule where
  kind  : Nat
  width : Nat
  coded : Bool
  op    : Nat
  dst   : Nat
  a     : Nat
  b     : Nat
  p     : List Byte
  deriving DecidableEq, Repr

def parseRule (bs : List Byte) : Rule :=
  { kind := bits (rd bs 0 1) 0 4, width := rd bs 1 1, coded := bit (rd bs 2 1) 0, op := rd bs 3 1, dst := rd bs 4 4,
    a := rd bs 8 4, b := rd bs 12 4, p := slice bs 16 16 }

/-- "None" in the B field. -/
def noSlot : Nat := 0xFFFFFFFF

/-- Rules of a table, NOP entries left out, and indices owned by a LUT skipped (R267): index and rule in ascending order. `skip`
is the first index that is not owned. -/
def ruleWalk : Nat → Sparse (List Byte) → List (Nat × Rule)
  | _, [] => []
  | skip, (i, bs) :: t =>
    if i < skip then ruleWalk skip t
    else
      let r := parseRule bs
      if r.kind = 0 then ruleWalk skip t
      else (i, r) :: ruleWalk (if r.kind = 4 then i + 33 + (if r.coded then 32 else 0) else skip) t

def ruleList (t : Sparse (List Byte)) : List (Nat × Rule) := ruleWalk 0 t

/-- Entry `e` of a LUT's table that starts at index `at_` (R267). -/
def lutEntry (t : Sparse (List Byte)) (at_ e : Nat) : Int := toSigned 32 (rd (sget (zeros 32) t (at_ + e / 8)) (4 * (e % 8)) 4)

/-- Slot of lane `j` of an operand whose first slot is `base` (R267). -/
def laneSlot (s : State) (base j : Nat) : Nat := base + j * (if wide (slotType s base) then 2 else 1)

/-! ## Values -/

/-- A value under evaluation: an exact integer, or a binary32 pattern. -/
inductive Num where
  | int (v : Int)
  | flt (b : Nat)
  deriving DecidableEq, Repr

/-- An operand as a lane reads it: type, the two words, status. -/
structure Opd where
  type : Nat
  lo   : Nat
  hi   : Nat
  stat : Nat
  deriving DecidableEq, Repr

def opd (s : State) (slot : Nat) : Opd :=
  let e := nowEntry s slot
  let t := slotType s slot
  { type := t, lo := eVal e, hi := if wide t then eVal (nowEntry s (slot + 1)) else 0, stat := eStat e }

def Opd.num (o : Opd) : Num := if o.type = 10 then .flt o.lo else .int (entryInt o.type o.lo o.hi)
def Opd.int (o : Opd) : Int := entryInt o.type o.lo o.hi
def Opd.isF (o : Opd) : Bool := o.type == 10
def Num.nonZero : Num → Bool
  | .int v => v != 0
  | .flt b => fNonZero b

/-- Exact value as a binary32 operand. -/
def Num.fl : Num → Fl
  | .int v => flOfInt v
  | .flt b => fDec b

/-- A value converted to a type (R269): the value, whether a limit changed it, whether it was NaN. -/
structure Conv where
  lo  : Nat
  hi  : Nat
  sat : Bool
  nan : Bool
  deriving DecidableEq, Repr

/-- An integer limited to a type's range. -/
def clampT (t : Nat) (v : Int) : Int := max (tMin t) (min v (tMax t))

def convInt (t : Nat) (v : Int) : Conv :=
  if t = 0 then ⟨b2n (v != 0), 0, false, false⟩
  else if t = 10 then
    let r := fSat (fOfInt v)
    ⟨r.1, 0, r.2.1, r.2.2⟩
  else
    let c := clampT t v
    let w := intWords t c
    ⟨w.1, w.2, c != v, false⟩

def conv (t : Nat) : Num → Conv
  | .int v => convInt t v
  | .flt b =>
    if t = 10 then
      let r := fSat b
      ⟨r.1, 0, r.2.1, r.2.2⟩
    else if fDec b = .nan then ⟨0, 0, false, true⟩
    else if t = 0 then ⟨b2n (fNonZero b), 0, false, false⟩
    else match fToInt b with
      | some v => convInt t v
      | none => ⟨0, 0, false, true⟩

/-- Write words over both slots of a wide signal. -/
def writeWords (slot lo hi stat : Nat) (s : State) : State :=
  let s := writeSlot slot lo stat s
  if wide (slotType s slot) then writeSlot (slot + 1) hi stat s else s

/-- Write a lane's result (R265, R269): converted, counted, NaN as FAULT. -/
def writeNum (slot : Nat) (v : Num) (stat : Nat) (s : State) : State :=
  let c := conv (slotType s slot) v
  let s := onlyIf c.sat (bump 0xF0118) s
  let s := onlyIf c.nan (bump 0xF011C) s
  writeWords slot c.lo c.hi (if c.nan then stFault else stat) s

/-- Write a slot's INIT with a status (R268: UNPACK without a payload, DELAY's first cycles). -/
def writeInit (slot stat : Nat) (s : State) : State :=
  writeWords slot (dInit (descOf s slot)) (if wide (slotType s slot) then dInit (descOf s (slot + 1)) else 0) stat s

/-! ## Rule state (R268) -/

def laneKey (i j : Nat) : Nat := i * 16 + j
def laneSt (s : State) (i j : Nat) : LaneState := sget { prev := false, count := 0, line := [] } s.maps.lanes (laneKey i j)
def setLaneSt (i j : Nat) (l : LaneState) (s : State) : State :=
  modMaps (fun m => { m with lanes := sins m.lanes (laneKey i j) l }) s

/-- The rule runs its first cycle since it was written (R268). -/
def firstRun (s : State) (i : Nat) : Bool := !s.maps.started.contains i

/-! ## Sources (R271) -/

/-- The gathered payload of an UNPACK rule. -/
def snapOf (s : State) (r : Rule) : Option Snap :=
  let k := bits r.a 28 4
  let (m, q) := if k = 1 then (rd r.p 8 4, rd r.p 4 4) else (0, 0)
  s.maps.snaps.find? (fun x => x.desc == r.a && x.mask == m && x.mtch == q)

/-- MAX_AGE of an UNPACK rule. -/
def maxAge (r : Rule) : Nat := rd r.p 2 2

/-- Status of a source for a rule (R271). -/
def srcStatus (s : State) (r : Rule) (x : Snap) : Nat :=
  match x.given with
  | some st => st
  | none => match x.tick with
    | none => stStale
    | some t => if maxAge r = 0 ∨ t ≥ (s.maps.cycle - maxAge r) * s.maps.n then stValid else stStale

/-- The field of lane `j` in a payload (R268): none where it lies beyond. -/
def unpackField (r : Rule) (bs : List Byte) (j : Nat) : Option Int :=
  let off := bits r.b 0 16 + j * rd r.p 0 2
  let w := bits r.b 16 6 + 1
  if off + w > bs.length * 8 then none
  else
    let raw := if bit r.b 22 then leVal (slice bs (off / 8) (w / 8)).reverse else bits (leVal bs) off w
    some (if bit r.b 23 then toSigned w raw else (raw : Int))

def unpackLane (r : Rule) (x : Option Snap) (j : Nat) (s : State) : State :=
  let dst := laneSlot s r.dst j
  match x with
  | none => writeInit dst stStale s
  | some x =>
    if x.tick.isNone && x.bytes.isEmpty then writeInit dst (srcStatus s r x) s
    else match unpackField r x.bytes j with
      | none => writeInit dst stFault (bump 0xF010C s)
      | some v => writeNum dst (.int v) (srcStatus s r x) s

/-! ## Kinds (R268, R270) -/

/-- SCALE of an operand into a type. -/
def scaleNum (r : Rule) (dt : Nat) (x : Opd) : Num :=
  if x.isF ∨ dt = 10 then .flt (fMulAdd (fDec (rd r.p 0 4)) x.num.fl (fDec (rd r.p 8 4)))
  else
    let sh := rd r.p 4 1
    let h : Int := if sh = 0 then 0 else 2 ^ (sh - 1)
    .int ((toSigned 32 (rd r.p 0 4) * x.int + h) / 2 ^ sh + toSigned 64 (rd r.p 8 8))

/-- CLAMP: the value, and whether x lay outside. -/
def clampNum (r : Rule) (dt : Nat) (x : Opd) : Num × Bool :=
  if x.isF ∨ dt = 10 then
    let lo := rd r.p 0 4
    let hi := rd r.p 8 4
    let v := match x.num with | .flt b => b | .int v => fOfInt v
    (.flt (fMinMax false (fMinMax true v lo) hi), ltFl x.num.fl (fDec lo) || ltFl (fDec hi) x.num.fl)
  else
    let lo := toSigned 64 (rd r.p 0 8)
    let hi := toSigned 64 (rd r.p 8 8)
    (.int (min (max x.int lo) hi), decide (x.int < lo) || decide (hi < x.int))

/-- Index of a LUT, and whether it was limited. -/
def lutIndex (r : Rule) (x : Int) : Nat × Bool :=
  let i := (x - toSigned 64 (rd r.p 0 8)) / 2 ^ rd r.p 8 1
  ((max 0 (min i 255)).toNat, decide (i < 0) || decide (i > 255))

/-- Bits of a VALUE extended to 64 bits as its type encodes it (R268). -/
def ext64 (o : Opd) : Nat := ofSigned 64 o.int

/-- COMBINE of two operands, OP 1 to 9. -/
def combineNum (op dt : Nat) (x y : Opd) : Num :=
  let f := x.isF || y.isF || dt == 10
  let bitwise (v : Nat) : Num := if signedT x.type || signedT y.type then .int (toSigned 64 v) else .int (v : Nat)
  match op with
  | 1 => if f then .flt (addFl x.num.fl y.num.fl) else .int (x.int + y.int)
  | 2 => if f then .flt (addFl x.num.fl (negFl y.num.fl)) else .int (x.int - y.int)
  | 3 => if f then .flt (fMinMax false x.lo y.lo) else .int (min x.int y.int)
  | 4 => if f then .flt (fMinMax true x.lo y.lo) else .int (max x.int y.int)
  | 5 => bitwise (Nat.land (ext64 x) (ext64 y))
  | 6 => bitwise (Nat.lor (ext64 x) (ext64 y))
  | 7 => bitwise (Nat.xor (ext64 x) (ext64 y))
  | 8 => .int (b2n (if x.isF || y.isF then eqFl x.num.fl y.num.fl else x.int == y.int))
  | _ => .int (b2n (if x.isF || y.isF then ltFl x.num.fl y.num.fl else decide (x.int < y.int)))

/-- Inputs of a TRUTH lane. -/
def truthIn (s : State) (r : Rule) (j : Nat) : List Opd :=
  let st := if wide (slotType s r.a) then 2 else 1
  (List.range r.b).map (fun m => opd s (r.a + (j * r.b + m) * st))

def truthIndex (ins : List Bool) : Nat := (ins.zipIdx.map (fun x => b2n x.1 * 2 ^ x.2)).sum

/-- EDGE of a change of state in the direction named. -/
def edgeHit (op : Nat) (old new : Bool) : Bool :=
  match op with
  | 0 => !old && new
  | 1 => old && !new
  | _ => old != new

/-- New count of a COUNT lane (R268): modulo M, or limited to the destination type when M is 0. -/
def countNext (t M : Nat) (prev inc : Int) : Int × Bool :=
  if M = 0 then (if t = 0 then (b2n (prev + inc != 0), false) else if t = 10 then (prev + inc, false) else (clampT t (prev + inc), clampT t (prev + inc) != prev + inc))
  else ((prev + inc) % M, false)

/-- One lane of a rule, pass 1. -/
def laneRun (i : Nat) (r : Rule) (x : Option Snap) (first : Bool) (j : Nat) (s : State) : State :=
  let dst := laneSlot s r.dst j
  let dt := slotType s dst
  let a := opd s (laneSlot s r.a j)
  let ls := laneSt s i j
  match r.kind with
  | 1 => unpackLane r x j s
  | 2 => writeNum dst (scaleNum r dt a) a.stat s
  | 3 =>
    let c := clampNum r dt a
    writeNum dst c.1 (if bit r.op 0 && c.2 then stFault else a.stat) s
  | 4 =>
    let c := lutIndex r a.int
    writeNum dst (.int (lutEntry s.maps.rules (i + 1) c.1)) (if bit r.op 0 && c.2 then stFault else a.stat) s
  | 5 =>
    if r.op = 0 then
      let ins := truthIn s r j
      writeNum dst (.int (b2n (bit (leVal r.p) (truthIndex (ins.map (·.num.nonZero)))))) (worstOf (ins.map (·.stat))) s
    else
      let b := opd s (laneSlot s r.b j)
      writeNum dst (combineNum r.op dt a b) (worse a.stat b.stat) s
  | 6 =>
    let c := opd s (rd r.p 0 4)
    let v := if c.num.nonZero then a else opd s (laneSlot s r.b j)
    writeNum dst v.num (worse c.stat v.stat) s
  | 7 =>
    let now := a.num.nonZero
    writeNum dst (.int (b2n (!first && edgeHit r.op ls.prev now))) a.stat (setLaneSt i j { ls with prev := now } s)
  | 8 =>
    let now := a.num.nonZero
    let prev : Int := if first then entryInt dt (dInit (descOf s dst)) (if wide dt then dInit (descOf s (dst + 1)) else 0) else ls.count
    let inc : Int := if a.stat ≠ stValid then 0 else if r.op = 0 then b2n (!first && !ls.prev && now) else a.int
    let rst : Option Opd := if r.b = noSlot then none else some (opd s (laneSlot s r.b j))
    let n : Int × Bool := match rst with
      | some o => if o.num.nonZero then (0, false) else countNext dt (rd r.p 0 8) prev inc
      | none => countNext dt (rd r.p 0 8) prev inc
    let stat := match rst with | some o => worse a.stat o.stat | none => a.stat
    let s := onlyIf n.2 (bump 0xF0118) s
    writeNum dst (.int n.1) stat (setLaneSt i j { ls with prev := now, count := n.1 } s)
  | 9 =>
    let d := rd r.p 0 4
    let s' := setLaneSt i j { ls with line := ((a.lo, a.hi, a.stat) :: ls.line).take d } s
    match ls.line[d - 1]? with
    | some (lo, hi, st) => writeNum dst ({ a with lo := lo, hi := hi } : Opd).num st s'
    | none => writeInit dst stNotReady s'
  | _ => s

/-- Slots that a rule writes, both of a wide lane (R264). -/
def ruleSlots (s : State) (r : Rule) : List Nat :=
  if r.kind = 0 ∨ r.kind ≥ 10 then []
  else (List.range r.width).flatMap (fun j =>
    let d := laneSlot s r.dst j
    if wide (slotType s r.dst) then [d, d + 1] else [d])

/-- The rule stands in a block whose scrub failed: its slots hold FAULT in the running cycle (R356). -/
def ruleBad (s : State) (i : Nat) : Bool := s.maps.badBlocks.any (fun b => b.1 == i / 256 && decide (b.2 ≤ s.maps.cycle))

/-- Pass 1 of one rule: all its lanes (R267, R275); PACK waits for pack and close. -/
def ruleRun (ir : Nat × Rule) (s : State) : State :=
  let i := ir.1
  let r := ir.2
  let x := if r.kind = 1 then snapOf s r else none
  let first := firstRun s i
  let s := (List.range r.width).foldl (fun s j => laneRun i r x first j s) s
  let s := if ruleBad s i then (ruleSlots s r).foldl (fun s x => faultSlot x s) s else s
  onlyIf first (modMaps (fun m => { m with started := i :: m.started })) s

end Sys2Proof.Machine
end

