-- ==== Sys2Proof/Machine/Coded.lean ====
section
/-! DEFINITION. The coded second pass: pass 2 of a rule, the compares of a stage, injections and the map latch (R286 to R301). -/

namespace Sys2Proof.Machine

open Sys2Proof

/-- The factor A of coded values (R290). -/
def codeA : Int := 58659

/-- A coded operand: type, coded value, status. -/
structure COpd where
  type : Nat
  cv   : Int
  stat : Nat
  deriving DecidableEq, Repr

/-- An agreed input as pass 1 read it (R289): rule, lane, slot, operand. -/
structure InRec where
  rule : Nat
  lane : Nat
  slot : Nat
  val  : Opd
  deriving DecidableEq, Repr

/-- Operand slots that lane `j` of a rule reads. -/
def laneReads (s : State) (r : Rule) (j : Nat) : List Nat :=
  match r.kind with
  | 5 =>
    if r.op = 0 then
      let st := if wide (slotType s r.a) then 2 else 1
      (List.range r.b).map (fun m => r.a + (j * r.b + m) * st)
    else [laneSlot s r.a j, laneSlot s r.b j]
  | 6 => [rd r.p 0 4, laneSlot s r.a j, laneSlot s r.b j]
  | 8 => if r.b = noSlot then [laneSlot s r.a j] else [laneSlot s r.a j, laneSlot s r.b j]
  | 1 => []
  | 0 => []
  | _ => [laneSlot s r.a j]

/-- Slots that CODED rules write. -/
def codedSlots (s : State) : List Nat :=
  ((ruleList s.maps.rules).filter (fun x => x.2.coded)).flatMap (fun x => ruleSlots s x.2)

/-- What pass 1 records of a CODED rule before it runs: its agreed inputs in reading order (R289). -/
def recordOf (s : State) (written : List Nat) (ir : Nat × Rule) : List InRec :=
  (List.range ir.2.width).flatMap (fun j =>
    ((laneReads s ir.2 j).filter (fun x => !written.contains x)).map (fun x => ⟨ir.1, j, x, opd s x⟩))

/-- Bytes that a rule's recorded payload field adds to the digest: the field's bytes, then its receive tick (R289). -/
def payloadRecord (s : State) (ir : Nat × Rule) : List Byte :=
  if ir.2.kind = 1 then
    match snapOf s ir.2 with
    | some x => (List.range ir.2.width).flatMap (fun j =>
        let off := bits ir.2.b 0 16 + j * rd ir.2.p 0 2
        slice x.bytes (off / 8) (ceilDiv (off % 8 + bits ir.2.b 16 6 + 1) 8) ++ leBytes 8 (x.tick.getD 0))
    | none => []
  else []

/-- Digest bytes of a recorded entry (R289). -/
def recBytes (s : State) (r : InRec) : List Byte := leBytes 8 (nowEntry s r.slot).toNat

/-! ## Pass 2 of one lane (R290) -/

/-- What pass 2 of a lane gives: the coded result before limiting, the status, the lane's state, and whether a check of R292
failed before the result. `init` stands for INIT·A with the status. -/
structure Lane2 where
  res  : Int
  stat : Nat
  st   : CodedLane
  bad  : Bool
  deriving DecidableEq, Repr

def encA (v : Int) : Int := v * codeA
def notA (v : Int) : Bool := v % codeA != 0
def bnot (v : Int) : Int := -v - 1

/-- Bitwise operations on two's complement integers of 64 bits. -/
def lor64 (x y : Int) : Int := toSigned 64 (Nat.lor (ofSigned 64 x) (ofSigned 64 y))
def land64 (x y : Int) : Int := toSigned 64 (Nat.land (ofSigned 64 x) (ofSigned 64 y))
def xor64 (x y : Int) : Int := toSigned 64 (Nat.xor (ofSigned 64 x) (ofSigned 64 y))

/-- COMBINE of two coded operands (R290). -/
def combine2 (op : Nat) (x y : COpd) : Int × Bool :=
  let dx := x.cv / codeA
  let dy := y.cv / codeA
  let bad := notA x.cv || notA y.cv
  let asRead (v : Int) : Int := if signedT x.type || signedT y.type then v else (ofSigned 64 v : Nat)
  match op with
  | 1 => (x.cv + y.cv, false)
  | 2 => (x.cv - y.cv, false)
  | 3 => (min x.cv y.cv, false)
  | 4 => (max x.cv y.cv, false)
  | 5 => (encA (asRead (bnot (lor64 (bnot dx) (bnot dy)))), bad)
  | 6 => (encA (asRead (bnot (land64 (bnot dx) (bnot dy)))), bad)
  | 7 => (encA (asRead (xor64 (bnot dx) (bnot dy))), bad)
  | 8 => (encA (b2n (x.cv == y.cv)), false)
  | _ => (encA (b2n (decide (x.cv < y.cv))), false)

/-- INIT of a destination as an integer. -/
def initInt (s : State) (dst : Nat) : Int :=
  entryInt (slotType s dst) (dInit (descOf s dst)) (if wide (slotType s dst) then dInit (descOf s (dst + 1)) else 0)

/-- Pass 2 of lane `j` of a rule; `rdc` reads a slot as pass 2 sees it. -/
def lane2 (s : State) (i : Nat) (r : Rule) (first : Bool) (j : Nat) (rdc : Nat → COpd) : Lane2 :=
  let dst := laneSlot s r.dst j
  let dt := slotType s dst
  let st : CodedLane := sget { prev := false, count := 0, line := [] } s.maps.codedLanes (laneKey i j)
  let a := rdc (laneSlot s r.a j)
  match r.kind with
  | 1 =>
    match snapOf s r with
    | none => ⟨encA (initInt s dst), stStale, st, false⟩
    | some x =>
      if x.tick.isNone && x.bytes.isEmpty then ⟨encA (initInt s dst), srcStatus s r x, st, false⟩
      else match unpackField r x.bytes j with
        | none => ⟨encA (initInt s dst), stFault, st, false⟩
        | some v => ⟨encA v, srcStatus s r x, st, false⟩
  | 2 =>
    let sh := rd r.p 4 1
    let h : Int := if sh = 0 then 0 else 2 ^ (sh - 1)
    let y := toSigned 32 (rd r.p 0 4) * a.cv + encA h
    ⟨encA (y / (codeA * 2 ^ sh)) + encA (toSigned 64 (rd r.p 8 8)), a.stat, st, notA y⟩
  | 3 =>
    let lo := encA (toSigned 64 (rd r.p 0 8))
    let hi := encA (toSigned 64 (rd r.p 8 8))
    ⟨min (max a.cv lo) hi, if bit r.op 0 && (decide (a.cv < lo) || decide (hi < a.cv)) then stFault else a.stat, st, false⟩
  | 4 =>
    let c := lutIndex r (a.cv / codeA)
    ⟨encA (bnot (lutEntry s.maps.rules (i + 33) (Nat.xor c.1 255))), if bit r.op 0 && c.2 then stFault else a.stat, st, notA a.cv⟩
  | 5 =>
    if r.op = 0 then
      let stp := if wide (slotType s r.a) then 2 else 1
      let ins := (List.range r.b).map (fun m => rdc (r.a + (j * r.b + m) * stp))
      let n := 2 ^ r.b
      let i' := Nat.xor (truthIndex (ins.map (fun o => o.cv != 0))) (n - 1)
      let b := !bit (leVal r.p) (n - 1 - i')
      ⟨encA (b2n (!b)), worstOf (ins.map (·.stat)), st, false⟩
    else
      let b := rdc (laneSlot s r.b j)
      let c := combine2 r.op a b
      ⟨c.1, worse a.stat b.stat, st, c.2⟩
  | 6 =>
    let c := rdc (rd r.p 0 4)
    let v := if c.cv != 0 then a else rdc (laneSlot s r.b j)
    ⟨v.cv, worse c.stat v.stat, st, false⟩
  | 7 =>
    let now := a.cv != 0
    ⟨encA (b2n (!first && edgeHit r.op st.prev now)), a.stat, { st with prev := now }, false⟩
  | 8 =>
    let now := a.cv != 0
    let prev := if first then encA (initInt s dst) else st.count
    let inc : Int := if a.stat ≠ stValid then 0 else if r.op = 0 then encA (b2n (!first && !st.prev && now)) else a.cv
    let M := rd r.p 0 8
    let sum := prev + inc
    let next : Int := if M ≠ 0 then sum % encA M else if dt = 0 then encA (b2n (sum != 0)) else max (encA (tMin dt)) (min sum (encA (tMax dt)))
    let rst : Option COpd := if r.b = noSlot then none else some (rdc (laneSlot s r.b j))
    let n : Int := match rst with | some o => if o.cv != 0 then 0 else next | none => next
    let stat := match rst with | some o => worse a.stat o.stat | none => a.stat
    ⟨n, stat, { st with prev := now, count := n }, false⟩
  | 9 =>
    let d := rd r.p 0 4
    let st' := { st with line := ((a.cv, a.stat) :: st.line).take d }
    match st.line[d - 1]? with
    | some (v, x) => ⟨v, x, st', false⟩
    | none => ⟨encA (initInt s dst), stNotReady, st', false⟩
  | _ => ⟨0, stValid, st, false⟩

/-- Limiting in coded form (R290): compared with ⟨min⟩ and ⟨max⟩ of the type; BOOL by a comparison with 0. -/
def limit2 (t : Nat) (v : Int) : Int :=
  if t = 0 then encA (b2n (v != 0)) else max (encA (tMin t)) (min v (encA (tMax t)))

/-- The coded value that pass 2 leaves in a slot: KEEP as in R265. -/
def keep2 (s : State) (dst stat : Nat) (v : Int) : Int :=
  if dKeep (descOf s dst) ∧ stat ≠ stValid then (sget (encA (initInt s dst), 3) s.maps.codedImg dst).1 else v

/-- The entries that a coded value decodes to (R293). -/
def entries2 (s : State) (dst stat : Nat) (v : Int) : List (Nat × DWord) :=
  let t := slotType s dst
  let w := intWords t (v / codeA)
  let vc (x : Nat) := if stat = stValid then s.maps.cycle else (slook s.maps.everValid x).getD 0
  (dst, mkEntry w.1 (vc dst) stat (highOf t dst) t)
    :: (if wide t then [(dst + 1, mkEntry w.2 (vc (dst + 1)) stat (highOf t (dst + 1)) t)] else [])

/-! ## Failures and the latch (R298, R301) -/

/-- A failure is offered to the map latch (R301). -/
def latchCf (kind stage lane : Nat) (inj : Bool) (rule : Nat) (p1 p2 : DWord) (s : State) : State :=
  modMaps (fun m => match m.cf with
    | some _ => { m with cfOvf := true }
    | none => { m with cf := some { kind := kind, stage := stage, lane := lane, inj := inj, rule := rule, cycle := m.cycle, p1 := p1, p2 := p2 } }) s

/-- Raise a source of the pass, injected by a session or real (R298, R299). -/
def raiseCf (code : Nat) (inj : Option Nat) (rule : Nat) (s : State) : State :=
  match inj with
  | some se => modSrc code (fun x => { x with injPend := false })
      (detect code { detail := 0xFFFF, address := rule, initiator := se, initKind := 1, inj := true } s)
  | none => detect code { address := rule } s

/-- The injection of a source that acts in the running cycle. -/
def armedOf (s : State) (code : Nat) : Option Nat := (s.maps.codedArmed.find? (fun x => x.1 == code)).map (·.2)

def disarm (code : Nat) (s : State) : State :=
  modMaps (fun m => { m with codedArmed := m.codedArmed.filter (fun x => x.1 != code) }) s

/-- Every slot that rules of the stage from `f` upward wrote holds FAULT (R294); the CODED ones among them are brought back at
close (R297). A PACK writes no slot. -/
def failFrom (f : Nat) (rs : List (Nat × Rule)) (s : State) : State :=
  let hit := rs.filter (fun x => decide (f ≤ x.1))
  let slots := hit.flatMap (fun x => ruleSlots s x.2)
  let s := slots.foldl (fun s x => faultSlot x s) s
  modMaps (fun m => { m with codedFault := m.codedFault ++ slots, codedFail := m.codedFail ++ (hit.filter (fun x => x.2.coded && x.2.kind != 10)).map (·.1) }) s

/-- CODED PACK rules whose instances are handled as R295 has it. -/
def failPacks (rs : List (Nat × Rule)) (s : State) : State :=
  modMaps (fun m => { m with codedFail := m.codedFail ++ (rs.filter (fun x => x.2.coded && x.2.kind == 10)).map (·.1) }) s

/-- What the compare of a stage finds at one lane. -/
structure Fail where
  rule : Nat
  lane : Nat
  kind : Nat
  inj  : Option Nat
  p1   : DWord
  p2   : DWord
  deriving DecidableEq, Repr

/-- Pass 2 of one lane with its checks (R292, R293): failures and the state with the coded image. -/
def laneCheck (ir : Nat × Rule) (first : Bool) (recs : List InRec) (written : List Nat) (j : Nat)
    (injCheck injCmp : Option Nat) (s : State) : List Fail × State :=
  let i := ir.1
  let r := ir.2
  let rdc (slot : Nat) : COpd :=
    if written.contains slot then
      let c := sget (encA (initInt s slot), 3) s.maps.codedImg slot
      { type := slotType s slot, cv := c.1, stat := 7 - c.2 }
    else match recs.find? (fun x => x.rule == i && x.lane == j && x.slot == slot) with
      | some x => { type := x.val.type, cv := encA x.val.int, stat := x.val.stat }
      | none => { type := slotType s slot, cv := 0, stat := stFault }
  let l := lane2 s i r first j rdc
  let dst := laneSlot s r.dst j
  let res := l.res + (if injCheck.isSome then 1 else 0)
  let bad := l.bad || notA res
  let v := keep2 s dst l.stat (limit2 (slotType s dst) l.res)
  let es := entries2 s dst l.stat v
  let es := if ruleBad s i then es.map (fun e => (e.1, markFault e.2)) else es
  let diff := es.filter (fun e => (if injCmp.isSome then e.2 ^^^ 1 else e.2) != nowEntry s e.1)
  let s := modMaps (fun m => { m with
    codedImg := sins m.codedImg dst (v, 7 - (if ruleBad s i then stFault else l.stat))
    codedLanes := sins m.codedLanes (laneKey i j) l.st }) s
  if bad then ([⟨i, j, 1, injCheck, nowEntry s dst, BitVec.ofNat 64 (ofSigned 32 (res % codeA))⟩], bump 0xF0140 s)
  else match diff with
    | [] => ([], bump 0xF0150 s)
    | e :: _ => ([⟨i, j, 2, injCmp, nowEntry s e.1, if injCmp.isSome then e.2 ^^^ 1 else e.2⟩], bump 0xF0144 s)

/-- Pass 1 of a stage, with the record of agreed inputs and the digest bytes (R287, R289). -/
def pass1 (written : List Nat) (rs : List (Nat × Rule)) (s : State) : (List InRec × List Byte) × State :=
  rs.foldl (fun (acc : (List InRec × List Byte) × State) ir =>
    let s := acc.2
    let new := if ir.2.coded then recordOf s written ir else []
    let bytes := if ir.2.coded then new.flatMap (recBytes s) ++ payloadRecord s ir else []
    ((acc.1.1 ++ new, acc.1.2 ++ bytes), if ir.2.kind = 10 then s else ruleRun ir s)) (([], []), s)

/-- Pass 2 of a stage: its CODED rules in ascending index (R287). -/
def pass2 (recs : List InRec) (written : List Nat) (firsts : List Nat) (rs : List (Nat × Rule)) (injCheck injCmp : Option Nat)
    (s : State) : List Fail × State :=
  let lanes := rs.flatMap (fun ir => (List.range ir.2.width).map (fun j => (ir, j)))
  lanes.zipIdx.foldl (fun (acc : List Fail × State) x =>
    let inj := x.2 == 0
    let r := laneCheck x.1.1 (firsts.contains x.1.1.1) recs written x.1.2 (if inj then injCheck else none) (if inj then injCmp else none) acc.2
    (acc.1 ++ r.1, r.2)) ([], s)

/-- Rules of indices `lo` to `hi − 1`. -/
def rulesIn (lo hi : Nat) (s : State) : List (Nat × Rule) := (ruleList s.maps.rules).filter (fun x => decide (lo ≤ x.1) && decide (x.1 < hi))

/-- Pass 1 alone of rules of indices `lo` to `hi − 1` (R275). -/
def firstPass (lo hi : Nat) (s : State) : State := (pass1 (codedSlots s) (rulesIn lo hi s) s).2

/-- The lowest CODED rule of the map: the one whose first lane an injection acts on (R299). -/
def codedHead (s : State) : Option (Nat × Rule) := (ruleList s.maps.rules).find? (fun x => x.2.coded)

/-- One stage of a cycle: rules of indices `lo` to `hi − 1` (R275, R287, R289, R293, R294). -/
def runStage (stage lo hi : Nat) (s : State) : State :=
  let rs := rulesIn lo hi s
  let written := codedSlots s
  let firsts := (rs.filter (fun x => firstRun s x.1)).map (·.1)
  let p := pass1 written rs s
  let s := p.2
  let cs := rs.filter (fun x => x.2.coded)
  let work := cs.filter (fun x => x.2.kind != 10)
  match cs with
  | [] => s
  | (f, h) :: _ =>
    let injD := armedOf s 0x0704
    let acts := h.kind != 10 && codedHead s == some (f, h)
    let injK := if acts then armedOf s 0x0702 else none
    let injM := if acts then armedOf s 0x0703 else none
    if injD.isSome then
      let d := crc32c p.1.2
      let s := bump 0xF0148 (disarm 0x0704 s)
      let s := latchCf 3 stage 0 true f (BitVec.ofNat 64 (Nat.xor d 1)) (BitVec.ofNat 64 d) s
      raiseCf 0x0704 injD f (failFrom f rs s)
    else
      let r := pass2 p.1.1 written firsts work injK injM s
      let s := onlyIf injK.isSome (disarm 0x0702) r.2
      let s := onlyIf injM.isSome (disarm 0x0703) s
      match r.1 with
      | [] => s
      | x :: _ =>
        let s := failFrom x.rule rs s
        r.1.foldl (fun s x => raiseCf (if x.kind = 1 then 0x0702 else 0x0703) x.inj x.rule
          (latchCf x.kind stage x.lane x.inj.isSome x.rule x.p1 x.p2 s)) s

/-! ## Checkpoint and close (R296, R297) -/

/-- Words of one lane that the checkpoint covers, as pass 1 holds them. -/
def ckWords1 (s : State) (i : Nat) (r : Rule) (j : Nat) : List Byte :=
  let dst := laneSlot s r.dst j
  let out := leBytes 8 (nowEntry s dst).toNat ++ (if wide (slotType s dst) then leBytes 8 (nowEntry s (dst + 1)).toNat else [])
  let l := laneSt s i j
  out ++ (match r.kind with
    | 7 => leBytes 8 (b2n l.prev)
    | 8 => leBytes 8 (ofSigned 64 l.count)
    | 9 => match l.line with
      | (lo, hi, st) :: _ => leBytes 8 (lo + hi * 2 ^ 32) ++ leBytes 8 st
      | [] => []
    | _ => [])

/-- The same words as pass 2 decodes them. -/
def ckWords2 (s : State) (i : Nat) (r : Rule) (j : Nat) : List Byte :=
  let dst := laneSlot s r.dst j
  let c := sget (encA (initInt s dst), 3) s.maps.codedImg dst
  let out := (entries2 s dst (7 - c.2) c.1).flatMap (fun e => leBytes 8 e.2.toNat)
  let l : CodedLane := sget { prev := false, count := 0, line := [] } s.maps.codedLanes (laneKey i j)
  out ++ (match r.kind with
    | 7 => leBytes 8 (b2n l.prev)
    | 8 => leBytes 8 (ofSigned 64 (l.count / codeA))
    | 9 => match l.line with
      | (v, st) :: _ =>
        let w := intWords (slotType s (laneSlot s r.a j)) (v / codeA)
        leBytes 8 (w.1 + w.2 * 2 ^ 32) ++ leBytes 8 st
      | [] => []
    | _ => [])

/-- The CODED rules that the checkpoint covers: those that have not failed in the cycle already (log entry 11). -/
def ckRules (s : State) : List (Nat × Rule) :=
  (ruleList s.maps.rules).filter (fun x => x.2.coded && x.2.kind != 10 && !s.maps.codedFail.contains x.1)

/-- The checkpoint of R296. PACK instances, which both passes build from the same sources, add `inst` to each digest. -/
def checkpoint (inst : List Byte) (s : State) : State :=
  let rs := ckRules s
  let anyCoded := (ruleList s.maps.rules).any (fun x => x.2.coded)
  let digestOf (w : Nat → Rule → Nat → List Byte) := crc32c (rs.flatMap (fun x => (List.range x.2.width).flatMap (w x.1 x.2)) ++ inst)
  let inj := if anyCoded then armedOf s 0x0705 else none
  let d1 := Nat.xor (digestOf (ckWords1 s)) (b2n inj.isSome)
  let d2 := digestOf (ckWords2 s)
  if d1 = d2 then s
  else
    let s := bump 0xF014C (onlyIf inj.isSome (disarm 0x0705) s)
    let all := (ruleList s.maps.rules).filter (fun x => x.2.coded)
    let s := failPacks all (failFrom 0 all s)
    raiseCf 0x0705 inj 0 (latchCf 4 3 0 inj.isSome 0 (BitVec.ofNat 64 d1) (BitVec.ofNat 64 d2) s)

/-- The two passes are brought back together at the close of a cycle with failures (R297). -/
def recode (s : State) : State :=
  let fs := (ruleList s.maps.rules).filter (fun x => s.maps.codedFail.contains x.1)
  let s := fs.foldl (fun s x =>
    (List.range x.2.width).foldl (fun s j =>
      let dst := laneSlot s x.2.dst j
      let o := opd s dst
      modMaps (fun m => { m with
        codedImg := if x.2.kind = 10 then m.codedImg else sins m.codedImg dst (encA o.int, 7 - stFault)
        codedLanes := sdel m.codedLanes (laneKey x.1 j), lanes := sdel m.lanes (laneKey x.1 j) }) s) s) s
  modMaps (fun m => { m with
    started := m.started.filter (fun i => !m.codedFail.contains i), codedFail := [], codedFault := [] }) s

end Sys2Proof.Machine
end

