-- ==== Sys2Proof/Machine/IoLink.lean ====
section
/-! DEFINITION. The IO-Link master port (R247 to R256). -/

namespace Sys2Proof.Machine

open Sys2Proof

/-! ## Settings (R259) -/

def iolMode (s : State) (ch : Nat) : Nat := fld s (chnAddr ch 0x300) 0 3
def iolPwrDelay (s : State) (ch : Nat) : Nat := fld s (chnAddr ch 0x300) 8 10
def pdInLen (s : State) (ch : Nat) : Nat := fld s (chnAddr ch 0x314) 0 6
def pdOutLen (s : State) (ch : Nat) : Nat := fld s (chnAddr ch 0x314) 8 6

/-- The outlet that supplies L+ (R249). -/
def iolOutlet (s : State) (ch : Nat) : Nat := fld s (chnAddr ch 0x300) 3 5 % 16 + (if ch < 64 then 0 else 16)

/-- The channel is an IO-Link port that takes part: JOINING, ACTIVE or DRAINING, not in reset. -/
def iolLive (s : State) (ch : Nat) : Bool :=
  let c := chan s ch
  pers s ch == 4 && iolMode s ch != 0 && (c.st == .joining || c.st == .active || c.st == .draining) && !c.resetting

/-- Port state (R259): an enabled port without its supply stands in NO_POWER (R249). -/
def iolSt (s : State) (ch : Nat) : IolSt :=
  match (chan s ch).iol.st with
  | .inactive => if iolLive s ch then .noPower else .inactive
  | x => x

/-! ## Port events (R255) -/

/-- One event packet: source, qualifier, code. Where there is no room it is dropped and reported as R196 has it. -/
def iolEventRx (ch : Nat) (source qual code stamp : Nat) (s : State) : State :=
  storeRx ch [BitVec.ofNat 8 source, BitVec.ofNat 8 qual, BitVec.ofNat 8 code, BitVec.ofNat 8 (code / 256)] stamp
    (bump (chnAddr ch 0x398) s)

def portEvent (ch code : Nat) (s : State) : State := iolEventRx ch 1 0 code (tickNow s) s

/-- The ISDU in flight, and those behind it, complete with ABORTED (R249, R253). -/
def abortIsdu (ch : Nat) (s : State) : State :=
  let l := (chan s ch).iol.isdu
  let s := onlyIf (chan s ch).iol.isduRuns (bump (chnAddr ch 0x394)) s
  modIol ch (fun x => { x with isdu := [], isduRuns := false })
    (l.foldl (fun s w => complete w.1 w.2 .aborted [] s) s)

/-- The channel returns to JOINING (R249, R253). -/
def iolBack (ch : Nat) (st : IolSt) (s : State) : State :=
  modChan ch (fun c => { c with
    st := if c.st = .draining then .draining else .joining, busIdle := false
    iol := { c.iol with st := st, com := 0, wakes := 0, tryCom := 0, repeats := 0, failed := 0, pdInOk := false } }) s

/-! ## Power, wake-up and start-up (R249 to R251) -/

/-- A port that works joins, where the channel waits to (R248, R251). -/
def iolJoin (ch : Nat) (s : State) : State := if (chan s ch).st = .joining then joinNow ch s else s

/-- IOL_POWER_GOOD (R249): the outlet has stood ON for PWR_DELAY. In DI and DQ mode the port then works (R248, R256). -/
def iolPowerGood (ch : Nat) (s : State) : State :=
  let o := outlet s (iolOutlet s ch)
  if iolLive s ch ∧ iolSt s ch = .noPower ∧ o.st = .on ∧ since o.sinceUp s ≥ iolPwrDelay s ch * 2000 then
    match iolMode s ch with
    | 3 => iolJoin ch (modIol ch (fun x => { x with st := .sioDi }) s)
    | 4 => iolJoin ch (modIol ch (fun x => { x with st := .sioDq }) s)
    | _ => modIol ch (fun x => { x with st := .wake, wakes := 0, tryCom := 0 }) s
  else s

/-- IOL_POWER_LOST (R249). COMP_FAULT and DQ_OVERLOAD stay until CH_RESET (R251, R256). Whether a device reply completes in the tick of
the loss is an input that no command names: a free value (log entry 5). -/
def iolPowerLost (ch : Nat) (s : State) : State :=
  let stays : Bool := iolSt s ch == .compFault || iolSt s ch == .dqOverload
  if iolLive s ch ∧ iolSt s ch ≠ .noPower ∧ !stays ∧ (outlet s (iolOutlet s ch)).st ≠ .on then
    let d := draw s
    portEvent ch 5 (iolBack ch .noPower (abortIsdu ch (bumpBy (chnAddr ch 0x388) (d.1 % 2) d.2)))
  else s

/-- A wake-up is due (R250): at once, 100 ms after three failed rates, or once a second in NO_DEVICE. -/
def wakeDue (s : State) (ch : Nat) : Bool :=
  let x := (chan s ch).iol
  (x.st == .wake || x.st == .noDevice) && x.tryCom == 0
    && (x.wakes == 0 || decide (since x.seqUp s ≥ (if x.st = .noDevice then 2000000 else 200000)))

/-- IOL_WAKE_UP (R250). -/
def iolWakeUp (ch : Nat) (s : State) : State :=
  if iolLive s ch && wakeDue s ch then
    bump (chnAddr ch 0x380) (modIol ch (fun x => { x with wakes := x.wakes + 1, tryCom := 3 }) s)
  else s

/-- IOL_COM_TRY_END (R250): COM3, COM2, COM1 in turn. -/
def iolComTryEnd (ch : Nat) (replied : Bool) (s : State) : State :=
  let x := (chan s ch).iol
  if !iolLive s ch || x.tryCom == 0 then s
  else if replied then modIol ch (fun x => { x with st := .startup, com := x.tryCom, tryCom := 0, wakes := 0 }) s
  else if x.tryCom > 1 then modIol ch (fun x => { x with tryCom := x.tryCom - 1 }) s
  else
    let s := modIol ch (fun x => { x with tryCom := 0, seqUp := s.time.up }) s
    if x.wakes ≥ 3 ∧ x.st ≠ .noDevice then
      portEvent ch 1 (channelEvent ch 2 (modIol ch (fun x => { x with st := .noDevice }) s))
    else s

/-- MinCycleTime in 0.1 ms, as the standard that R247 names encodes it (PRESUMED: IEC 61131-9, log entry 9). -/
def minCycle (b : Nat) : Nat :=
  let m := b % 64
  match b / 64 with
  | 0 => m
  | 1 => 64 + 4 * m
  | 2 => 320 + 16 * m
  | _ => m

/-- Process data length in bytes of a ProcessDataIn or ProcessDataOut parameter (PRESUMED: IEC 61131-9, log entry 9). -/
def pdLen (b : Nat) : Nat := if bit b 7 then b % 32 + 1 else ceilDiv (b % 32) 8

/-- IOL_STARTUP_DONE (R251): `page` holds direct parameters 0x02 to 0x0D. -/
def iolStartupDone (ch : Nat) (page : List Byte) (s : State) : State :=
  if !iolLive s ch || (chan s ch).iol.st != .startup then s
  else
    let vid := rd page 5 1 * 256 + rd page 6 1
    let did := rd page 7 1 * 65536 + rd page 8 1 * 256 + rd page 9 1
    let s := modIol ch (fun x => { x with
      rev := rd page 2 1, cycle := max (fld s (chnAddr ch 0x300) 18 11) (minCycle (rd page 0 1)), vidRead := vid, didRead := did }) s
    let bad : Bool := pdLen (rd page 3 1) != pdInLen s ch || pdLen (rd page 4 1) != pdOutLen s ch
      || (iolMode s ch == 1 && (vid != fld s (chnAddr ch 0x308) 0 16 || did != fld s (chnAddr ch 0x30C) 0 24))
    if bad then portEvent ch 3 (modIol ch (fun x => { x with st := .compFault }) s)
    else
      let s := modIol ch (fun x => { x with st := .preoperate, repeats := 0, failed := 0, seqUp := s.time.up }) s
      portEvent ch 2 (iolJoin ch s)

/-! ## Process data (R252, R253) -/

/-- Communication is lost (R253). -/
def iolCommLost (ch : Nat) (s : State) : State :=
  let s := unitFault 0x0606 0 ch (bump (chnAddr ch 0x38C) s)
  iolBack ch .wake (abortIsdu ch (portEvent ch 4 s))

/-- IOL_M_SEQUENCE (R252, R253). The port enters OPERATE once the device has no pending events to read (R251). -/
def iolMSequence (ch : Nat) (how : SeqEnd) (s : State) : State :=
  let x := (chan s ch).iol
  if !iolLive s ch || (x.st != .preoperate && x.st != .operate) then s
  else
    match how with
    | .ok pd valid stamp =>
      if x.st = .preoperate then
        modIol ch (fun x => { x with st := if x.unconfirmed = 0 then .operate else .preoperate, repeats := 0, failed := 0 }) s
      else
        onlyIf (!valid) (bump (chnAddr ch 0x39C)) (modIol ch (fun x => { x with
          repeats := 0, failed := 0, pdIn := padTo (pdInLen s ch) (pd.take (pdInLen s ch)), pdInTick := some stamp, pdInOk := valid
          pdBefore := x.pdInTick.map (fun t => (t, x.pdIn, x.pdInOk)) }) s)
    | .repeat_ =>
      if x.repeats < 2 then bump (chnAddr ch 0x384) (modIol ch (fun x => { x with repeats := x.repeats + 1 }) s) else s
    | .failed =>
      let s := bump (chnAddr ch 0x388) (bumpBy (chnAddr ch 0x384) (2 - x.repeats) s)
      let s := modIol ch (fun x => { x with repeats := 0, failed := x.failed + 1 }) s
      if x.failed + 1 ≥ 3 then iolCommLost ch s else s

/-- The newest PD in stamped before the gather of cycle k (R252): stamp, bytes, and whether the device marked it valid. -/
def pdSeen (s : State) (ch k : Nat) : Option (Nat × List Byte × Bool) :=
  let x := (chan s ch).iol
  let tk := k * s.maps.n
  match x.pdInTick with
  | none => none
  | some t => if t < tk then some (t, x.pdIn, x.pdInOk) else x.pdBefore.filter (fun b => decide (b.1 < tk))

/-- Bytes, stamp and status of PD in at the gather of cycle k (R252). -/
def gatherPd (s : State) (ch k : Nat) : List Byte × Option Nat × Nat :=
  let x := (chan s ch).iol
  let p := pdSeen s ch k
  let st := if x.st = .compFault then stFault
    else if x.st ≠ .operate then stStale
    else match p with
      | none => stStale
      | some b => if !b.2.2 then stFault else if b.1 + 3 * x.cycle * 200 ≥ k * s.maps.n then stValid else stStale
  ((p.map (·.2.1)).getD [], p.map (·.1), st)

/-! ## ISDU (R254) -/

def popIsdu (ch : Nat) (s : State) : State :=
  modIol ch (fun x => { x with isdu := x.isdu.drop 1, isduRuns := false }) s

/-- The ISDU under a session and tag is a read. -/
def isduReads (s : State) (se : Nat) (tag : Tag) : Bool :=
  s.cmd.inflight.any (fun c => c.session == se && c.tag == tag && c.opcode == 0x0403)

/-- ISDU_COMPLETE (R254). -/
def isduComplete (ch : Nat) (how : IsduEnd) (s : State) : State :=
  let x := (chan s ch).iol
  if !iolLive s ch || !x.isduRuns then s
  else
    match x.isdu with
    | [] => s
    | (se, tag) :: _ =>
      match how with
      | .ok data => complete se tag .ok (if isduReads s se tag then data.take 232 else []) (popIsdu ch s)
      | .deviceError c a => complete se tag .farError [c, a] (bump (chnAddr ch 0x394) (popIsdu ch s))

/-- ISDU_TIMEOUT (R254): 5 s after the first request segment. -/
def isduTimeout (ch : Nat) (s : State) : State :=
  let x := (chan s ch).iol
  match x.isdu with
  | (se, tag) :: _ =>
    if x.isduRuns ∧ since x.isduUp s ≥ 10000000 then complete se tag .timeout [] (bump (chnAddr ch 0x394) (popIsdu ch s)) else s
  | [] => s

/-! ## Device events, DI and DQ (R255, R256) -/

/-- IOL_DEVICE_EVENT (R255): every packet of the set stands in the RX queue, or the device keeps its events. -/
def iolDeviceEvent (ch : Nat) (events : List (Byte × BitVec 16)) (stamp : Nat) (s : State) : State :=
  let x := (chan s ch).iol
  let evs := events.take 6
  if !iolLive s ch || (x.st != .preoperate && x.st != .operate) || x.isduRuns then s
  else
    let s := flushReport ch s
    if (chan s ch).pendRpt.isNone && rxFits s ch (2 * evs.length) then
      modIol ch (fun x => { x with unconfirmed := 0 })
        (evs.foldl (fun s e => iolEventRx ch 0 e.1.toNat e.2.toNat stamp s) s)
    else modIol ch (fun x => { x with unconfirmed := evs.length }) s

/-- IOL_DI_EDGE (R248, R256): C/Q in DI mode, ball B in modes 1 to 4; the edge bears its stamp, as a line's does. -/
def iolDiEdge (ch : Nat) (ballB level : Bool) (stamp : Nat) (s : State) : State :=
  if !iolLive s ch then s
  else if ballB then modIol ch (fun x => { x with diB := level, diBTick := stamp, diBWas := if x.diBTick = stamp then x.diBWas else x.diB }) s
  else if iolMode s ch = 3 then modIol ch (fun x => { x with di := level, diTick := stamp, diWas := if x.diTick = stamp then x.diWas else x.di }) s
  else s

/-- The DI levels of a port at the end of the tick before `t`, C/Q in bit 0 and ball B in bit 1 (R271). -/
def diBefore (x : IolState) (t : Nat) : Nat :=
  b2n (if x.diTick ≥ t then x.diWas else x.di) + 2 * b2n (if x.diBTick ≥ t then x.diBWas else x.diB)

/-- IOL_DQ_OVERLOAD (R256). -/
def iolDqOverload (ch : Nat) (s : State) : State :=
  if iolLive s ch ∧ (chan s ch).iol.st = .sioDq then
    unitFault 0x0607 0 ch (modIol ch (fun x => { x with st := .dqOverload, dq := false }) s)
  else s

/-- PD out of the cycle takes effect (R252, R272): invalid sources hold the last valid PD out. A port in DQ mode drives bit 0 of
the first byte (log entry 10). -/
def iolRelease (ch : Nat) (bs : List Byte) (valid : Bool) (s : State) : State :=
  modIol ch (fun x => { x with
    pdOut := if valid then bs else x.pdOut, pdOutOk := valid
    dq := if x.st = .sioDq then (if valid then bit (rd bs 0 1) 0 else x.dq) else x.dq }) s

end Sys2Proof.Machine
end

