-- ==== Sys2Proof/Machine/Serial.lean ====
section
/-! DEFINITION. Serial lines: frames, inline check values and alive counters (R229 to R235, R351 to R354). -/

namespace Sys2Proof.Machine

open Sys2Proof

/-! ## Settings (R257, R358) -/

def serFld (s : State) (ch off lo w : Nat) : Nat := fld s (chnAddr ch off) lo w
def serMode (s : State) (ch : Nat) : Nat := serFld s ch 0x10C 0 2
def sofEn (s : State) (ch : Nat) : Bool := serFld s ch 0x10C 8 1 == 1
def cvEn (s : State) (ch : Nat) : Bool := serFld s ch 0x10C 9 1 == 1
def cvBe (s : State) (ch : Nat) : Bool := serFld s ch 0x10C 10 1 == 1
def sofByte (s : State) (ch : Nat) : Byte := BitVec.ofNat 8 (serFld s ch 0x10C 16 8)
def eofByte (s : State) (ch : Nat) : Byte := BitVec.ofNat 8 (serFld s ch 0x10C 24 8)
def maxLen (s : State) (ch : Nat) : Nat := serFld s ch 0x110 16 13
def cvStart (s : State) (ch : Nat) : Nat := serFld s ch 0x114 0 12

/-- Address of a register of a channel's inline unit (R358). -/
def cvIn (ch off : Nat) : Nat := 0x101000 + ch * 0x40 + off

/-- Parameters of a unit from its registers (R348, R358). -/
def cvParams (s : State) (base : Nat) : CrcParams :=
  { width := fld s base 0 7, poly := csr s (base + 4) + csr s (base + 8) * 2 ^ 32
    init := csr s (base + 0xC) + csr s (base + 0x10) * 2 ^ 32
    refin := fld s base 7 1 == 1, refout := fld s base 8 1 == 1
    xorout := csr s (base + 0x14) + csr s (base + 0x18) * 2 ^ 32 }

/-- Bytes of a check value (R235, R349). -/
def cvLen (s : State) (ch : Nat) : Nat := ceilDiv (fld s (cvIn ch 0) 0 7) 8

/-- Check value bytes over the covered part of frame data, in the order of CV_BE (R235). -/
def cvBytes (s : State) (ch : Nat) (data : List Byte) : List Byte :=
  let v := leBytes (cvLen s ch) (crcCompute (cvParams s (cvIn ch 0)) (data.drop (cvStart s ch)))
  if cvBe s ch then v.reverse else v

/-- Keep the last value that the inline unit computed (R358). -/
def noteCv (ch : Nat) (data : List Byte) (s : State) : State :=
  let v := BitVec.ofNat 64 (crcCompute (cvParams s (cvIn ch 0)) (data.drop (cvStart s ch)))
  modCv (fun c => { c with results := sput 0 c.results (8 + ch) v }) s

/-! ## Alive counters (R353, R354) -/

/-- The alive counter is on: it stands in protected frames (R353). -/
def aliveOn (s : State) (ch : Nat) : Bool := cvEn s ch && fld s (cvIn ch 0x2C) 0 1 == 1

def aliveW (s : State) (ch : Nat) : Nat := if fld s (cvIn ch 0x2C) 1 1 = 1 then 8 else 4
def aliveOfs (s : State) (ch : Nat) : Nat := fld s (cvIn ch 0x2C) 3 12
def aliveLo (s : State) (ch : Nat) : Nat := if aliveW s ch = 4 ∧ fld s (cvIn ch 0x2C) 2 1 = 1 then 4 else 0

/-- Data with the transmit counter in its field (R353). -/
def putAlive (s : State) (ch : Nat) (data : List Byte) : List Byte :=
  match data[aliveOfs s ch]? with
  | some b => setAt data (aliveOfs s ch) (BitVec.ofNat 8 (setBits b.toNat (aliveLo s ch) (aliveW s ch) (chan s ch).aliveTx.toNat))
  | none => data

/-- The alive check of a received frame (R354): accepted or not. A frame too short to hold the counter gives a value that the
spec does not state (log entry 5). -/
def aliveCheck (ch : Nat) (data : List Byte) (s : State) : Bool × State :=
  if !aliveOn s ch then (true, s)
  else
    let w := aliveW s ch
    let (c, s) := match data[aliveOfs s ch]? with
      | some b => (bits b.toNat (aliveLo s ch) w, s)
      | none => ((draw s).1 % 2 ^ w, (draw s).2)
    let p := (chan s ch).aliveRx.toNat
    let d := (c + 2 ^ w - p % 2 ^ w) % 2 ^ w
    let tol := fld s (cvIn ch 0x2C) 15 3
    let keep (s : State) : State := modChan ch (fun x => { x with aliveRx := BitVec.ofNat 8 c, aliveSync := true }) s
    if !(chan s ch).aliveSync then (true, keep s)
    else if d = 0 then (false, bump (chnAddr ch 0x90) (bump (cvIn ch 0x34) s))
    else if d = 1 then (true, keep s)
    else if d ≤ tol + 1 then (true, keep (bumpBy (cvIn ch 0x38) (d - 1) s))
    else (false, unitFault 0x0901 0 ch (bump (chnAddr ch 0x90) (bump (cvIn ch 0x3C) (keep s))))

/-! ## Reception (R230, R233 to R235, R352) -/

/-- What a run of received characters gives first. -/
inductive Parsed where
  | frame (bs rest : List Byte)
  | cut
  | tooLong
  | nothing
  deriving DecidableEq, Repr

/-- LENGTH mode (R234). -/
def parseLength (s : State) (ch : Nat) (bs : List Byte) : Parsed :=
  let ofs := serFld s ch 0x110 0 4
  let w := serFld s ch 0x110 4 1 + 1
  if bs.length < ofs + w then .cut
  else
    let f := slice bs ofs w
    let total := leVal (if serFld s ch 0x110 5 1 = 1 then f.reverse else f) + serFld s ch 0x110 8 8
    if total > maxLen s ch ∨ total < ofs + w then .tooLong
    else if bs.length < total then .cut
    else .frame (bs.take total) (bs.drop total)

/-- DELIM mode (R233): the first EOF byte after the start ends the frame. -/
def parseDelim (s : State) (ch : Nat) (bs : List Byte) : Parsed :=
  let from_ := if sofEn s ch then 1 else 0
  match (bs.drop from_).findIdx? (· == eofByte s ch) with
  | some i =>
    let n := from_ + i + 1
    if n > maxLen s ch then .tooLong else .frame (bs.take n) (bs.drop n)
  | none => if bs.length > maxLen s ch then .tooLong else .cut

/-- The first frame of a run of characters that starts after idle (R233). -/
def parseFrame (s : State) (ch : Nat) (bs : List Byte) : Parsed :=
  if bs.isEmpty then .nothing
  else if serMode s ch = 0 then (if bs.length > maxLen s ch then .tooLong else .frame bs [])
  else if serMode s ch = 1 then parseLength s ch bs
  else parseDelim s ch bs

/-- Check value of a frame (R235): the frame without it, where it matches. In DELIM it stands before the EOF byte. -/
def cvCheck (s : State) (ch : Nat) (f : List Byte) : Option (List Byte × List Byte) :=
  let n := cvLen s ch
  let tail := if serMode s ch = 2 then f.drop (f.length - 1) else []
  let body := if serMode s ch = 2 then f.take (f.length - 1) else f
  if body.length < n then none
  else
    let data := body.take (body.length - n)
    if body.drop (body.length - n) = cvBytes s ch data then some (data, tail) else none

/-- A whole frame passes the checks of R352 and enters the RX queue. -/
def takeSerial (ch : Nat) (f : List Byte) (stamp : Nat) (s : State) : State :=
  if !cvEn s ch then storeRx ch f stamp s
  else
    match cvCheck s ch f with
    | none => bump (chnAddr ch 0x90) (bump (chnAddr ch 0x190) s)
    | some (data, tail) =>
      let (ok, s) := aliveCheck ch data (noteCv ch data s)
      if ok then storeRx ch (data ++ tail) stamp s else s

/-- A frame with a faulty character is rejected whole (R230). -/
def rejectFault (ch : Nat) (k : LineFault) (s : State) : State :=
  bump (chnAddr ch 0x90) (bump (chnAddr ch (match k with | .framing => 0x180 | .parity => 0x184 | .break_ => 0x188)) s)

/-- Characters that the first frame of a run takes. -/
def spanOf (p : Parsed) (n : Nat) : Nat := match p with | .frame f _ => f.length | _ => n

/-- The frames of a run of characters, one after another; with SOF_EN, characters outside a frame are noise (R233). `ts` holds the tick
of the last bit of each character: a frame is stamped with that of its last one, in GAP mode with the end of the idle behind the run
(R169, R233). A break ends the frame in which it stands (R230). -/
def takeRun (ch idle : Nat) : Nat → List Byte → List Nat → Option (Nat × LineFault) → State → State
  | 0, _, _, _, s => s
  | n + 1, bs, ts, fault, s =>
    let framed := sofEn s ch && serMode s ch != 0
    let noise := if framed then (bs.takeWhile (fun b => b != sofByte s ch)).length else 0
    let s := onlyIf (decide (noise > 0)) (bumpBy (chnAddr ch 0x198) noise) s
    let bs := bs.drop noise
    let ts := ts.drop noise
    let fault := fault.bind (fun x => if x.1 < noise then none else some (x.1 - noise, x.2))
    let p := parseFrame s ch bs
    let used := spanOf p bs.length
    match fault.filter (fun x => decide (x.1 < used)) with
    | some (k, kind) =>
      let s := rejectFault ch kind s
      let used := if kind = .break_ then k + 1 else used
      if framed then takeRun ch idle n (bs.drop used) (ts.drop used) none s else s
    | none =>
      match p with
      | .frame f rest =>
        let s := takeSerial ch f (if serMode s ch = 0 then idle else ts.getD (f.length - 1) idle) s
        if framed then takeRun ch idle n rest (ts.drop f.length) (fault.map (fun x => (x.1 - f.length, x.2))) s else s
      | .cut => bump (chnAddr ch 0x90) (bump (chnAddr ch 0x194) s)
      | .tooLong => bump (chnAddr ch 0x90) (bump (chnAddr ch 0x18C) s)
      | .nothing => s

/-- The channel's receiver is on for frames (R184). -/
def serialHears (s : State) (ch : Nat) : Bool :=
  let c := chan s ch
  (pers s ch == 1 || pers s ch == 2) && (c.st == .active || c.st == .draining) && !c.resetting

/-- SERIAL_FRAME_RX (R230, R233): the characters received from one idle to the next. -/
def serialFrameRx (ch : Nat) (bs : List Byte) (ticks : List Nat) (idle : Nat) (fault : Option (Nat × LineFault)) (s : State) : State :=
  if !serialHears s ch || mbOn s ch then s else takeRun ch idle bs.length bs ticks fault s

/-! ## Transmission (R231, R235, R352, R353) -/

/-- The item cannot be framed: DELIM with a check value, and its last byte is not EOF (R235). -/
def delimDefect (s : State) (ch : Nat) (i : TxItem) : Bool :=
  cvEn s ch && serMode s ch == 2 && i.data.getLast? != some (eofByte s ch)

/-- The bytes of an item on the line: alive counter written, check value appended or inserted (R235, R352). -/
def lineBytes (s : State) (ch : Nat) (data : List Byte) : List Byte :=
  if !cvEn s ch then data
  else
    let d := if aliveOn s ch then putAlive s ch data else data
    if serMode s ch = 2 then
      let body := d.take (d.length - 1)
      body ++ cvBytes s ch body ++ d.drop (d.length - 1)
    else d ++ cvBytes s ch d

/-- The first start bit of an item leaves: its bytes are fixed and the transmit counter goes on (R353). The echo that a
half-duplex line reads back is an input that no command names: the count of its mismatches is a free value (log entry 5). -/
def startSerial (ch : Nat) (i : TxItem) (s : State) : State :=
  let bs := lineBytes s ch i.data
  let s := modChan ch (fun c => { c with
    lastSent := bs, aliveTx := if aliveOn s ch then BitVec.ofNat 8 ((c.aliveTx.toNat + 1) % 2 ^ aliveW s ch) else c.aliveTx }) s
  if pers s ch = 1 then
    let d := draw s
    bumpBy (chnAddr ch 0x19C) (d.1 % (bs.length + 1)) d.2
  else s

/-- One bit on the line, in ns (R257). -/
def serBitNs (s : State) (ch : Nat) : Nat := 1000000000 / max 1 (serFld s ch 0x104 0 25)

/-- Bits of a character (R229, R257). -/
def charBits (s : State) (ch : Nat) : Nat :=
  2 + (if serFld s ch 0x100 0 2 = 1 then 7 else 8) + b2n (serFld s ch 0x100 2 2 != 0) + serFld s ch 0x100 4 1

/-- Whole ticks for which `n` characters stand on the line (R229). -/
def charTicks (s : State) (ch n : Nat) : Nat := n * charBits s ch * 2000000 / max 1 (serFld s ch 0x104 0 25)

/-- LEAD of the driver, and TAIL with GUARD behind an item, in ns: RS-485 alone turns its direction (R231, R232). -/
def leadNs (s : State) (ch : Nat) : Nat := if pers s ch = 1 then serFld s ch 0x108 0 4 * serBitNs s ch else 0
def turnNs (s : State) (ch : Nat) : Nat :=
  (if pers s ch = 1 then serFld s ch 0x108 4 8 * serBitNs s ch else 0) + serFld s ch 0x108 12 16 * 1000

/-- The channel sends raw items on a serial line. -/
def serialSends (s : State) (ch : Nat) : Bool := (pers s ch == 1 || pers s ch == 2) && !mbOn s ch

/-- What keeps an item from being sent at all (R193, R235). -/
def serialDefect (s : State) (ch : Nat) (i : TxItem) : Option Status :=
  match i.bad with
  | some st => some st
  | none => if delimDefect s ch i then some .denied else none

/-- The line is ready for a first start bit at `ns` (R173, R231): nothing leaves, no turnaround runs, no report holds the queue. -/
def lineReady (s : State) (ch ns : Nat) : Bool :=
  let c := chan s ch
  sending c && c.onWire.isNone && c.pendRpt.isNone && decide (c.turnUntil + leadNs s ch ≤ ns)

/-- The item goes on the wire. -/
def putOnWire (ch : Nat) (i : TxItem) (s : State) : State := modChan ch (fun c => { c with onWire := some i.seq, busIdle := false }) (startSerial ch i s)

/-- The head of a serial queue in the present tick (R173, R188, R231): it is refused, starts where the line is ready, or is late. An
untimed one starts when `quiet`, with 1.5 characters of idle seen; a timed one at its instant, and late once that has passed. -/
def serialOffer (ch : Nat) (quiet : Bool) (s : State) : State :=
  let c := chan s ch
  match (if serialSends s ch && c.onWire.isNone then c.txq.head? else none) with
  | none => s
  | some i =>
    match serialDefect s ch i, i.release with
    | some st, _ => if sending c then endItem ch i st s else s
    | none, none => if quiet && lineReady s ch (nsNow s) then putOnWire ch i s else s
    | none, some r =>
      if onGrid r < nsNow s then endItem ch i .tooLate s
      else if nextNs s ≤ onGrid r then s
      else if lineReady s ch (onGrid r) then putOnWire ch i s
      else endItem ch i .tooLate s

/-- TX_ITEM_COMPLETE (R197, R231): the item on the wire has left; without one, a head that cannot be sent is reported. `leaveNs` is the
instant at which the item began at the ball (R173). -/
def itemComplete (ch leaveNs : Nat) (s : State) : State :=
  match wireItem (chan s ch) with
  | some i =>
    let s := modChan ch (fun c => { c with turnUntil := nsNow s + turnNs s ch }) s
    sentItem ch i leaveNs s
  | none => serialOffer ch false s

/-- TAT_RELEASE (R173, R221): the release instant of the item in turn lies in the present tick; it starts, or is late. -/
def releaseItem (ch : Nat) (s : State) : State := canOffer ch (serialOffer ch false s)

/-- The idle condition of R186 in the present tick, as CHN_STAT shows it (R204). What other nodes do on the line is an input that no
row carries, a free value (log entry 101); the channel's own item, and the bits that must follow a frame, keep the line from idle. -/
def watchIdle (ch : Nat) (s : State) : State :=
  let c := chan s ch
  let hears := (c.st == .active || c.st == .alone || c.st == .draining) && !c.resetting
  if pers s ch = 4 then s
  else if !hears || c.onWire.isSome || c.can.onBus.isSome || decide (nsNow s < c.can.idleFrom) then
    modChan ch (fun c => { c with busIdle := false }) s
  else
    let d := draw s
    modChan ch (fun c => { c with busIdle := d.1 % 2 == 1 }) d.2

/-- A channel in the tick that begins: its line is watched, and its queue offered to the line (R173, R186, R219, R231). Whether an
RS-485 line has been quiet for 1.5 characters is a free value too. -/
def lineTick (ch : Nat) (s : State) : State :=
  let s := watchIdle ch s
  let q := if pers s ch = 1 then draw s else (1, s)
  canOffer ch (serialOffer ch (q.1 % 2 == 1) q.2)

end Sys2Proof.Machine
end

