-- ==== Sys2Proof/Machine/Modbus.lean ====
section
/-! DEFINITION. The Modbus RTU master service (R236 to R246). -/

namespace Sys2Proof.Machine

open Sys2Proof

/-! ## Requests (R238, R239) -/

/-- `n` big-endian bytes. -/
def beBytes (n v : Nat) : List Byte := (leBytes n v).reverse

/-- The number that big-endian bytes spell. -/
def beVal (bs : List Byte) : Nat := leVal bs.reverse

/-- One request of the service: slave, function, read or write address and quantity, write part of code 23, data in host order. -/
structure MbReq where
  slave : Nat
  func  : Nat
  addr  : Nat
  qty   : Nat
  waddr : Nat
  wqty  : Nat
  data  : List Byte
  deriving DecidableEq, Repr

/-- The request that a transaction command spells (R57). -/
def mbReqOf (opcode : Nat) (p : List Byte) : MbReq :=
  if opcode = 0x0402 then ⟨rd p 0 1, 23, rd p 2 2, rd p 4 2, rd p 6 2, rd p 8 2, p.drop 10⟩
  else ⟨rd p 0 1, rd p 1 1, rd p 2 2, rd p 4 2, 0, 0, p.drop 6⟩

/-- Largest quantity of a function (R238). -/
def mbMaxQty : Nat → Nat
  | 1 => 2000
  | 2 => 2000
  | 3 => 125
  | 4 => 125
  | 15 => 1968
  | 16 => 123
  | 23 => 125
  | _ => 1

/-- Data bytes that a request's quantity implies (R239). -/
def mbDataLen (r : MbReq) : Nat :=
  match r.func with
  | 5 => 1
  | 6 => 2
  | 15 => ceilDiv r.qty 8
  | 16 => 2 * r.qty
  | 23 => 2 * r.wqty
  | _ => 0

/-- Why a request is refused, in the order of R239's table. -/
def mbFault (r : MbReq) : Option Status :=
  if r.qty > mbMaxQty r.func ∨ (r.func = 23 ∧ r.wqty > 121) then some .badLength
  else if r.data.length ≠ mbDataLen r then some .badLength
  else if r.qty = 0 ∨ (r.func = 23 ∧ r.wqty = 0) then some .denied
  else if r.addr + r.qty > 65536 ∨ (r.func = 23 ∧ r.waddr + r.wqty > 65536) then some .denied
  else if r.slave = 0 ∧ (r.func ≤ 4 ∨ r.func = 23) then some .denied
  else if r.func = 15 ∧ r.qty % 8 ≠ 0 ∧ leVal r.data ≥ 2 ^ r.qty then some .denied
  else if r.func = 5 ∧ leVal r.data > 1 then some .denied
  else none

/-- Registers turned to the order of the wire (R239). -/
def swapPairs : List Byte → List Byte
  | a :: b :: t => b :: a :: swapPairs t
  | l => l

/-- Request bytes on the line, CRC included (R236, R238). -/
def mbBytes (r : MbReq) : List Byte :=
  let head := [BitVec.ofNat 8 r.slave, BitVec.ofNat 8 r.func] ++ beBytes 2 r.addr
  let body := match r.func with
    | 5 => head ++ (if leVal r.data = 0 then [0, 0] else [0xFF, 0])
    | 6 => head ++ swapPairs r.data
    | 15 => head ++ beBytes 2 r.qty ++ [BitVec.ofNat 8 r.data.length] ++ r.data
    | 16 => head ++ beBytes 2 r.qty ++ [BitVec.ofNat 8 r.data.length] ++ swapPairs r.data
    | 23 => head ++ beBytes 2 r.qty ++ beBytes 2 r.waddr ++ beBytes 2 r.wqty ++ [BitVec.ofNat 8 r.data.length] ++ swapPairs r.data
    | _ => head ++ beBytes 2 r.qty
  body ++ leBytes 2 (crcModbus body)

/-- Slaves table of a channel: slave, retries, timeout (R243, R439). -/
def mbSlaves (s : State) (ch : Nat) : List (Nat × Nat × Nat) :=
  ((records s.upd.inForce 3).filter (fun r => r.kind == 0x0301 && rd r.body 0 1 == ch)).flatMap (fun r =>
    (entries 8 8 r.body).map (fun e => (rd e 0 1, rd e 1 1, rd e 2 2)))

/-- Response timeout in ms and retries of a slave (R241). -/
def mbTimes (s : State) (ch slave : Nat) : Nat × Nat :=
  match (mbSlaves s ch).find? (fun e => e.1 == slave) with
  | some (_, r, t) => (t, r)
  | none => (fld s (chnAddr ch 0x204) 0 16, fld s (chnAddr ch 0x204) 16 3)

/-! ## The poll list (R243, R244) -/

/-- A poll entry (R243). -/
structure Poll where
  slave  : Nat
  func   : Nat
  signed : Bool
  addr   : Nat
  qty    : Nat
  waddr  : Nat
  wqty   : Nat
  period : Nat
  phase  : Nat
  maxAge : Nat
  rslot  : Nat
  wslot  : Nat
  deriving DecidableEq, Repr

def parsePoll (e : List Byte) : Poll :=
  { slave := rd e 0 1, func := rd e 1 1, signed := bit (rd e 2 1) 0, addr := rd e 4 2, qty := rd e 6 2, waddr := rd e 8 2,
    wqty := rd e 10 2, period := rd e 12 2, phase := rd e 14 2, maxAge := rd e 16 2, rslot := rd e 20 4, wslot := rd e 24 4 }

/-- Poll list of a channel in list order. -/
def pollsIn (img : List Byte) (ch : Nat) : List Poll :=
  ((records img 3).filter (fun r => r.kind == 0x0302 && rd r.body 0 1 == ch)).flatMap (fun r =>
    (entries 28 8 r.body).map parsePoll)

def polls (s : State) (ch : Nat) : List Poll := pollsIn s.upd.inForce ch

/-- Codes that read into slots, and codes that write from slots (R245, R246). -/
def pollReads (f : Nat) : Bool := f == 1 || f == 2 || f == 3 || f == 4 || f == 23
def pollWrites (f : Nat) : Bool := f == 5 || f == 6 || f == 15 || f == 16 || f == 23

/-- Slots that a poll entry reads into, and slots that it writes from. -/
def pollRSlots (p : Poll) : List Nat := if pollReads p.func then upFrom p.rslot p.qty else []
def pollWSlots (p : Poll) : List Nat :=
  if p.func = 23 then upFrom p.wslot p.wqty else if pollWrites p.func then upFrom p.wslot p.qty else []

/-- Entry of a source slot in cycle k − 1, the last closed one (R246). -/
def lastEntry (s : State) (slot : Nat) : DWord :=
  match s.maps.lastClosed with
  | some c => match closedImage s c with
    | some img => closedEntry img slot
    | none => nowEntry s slot
  | none => nowEntry s slot

/-- Bits of BOOL slots packed 8 per byte (R239). -/
def packBits : Nat → List Bool → List Byte
  | 0, _ => []
  | n + 1, bs =>
    if bs.isEmpty then []
    else BitVec.ofNat 8 (((bs.take 8).zipIdx.map (fun x => b2n x.1 * 2 ^ x.2)).sum) :: packBits n (bs.drop 8)

/-- The data that a poll entry writes: its slots' values of cycle k − 1 (R246). -/
def pollData (s : State) (p : Poll) : List Byte :=
  let vals := (pollWSlots p).map (fun x => eVal (lastEntry s x))
  match p.func with
  | 5 => vals.flatMap (fun v => leBytes 1 (b2n (v != 0)))
  | 15 => packBits vals.length (vals.map (· != 0))
  | _ => vals.flatMap (fun v => leBytes 2 v)

/-- The request that a poll entry sends. -/
def pollReq (p : Poll) (data : List Byte) : MbReq :=
  { slave := p.slave, func := p.func, addr := p.addr, qty := p.qty, waddr := p.waddr, wqty := p.wqty, data := data }

/-- A write entry is held: some source slot is not VALID (R246). -/
def pollHeld (s : State) (p : Poll) : Bool := (pollWSlots p).any (fun x => eStat (lastEntry s x) != stValid)

/-- The channel's lock is held by a session. -/
def lockedBy (s : State) (ch : Nat) : Option Lock := slook s.cmd.locks ch

/-- The entry of a round as it opens: cycle k − 1 is the last one closed then (R246). -/
def roundEntry (s : State) (x : Poll × Nat) : RoundEntry := { entry := x.2, data := pollData s x.1, held := pollHeld s x.1 }

/-- MB_ROUND_OPEN (R244, R311): round k opens at T_k + D_out. -/
def mbRoundOpen (ch : Nat) (s : State) : State :=
  let c := chan s ch
  let k := (tickNow s - mapDout s) / s.maps.n
  if !mbOn s ch || !s.maps.active || !serialHears s ch || decide (tickNow s < mapDout s) || decide (k ≤ c.mb.roundCycle) then s
  else
    let s := bumpBy (chnAddr ch 0x2A0) c.mb.round.length s
    let due := ((polls s ch).zipIdx.filter (fun x => x.1.period != 0 && (k + x.1.period - x.1.phase) % x.1.period == 0)).map (roundEntry s)
    if (lockedBy s ch).isSome then
      bumpBy (chnAddr ch 0x2A0) due.length (modMb ch (fun m => { m with round := [], roundCycle := k }) s)
    else modMb ch (fun m => { m with round := due, roundCycle := k }) s

/-! ## Exchanges (R237, R240 to R242) -/

/-- The transaction command that waits under a session and tag. -/
def cmdOf (s : State) (se : Nat) (tag : Tag) : Option Cmd := s.cmd.inflight.find? (fun c => c.session == se && c.tag == tag)

/-- Put a request on the wire. -/
def mbSend (ch : Nat) (user : MbUser) (r : MbReq) (s : State) : State :=
  let t := mbTimes s ch r.slave
  let x : MbExchange :=
    { user := user, slave := r.slave, func := r.func, request := mbBytes r, addr := r.addr, qty := r.qty,
      timeoutMs := t.1, retries := if r.slave = 0 then 0 else t.2, startUp := s.time.up, broadcast := r.slave == 0, sent := true }
  bump (chnAddr ch 0x280) (modMb ch (fun m => { m with exchange := some x }) s)

/-- Start the next round entry that is not held (R246). -/
def startPoll (ch : Nat) : Nat → State → State
  | 0, s => s
  | n + 1, s =>
    match (chan s ch).mb.round with
    | [] => s
    | e :: t =>
      let s := modMb ch (fun m => { m with round := t }) s
      match (polls s ch)[e.entry]? with
      | some p =>
        if e.held then startPoll ch n (bump (chnAddr ch 0x2A4) s)
        else mbSend ch (.poll e.entry) (pollReq p e.data) (modMb ch (fun m => { m with pollLast := true }) s)
      | none => startPoll ch n s

/-- Start the transaction that has waited longest. -/
def startTxn (ch : Nat) (s : State) : State :=
  match (chan s ch).mb.waiting with
  | [] => s
  | (se, tag) :: t =>
    let s := modMb ch (fun m => { m with waiting := t, pollLast := false }) s
    match cmdOf s se tag with
    | some c => mbSend ch (.txn se tag) (mbReqOf c.opcode c.params) s
    | none => s

/-- MB_REQUEST_START (R237, R241, R244): after t3.5 of idle, the retry that is due, or the next exchange. -/
def mbRequestStart (ch : Nat) (s : State) : State :=
  let m := (chan s ch).mb
  if !mbOn s ch || !serialHears s ch then s
  else
    match m.exchange with
    | some x =>
      if x.sent then s
      else bump (chnAddr ch 0x284) (bump (chnAddr ch 0x280)
        (modMb ch (fun m => { m with exchange := some { x with sent := true, startUp := s.time.up } }) s))
    | none =>
      if (lockedBy s ch).isSome then
        startTxn ch (bumpBy (chnAddr ch 0x2A0) m.round.length (modMb ch (fun m => { m with round := [] }) s))
      else if m.round.isEmpty then startTxn ch s
      else if m.waiting.isEmpty ∨ !m.pollLast then startPoll ch m.round.length s
      else startTxn ch s

/-- How an exchange ends (R241). -/
inductive MbEnd where
  | ok (data : List Byte)
  | exception (code : Nat)
  | timeout
  deriving DecidableEq, Repr

def endStatus : MbEnd → Status
  | .ok _ => .ok
  | .exception _ => .farError
  | .timeout => .timeout

/-- Values that reply data in host order gives to slots (R239, R245). -/
def replyValues (func qty : Nat) (data : List Byte) : List Nat :=
  if func ≤ 2 then (List.range qty).map (fun i => bits (rd data (i / 8) 1) (i % 8) 1)
  else (List.range qty).map (fun i => rd data (2 * i) 2)

/-- The exchange ends: counted, and given to its user (R241, R245, R246). -/
def mbFinish (ch : Nat) (x : MbExchange) (e : MbEnd) (stamp : Nat) (s : State) : State :=
  let s := modMb ch (fun m => { m with exchange := none }) s
  let s := match e with
    | .ok _ => s
    | .exception _ => bump (chnAddr ch 0x28C) s
    | .timeout => bump (chnAddr ch 0x288) s
  match x.user with
  | .txn se tag =>
    match e with
    | .ok d => complete se tag .ok d s
    | .exception c => complete se tag .farError [BitVec.ofNat 8 c] s
    | .timeout => complete se tag .timeout [] s
  | .poll i =>
    let s := modMb ch (fun m =>
      let old := slook m.outcomes i
      let before := old.map (fun o => (o.stamp, o.status, o.values))
      let new : MbOutcome := match e with
        | .ok d => { stamp := stamp, status := .ok, values := replyValues x.func x.qty d, before := before }
        | _ => { stamp := stamp, status := endStatus e, values := (old.map (·.values)).getD [], before := before }
      { m with outcomes := sins m.outcomes i new }) s
    if pollWrites x.func ∧ endStatus e ≠ .ok then unitFault 0x0605 0 ch s else s

/-- An attempt failed (R241): retried while retries remain. -/
def mbFail (ch : Nat) (x : MbExchange) (e : MbEnd) (stamp : Nat) (s : State) : State :=
  if x.retries > 0 then modMb ch (fun m => { m with exchange := some { x with retries := x.retries - 1, sent := false } }) s
  else mbFinish ch x e stamp s

/-- Steps 3 to 5 of R240 for a frame whose CRC and slave are right: what it means, or none where it fails. -/
def mbJudge (x : MbExchange) (bs : List Byte) : Option MbEnd :=
  let f := rd bs 1 1
  if f = x.func + 0x80 then (if bs.length = 5 then some (.exception (rd bs 2 1)) else none)
  else if f ≠ x.func then none
  else
    match f with
    | 5 => if bs = x.request then some (.ok []) else none
    | 6 => if bs = x.request then some (.ok []) else none
    | 15 => if bs.length = 8 ∧ slice bs 2 4 = slice x.request 2 4 then some (.ok []) else none
    | 16 => if bs.length = 8 ∧ slice bs 2 4 = slice x.request 2 4 then some (.ok []) else none
    | _ =>
      let n := if f ≤ 2 then ceilDiv x.qty 8 else 2 * x.qty
      let d := slice bs 3 n
      if bs.length = 5 + n ∧ rd bs 2 1 = n then some (.ok (if f ≤ 2 then d else swapPairs d)) else none

/-- MB_REPLY_RX (R237, R240, R241), `stamp` the tick of its completion (R169). -/
def mbReplyRx (ch : Nat) (bs : List Byte) (gapOver15 : Bool) (stamp : Nat) (s : State) : State :=
  if !mbOn s ch || !serialHears s ch then s
  else
    match (chan s ch).mb.exchange with
    | none => bump (chnAddr ch 0x298) s
    | some x =>
      if !x.sent || x.broadcast then bump (chnAddr ch 0x298) s
      else if gapOver15 ∧ fld s (chnAddr ch 0x200) 1 1 = 1 then mbFail ch x .timeout stamp (bump (chnAddr ch 0x29C) s)
      else if bs.length < 4 ∨ rd bs (bs.length - 2) 2 ≠ crcModbus (bs.take (bs.length - 2)) then
        mbFail ch x .timeout stamp (bump (chnAddr ch 0x290) s)
      else if rd bs 0 1 ≠ x.slave then bump (chnAddr ch 0x298) s
      else
        match mbJudge x bs with
        | none => mbFail ch x .timeout stamp (bump (chnAddr ch 0x294) s)
        | some (.exception 6) => mbFail ch x (.exception 6) stamp (bump (chnAddr ch 0x84) s)
        | some e => mbFinish ch x e stamp (bump (chnAddr ch 0x84) s)

/-- A transaction held while the channel joins is out of time (R188): its place is reported by a STATUS word under the next
item sequence, since it never became an item (log entry 8). -/
def mbHeldTimeout (ch : Nat) (s : State) : State :=
  match (chan s ch).mb.waiting with
  | [] => s
  | (se, tag) :: t =>
    match cmdOf s se tag with
    | none => s
    | some c =>
      if since c.up s ≥ (mbTimes s ch (mbReqOf c.opcode c.params).slave).1 * 2000 then
        let q := (chan s ch).txSeq
        complete se tag .timeout [] (report ch .timeout q
          (modChan ch (fun c => { c with txSeq := (q + 1) % 2 ^ 32, mb := { c.mb with waiting := t } }) s))
      else s

/-- Own tick in which `ticks` have passed since the last stop bit of a request (R241, R242). -/
def afterRequest (s : State) (ch : Nat) (x : MbExchange) (ticks : Nat) : Nat := x.startUp + charTicks s ch x.request.length + ticks

/-- MB_RESPONSE_TIMEOUT (R241): counted from the end of the request's last stop bit. The outcome bears the instant of the expiry (R245). -/
def mbResponseTimeout (ch : Nat) (s : State) : State :=
  if !mbOn s ch then s
  else if (chan s ch).st = .joining then mbHeldTimeout ch s
  else
    match (chan s ch).mb.exchange with
    | some x =>
      let due := afterRequest s ch x (x.timeoutMs * 2000)
      if x.sent && !x.broadcast && decide (due ≤ s.time.up) then mbFail ch x .timeout (tickNow s - (s.time.up - due)) s
      else s
    | none => s

/-- MB_BROADCAST_END (R242): the delay counts from the end of the request. -/
def mbBroadcastEnd (ch : Nat) (s : State) : State :=
  if !mbOn s ch then s
  else
    match (chan s ch).mb.exchange with
    | some x =>
      if x.broadcast && decide (afterRequest s ch x (fld s (chnAddr ch 0x200) 16 10 * 2000) ≤ s.time.up) then mbFinish ch x (.ok []) (tickNow s) s else s
    | none => s

/-! ## Gathered slots (R245) -/

/-- The newest outcome stamped before a gather (R245). -/
def seenAt (tk : Nat) (o : MbOutcome) : Option MbOutcome :=
  if o.stamp < tk then some o
  else o.before.bind (fun b => if b.1 < tk then some { stamp := b.1, status := b.2.1, values := b.2.2, before := none } else none)

/-- Value and status that one slot of a read entry takes at the gather of cycle j. -/
def pollSlot (s : State) (p : Poll) (o : Option MbOutcome) (j i : Nat) : Nat × Nat :=
  match o.bind (seenAt (j * s.maps.n)) with
  | none => (0, stStale)
  | some o =>
    let raw := (o.values[i]?).getD 0
    let v := if p.func ≤ 2 then raw else if p.signed then ofSigned 32 (toSigned 16 raw) else raw
    let age := if p.maxAge = 0 then p.period + 1 else p.maxAge
    match o.status with
    | .ok => (v, if o.stamp ≥ (j - age) * s.maps.n then stValid else stStale)
    | .farError => (v, stFault)
    | _ => (v, stStale)

/-- Gather every Modbus read slot of a channel. -/
def gatherPolls (ch : Nat) (s : State) : State :=
  if !mbOn s ch then s
  else
    (polls s ch).zipIdx.foldl (fun s x =>
      let o := slook (chan s ch).mb.outcomes x.2
      (pollRSlots x.1).zipIdx.foldl (fun s y =>
        let r := pollSlot s x.1 o s.maps.cycle y.2
        writeSlot y.1 r.1 r.2 s) s) s

end Sys2Proof.Machine
end

