-- ==== Sys2Proof/Machine/Switch.lean ====
section
/-! DEFINITION. The switch core: ring frames and their encoding (R78, R79, R81), queues, limits and admission (R101 to R109),
output scheduling (R110, R111), origination and the wrap rules that act at admission (R127, R128). -/

namespace Sys2Proof.Machine

open Sys2Proof

/-! ## Frames -/

/-- The 30 header bytes in front of HCRC (R79). -/
def frameHead (f : Frame) : List Byte :=
  [BitVec.ofNat 8 (f.cls % 16 + 16), BitVec.ofNat 8 f.dst, BitVec.ofNat 8 f.src,
   BitVec.ofNat 8 (b2n f.first + 2 * b2n f.last + 4 * b2n f.replay + 8 * b2n f.twin)]
  ++ leBytes 4 f.seq.toNat ++ leBytes 2 f.gen.toNat ++ leBytes 2 f.payload.length
  ++ [BitVec.ofNat 8 f.mgroup, BitVec.ofNat 8 (b2n f.ccw + 2 * b2n f.wrapped)]
  ++ leBytes 2 f.hops ++ leBytes 2 f.stampId.toNat ++ leBytes 2 f.frag ++ leBytes 6 f.cycle ++ zeros 4

/-- A frame on the wire: header, payload, trailer, or the poison end in its place (R78, R81). -/
def frameBytes (f : Frame) : List Byte :=
  let h := frameHead f
  let t := crc32c f.payload
  h ++ leBytes 2 (crc16 h) ++ f.payload ++ leBytes 4 (if f.poison then Nat.xor t 0xFFFFFFFF else t)

/-- The header of received bytes, where steps 1 of R80 passes: HCRC, HFMT and CLASS. LENGTH stands apart; the payload is
what follows the header, cut or filled with zero bytes to LENGTH (R113). -/
def parseHead (bs : List Byte) (ing : Output) (rxTime tick : Nat) : Option (Frame × Nat) :=
  if bs.length < 32 ∨ rd bs 30 2 ≠ crc16 (bs.take 30) ∨ bits (rd bs 0 1) 4 4 ≠ 1 ∨ bits (rd bs 0 1) 0 4 > 4 then none
  else
    let len := rd bs 10 2
    let fl := rd bs 3 1
    let rg := rd bs 13 1
    some ({ cls := bits (rd bs 0 1) 0 4, dst := rd bs 1 1, src := rd bs 2 1, first := bit fl 0, last := bit fl 1,
            replay := bit fl 2, twin := bit fl 3, seq := BitVec.ofNat 32 (rd bs 4 4), gen := BitVec.ofNat 16 (rd bs 8 2),
            mgroup := rd bs 12 1, ccw := bit rg 0, wrapped := bit rg 1, hops := rd bs 14 2,
            stampId := BitVec.ofNat 16 (rd bs 16 2), frag := rd bs 18 2, cycle := rd bs 20 6,
            payload := padTo len ((bs.drop 32).take len), ingress := ing, rxTime := rxTime, rxTick := tick,
            bankPrev := false, bankNode := 0, member := false, cells := [], cut := false, poison := false, eligible := true
            arriving := none, head := [], frees := none }, len)

/-- Cells that a frame occupies (R101). -/
def frameCells (f : Frame) : Nat := ceilDiv (f.payload.length + 36) 256

/-- Bytes that a CYC frame is charged (R95). -/
def frameCharge (f : Frame) : Nat := f.payload.length + 48

/-! ## Queues (R103 to R108) -/

/-- Number of an output (R123). -/
def outNo : Output → Nat
  | .east => 0
  | .west => 1
  | .local => 2
  | .pcie => 3

/-- Output of a ring port. -/
def outOf : Port → Output
  | .east => .east
  | .west => .west

/-- Key of a queue. -/
def qKey (o : Output) (c : Nat) : Nat := outNo o * 8 + c

def queueOf (s : State) (o : Output) (c : Nat) : List Frame := sget [] s.sw.queues (qKey o c)

def setQueue (o : Output) (c : Nat) (l : List Frame) (s : State) : State :=
  modSw (fun w => { w with queues := sput [] w.queues (qKey o c) l }) s

/-- Cells held by a list of frames. -/
def cellsOf (l : List Frame) : Nat := (l.map frameCells).sum

/-- Copies that a draining port holds for an output and class (R139). -/
def drainHeldAt (q : PortSt) (o : Output) (c : Nat) : Nat :=
  cellsOf ((q.drainHeld.filter (fun x => x.1 == o && x.2.cls == c)).map (·.2))

/-- Occupancy of a queue: its frames, those a draining port holds for it, and for LOCAL those held behind a gap (R103, R135, R139). -/
def occ (s : State) (o : Output) (c : Nat) : Nat :=
  cellsOf (queueOf s o c) + drainHeldAt s.ring.east o c + drainHeldAt s.ring.west o c
    + (if outNo o = 2 then (s.sw.holdBack.map (fun h => if h.cls = c then cellsOf h.held else 0)).sum else 0)

/-- SW_LIMIT of a queue (R123). -/
def limitAddr (o c : Nat) : Nat := 0x60100 + o * 0x20 + c * 4

/-- SW_RESV of a queue (R123); 0 stands for a class without a reserve. -/
def resvAddr (o c : Nat) : Nat := if c = 2 then 0x60180 + o * 8 else if c = 4 then 0x60184 + o * 8 else 0

/-- Reserve of a queue (R106): RSP and CTL only. -/
def resvOf (s : State) (o : Output) (c : Nat) : Nat :=
  if c = 2 ∨ c = 4 then fld s (resvAddr (outNo o) c) 0 20 else 0

def allOutputs : List Output := [.east, .west, .local, .pcie]
def allClasses : List Nat := [0, 1, 2, 3, 4]

/-- Free cells of the shared pool (R106, R108): what reserves and the excess over them leave of 524,288. -/
def sharedFree (s : State) : Nat :=
  524288 - (allOutputs.map (fun o => (allClasses.map (fun c => max (resvOf s o c) (occ s o c))).sum)).sum

/-- Keep SW_POOL_MIN at the lowest SHARED_FREE seen (R123). -/
def notePoolMin (s : State) : State :=
  onlyIf (decide (sharedFree s < fld s 0x60010 0 20)) (setFld 0x60010 0 20 (sharedFree s)) s

/-- Admission verdict of R108 for a frame at an output. -/
inductive Admit where
  | yes
  | tail
  | pool
  deriving DecidableEq, Repr

def judge (s : State) (o : Output) (f : Frame) : Admit :=
  let n := frameCells f
  let used := occ s o f.cls
  if used + n > fld s (limitAddr (outNo o) f.cls) 0 20 then .tail
  else if sharedFree s < n - min n (resvOf s o f.cls - used) then .pool
  else .yes

/-- Class `c` is cut through at output `o` (R112): SW_FWD_MODE, ring outputs only. -/
def cutAt (s : State) (o : Output) (c : Nat) : Bool :=
  match o with
  | .east => bit (fld s 0x60004 0 5) c
  | .west => bit (fld s 0x60004 8 5) c
  | _ => false

/-! ## Cells and link words (R101 to R103) -/

/-- The free list in the order of its links (R102; log entry 82). -/
def freeList (w : SwState) : List Nat := upFrom w.nextCell (524288 - w.nextCell) ++ w.freed

/-- The frame on `n` cells from the head of the free list. -/
def giveCells (f : Frame) (s : State) : Frame × State :=
  let n := frameCells f
  let k := min n (524288 - s.sw.nextCell)
  ({ f with cells := upFrom s.sw.nextCell k ++ s.sw.freed.take (n - k) },
   modSw (fun w => { w with nextCell := w.nextCell + k, freed := w.freed.drop (n - k) }) s)

/-- A frame's cells return to the free list (R103). -/
def freeCells (f : Frame) (s : State) : State := modSw (fun w => { w with freed := w.freed ++ f.cells }) s

/-- Link words of a frame's cells, with the cell that its EOF cell points to (R102). -/
def linkWords (next : Nat) (f : Frame) : List (Nat × Word) :=
  let n := f.cells.length
  f.cells.zipIdx.map (fun x =>
    let i := x.2
    let eof : Bool := i + 1 == n
    let nx := if eof then next else (f.cells[i + 1]?).getD 0
    let fill := if eof then f.payload.length + 36 - 256 * i else 256
    (x.1, BitVec.ofNat 32 (nx % 2 ^ 19 + (fill - 1) % 256 * 2 ^ 19 + b2n (i == 0) * 2 ^ 27 + b2n eof * 2 ^ 28
      + b2n (eof && f.poison) * 2 ^ 29 + b2n (i == 0 && f.bankPrev) * 2 ^ 30 + b2n (i == 0 && f.cut) * 2 ^ 31)))

/-- Link words of a queue: the EOF cell of each frame points to the SOF cell of the frame behind it; that of the last frame points
to nothing the spec names, a free value. -/
def chainWords : List Frame → List (Nat × Word)
  | [] => []
  | f :: t => linkWords (match t with | g :: _ => g.cells.headD 0 | [] => Config.freeValue 0) f ++ chainWords t

/-- Put a frame at the tail of a queue. -/
def enqueue (o : Output) (f : Frame) (s : State) : State :=
  let (f, s) := giveCells { f with cut := cutAt s o f.cls } s
  notePoolMin (setQueue o f.cls (queueOf s o f.cls ++ [f]) s)

/-- Admit a frame that may be dropped (R108, R109). -/
def admitOrDrop (o : Output) (f : Frame) (s : State) : State :=
  match judge s o f with
  | .yes => enqueue o f s
  | .tail => bump (0x60300 + outNo o * 0x20 + f.cls * 4) s
  | .pool => bump (0x60380 + outNo o * 0x20 + f.cls * 4) s

/-! ## Wrap state (R126 to R128) -/

def wrapped (s : State) : Port → Bool
  | .east => s.sw.eastWrap
  | .west => s.sw.westWrap

def draining (s : State) : Port → Bool
  | .east => s.sw.eastDrain
  | .west => s.sw.westDrain

/-- Frames whose onward output would be the port are turned there: it is wrapped, and does not drain (R128, R139). -/
def turns (s : State) (p : Port) : Bool := wrapped s p && !draining s p

/-- The port by which a ring leaves this hub (R65). -/
def portOfRing (ccw : Bool) : Port := if ccw then .west else .east

/-! ## Origination (R79, R104, R109, R131) -/

/-- Key of a SEQ stream: class, and destination or group (R79). -/
def seqKey (cls dst mgroup : Nat) : Nat := cls * 65536 + (if dst = 255 then 256 + mgroup else dst)

/-- Cells of a replay buffer in use (R131). -/
def replayCells (s : State) (ccw : Bool) : Nat := cellsOf ((if ccw then s.sw.replayCcw else s.sw.replayCw).map (·.frame))

/-- A frame this hub sends, without its SEQ. -/
def newFrame (s : State) (cls dst mgroup : Nat) (ccw : Bool) (payload : List Byte) : Frame :=
  { cls := cls, dst := dst, src := s.ring.node, first := true, last := true, replay := false, twin := false, seq := 0,
    gen := s.sw.current.gen, mgroup := mgroup, ccw := ccw, wrapped := false, hops := 0, stampId := 0, frag := 0, cycle := 0,
    payload := payload, ingress := .local, rxTime := 0, rxTick := tickNow s, bankPrev := false, bankNode := s.sw.current.node
    member := false, cells := [], cut := false, poison := false, eligible := true, arriving := none, head := payload.take 24
    frees := none }

/-- Take the next SEQ of a stream. -/
def withSeq (f : Frame) (s : State) : Frame × State :=
  let k := seqKey f.cls f.dst f.mgroup
  let q := sget 0 s.sw.nextSeq k
  ({ f with seq := q }, modSw (fun w => { w with nextSeq := sput 0 w.nextSeq k (q + 1) }) s)

/-- The port by which an originated frame leaves: that of its ring, or turned at admission at a wrap point (R128); a DRAIN frame
is turned always (R139), a span-local frame never (R83); none for a TWIN copy stopped there. -/
def leaves (s : State) (f : Frame) : Option (Port × Frame) :=
  let p := portOfRing f.ccw
  if f.dst = 0 then some (p, f)
  else if f.wrapped then some (otherPort p, f)
  else if turns s p then (if f.cls = 0 ∧ f.twin then none else some (otherPort p, { f with wrapped := true }))
  else some (p, f)

/-- Keep a replay copy of a unicast REQ, RSP or BULK frame when it is first sent (R131). -/
def needsCopy (f : Frame) : Bool := f.dst != 255 && f.dst != 0 && (f.cls == 1 || f.cls == 2 || f.cls == 3) && !f.replay

def addCopy (f : Frame) (s : State) : State :=
  let c : Copy := { frame := { f with wrapped := false }, sentUp := s.time.up, sends := 0 }
  let k := seqKey f.cls f.dst f.mgroup
  modSw (fun w => { w with
    advanceUp := (if (w.replayCw ++ w.replayCcw).any (fun c => seqKey c.frame.cls c.frame.dst c.frame.mgroup == k) then w.advanceUp
                  else sput 0 w.advanceUp k s.time.up)
    replayCw := if f.ccw then w.replayCw else w.replayCw ++ [c]
    replayCcw := if f.ccw then w.replayCcw ++ [c] else w.replayCcw }) s

/-- Room for an originated frame: in its replay buffer and at its output. -/
def hasRoom (s : State) (f : Frame) : Bool :=
  (!needsCopy f || decide (replayCells s f.ccw + frameCells f ≤ 16384))
    && (match leaves s f with
        | some (p, g) => judge s (outOf p) g == .yes
        | none => true)

/-- `a` lies before `b` modulo 2^32 (R132). -/
def seqBefore (a b : Word) : Bool := decide (a ≠ b) && decide ((b - a).toNat < 2 ^ 31)

/-- Insert a resent frame in SEQ order, ahead of the stream's frames not yet sent (R133). -/
def insertAhead (g : Frame) : List Frame → List Frame
  | [] => [g]
  | h :: t =>
    if h.cls = g.cls ∧ h.src = g.src ∧ h.dst = g.dst ∧ seqBefore g.seq h.seq then g :: h :: t else h :: insertAhead g t

/-- Put an originated frame into its queue: at the tail, or a resent one in its place (R133). -/
def putOut (p : Port) (g : Frame) (s : State) : State :=
  if g.replay then
    let (g, s) := giveCells g s
    notePoolMin (setQueue (outOf p) g.cls (insertAhead g (queueOf s (outOf p) g.cls)) s)
  else enqueue (outOf p) g s

/-- Send an originated frame whose room is there: turned at a wrap point, with its replay copy. -/
def launch (f : Frame) (s : State) : State :=
  let s := onlyIf (needsCopy f) (addCopy f) s
  match leaves s f with
  | some (p, g) => putOut p g (onlyIf (p != portOfRing f.ccw) (bump 0x50628) s)
  | none => bump 0x50444 s

/-- Two frames leave by the same queue: the later waits behind the earlier where that is held (R109). -/
def sameQueue (s : State) (f g : Frame) : Bool := f.cls == g.cls && (leaves s f).map (·.1) == (leaves s g).map (·.1)

/-- Hold a frame in its originating block, and count it (R109, R131). -/
def holdOut (f : Frame) (s : State) : State :=
  let s := onlyIf (needsCopy f && decide (replayCells s f.ccw + frameCells f > 16384)) (bump 0x50634) s
  bump 0x60410 (modSw (fun w => { w with heldOut := if f.replay then insertAhead f w.heldOut else w.heldOut ++ [f] }) s)

/-- An originated frame with its SEQ: sent, or held (R109). It waits behind those held before it for the same queue. -/
def offer (f : Frame) (s : State) : State :=
  if !s.sw.heldOut.any (sameQueue s f) && hasRoom s f then launch f s else holdOut f s

/-- A service-island frame takes its SEQ and is offered (R79, R109). -/
def originate (f : Frame) (s : State) : State :=
  let (f, s) := withSeq f s
  offer f s

/-- Offer held frames again, oldest first (R109): one that finds room leaves, one that does not holds those behind it for the same
queue. The first argument holds what stays. -/
def offerHeld : List Frame → List Frame → State → State
  | stay, [], s => modSw (fun w => { w with heldOut := stay }) s
  | stay, f :: t, s =>
    if !stay.any (sameQueue s f) && hasRoom s f then offerHeld stay t (launch f s) else offerHeld (stay ++ [f]) t s

/-- Held frames are offered again (R109). -/
def offerAll (s : State) : State := if s.sw.heldOut.isEmpty then s else offerHeld [] s.sw.heldOut s

/-- The hub holds a node number; without one it originates only span-local CTL and JOIN (R82). -/
def numbered (s : State) : Bool := s.ring.node != 0

/-- A unicast REQ, RSP or BULK frame to a node. -/
def sendUnicast (cls dst : Nat) (payload : List Byte) (s : State) : State :=
  originate (newFrame s cls dst 0 (Config.unicastCcw dst cls) payload) s

/-- A packet to a node: in one frame, or in two with FRAG 0 and 1 when it is larger than one payload (R78, R79). With it leaves
the answer to the command `frees` (R42). -/
def sendPacketFor (frees : Option Owed) (cls dst : Nat) (bytes : List Byte) (s : State) : State :=
  let ccw := Config.unicastCcw dst cls
  if bytes.length ≤ 9564 then originate { newFrame s cls dst 0 ccw bytes with frees := frees } s
  else
    let s := originate { newFrame s cls dst 0 ccw (bytes.take 9564) with last := false } s
    originate { newFrame s cls dst 0 ccw (bytes.drop 9564) with first := false, frag := 1, head := bytes.take 24, frees := frees } s

/-- A packet that answers no command of a host. -/
def sendPacket (cls dst : Nat) (bytes : List Byte) (s : State) : State := sendPacketFor none cls dst bytes s

/-- A ring-scope CTL frame on one ring. -/
def sendCtl (dst mgroup cycle : Nat) (ccw : Bool) (payload : List Byte) (s : State) : State :=
  originate { newFrame s 4 dst mgroup ccw payload with cycle := cycle } s

/-- A multicast CTL frame of group 0, sent on both rings where `both` (R83, R130). -/
def sendCtlAll (cycle : Nat) (payload : List Byte) (s : State) : State := sendCtl 255 0 cycle false payload s

/-- A span-local CTL frame on a port: DST 0, not turned at a wrap point (R79, R83). -/
def sendLocal (p : Port) (payload : List Byte) (s : State) : State := originate (newFrame s 4 0 0 (p == .west) payload) s

/-! ## Output scheduling (R110, R111) -/

/-- RING_CYC_LIMIT (R95, R98): 1,250·N, of the light list where one is held. -/
def cycLimit (s : State) : Nat := match s.ring.light with | some l => l.cycLimit.toNat | none => 1250 * s.maps.n

/-- Head frame of a queue that may be sent (R111) and that its consumer can take. -/
def headReady (may : Frame → Bool) (s : State) (o : Output) (c : Nat) : Option Frame :=
  match queueOf s o c with
  | f :: _ => if f.eligible && may f then some f else none
  | [] => none

/-- Classes of the deficit round robin, in its order; CYC joins once over budget (R110; log entry 83). -/
def drrClass : Nat → Nat
  | 0 => 2
  | 1 => 1
  | 2 => 3
  | _ => 0

/-- Quantum in bytes of a round-robin class: SW_DRR in KiB; CYC takes the RSP quantum (R110, R123). -/
def quantum (s : State) (c : Nat) : Nat :=
  (if c = 1 then fld s 0x60014 8 8 else if c = 3 then fld s 0x60014 16 8 else fld s 0x60014 0 8) * 1024

/-- CYC is over its budget at the output in the current cycle (R110). -/
def cycOver (s : State) (o : Output) : Bool :=
  match queueOf s o 0 with
  | f :: _ => decide (sget 0 s.sw.cycBytes (outNo o) + frameCharge f > cycLimit s)
  | [] => true

/-- Take the head of a queue out; its cells stay its own. CYC bytes count against the output's budget (R110). -/
def popQueue (o : Output) (c : Nat) (s : State) : State :=
  let n := match queueOf s o c with | f :: _ => if c = 0 then frameCharge f else 0 | [] => 0
  modSw (fun w => { w with cycBytes := if n = 0 then w.cycBytes else sput 0 w.cycBytes (outNo o) (sget 0 w.cycBytes (outNo o) + n) })
    (setQueue o c ((queueOf s o c).drop 1) s)

/-- Take the head of a queue off, and free its cells (R103). -/
def dequeue (o : Output) (c : Nat) (s : State) : State :=
  match queueOf s o c with
  | f :: _ => freeCells f (popQueue o c s)
  | [] => s

/-- Deficit round robin: turn to the class in turn, give it its quantum on arrival, and send while its deficit covers its head
frame's bytes (log entry 83). Key `8·o + 7` holds the class in turn. -/
def drrPick (may : Frame → Bool) (o : Output) : Nat → State → Option (Nat × State)
  | 0, _ => none
  | n + 1, s =>
    let turn := sget 0 s.sw.deficit (outNo o * 8 + 7)
    let c := drrClass turn
    let k := qKey o c
    let d := sget 0 s.sw.deficit k
    let step (d : Nat) : State :=
      let nx := (turn + 1) % 4
      let kn := qKey o (drrClass nx)
      modSw (fun w =>
        let df := sput 0 w.deficit k d
        let df := sput 0 df (outNo o * 8 + 7) nx
        { w with deficit := sput 0 df kn (sget 0 df kn + quantum s (drrClass nx)) }) s
    match headReady may s o c with
    | some f =>
      let cost := f.payload.length + 36
      if c = 0 ∧ !cycOver s o then drrPick may o n (step 0)
      else if cost ≤ d then some (c, modSw (fun w => { w with deficit := sput 0 w.deficit k (d - cost) }) s)
      else drrPick may o n (step d)
    | none => drrPick may o n (step 0)

/-- The class whose head frame the output sends next, of the frames that may leave (R110). -/
def pickWhere (may : Frame → Bool) (o : Output) (s : State) : Option (Nat × State) :=
  if (headReady may s o 4).isSome then some (4, s)
  else if (headReady may s o 0).isSome && !cycOver s o then some (0, s)
  else if [0, 1, 2, 3].all (fun c => (headReady may s o c).isNone) then none
  else
    match drrPick may o 64 s with
    | some (0, s) => some (0, bump 0x60414 s)
    | r => r

def pickClass (o : Output) (s : State) : Option (Nat × State) := pickWhere (fun _ => true) o s

end Sys2Proof.Machine
end

