-- ==== Sys2Proof/Machine/MapCheck.lean ====
section
/-! DEFINITION. The static checks of a map: writers (R264), descriptors (R261 to R263), rules (R267 to R273, R286, R291), settings
(R276), budgets (R277, R194) and the register sets that have a validity of their own (R107, R168, R181, R194, R208, R348, R353). -/

namespace Sys2Proof.Machine

open Sys2Proof

/-- A map as it will stand: what the checks of R279 are made against. `reg` reads register words. -/
structure MapView where
  rules  : Sparse (List Byte)
  descs  : Sparse (List Byte)
  subs   : List Subscr
  published : List (Nat × Nat × Nat)
  reg    : Nat → Nat
  pers   : Nat → Nat
  mb     : Nat → Bool
  /-- channel and entry of every poll entry -/
  polls  : List (Nat × Poll)
  /-- channel, index and base of every serial template -/
  templates : List (Nat × Nat × List Byte)
  n      : Nat
  p      : Nat
  h      : Nat
  dout   : Nat
  pub    : Nat
  sub    : Nat
  level  : Nat

/-- Where a check of a map fails: the thing at fault. -/
inductive Spot where
  | desc (slot : Nat)
  | sub (i : Nat)
  | rule (i : Nat)
  | param (addr : Nat)
  | poll (i : Nat)
  deriving DecidableEq, Repr

/-- A failed check: the thing, the byte in it, whether it is a budget, and whether the channels section is named instead
(R273). -/
structure Finding where
  spot   : Spot
  off    : Nat
  budget : Bool
  chans  : Bool
  deriving DecidableEq, Repr

def bad (sp : Spot) (off : Nat) : Finding := ⟨sp, off, false, false⟩
def overBudget (sp : Spot) (off : Nat) : Finding := ⟨sp, off, true, false⟩
def badIf (b : Bool) (sp : Spot) (off : Nat) : List Finding := if b then [bad sp off] else []

/-! ## Slots of a view -/

def MapView.type (v : MapView) (slot : Nat) : Nat := dType (sget (zeros 12) v.descs slot)
def MapView.lane (v : MapView) (base j : Nat) : Nat := base + j * (if wide (v.type base) then 2 else 1)
def MapView.subscribed (v : MapView) (slot : Nat) : Bool := v.subs.any (fun x => decide (x.local_ ≤ slot) && decide (slot < x.local_ + x.count))
def MapView.isPublished (v : MapView) (slot : Nat) : Bool := v.published.any (fun x => decide (x.2.1 ≤ slot) && decide (slot < x.2.1 + x.2.2))

/-- Entries of a rule table that are rules, NOP included: indices that a LUT owns are left out (R267). -/
def liveRules : Nat → Sparse (List Byte) → List (Nat × List Byte)
  | _, [] => []
  | skip, (i, bs) :: t =>
    if i < skip then liveRules skip t
    else
      let r := parseRule bs
      (i, bs) :: liveRules (if r.kind = 4 then i + 33 + (if r.coded then 32 else 0) else skip) t

def MapView.live (v : MapView) : List (Nat × List Byte) := liveRules 0 v.rules

/-- Slots that a rule writes, both of a wide lane. -/
def MapView.ruleSlots (v : MapView) (r : Rule) : List Nat :=
  if r.kind = 0 ∨ r.kind ≥ 10 then []
  else (List.range r.width).flatMap (fun j =>
    let d := v.lane r.dst j
    if wide (v.type r.dst) then [d, d + 1] else [d])

/-! ## Descriptors, subscriptions, parameters (R261 to R264, R276, R281) -/

def descFindings (v : MapView) : List Finding :=
  v.descs.flatMap (fun e =>
    let d := e.2
    let t := dType d
    let sp := Spot.desc e.1
    badIf (decide (e.1 ≥ 262144) || decide (t > 10)) sp 0
      ++ badIf (rd d 1 1 != 0 && (t != 9 || decide (rd d 1 1 > 31))) sp 1
      ++ badIf (decide (rd d 2 1 ≥ 4)) sp 2 ++ badIf (rd d 3 1 != 0) sp 3 ++ badIf (rd d 6 2 != 0) sp 6
      ++ badIf (!valueFits t (dInit d)) sp 8
      ++ badIf (wide t && (e.1 % 2 == 1 && v.type (e.1 - 1) != t || e.1 % 2 == 0 && v.type (e.1 + 1) != t)) sp 0)

/-- A subscription that cannot stand (R262, R281). -/
def subBad (v : MapView) (x : Subscr) : Option Nat :=
  let last := x.local_ + x.count - 1
  if x.node = 0 ∨ x.node > 254 then some 0
  else if x.count = 0 ∨ x.local_ + x.count > 262144 ∨ x.remote + x.count > 262144 then some 2
  else if wide (v.type x.local_) ∧ x.local_ % 2 = 1 ∨ wide (v.type last) ∧ last % 2 = 0 then some 8
  else none

def subFindings (v : MapView) : List Finding :=
  v.subs.zipIdx.flatMap (fun x => (subBad v x.1).toList.map (fun o => bad (.sub x.2) o) ++ badIf (decide (x.2 ≥ 1024)) (.sub x.2) 0)

/-- R276: the settings of the map. -/
def paramFindings (v : MapView) : List Finding :=
  badIf (decide (v.p < 1) || decide (v.p ≥ v.h)) (.param 0xF0004) 0
    ++ badIf (decide (v.h + 1 > v.n)) (.param 0xF0000) 0
    ++ badIf (decide (v.dout < 4) || decide (v.dout + 1 > v.n)) (.param 0xF0008) 0
    ++ badIf (decide (v.sub > 65536)) (.param 0xF0010) 0
    ++ badIf (decide (v.pub > v.sub)) (.param 0xF000C) 0

/-! ## Slot operands (R262, R267, R276) -/

/-- A slot operand whose lanes lie outside the slots, at an odd slot of a wide type, or read a subscribed slot too early. -/
def slotsBad (v : MapView) (i base width : Nat) (read : Bool) : Bool :=
  (List.range width).any (fun j =>
    let x := v.lane base j
    decide (x ≥ 262144) || (wide (v.type x) && x % 2 == 1) || (read && decide (i < v.sub) && v.subscribed x))

/-- Some lane of an operand has type F32. -/
def anyF (v : MapView) (base width : Nat) : Bool := (List.range width).any (fun j => v.type (v.lane base j) == 10)

/-- Offset and width of a placement: bits of lane `j` (R268). -/
def placeOff (r : Rule) (j : Nat) : Nat := bits r.b 0 16 + j * rd r.p 0 2
def placeWidth (r : Rule) : Nat := bits r.b 16 6 + 1

/-- The placement of UNPACK and PACK (R268). -/
def placeBad (r : Rule) : Bool :=
  bits r.b 24 8 != 0 || (bit r.b 22 && (placeWidth r % 8 != 0 || (List.range r.width).any (fun j => placeOff r j % 8 != 0)))

/-! ## Sources and targets (R271 to R273) -/

def descKind (d : Nat) : Nat := bits d 28 4
def descUnit (d : Nat) : Nat := bits d 20 7
def descObj (d : Nat) : Nat := bits d 0 6
def descReserved (d : Nat) : Bool := bit d 27 || bits d 6 14 != 0

def MapView.moCfg (v : MapView) (ch m : Nat) : Nat := v.reg (canAddr ch (0x200 + m * 0x10))

/-- A source descriptor that cannot be named (R271). -/
def sourceBad (v : MapView) (d : Nat) : Bool :=
  let u := descUnit d
  let o := descObj d
  descReserved d || (match descKind d with
    | 0 => v.pers u != 3 || bits (v.moCfg u o) 0 2 != 1 || !bit (v.moCfg u o) 2
    | 1 => o != 0 || v.pers u == 0 || v.pers u > 3 || v.mb u
    | 2 => o != 0 || v.pers u != 4
    | 3 => o != 0 || v.pers u != 4
    | 4 => o != 0 || decide (u ≥ 8)
    | 5 => o != 0 || decide (u ≥ 32)
    | _ => true)

/-- The template that a target of kind 1 names. -/
def MapView.template (v : MapView) (d : Nat) : Option (List Byte) :=
  (v.templates.find? (fun t => t.1 == descUnit d && t.2.1 == descObj d)).map (·.2.2)

/-- Bytes of an instance of a target (R272). -/
def MapView.instLen (v : MapView) (d : Nat) : Nat :=
  match descKind d with
  | 0 => dlcBytes (bits (v.moCfg (descUnit d) (descObj d)) 3 2 == 1) false (bits (v.moCfg (descUnit d) (descObj d)) 8 4)
  | 1 => ((v.template d).getD []).length
  | 2 => bits (v.reg (chnAddr (descUnit d) 0x314)) 8 6
  | 3 => 2
  | _ => 4

def packPeriod (r : Rule) : Nat := rd r.p 2 2
def packPhase (r : Rule) : Nat := rd r.p 4 2
def packLen (r : Rule) : Nat := rd r.p 6 2

/-- The target exists and fits the kind (R272). -/
def targetBad (v : MapView) (d : Nat) : Bool :=
  let u := descUnit d
  let o := descObj d
  descReserved d || (match descKind d with
    | 0 => v.pers u != 3 || bits (v.moCfg u o) 0 2 != 2
    | 1 => !(v.pers u == 1 || v.pers u == 2) || v.mb u || decide (o ≥ 16)
    | 2 => o != 0 || v.pers u != 4
    | 3 => o != 0 || decide (u ≥ 8)
    | 4 => o != 0 || decide (u ≥ 32)
    | _ => true)

/-- The bits that the lanes of a PACK place. -/
def placed (r : Rule) : List Nat := (List.range r.width).flatMap (fun j => upFrom (placeOff r j) (placeWidth r))

/-- PACK rules of a target in ascending index. -/
def MapView.packs (v : MapView) (d : Nat) : List (Nat × Rule) :=
  (v.live.map (fun x => (x.1, parseRule x.2))).filter (fun x => x.2.kind == 10 && x.2.dst == d)

/-- A list holds one of its numbers twice. -/
def dupIn : List Nat → Bool
  | [] => false
  | a :: t => t.contains a || dupIn t

/-- Line `l` is an output that the maps own (R323). -/
def mapLine (v : MapView) (l : Nat) : Bool :=
  let w := v.reg (0xE0000 + l * 4)
  (bits w 0 3 == 3 || bits w 0 3 == 4) && bits w 8 2 == 1

/-- Findings of a PACK rule (R268, R272, R273). -/
def packFindings (v : MapView) (i : Nat) (r : Rule) : List Finding :=
  let sp := Spot.rule i
  let d := r.dst
  let before := (v.packs d).filter (fun x => decide (x.1 < i))
  let kind := descKind d
  let bitsHere := placed r
  badIf (decide (r.op > 2)) sp 3
    ++ badIf (decide (packPeriod r < 1)) sp 18 ++ badIf (decide (packPhase r ≥ packPeriod r) && decide (packPeriod r ≥ 1)) sp 20
    ++ badIf (rd r.p 8 8 != 0) sp 24
    ++ badIf (placeBad r) sp 12 ++ badIf (slotsBad v i r.a r.width true) sp 8
    ++ (if targetBad v d then [bad sp 4]
        else
          badIf ((kind == 3 || kind == 4) && packPeriod r != 1) sp 18
            ++ (match before with
                | (_, q) :: _ =>
                  badIf (packPeriod q != packPeriod r) sp 18 ++ badIf (packPhase q != packPhase r) sp 20 ++ badIf (packLen q != packLen r) sp 22
                | [] => [])
            ++ (if kind = 1 then
                  match v.template d with
                  | none => [{ bad sp 4 with chans := true }]
                  | some b => if packLen r ≠ b.length then [{ bad sp 22 with chans := true }] else []
                else [])
            ++ badIf (bitsHere.any (fun x => decide (x ≥ 8 * v.instLen d)) || dupIn bitsHere
                || before.any (fun q => (placed q.2).any (fun x => bitsHere.contains x))) sp 12
            ++ badIf (kind == 3 && bitsHere.any (fun x => decide (x < 16) && !mapLine v (16 * descUnit d + x))) sp 12
            ++ (if kind = 1 ∧ bits (v.reg (chnAddr (descUnit d) 0x10C)) 0 2 = 2 ∧ bitsHere.any (fun x => decide (x / 8 + 1 = v.instLen d))
                then [{ bad sp 12 with chans := true }] else []))

/-! ## Rules (R267 to R270, R286, R291) -/

/-- First entry of a CODED LUT's mirrored table that breaks R291, with its index and byte. -/
def mirrorBad (v : MapView) (i : Nat) : Option Nat :=
  (List.range 256).find? (fun e => lutEntry v.rules (i + 33) e != bnot (lutEntry v.rules (i + 1) (255 - e)))

/-- Type rules of the operands and the destination (R269, R270, R286). -/
def typeBad (v : MapView) (r : Rule) : Bool :=
  let f (base : Nat) : Bool := anyF v base r.width
  let fx := f r.a
  let coded := r.coded && (match r.kind with
    | 1 => f r.dst
    | 5 => if r.op = 0 then (List.range (r.width * r.b)).any (fun m => v.type (v.lane r.a m) == 10) || f r.dst else fx || f r.b || f r.dst
    | 6 => fx || f r.b || f r.dst || v.type (rd r.p 0 4) == 10
    | 8 => fx || f r.dst || (r.b != noSlot && f r.b)
    | 10 => fx
    | _ => fx || f r.dst)
  let plain := match r.kind with
    | 4 => fx
    | 5 =>
      if r.op = 0 then (List.range (r.width * r.b)).any (fun m => v.type (v.lane r.a m) == 10)
      else if r.op ≤ 4 then
        (List.range r.width).any (fun j =>
          let x := v.type (v.lane r.a j) == 10
          let y := v.type (v.lane r.b j) == 10
          (x || y || v.type (v.lane r.dst j) == 10) && !(x && y))
      else if r.op ≤ 7 then fx || f r.b
      else false
    | 8 => fx || (r.b != noSlot && f r.b)
    | _ => false
  coded || plain

/-- Findings of one rule. -/
def ruleFindings (v : MapView) (i : Nat) (bs : List Byte) : List Finding :=
  let r := parseRule bs
  let sp := Spot.rule i
  let k := r.kind
  if rd bs 0 1 > 10 ∨ i ≥ 65536 then [bad sp 0]
  else if rd bs 2 1 > 1 then [bad sp 2]
  else if k = 0 then badIf r.coded sp 2
  else if r.width = 0 ∨ r.width > 16 then [bad sp 1]
  else if k = 10 then packFindings v i r ++ badIf (typeBad v r) sp 8
  else
    let dst := badIf (slotsBad v i r.dst r.width false) sp 4
    let a := badIf (slotsBad v i r.a r.width true) sp 8
    let b := badIf (slotsBad v i r.b r.width true) sp 12
    let noB := badIf (r.b != noSlot) sp 12
    let z (lo n : Nat) := badIf (rd bs lo n != 0) sp lo
    let tb := badIf (typeBad v r) sp 8
    match k with
    | 1 => badIf (r.op != 0) sp 3 ++ dst ++ badIf (sourceBad v r.a) sp 8 ++ badIf (placeBad r) sp 12 ++ z 28 4 ++ tb
    | 2 => badIf (r.op != 0) sp 3 ++ dst ++ a ++ noB ++ badIf (decide (rd bs 20 1 > 31)) sp 20 ++ z 21 3 ++ tb
    | 3 =>
      let f := v.type r.a == 10 || v.type r.dst == 10
      let lohi := if f then !(ltFl (fDec (rd r.p 0 4)) (fDec (rd r.p 8 4)) || eqFl (fDec (rd r.p 0 4)) (fDec (rd r.p 8 4)))
                  else decide (toSigned 64 (rd r.p 0 8) > toSigned 64 (rd r.p 8 8))
      badIf (decide (r.op > 1)) sp 3 ++ dst ++ a ++ noB ++ badIf lohi sp 16 ++ tb
    | 4 =>
      badIf (decide (r.op > 1)) sp 3 ++ dst ++ a ++ noB ++ badIf (decide (rd bs 24 1 > 31)) sp 24 ++ z 25 7 ++ tb
        ++ badIf (decide (i + 32 + (if r.coded then 32 else 0) ≥ 65536)) sp 0
        ++ (if r.coded then (match mirrorBad v i with
            | some e => [bad (.rule (i + 33 + e / 8)) (4 * (e % 8))]
            | none => []) else [])
    | 5 =>
      if r.op = 0 then
        (if r.b = 0 ∨ r.b > 7 then [bad sp 12] else badIf (slotsBad v i r.a (r.width * r.b) true) sp 8) ++ dst ++ tb
      else badIf (decide (r.op > 9)) sp 3 ++ dst ++ a ++ b ++ z 16 16 ++ tb
    | 6 => badIf (r.op != 0) sp 3 ++ dst ++ a ++ b ++ badIf (slotsBad v i (rd r.p 0 4) 1 true) sp 16 ++ z 20 12 ++ tb
    | 7 => badIf (decide (r.op > 2)) sp 3 ++ dst ++ a ++ noB ++ z 16 16 ++ tb
    | 8 => badIf (decide (r.op > 1)) sp 3 ++ dst ++ a ++ (if r.b = noSlot then [] else b) ++ z 24 8 ++ tb
    | _ =>
      badIf (r.op != 0) sp 3 ++ dst ++ a ++ noB ++ badIf (decide (rd r.p 0 4 < 1) || decide (rd r.p 0 4 > 65536)) sp 16 ++ z 20 12 ++ tb

/-! ## Writers (R264) and published slots (R276) -/

/-- Every slot with its writer, in the order of an image: poll entries, descriptors and subscriptions, rules. -/
def writers (v : MapView) : List (Nat × Spot) :=
  v.polls.zipIdx.flatMap (fun x => (pollRSlots x.1.2).map (fun sl => (sl, Spot.poll x.2)))
    ++ (v.descs.filter (fun e => dHostW e.2)).map (fun e => (e.1, Spot.desc e.1))
    ++ v.subs.zipIdx.flatMap (fun x => (upFrom x.1.local_ x.1.count).map (fun sl => (sl, Spot.sub x.2)))
    ++ v.live.flatMap (fun x => (v.ruleSlots (parseRule x.2)).map (fun sl => (sl, Spot.rule x.1)))

/-- Second writers of a slot; the table of first writers is carried along. -/
def secondWriters : Sparse Unit → List (Nat × Spot) → List Spot
  | _, [] => []
  | m, (sl, sp) :: t => if (slook m sl).isSome then sp :: secondWriters m t else secondWriters (sins m sl ()) t

def writerFindings (v : MapView) : List Finding :=
  (secondWriters [] (writers v)).map (fun sp => bad sp (match sp with | .poll _ => 20 | .sub _ => 8 | .rule _ => 4 | _ => 2))
    ++ v.live.flatMap (fun x =>
        if x.1 ≥ v.pub then badIf ((v.ruleSlots (parseRule x.2)).any v.isPublished) (.rule x.1) 4 else [])
    ++ v.subs.zipIdx.flatMap (fun x => badIf ((upFrom x.1.local_ x.1.count).any v.isPublished) (.sub x.2) 8)

/-! ## Budgets (R277, R286, R288, R194) -/

/-- Evaluations of a rule: pass 1, and pass 2 of a CODED one (R277, R288). -/
def ruleCost (r : Rule) : Nat × Nat :=
  let c := if r.kind = 0 then 0 else if r.kind = 9 then 2 else 1
  (r.width * c, if r.coded ∧ r.kind ≠ 0 then r.width * (c + 1) else 0)

/-- E_A, E_B, E_C and the pass-2 share. -/
def evals (v : MapView) : Nat × Nat × Nat × Nat :=
  v.live.foldl (fun (acc : Nat × Nat × Nat × Nat) x =>
    let c := ruleCost (parseRule x.2)
    let e := c.1 + c.2
    if x.1 < v.pub then (acc.1 + e, acc.2.1, acc.2.2.1, acc.2.2.2 + c.2)
    else if x.1 < v.sub then (acc.1, acc.2.1 + e, acc.2.2.1, acc.2.2.2 + c.2)
    else (acc.1, acc.2.1, acc.2.2.1 + e, acc.2.2.2 + c.2)) (0, 0, 0, 0)

/-- Evaluations per tick at a performance level (R277). -/
def perTick : Nat → Nat
  | 0 => 3200
  | 1 => 2560
  | 2 => 1920
  | _ => 1280

/-- The map fits at a level (R277). -/
def fitsAt (v : MapView) (level : Nat) : Bool :=
  let (a, b, c, _) := evals v
  let t := perTick level
  decide (a ≤ t * v.p) && decide (a + b + c ≤ t * v.n) && decide (c ≤ t * (v.n - v.h))

/-- The DELAY rule that first takes the lines above 2,097,152 entries (R277, R286). -/
def delayOver : Nat → List (Nat × List Byte) → Option Nat
  | _, [] => none
  | sum, (i, bs) :: t =>
    let r := parseRule bs
    let sum := sum + (if r.kind = 9 then r.width * rd r.p 0 4 * (if r.coded then 2 else 1) else 0)
    if sum > 2097152 then some i else delayOver sum t

/-- Two instances or entries are due in one cycle at times (R243, R272). -/
def coincide (a b : Nat × Nat) : Bool := a.2 % Nat.gcd a.1 b.1 == b.2 % Nat.gcd a.1 b.1

/-- Largest sum of weights of things due in one cycle: period, phase and weight of each; `chosen` are those due together. -/
def dueMost : List (Nat × Nat) → List (Nat × Nat × Nat) → Nat
  | _, [] => 0
  | chosen, (per, ph, w) :: t =>
    let skip := dueMost chosen t
    if chosen.all (fun c => coincide c (per, ph)) then max skip (w + dueMost ((per, ph) :: chosen) t) else skip

/-- Queue words of an instance of a channel target: RELEASE and DATA (R192, R210). -/
def instWords (v : MapView) (d : Nat) : Nat :=
  1 + ceilDiv (v.instLen d + (if descKind d = 0 then 8 else 0)) 7

/-- The cells that the maps pack for one channel in one cycle fit its TX reserve (R194). -/
def reserveBad (v : MapView) (ch : Nat) : Bool :=
  let rs := ((v.live.map (fun x => parseRule x.2)).filter (fun r => r.kind == 10 && decide (descKind r.dst ≤ 1) && descUnit r.dst == ch))
  let firsts := (rs.map (·.dst)).eraseDups.filterMap (fun d => rs.find? (fun r => r.dst == d))
  !rs.isEmpty && decide (cellsFor (dueMost [] (firsts.map (fun r => (packPeriod r, packPhase r, instWords v r.dst)))) > bits (v.reg (chnAddr ch 0x10)) 16 15)

def budgetFindings (v : MapView) : List Finding :=
  (match delayOver 0 v.live with | some i => [overBudget (.rule i) 0] | none => [])
    ++ (if fitsAt v v.level then [] else match v.live with | x :: _ => [overBudget (.rule x.1) 0] | [] => [])
    ++ (List.range 128).flatMap (fun ch => if reserveBad v ch then [overBudget (.param (chnAddr ch 0x10)) 0] else [])

/-- All checks of R279 on a map. -/
def mapFindings (v : MapView) : List Finding :=
  descFindings v ++ subFindings v ++ paramFindings v ++ v.live.flatMap (fun x => ruleFindings v x.1 x.2) ++ writerFindings v ++ budgetFindings v

/-- The status that the checks give a command: DENIED before BUDGET. -/
def mapVerdict (v : MapView) : Option Status :=
  let fs := mapFindings v
  if fs.any (fun f => !f.budget) then some .denied else if fs.isEmpty then none else some .budget

/-! ## Register sets (R8) -/

/-- R181: TERM and BIAS by personality; `partner` is the odd channel of an RS-422 pair. -/
def termOk (pers : Nat) (partner : Bool) (term biasOn : Nat) : Bool :=
  if partner || pers == 1 then decide (term ≤ 1)
  else match pers with
    | 2 => term == 0 && biasOn == 0
    | 3 => decide (term ≤ 2) && biasOn == 0
    | _ => term == 0 && biasOn == 0

/-- The odd channel of an RS-422 pair (R178). -/
def isPartner (pers : Nat → Nat) (ch : Nat) : Bool := ch % 2 == 1 && pers (ch - 1) == 2

/-- R194: limit and reserve of one queue. -/
def limitResvOk (w : Nat) : Bool :=
  decide (16 ≤ bits w 0 15) && decide (bits w 0 15 ≤ 16384) && decide (2 ≤ bits w 16 15) && decide (bits w 16 15 ≤ bits w 0 15)

/-- R194: one channel's limits and reserves, and the sum of all reserves. -/
def qcfgOk (reg : Nat → Nat) (ch : Nat) : Bool :=
  limitResvOk (reg (chnAddr ch 0x10)) && limitResvOk (reg (chnAddr ch 0x14))
    && decide (((List.range 128).map (fun c => bits (reg (chnAddr c 0x10)) 16 15 + bits (reg (chnAddr c 0x14)) 16 15)).sum ≤ 32768)

/-- R107: limits and reserves of the switch. -/
def swSetOk (reg : Nat → Nat) : Bool :=
  let lim (o c : Nat) : Nat := bits (reg (limitAddr o c)) 0 20
  let res (o c : Nat) : Nat := bits (reg (resvAddr o c)) 0 20
  (List.range 4).all (fun o => (List.range 5).all (fun c => decide (38 ≤ lim o c) && decide (lim o c ≤ 524288)))
    && (List.range 4).all (fun o => [2, 4].all (fun c => decide (38 ≤ res o c) && decide (res o c ≤ lim o c)))
    && decide (((List.range 4).map (fun o => res o 2 + res o 4)).sum ≤ 458752)

/-- R348: a parameter set in registers. -/
def cvSetOk (reg : Nat → Nat) (base : Nat) : Bool :=
  let g (off : Nat) : Nat := reg (base + off) + reg (base + off + 4) * 2 ^ 32
  let c := reg base
  (CrcParams.mk (bits c 0 7) (g 4) (g 0xC) (bit c 7) (bit c 8) (g 0x14)).valid

/-- R353: the alive counter lies within the bytes that the check value covers. -/
def aliveOk (reg : Nat → Nat) (ch : Nat) : Bool :=
  let a := reg (0x101000 + ch * 0x40 + 0x2C)
  bits a 0 1 == 0 || (decide (bits (reg (chnAddr ch 0x114)) 0 12 ≤ bits a 3 12) && decide (bits a 3 12 < bits (reg (chnAddr ch 0x110)) 16 13))

/-- PERIOD of SYNC_OUT, and its WIDTH beside it, as they stand in the registers (R168). WIDTH 0 is its reset value, with which no pulse can be
enabled (log entry 15). -/
def syncPeriodOk (reg : Nat → Nat) : Bool := (reg 0x40048 == 0 || decide (1000 ≤ reg 0x40048)) && reg 0x40048 % 5 == 0
def syncWidthOk (reg : Nat → Nat) : Bool :=
  let w := reg 0x4004C
  w % 5 == 0 && (decide (20 ≤ w) || (w == 0 && bits (reg 0x40000) 2 1 != 1)) && (reg 0x40048 == 0 || decide (w + 20 ≤ reg 0x40048))
def syncOk (reg : Nat → Nat) : Bool := syncPeriodOk reg && syncWidthOk reg

/-- I_TRIP of an outlet in mA (R366, R384). -/
def itripMa (w : Nat) : Nat := 100 + 25 * bits w 0 6

/-- R366: the outlets of one bank of eight. -/
def bankOk (reg : Nat → Nat) (b : Nat) : Bool :=
  decide (((((upFrom (8 * b) 8).map (fun o => reg (0x30000 + o * 0x10))).filter (fun w => bit w 28)).map itripMa).sum ≤ 10000)

end Sys2Proof.Machine
end

