-- ==== Sys2Proof/Machine/Recovery.lean ====
section
/-! DEFINITION. Replay, acknowledgement and hold-back (R131 to R137). -/

namespace Sys2Proof.Machine

open Sys2Proof

/-- The packet header of a frame's payload: session, tag and opcode, where the header CRC holds (R33). -/
def packetOf (bs : List Byte) : Option (Nat × Tag × Nat) :=
  if bs.length ≥ 16 ∧ rd bs 14 2 = crc16 (bs.take 14) then some (rd bs 4 1, BitVec.ofNat 16 (rd bs 6 2), rd bs 2 2) else none

/-- A 20-byte reply with a status and no results (R32, R33). -/
def bareReply (session : Nat) (tag : Tag) (opcode status : Nat) : List Byte :=
  let h := [BitVec.ofNat 8 0x41, 0] ++ leBytes 2 opcode ++ leBytes 1 session ++ [0] ++ leBytes 2 tag.toNat ++ leBytes 2 0
    ++ leBytes 2 status ++ leBytes 2 0
  h ++ leBytes 2 (crc16 h) ++ leBytes 4 (crc32c [])

/-- Record a destination's outcome for a multicast item (R119): the first one counts. -/
def mcReport (id : Word) (node status : Nat) (s : State) : State :=
  modSw (fun w => { w with mcItems := w.mcItems.map (fun m =>
    if m.id = id ∧ m.expected.contains node ∧ !(m.reports.any (fun r => r.1 == node)) then { m with reports := m.reports ++ [(node, status)] } else m) }) s

/-- A multicast item was lost on the way to a destination (R119, R134). -/
def mcLost (id : Word) (node : Nat) (s : State) : State :=
  modSw (fun w => { w with mcItems := w.mcItems.map (fun m =>
    if m.id = id ∧ !m.lost.contains node then { m with lost := m.lost ++ [node] } else m) }) s

/-- A frame that this hub sent is lost: its item completes with LOST (R134). Replies alone are answered so: an event packet in an
RSP carries none (log entry 84), and no operation of this hub sends BULK blocks. -/
def completeLost (f : Frame) (s : State) : State :=
  if f.cls = 1 then
    match packetOf f.head with
    | some (se, tag, _) => complete se tag .lost [] s
    | none => if f.payload.length == 8 && rd f.payload 0 1 == 0xD0 then s else mcLost (BitVec.ofNat 32 (rd f.head 0 4)) f.dst s
  else if f.cls = 2 then
    match packetOf f.head with
    | some (se, tag, op) => if rd f.head 0 1 = 0x41 then sendUnicast 2 f.dst (bareReply se tag op 11) s else s
    | none => s
  else s

/-- Lost frames complete their items, in order: a packet of two frames once. -/
def completeAllLost (fs : List Frame) (s : State) : State :=
  (fs.filter (fun f => f.first || !fs.any (fun g => g.first && !g.last && seqKey g.cls g.dst g.mgroup == seqKey f.cls f.dst f.mgroup
    && g.seq + 1 == f.seq))).foldl (fun s f => completeLost f s) s

/-- Key of the stream of a copy. -/
def copyKey (c : Copy) : Nat := seqKey c.frame.cls c.frame.dst c.frame.mgroup

/-- Insert a copy by its SEQ. -/
def insertCopy (c : Copy) : List Copy → List Copy
  | [] => [c]
  | d :: t => if seqBefore c.frame.seq d.frame.seq then c :: d :: t else d :: insertCopy c t

/-- Copies of a stream, in SEQ order. -/
def copiesOf (s : State) (k : Nat) : List Copy :=
  ((s.sw.replayCw ++ s.sw.replayCcw).filter (fun c => copyKey c == k)).foldl (fun l c => insertCopy c l) []

/-- Replace the copies of both buffers by `f`; `none` frees one. -/
def mapCopies (f : Copy → Option Copy) (s : State) : State :=
  modSw (fun w => { w with replayCw := w.replayCw.filterMap f, replayCcw := w.replayCcw.filterMap f }) s

/-- The frame still waits in this hub: it has not been sent yet. -/
def stillQueued (s : State) (f : Frame) : Bool :=
  let same (g : Frame) : Bool := g.cls == f.cls && g.src == f.src && g.dst == f.dst && g.seq == f.seq
  s.sw.queues.any (fun q => q.2.any same) || s.sw.heldOut.any same

/-- Send one copy again with REPLAY set (R133): ahead of the stream's frames not yet sent, or held where there is no room (R109). -/
def resendOne (c : Copy) (s : State) : State :=
  if stillQueued s c.frame then s
  else
    let s := mapCopies (fun d => some (if copyKey d = copyKey c ∧ d.frame.seq = c.frame.seq then { d with sentUp := s.time.up, sends := d.sends + 1 } else d)) s
    let g := { c.frame with replay := true }
    let s := bump 0x50630 s
    if hasRoom s g then launch g s else holdOut g s

/-- Send copies again in SEQ order (R133). -/
def resend (cs : List Copy) (s : State) : State := cs.foldl (fun s c => resendOne c s) s

/-- Give a stream up: every unacknowledged copy completes with LOST, in SEQ order, and is freed (R134). -/
def giveUp (k : Nat) (count : Bool) (s : State) : State :=
  let cs := copiesOf s k
  let s := mapCopies (fun c => if copyKey c = k then none else some c) s
  completeAllLost (cs.map (·.frame)) (onlyIf count (bumpBy 0x50638 cs.length) s)

/-- Resend copies of a stream, or give the stream up once one was sent three times without an advance (R133, R134). -/
def resendOrGiveUp (k : Nat) (cs : List Copy) (s : State) : State :=
  if cs.any (fun c => decide (c.sends ≥ 3)) then giveUp k true s else resend cs s

/-- An ACK for a stream of this hub (R132 to R134). -/
def takeAck (k : Nat) (flags : Nat) (next lostFirst : Word) (lostCount : Nat) (s : State) : State :=
  let lostRange (q : Word) : Bool := bit flags 1 && decide ((q - lostFirst).toNat < lostCount)
  let cs := copiesOf s k
  let gone := cs.filter (fun c => seqBefore c.frame.seq next || lostRange c.frame.seq)
  let advanced := cs.any (fun c => seqBefore c.frame.seq next)
  let s := mapCopies (fun c =>
    if copyKey c = k then
      (if seqBefore c.frame.seq next || lostRange c.frame.seq then none else some (if advanced then { c with sends := 0 } else c))
    else some c) s
  let s := onlyIf advanced (modSw (fun w => { w with advanceUp := sput 0 w.advanceUp k s.time.up })) s
  let s := completeAllLost ((gone.filter (fun c => lostRange c.frame.seq)).map (·.frame)) s
  if bit flags 0 then
    resendOrGiveUp k ((copiesOf s k).filter (fun c => decide (since c.sentUp s ≥ 400))) s
  else s

/-- Every copy in both buffers completes with LOST (R148). -/
def dropReplay (s : State) : State :=
  let ks := ((s.sw.replayCw ++ s.sw.replayCcw).map copyKey).eraseDups
  ks.foldl (fun s k => giveUp k false s) s

/-! ## Hold-back (R135 to R137) -/

/-- What a hold-back window hands on: a frame, or the place of a lost one in a stream. -/
inductive Handed where
  | frame (f : Frame)
  | lost (src dst : Nat) (group : Option Nat) (cls : Nat) (seq : Word)
  deriving DecidableEq, Repr

/-- A stream by source, destination or group, and class (R135). -/
def sameStream (h : HoldBack) (src dst : Nat) (group : Option Nat) (cls : Nat) : Bool :=
  h.src == src && h.dst == dst && h.group == group && h.cls == cls

/-- Hold-back state of a stream; a new stream expects SEQ 0. -/
def holdOf (s : State) (src dst : Nat) (group : Option Nat) (cls : Nat) : HoldBack :=
  (s.sw.holdBack.find? (fun h => sameStream h src dst group cls)).getD
    { src := src, dst := dst, group := group, cls := cls, expected := 0, held := [], gapUp := 0, uncovered := 0, timerUp := 0 }

def putHold (h : HoldBack) (s : State) : State :=
  modSw (fun w => { w with holdBack := (w.holdBack.filter (fun x => !sameStream x h.src h.dst h.group h.cls)) ++ [h] }) s

/-- The group of a frame's stream; none for unicast. -/
def groupOf (f : Frame) : Option Nat := if f.dst = 255 then some f.mgroup else none

/-- The ACK of a stream, on both rings (R132). Multicast streams are not acknowledged (R137). -/
def sendAck (h : HoldBack) (gap : Bool) (lostFirst : Word) (lostCount : Nat) (s : State) : State :=
  if h.group.isSome then s
  else
    let p := [5, BitVec.ofNat 8 h.cls, BitVec.ofNat 8 (b2n gap + 2 * b2n (decide (lostCount ≠ 0))), 0]
      ++ leBytes 4 h.expected.toNat ++ leBytes 4 lostFirst.toNat ++ leBytes 2 lostCount ++ zeros 2
    sendCtl h.src 0 0 true p (sendCtl h.src 0 0 false p s)

/-- Acknowledge and start covering afresh. -/
def ackNow (h : HoldBack) (lostFirst : Word) (lostCount : Nat) (s : State) : State :=
  sendAck h (!h.held.isEmpty) lostFirst lostCount (putHold { h with uncovered := 0 } s)

/-- Held frames that now follow in order (R135): frames handed on, the state after. -/
def releaseHeld : Nat → HoldBack → List Frame × HoldBack
  | 0, h => ([], h)
  | n + 1, h =>
    match h.held.find? (fun f => f.seq == h.expected) with
    | some f =>
      let r := releaseHeld n { h with expected := h.expected + 1, held := h.held.filter (fun g => g.seq != f.seq) }
      (f :: r.1, r.2)
    | none => ([], h)

/-- Start the gap timer of a state whose held frames stand behind a gap: from the tick the first of them was held (R136). -/
def gapFrom (s : State) (h : HoldBack) : HoldBack :=
  match h.held with
  | f :: _ => { h with gapUp := s.time.up - (tickNow s - f.rxTick) }
  | [] => h

/-- Cover delivered frames: an ACK after 64 of them, else the ACK timer runs (R132). -/
def cover (n : Nat) (h : HoldBack) (s : State) : State :=
  if h.group.isSome then putHold h s
  else
    let h := { h with uncovered := h.uncovered + n, timerUp := if h.uncovered = 0 then s.time.up else h.timerUp }
    if h.uncovered ≥ 64 then ackNow h 0 0 s else putHold h s

/-- The frame is the first one held behind its gap: nothing is held above the place below it (R132, R135). -/
def firstBehind (h : HoldBack) (seq : Word) : Bool :=
  h.held.all (fun g => (g.seq - h.expected).toNat < (seq - h.expected).toNat && g.seq + 1 != seq)

/-- One arriving frame of a stream is judged (R135). The frame has left the LOCAL queue; a held one keeps its cells, charged there
still, and any other gives them back (R103). -/
def holdBackRx (f : Frame) (s : State) : List Handed × State :=
  let h := holdOf s f.src f.dst (groupOf f) f.cls
  let d := (f.seq - h.expected).toNat
  if d = 0 then
    let r := releaseHeld h.held.length { h with expected := h.expected + 1 }
    ((f :: r.1).map .frame, cover (1 + r.1.length) (gapFrom s r.2) s)
  else if d < 1024 then
    if h.held.any (fun g => g.seq == f.seq) then ([], ackNow h 0 0 (bump 0x5063C (freeCells f s)))
    else
      let h' := { h with held := h.held ++ [{ f with rxTick := tickNow s }], gapUp := if h.held.isEmpty then s.time.up else h.gapUp }
      ([], if firstBehind h f.seq then ackNow h' 0 0 s else putHold h' s)
  else if seqBefore f.seq h.expected then ([], ackNow h 0 0 (bump 0x5063C (freeCells f s)))
  else ([], bump 0x50640 (freeCells f s))

/-- The first SEQ held above a gap. -/
def firstHeld (h : HoldBack) : Option Word :=
  h.held.foldl (fun m f => match m with
    | none => some f.seq
    | some q => if (f.seq - h.expected).toNat < (q - h.expected).toNat then some f.seq else some q) none

/-- Report the first gap of a stream LOST and deliver what follows it (R136). -/
def lostGap (h : HoldBack) (s : State) : List Handed × State :=
  match firstHeld h with
  | none => ([], s)
  | some q =>
    let n := (q - h.expected).toNat
    let losts := (List.range n).map (fun i => Handed.lost h.src h.dst h.group h.cls (h.expected + BitVec.ofNat 32 i))
    let r := releaseHeld h.held.length { h with expected := q }
    (losts ++ r.1.map .frame, ackNow (gapFrom s r.2) h.expected n (bumpBy 0x50644 n s))

/-- Report every gap of a stream LOST at once (R137, R148). -/
def lostAll : Nat → HoldBack → State → List Handed × State
  | 0, _, s => ([], s)
  | n + 1, h, s =>
    if h.held.isEmpty then ([], s)
    else
      let r := lostGap h s
      let t := lostAll n (holdOf r.2 h.src h.dst h.group h.cls) r.2
      (r.1 ++ t.1, t.2)

end Sys2Proof.Machine
end

