-- ==== Sys2Proof/Machine/Ring.lean ====
section
/-! DEFINITION. Ring ports, spans and training (R65 to R77), reception and routing of frames (R80 to R83, R104, R105, R113, R127,
R128), wraps and unwraps (R125, R126, R129, R138 to R140), joining and the light list (R85 to R92, R95, R96). -/

namespace Sys2Proof.Machine

open Sys2Proof

/-! ## Identity of this hub -/

/-- This hub's unique ID, ordering code and stepping, from the vendor identity block (R19, R443). -/
def myUid (s : State) : DWord := BitVec.ofNat 64 (leVal ((List.range 8).map (fun i => sget 0 s.upd.ident (8 + i))))
def myStep (s : State) : Nat := (sget 0 s.upd.ident 4).toNat

/-- The ring master as this hub knows it (R19): of the light list in force, else the sender of the beacon it follows. -/
def masterNode (s : State) : Nat :=
  if s.master.role = 1 ∨ s.master.role = 3 then s.ring.node
  else match s.ring.light with | some l => l.master.toNat | none => s.ring.beaconSrc

/-- The designated backup (R19). -/
def backupNode (s : State) : Nat := match s.ring.light with | some l => l.backup.toNat | none => 0

/-- This hub acts as ring master. -/
def isMaster (s : State) : Bool := (s.master.role == 1 && !s.master.stopped) || s.master.role == 3

def ringId (s : State) : Nat := csr s 0x50404
def pcfg (s : State) (p : Port) : Nat := csr s (portAddr p 0)

/-- Group membership of this hub: RING_MCAST0 to 7, group 0 always (R89, R98). -/
def membership (s : State) : List Nat :=
  0 :: (upFrom 1 255).filter (fun g => bit (csr s (0x50410 + g / 32 * 4)) (g % 32))

/-- The node beyond a port: as its keep markers show it, else as its last TRAIN did (R71, R84). -/
def PortSt.neighbour (q : PortSt) : Nat := if q.keepNode = 0 then q.peerNode else q.keepNode

def neighbour (s : State) (p : Port) : Nat := (portSt s p).neighbour

/-- Number of a span state (R72). -/
def spanNo : SpanState → Nat
  | .down => 0
  | .locking => 1
  | .training => 2
  | .up => 3
  | .refused => 4
  | .miswired => 5
  | .adminDown => 6
  | .foreign => 7

def isUp (s : State) (p : Port) : Bool := (portSt s p).span == .up

/-- TRAIN frames pass while the span trains (R72). -/
def trains : SpanState → Bool
  | .training | .refused | .miswired | .foreign => true
  | _ => false

/-- Peer number as PEER_NODE, EAST_PEER and WEST_PEER show it: from TRAIN, 0 while no exchange of them stands (R58, R98; log entry 93). -/
def PortSt.shownPeer (q : PortSt) : Nat := if trains q.span || q.span == .up then q.peerNode else 0

/-! ## Output balls of a port (R66, R68, R72) -/

/-- The hub is in a reset that holds its balls high-impedance (R66). -/
def ballsOff (s : State) : Bool := s.hub == .off || (s.reset_.inReset && (s.reset_.reach == .cold || s.reset_.reach == .warm))

/-- Level of TXDIS (R66, R68, R72); none while high-impedance: in reset, and before the port was taken into use. -/
def txdis (s : State) (p : Port) : Option Bool :=
  if ballsOff s || decide (s.reset_.bootStep < 4) then none else some ((portSt s p).span == .adminDown || (portSt s p).txdisUntil.isSome)

/-- Level of RATESEL0 and RATESEL1 (R66): high once the port is enabled. What a disabled port drives the spec leaves open: the model
shows high-impedance (log entry 87). -/
def ratesel (s : State) (p : Port) : Option Bool :=
  if ballsOff s || decide (s.reset_.bootStep < 4) || !bit (pcfg s p) 0 then none else some true

/-! ## Routing (R82, R105, R127, R128) -/

/-- The ring runs CYC single-sent (R77). -/
def reduced (s : State) : Bool := match s.ring.light with | some l => bit l.flags.toNat 0 | none => false

/-- Classes that drain (R139). -/
def drainClasses (s : State) : List Nat := if reduced s then [1, 2, 3, 0] else [1, 2, 3]

/-- What becomes of a frame at a ring output: it leaves by a port, turned there or not, it stops and is counted (R82, R128), or its
HOPS are used up (R80). -/
inductive Onward where
  | out (p : Port) (f : Frame) (turned : Bool)
  | stop (counter : Nat)
  | hops
  deriving DecidableEq, Repr

/-- The frame at the ring output of port `p`, the return leg ending there where it turns (R128). -/
def onwardAt (s : State) (p : Port) (f : Frame) : Onward :=
  let t := turns s p
  if t && f.wrapped then .stop 0x5062C
  else if t && f.cls == 0 && f.twin then .stop 0x50444
  else if f.hops + 1 ≥ 512 then .hops
  else if t then .out (otherPort p) { f with hops := f.hops + 1, wrapped := true } true
  else .out p { f with hops := f.hops + 1 } false

/-- Where a frame goes: its copies by output, the counters it counts, and whether it has returned to its source. -/
structure Route where
  outs    : List (Output × Frame) := []
  counts  : List Nat := []
  removed : Bool := false
  deriving DecidableEq, Repr

/-- Counter of a port by which a frame came in. -/
def ingressPort (f : Frame) : Port := if f.ingress = .west then .west else .east

/-- Onward at `p` beside the copies already found. A frame whose HOPS are used up is discarded whole (R80). -/
def passOn (s : State) (p : Port) (f : Frame) (here : List (Output × Frame)) : Route :=
  match onwardAt s p f with
  | .out q g t => { outs := here ++ [(outOf q, g)], counts := if t then [0x50628] else [] }
  | .stop a => { outs := here, counts := [a] }
  | .hops => { counts := [portAddr (ingressPort f) 0x28] }

/-- An outward or return leg here: take, copy, remove or pass on (R82, R105). This hub's own frame that it has not yet sent is not one
that returned. -/
def legRoute (s : State) (p : Port) (f : Frame) : Route :=
  let own : Bool := outNo f.ingress == 2
  if f.bankNode ≠ 0 ∧ f.src = f.bankNode ∧ !own then { removed := true }
  else if f.bankNode ≠ 0 ∧ f.dst = f.bankNode then { outs := [(.local, f)] }
  else passOn s p f (if f.dst = 255 ∧ f.member ∧ !own then [(.local, f)] else [])

/-- The route of a frame whose onward output is `p`: a detour leg is turned back at a wrapped or draining port and passed on
elsewhere; a span-local frame comes here alone (R105, R127, R128). -/
def routeAt (s : State) (p : Port) (f : Frame) : Route :=
  if f.dst = 0 then { outs := [(.local, f)] }
  else if f.wrapped && (p == .west) != f.ccw then
    (if wrapped s p || draining s p then legRoute s (otherPort p) f else passOn s p f [])
  else legRoute s p f

/-- Remove a frame at its source (R82): a unicast one has found no destination. -/
def removeHere (f : Frame) (s : State) : State :=
  if f.dst = 255 then s
  else
    let mine (c : Copy) : Bool := c.frame.cls == f.cls && c.frame.dst == f.dst && c.frame.seq == f.seq && c.frame.src == f.src
    let gone := (s.sw.replayCw ++ s.sw.replayCcw).filter mine
    completeAllLost (if gone.isEmpty then [{ f with head := f.payload.take 24 }] else gone.map (·.frame))
      (mapCopies (fun c => if mine c then none else some c) (bump 0x50440 s))

/-! ## Admission (R104, R108, R115, R139) -/

/-- The bank that a frame's GEN selects, with its count; this hub's number and membership there stay with the frame (R115). A GEN
between PREVIOUS and CURRENT, of a generation that this hub missed, counts as newer (log entry 88). -/
def matchBank (f : Frame) (s : State) : Frame × State :=
  let cur := s.sw.current
  let prev := s.sw.previous
  let at_ (old : Bool) (b : Bank) : Frame := { f with bankPrev := old, bankNode := b.node, member := b.members.contains f.mgroup }
  if f.dst = 0 ∨ f.gen = cur.gen then (at_ false cur, s)
  else if f.gen = prev.gen then (at_ true prev, s)
  else if (prev.gen - f.gen).toNat < 32768 then (at_ true prev, bump 0x60418 s)
  else (at_ false cur, bump 0x6041C s)

/-- The port holds arriving frames of the class until its DRAIN comes (R139). -/
def holds (s : State) (p : Port) (f : Frame) : Bool :=
  draining s p && f.dst != 0 && (drainClasses s).contains f.cls && !(portSt s p).drainDone.contains f.cls

/-- A checked CYC copy for this hub: before the twin window, or held with its class (R120, R139). -/
def cycArrives (p : Port) (f : Frame) (s : State) : State :=
  if holds s p f then modPort p (fun q => { q with drainHeld := q.drainHeld ++ [(.local, f)] }) s
  else modSw (fun w => { w with cycIn := w.cycIn ++ [f] }) s

/-- One copy is judged, stored and queued, or held on the draining port charged to its queue (R108, R139). -/
def admitCopy (p : Port) (o : Output) (f : Frame) (s : State) : State :=
  if holds s p f && judge s o f == .yes then
    (let (g, s) := giveCells { f with cut := cutAt s o f.cls } s
     notePoolMin (modPort p (fun q => { q with drainHeld := q.drainHeld ++ [(o, g)] }) s))
  else admitOrDrop o f s

/-- The copies of a route that a switch queue takes: CYC for this hub meets the twin window first (R120). -/
def admitRoute (p : Port) (r : Route) (s : State) : State :=
  (r.outs.filter (fun x => !(x.1 == .local && x.2.cls == 0))).foldl (fun s x => admitCopy p x.1 { x.2 with eligible := cutAt s x.1 x.2.cls } s)
    (r.counts.foldl (fun s a => bump a s) s)

/-! ## Reception (R80, R81, R104, R113) -/

/-- Smallest payload of a CTL type (R84 to R91, R130, R132, R152, R160, R378). -/
def ctlSize : Nat → Nat
  | 1 => 24
  | 2 => 40
  | 3 => 8
  | 4 => 16
  | 5 => 16
  | 6 => 16
  | 7 => 4
  | 8 => 24
  | 9 => 28
  | 0x0A => 24
  | 0x0B => 16
  | _ => 0

/-- CTL types that are sent span-local (R83). -/
def spanLocalCtl (t : Nat) : Bool := t == 1 || t == 3 || t == 4

/-- A CTL frame that some block here takes: a known type in its scope with the content of its layout (R83; log entry 6). -/
def ctlTaken (f : Frame) : Bool :=
  let t := rd f.payload 0 1
  decide (1 ≤ t) && decide (t ≤ 11) && (spanLocalCtl t == (f.dst == 0)) && decide (ctlSize t ≤ f.payload.length)

/-- A span-local frame of a type that this hub does not know (R83). One of a type that goes round the ring counts so too (log
entry 86). -/
def ctlUnknown (f : Frame) : Bool := f.cls == 4 && f.dst == 0 && !spanLocalCtl (rd f.payload 0 1)

/-- Change the queued copies of the frame that arrives on a port; none discards one and frees its cells. -/
def eachCopy (p : Port) (c : Nat) (g : Output → Frame → Option Frame) (s : State) : State :=
  let one (o : Output) (f : Frame) : Option Frame := if f.arriving = some p then g o f else some f
  let s := allOutputs.foldl (fun s o =>
    let l := queueOf s o c
    (l.filter (fun f => (one o f).isNone)).foldl (fun s f => freeCells f s) (setQueue o c (l.filterMap (one o)) s)) s
  modPort p (fun q => { q with drainHeld := q.drainHeld.filterMap (fun x => (one x.1 x.2).map (fun f => (x.1, f))) }) s

/-- Change the copies of the frame that a ring output is sending while its rest arrives on the port. -/
def onWireCopy (p : Port) (g : Frame → Frame) (s : State) : State :=
  modSw (fun w => { w with wire := w.wire.map (fun x => if x.2.arriving = some p then (x.1, g x.2) else x) }) s

/-- Take the record of the arriving frame off the port. -/
def endRx (p : Port) (s : State) : State := modPort p (fun q => { q with rx := none }) s

/-- The frame on a port ends damaged (R80, R81, R113): what waits is discarded; what is being sent ends, filled to LENGTH, with a poison
end, counted at its output. A beacon for this hub that does not arrive intact counts (R159). -/
def rxBad (p : Port) (a : Arriving) (payload : List Byte) (s : State) : State :=
  let s := endRx p s
  let sending := s.sw.wire.filter (fun x => x.2.arriving == some p)
  let s := sending.foldl (fun s x => bump (0x60400 + x.1 * 4) s) s
  let s := onWireCopy p (fun f => { f with payload := padTo a.frame.payload.length payload, poison := true, arriving := none }) s
  let s := onlyIf (a.frame.cls == 4 && a.frame.dst == 255 && a.frame.member && !a.removed && rd payload 0 1 == 2) (bump 0x40114) s
  eachCopy p a.frame.cls (fun _ _ => none) s

/-- The frame on a port has passed every check (R80, R111): its copies are whole. Those of CTL frames that nobody here takes go
(R83); a frame at its source is removed (R82); CYC content goes on to the twin window (R120). -/
def rxGood (p : Port) (a : Arriving) (payload : List Byte) (s : State) : State :=
  let f := { a.frame with payload := payload, arriving := none, eligible := true }
  let dead := f.cls == 4 && (!ctlTaken f || ((portSt s p).span != .up && rd payload 0 1 != 1))
  let s := onlyIf (ctlUnknown f && (portSt s p).span == .up) (bump (portAddr p 0x48)) (endRx p s)
  let s := onWireCopy p (fun g => { g with payload := payload, arriving := none }) s
  let s := eachCopy p f.cls (fun o g =>
    if o = .local ∧ dead then none else some { g with payload := payload, arriving := none, eligible := true }) s
  let s := onlyIf a.removed (removeHere f) s
  onlyIf a.cyc (cycArrives p { f with rxTick := tickNow s }) s

/-- What follows the header of a frame (R80): steps 4 and 5. -/
def rxRest (p : Port) (bytes : List Byte) (s : State) : State :=
  match (portSt s p).rx with
  | none => s
  | some a =>
    let all := a.got ++ bytes
    let len := a.frame.payload.length
    let pay := all.take len
    if all.length ≠ len + 4 then rxBad p a pay (bump (portAddr p 0x24) s)
    else
      let tr := rd all len 4
      let c := crc32c pay
      if tr = c then rxGood p a pay s
      else rxBad p a pay (bump (portAddr p (if tr = Nat.xor c 0xFFFFFFFF then 0x30 else 0x2C)) s)

/-- A frame still arriving on the port ends here, cut short (R113). -/
def rxCutOff (p : Port) (s : State) : State := onlyIf (portSt s p).rx.isSome (rxRest p []) s

/-- Frames may come in on the port: all classes while UP, span-local CTL alone while it trains (R72). -/
def admits (s : State) (p : Port) (f : Frame) : Bool :=
  match (portSt s p).span with
  | .up => true
  | st => trains st && f.cls == 4 && f.dst == 0

/-- Receive stamp at the balls, from the MAC's, in 2^−16 ns: 58.6 ns earlier, with RS-FEC 208.6 ns (R162; log entry 89). -/
def rxStamp (s : State) (p : Port) (mac : Nat) : Nat := mac - (if (portSt s p).fecOn then 13670810 else 3840410)

/-- Transmit stamp at the balls: 31.2 ns later, with RS-FEC 121.2 ns (R162; log entry 89). -/
def txStamp (s : State) (p : Port) (mac : Nat) : Nat := mac + (if (portSt s p).fecOn then 7942963 else 2044723)

/-- The header of a frame, with what came with it (R80): steps 1 to 3, then its admission (R104, R105). -/
def rxHeader (p : Port) (bytes : List Byte) (mac : Nat) (s : State) : State :=
  let s := rxCutOff p s
  match parseHead (bytes.take 32) (outOf p) (rxStamp s p mac) (tickNow s) with
  | none => bump (portAddr p 0x20) s
  | some (f, len) =>
    if len > 9564 then bump (portAddr p 0x24) s
    else if !admits s p f then s
    else
      let (f, s) := matchBank { f with eligible := false, arriving := some p } s
      let r := routeAt s (otherPort p) f
      let here := r.outs.any (fun x => x.1 == .local)
      -- step 3 failed: the frame is discarded whole
      if r.outs.isEmpty && r.counts.contains (portAddr p 0x28) then bump (portAddr p 0x28) s
      else
        admitRoute p r (modPort p (fun q => { q with rx := some ⟨{ f with member := here }, bytes.drop 32, r.removed, here && f.cls == 0⟩ }) s)

/-- RING_FRAME_RX (R80): the header is checked and the frame admitted, then its rest is. `mac` is the receive stamp of the MAC in 2^−16
ns. -/
def ringFrameRx (p : Port) (bytes : List Byte) (mac : Nat) (part : RxPart) (s : State) : State :=
  if (portSt s p).span == .up || trains (portSt s p).span then
    match part with
    | .header => rxHeader p bytes mac s
    | .rest => rxRest p bytes s
    | .whole => rxRest p (bytes.drop 32) (rxHeader p (bytes.take 32) mac s)
  else s

/-! ## The light list (R90 to R92) -/

def lightEntryBytes (e : LightEntry) : List Byte :=
  leBytes 1 e.node ++ [e.flags, e.state, e.role] ++ leBytes 8 e.uid.toNat ++ [e.east, e.west, e.eastPeer, e.westPeer, e.code, e.step, 0, 0]
    ++ leBytes 4 e.cfgCrc.toNat ++ padTo 32 (e.members.take 32) ++ leBytes 4 e.grant.toNat ++ zeros 4

/-- The light list as bytes (R91). -/
def lightBytes (l : LightList) : List Byte :=
  leBytes 2 l.gen.toNat ++ [l.master, l.backup] ++ leBytes 4 l.ringId.toNat ++ leBytes 1 l.entries.length ++ [l.flags, 0, 0]
    ++ leBytes 4 l.n.toNat ++ leBytes 8 l.effective.toNat ++ leBytes 4 l.cycUsed.toNat ++ leBytes 4 l.cycLimit.toNat
    ++ l.entries.flatMap lightEntryBytes

def parseLightEntry (b : List Byte) : LightEntry :=
  { node := rd b 0 1, flags := BitVec.ofNat 8 (rd b 1 1), state := BitVec.ofNat 8 (rd b 2 1), role := BitVec.ofNat 8 (rd b 3 1),
    uid := BitVec.ofNat 64 (rd b 4 8), east := BitVec.ofNat 8 (rd b 12 1), west := BitVec.ofNat 8 (rd b 13 1),
    eastPeer := BitVec.ofNat 8 (rd b 14 1), westPeer := BitVec.ofNat 8 (rd b 15 1), code := BitVec.ofNat 8 (rd b 16 1),
    step := BitVec.ofNat 8 (rd b 17 1), cfgCrc := BitVec.ofNat 32 (rd b 20 4), members := slice b 24 32,
    grant := BitVec.ofNat 32 (rd b 56 4) }

def parseLight (b : List Byte) : LightList :=
  { gen := BitVec.ofNat 16 (rd b 0 2), master := BitVec.ofNat 8 (rd b 2 1), backup := BitVec.ofNat 8 (rd b 3 1),
    ringId := BitVec.ofNat 32 (rd b 4 4), flags := BitVec.ofNat 8 (rd b 9 1), n := BitVec.ofNat 32 (rd b 12 4),
    effective := BitVec.ofNat 64 (rd b 16 8), cycUsed := BitVec.ofNat 32 (rd b 24 4), cycLimit := BitVec.ofNat 32 (rd b 28 4),
    entries := (entries 64 32 b).take (rd b 8 1) |>.map parseLightEntry }

/-- Send a light list in LIGHT frames, two at most (R90). -/
def sendLight (l : LightList) (s : State) : State :=
  let b := lightBytes l
  let frag (i : Nat) (part : List Byte) (s : State) : State := sendCtlAll 0 ([7, BitVec.ofNat 8 i] ++ leBytes 2 b.length ++ part) s
  let s := frag 0 (b.take 9560) s
  let s := if b.length > 9560 then frag 1 (b.drop 9560) s else s
  modRing (fun r => { r with lightSentUp := s.time.up }) s

def entryPresent (e : LightEntry) : Bool := bit e.flags.toNat 0

/-- The list as the master last made it. -/
def newestLight (s : State) : Option LightList := match s.ring.nextLight with | some l => some l | none => s.ring.light

/-- Sum of granted charges (R91). -/
def grantSum (l : LightList) : Nat := (l.entries.map (fun e => e.grant.toNat)).sum

/-- A span revision of 2 or 3 of an entry's EAST or WEST field that is UP (R91, R77). -/
def atRev2 (b : Byte) : Bool := bits b.toNat 0 4 == 3 && bits b.toNat 4 4 == 2

/-- The hub states that the master shows in a generation (R91): its own, 0 for the absent. No message of the spec brings it another
hub's state: a free value between 1 and 5 (log entry 90). -/
def showStates (me own : Nat) : List LightEntry → State → List LightEntry × State
  | [], s => ([], s)
  | e :: t, s =>
    if !entryPresent e then (let r := showStates me own t s; ({ e with state := 0 } :: r.1, r.2))
    else if e.node = me then (let r := showStates me own t s; ({ e with state := BitVec.ofNat 8 own } :: r.1, r.2))
    else
      let d := draw s
      let r := showStates me own t d.2
      ({ e with state := BitVec.ofNat 8 (1 + d.1 % 5) } :: r.1, r.2)

/-- The master makes a new generation, effective at a cycle, and distributes it (R77, R90, R91). -/
def newGenerationAt (k : Nat) (f : LightList → LightList) (s : State) : State :=
  match newestLight s with
  | none => s
  | some l =>
    let m := f l
    let r := showStates s.ring.node (hubNo s.hub) m.entries s
    let m := { m with
      entries := r.1
      gen := l.gen + 1
      flags := BitVec.ofNat 8 (b2n (m.entries.any (fun e => entryPresent e && (atRev2 e.east || atRev2 e.west))))
      effective := BitVec.ofNat 64 k
      cycUsed := BitVec.ofNat 32 (grantSum m), cycLimit := BitVec.ofNat 32 (1250 * m.n.toNat) }
    sendLight m (modRing (fun r => { r with nextLight := some m }) r.2)

/-- A new generation, effective at the next cycle boundary. -/
def newGeneration (f : LightList → LightList) (s : State) : State := newGenerationAt (cycleNow s + 1) f s

/-- Insert or replace an entry, in ascending node number. -/
def putEntry (e : LightEntry) : List LightEntry → List LightEntry
  | [] => [e]
  | h :: t => if e.node < h.node then e :: h :: t else if e.node = h.node then e :: t else h :: putEntry e t

/-- Mark a node absent (R92): its grant returns to the budget; a planned one shows its expected unique ID (R91). -/
def markAbsent (n : Nat) (s : State) : State :=
  let uid := match (plans s.upd.inForce).find? (fun p => p.node == n) with | some p => p.uid | none => 0
  let s := modRing (fun r => { r with absentSince := sins r.absentSince n s.time.up }) s
  newGeneration (fun l => { l with entries := l.entries.map (fun e =>
    if e.node = n then { e with
      flags := BitVec.ofNat 8 (setBits e.flags.toNat 0 1 0), state := 0, grant := 0
      uid := if bit e.flags.toNat 1 then BitVec.ofNat 64 uid else e.uid }
    else e) }) s

/-- Present nodes whose two neighbours both report their spans towards it DOWN, or each other as peers (R92). -/
def absentees (s : State) (l : LightList) : List Nat :=
  l.entries.filterMap (fun e =>
    let a := e.eastPeer.toNat
    let b := e.westPeer.toNat
    let peerOf (n : Nat) (east : Bool) : Nat := match l.entries.find? (fun x => x.node == n) with
      | some x => if east then x.eastPeer.toNat else x.westPeer.toNat
      | none => 0
    let bothDown : Bool := s.ring.spanDown.contains (a, e.node) && s.ring.spanDown.contains (b, e.node)
    let closed : Bool := a != b && peerOf b true == a && peerOf a false == b
    if entryPresent e && e.node != s.ring.node && a != 0 && b != 0 && (bothDown || closed) then some e.node else none)

/-- The revision of a span that a node reports UP: as this hub's own port has it where it is the other end, or as the list has the other
end; no message of the spec brings it otherwise: 2 or 3, a free value (log entry 90). -/
def spanRev (src port peer : Nat) (s : State) : Nat × State :=
  let far := portOf (1 - min 1 port)
  let seen := match newestLight s with
    | some l => match l.entries.find? (fun e => e.node == peer) with
      | some e => bits (match far with | .east => e.east | .west => e.west).toNat 4 4
      | none => 0
    | none => 0
  if peer = s.ring.node ∧ neighbour s far = src then ((portSt s far).rev, s)
  else if seen ≠ 0 then (seen, s)
  else (let d := draw s; (2 + d.1 % 2, d.2))

/-- A span report taken by the master or the backup (R92, R143). -/
def takeSpanReport (src : Nat) (b : List Byte) (s : State) : State :=
  if s.master.role = 0 then s
  else
    let peer := rd b 4 1
    let new := rd b 3 1
    let s := modRing (fun r => { r with spanDown :=
      let rest := r.spanDown.filter (fun x => x != (src, peer))
      if new = 3 then rest else rest ++ [(src, peer)] }) s
    if isMaster s then
      let (v, s) := if new ≠ 3 then (0, s)
        else if src = s.ring.node then ((portSt s (portOf (rd b 1 1))).rev, s)
        else spanRev src (rd b 1 1) peer s
      let s := newGeneration (fun l => { l with entries := l.entries.map (fun e =>
        if e.node = src then
          (if rd b 1 1 = 0 then { e with east := BitVec.ofNat 8 (new % 16 + 16 * v), eastPeer := if new = 3 then BitVec.ofNat 8 peer else e.eastPeer }
           else { e with west := BitVec.ofNat 8 (new % 16 + 16 * v), westPeer := if new = 3 then BitVec.ofNat 8 peer else e.westPeer })
        else e) }) s
      match newestLight s with
      | some l => (absentees s l).foldl (fun s n => markAbsent n s) s
      | none => s
    else s

/-! ## Span changes, wraps (R72, R125, R126, R129, R130) -/

/-- The keep marker that a port sends (R71): number, state and highest offered revision, count. -/
def sendKeep (p : Port) (s : State) : State :=
  let rev := bits (pcfg s p) 8 4
  let node := s.ring.node
  modPort p (fun q => { q with
    keepCount := q.keepCount + 1
    keepSent := some (BitVec.ofNat 8 node, BitVec.ofNat 8 (spanNo q.span + 16 * rev), q.keepCount + 1) }) s

/-- SPAN_REPORT to the master and the backup (R130); where this hub is one of them it takes its own report. -/
def spanReport (p : Port) (old new peer : Nat) (wrapNow : Bool) (s : State) : State :=
  let pay := [6, BitVec.ofNat 8 (portNo p), BitVec.ofNat 8 old, BitVec.ofNat 8 new, BitVec.ofNat 8 peer, BitVec.ofNat 8 (b2n wrapNow), 0, 0]
    ++ leBytes 8 (tickNow s)
  let tell (n : Nat) (s : State) : State :=
    if n = 0 ∨ !numbered s then s
    else if n = s.ring.node then takeSpanReport n pay s
    else sendCtl n 0 0 (Config.unicastCcw n 4) pay s
  let m := masterNode s
  let b := backupNode s
  (if b = m then id else tell b) (tell m s)

/-- WRAP_NOTICE on the ring that leaves away from the port (R130; the worked example of R137 sends it so). -/
def wrapNotice (p : Port) (kind : Nat) (cycle : Nat) (s : State) : State :=
  if !numbered s then s
  else sendCtl 255 0 0 (p == .east)
    ([0x0A, BitVec.ofNat 8 kind, BitVec.ofNat 8 (portNo p), BitVec.ofNat 8 (portSt s p).peerNode, 0, 0, 0, 0]
      ++ leBytes 8 (tickNow s) ++ leBytes 8 cycle) s

/-- RING event (R54). -/
def ringEvent (kind : Nat) (port node : Nat) (s : State) : State :=
  emit 3 [BitVec.ofNat 8 kind, BitVec.ofNat 8 port, BitVec.ofNat 8 node] s

def setWrap (p : Port) (w d : Bool) (s : State) : State :=
  modSw (fun x => match p with
    | .east => { x with eastWrap := w, eastDrain := d }
    | .west => { x with westWrap := w, westDrain := d }) s

/-- Put a frame that keeps its cells at the tail of a queue (R129). -/
def requeue (o : Output) (f : Frame) (s : State) : State := setQueue o f.cls (queueOf s o f.cls ++ [f]) s

/-- Let held copies of a draining port go into their queues, in arrival order (R139). -/
def letGo (p : Port) (which : Output × Frame → Bool) (s : State) : State :=
  let go := (portSt s p).drainHeld.filter which
  let s := modPort p (fun q => { q with drainHeld := q.drainHeld.filter (fun x => !which x) }) s
  go.foldl (fun s x =>
    if x.1 = .local ∧ x.2.cls = 0 then modSw (fun w => { w with cycIn := w.cycIn ++ [x.2] }) s else requeue x.1 x.2 s) s

/-- A copy of a turned-back frame for this hub: one whose rest still arrives takes its CYC content and its removal with it. -/
def comesHere (f : Frame) (s : State) : State :=
  match f.arriving with
  | some p => if f.cls = 0 then modPort p (fun q => { q with rx := q.rx.map (fun a => { a with cyc := true }) }) s
              else admitOrDrop .local { f with eligible := false } s
  | none => if f.cls = 0 then modSw (fun w => { w with cycIn := w.cycIn ++ [f] }) s
            else if f.cls = 4 ∧ !ctlTaken f then s else admitOrDrop .local f s

/-- One queued frame of a port that has just been wrapped (R129): turned, turned back, stopped or discarded under R128. A frame that
goes on keeps its cells. -/
def moveOne (p : Port) (f : Frame) (s : State) : State :=
  if f.wrapped && (p == .west) != f.ccw then
    let r := legRoute s (otherPort p) { f with hops := f.hops - 1 }
    let s := if r.outs.any (fun x => x.1 == .local) then comesHere { f with cells := [] } s else s
    let s := match r.outs.find? (fun x => x.1 != .local) with
      | some _ => requeue (outOf (otherPort p)) f s
      | none => freeCells f s
    if r.removed then
      match f.arriving with
      | some q => modPort q (fun x => { x with rx := x.rx.map (fun a => { a with removed := true }) }) s
      | none => removeHere f s
    else s
  else if f.wrapped then bump 0x5062C (freeCells f s)
  else if f.cls = 0 ∧ f.twin then bump 0x50444 (freeCells f s)
  else requeue (outOf (otherPort p)) { f with wrapped := true } (bump 0x50628 s)

/-- Move the queues of a wrapped port to the other ring output (R129). Span-local frames stay: they are for this span. -/
def moveQueues (p : Port) (s : State) : State :=
  let s := letGo p (fun _ => true) s
  let s := letGo (otherPort p) (fun x => x.1 == outOf p) s
  notePoolMin (allClasses.foldl (fun s c =>
    let l := queueOf s (outOf p) c
    let s := setQueue (outOf p) c (l.filter (fun f => f.dst == 0)) s
    (l.filter (fun f => f.dst != 0)).foldl (fun s f => moveOne p f s) s) s)

/-- Nodes in CW order from the light list's EAST_PEER links, starting beyond `n`. -/
def cwWalk (l : LightList) : Nat → Nat → List Nat
  | 0, _ => []
  | k + 1, n =>
    match l.entries.find? (fun e => e.node == n) with
    | some e => if e.eastPeer = 0 then [] else e.eastPeer.toNat :: cwWalk l k e.eastPeer.toNat
    | none => []

/-- Nodes in CCW order from the WEST_PEER links. -/
def ccwWalk (l : LightList) : Nat → Nat → List Nat
  | 0, _ => []
  | k + 1, n =>
    match l.entries.find? (fun e => e.node == n) with
    | some e => if e.westPeer = 0 then [] else e.westPeer.toNat :: ccwWalk l k e.westPeer.toNat
    | none => []

/-- The path of a stream of this hub on its ring, per the light list, crosses the span between `a` and `b` (R133). Where the
list does not show the whole path, the path counts as crossing. -/
def pathCrosses (s : State) (ccw : Bool) (dst a b : Nat) : Bool :=
  match s.ring.light with
  | none => true
  | some l =>
    let w := if ccw then ccwWalk l 254 s.ring.node else cwWalk l 254 s.ring.node
    let path := s.ring.node :: w.takeWhile (fun n => n != dst)
    if !w.contains dst then true
    else ((path.zip (path.drop 1 ++ [dst])).any (fun e => (e.1 == a && e.2 == b) || (e.1 == b && e.2 == a)))

/-- Replay after a wrap of the span between `a` and `b` (R133). -/
def replaySpan (a b : Nat) (s : State) : State :=
  let ks := ((s.sw.replayCw ++ s.sw.replayCcw).filter (fun c => pathCrosses s c.frame.ccw c.frame.dst a b)).map copyKey |>.eraseDups
  ks.foldl (fun s k => resendOrGiveUp k (copiesOf s k) s) s

/-- Wrap a port (R126, R129, R133): from the draining state too. -/
def wrapPort (p : Port) (s : State) : State :=
  let s := moveQueues p (setWrap p true false s)
  let s := ringEvent 2 (portNo p) (neighbour s p) (bump 0x50620 s)
  replaySpan s.ring.node (neighbour s p) (wrapNotice p 0 0 s)

/-- Neither span is up (R148). -/
def noSpanUp (s : State) : Bool := !isUp s .east && !isUp s .west

/-- A port is no longer UP: what held only while it was ends (R99, R113, R129, R138, R161). -/
def leaveUp (p : Port) (new : SpanState) (s : State) : State :=
  let s := rxCutOff p s
  let s := modSw (fun w => { w with wire := w.wire.map (fun x => if x.1 = portNo p then (x.1, { x.2 with arriving := none }) else x) }) s
  modPort p (fun q => { q with
    span := new, rev := 0, pd := {}, train := none, consistent := 0, peerUp := false, holdUp := none, unwrapAt := none, unwrapDone := false }) s

/-- Change a span state. Leaving UP counts, and wraps or not (R99, R125, R126, R148). -/
def setSpan (p : Port) (new : SpanState) (s : State) : State :=
  let q := portSt s p
  let old := q.span
  if old = new then s
  else if old = .up then
    let s := leaveUp p new s
    let s := ringEvent 0 (portNo p) q.neighbour (bump (portAddr p 0x3C) (sendKeep p s))
    if isUp s (otherPort p) then
      let w := !wrapped s p || draining s p
      spanReport p (spanNo old) (spanNo new) q.neighbour w (onlyIf w (wrapPort p) s)
    else setWrap .west false false (setWrap .east false false (letGo .west (fun _ => true) (letGo .east (fun _ => true) s)))
  else if new = .up then
    let s := modPort p (fun q => { q with span := new, peerUp := false, holdUp := none, unwrapAt := none, unwrapDone := false, pd := {} }) s
    let s := modTime (fun t => { t with firstUpUp := some (t.firstUpUp.getD t.up) }) s
    let s := ringEvent 1 (portNo p) q.neighbour s
    -- with no path beyond the other port, the hub turns there (R126, R148; log entry 7)
    let s := if isUp s (otherPort p) ∨ wrapped s (otherPort p) then s else setWrap p false false (wrapPort (otherPort p) s)
    spanReport p (spanNo old) (spanNo new) q.neighbour false s
  else
    let s := modPort p (fun q => { q with span := new }) s
    spanReport p (spanNo old) (spanNo new) q.neighbour false s

/-- A signal stands at the port and it may lock: enabled, module present and supplied, LOS low, transmitter not held off. -/
def mayLock (s : State) (p : Port) : Bool :=
  let q := portSt s p
  bit (pcfg s p) 0 && q.modPresent && !q.los && !q.cageOff && q.txdisUntil.isNone && q.blockUntil.isNone
    && decide (s.reset_.bootStep ≥ 4)

/-- Look for lock anew (R70, R75): every mode but OFF starts by transmitting with RS-FEC. -/
def seekLock (p : Port) (s : State) : State :=
  modPort p (fun q => { q with
    lockUp := s.time.up, fecFailUp := s.time.up, train := none, consistent := 0, txFec := bits (pcfg s p) 1 2 != 0 }) (setSpan p .locking s)

/-- DOWN starts LOCKING once a signal stands there (R72, R75). -/
def startLock (p : Port) (s : State) : State := if (portSt s p).span = .down ∧ mayLock s p then seekLock p s else s

/-- LOS_RISE (R125). -/
def losRise (p : Port) (s : State) : State :=
  let s := modPort p (fun q => { q with los := true }) s
  match (portSt s p).span with
  | .adminDown => s
  | _ => setSpan p .down s

/-- LOS_FALL (R75): with a module present the span starts LOCKING. -/
def losFall (p : Port) (s : State) : State := startLock p (modPort p (fun q => { q with los := false }) s)

/-- The cage supply is on again after a retry (R457): the retry counts. -/
def cageRetry (p : Port) (s : State) : State :=
  let q := portSt s p
  if q.cageOff ∧ since q.cageUp s ≥ 2000000 then bump (portAddr p 0x38) (modPort p (fun q => { q with cageOff := false }) s) else s

/-- MODULE_INSERT (R67): the A0h page is read; a silent module is counted and still used. -/
def moduleInsert (p : Port) (page : Option (List Byte)) (s : State) : State :=
  let s := cageRetry p s
  let s := modPort p (fun q => { q with modPresent := true, modId := (match page with | some b => b | none => []) }) s
  startLock p (onlyIf page.isNone (bump (portAddr p 0x38)) s)

/-- MODULE_REMOVE (R72): the span is DOWN and RING_MODID reads 0. -/
def moduleRemove (p : Port) (s : State) : State :=
  let s := modPort p (fun q => { q with modPresent := false, modId := [] }) s
  match (portSt s p).span with
  | .adminDown => s
  | _ => setSpan p .down s

/-- TXFLT_RISE (R68): TXDIS high for 10 ms; one count, whether or not the span was UP. -/
def txfltRise (p : Port) (s : State) : State :=
  let q := portSt s p
  let s := modPort p (fun q => { q with txFault := true, txdisUntil := some (s.time.up + 20000) }) s
  match q.span with
  | .up => setSpan p .down s
  | .adminDown => bump (portAddr p 0x3C) s
  | _ => bump (portAddr p 0x3C) (setSpan p .down s)

/-- TXFLT_HOLD_END (R68). The module's fault is taken to have ended with the 10 ms (log entry 85). -/
def txfltHoldEnd (p : Port) (s : State) : State :=
  match (portSt s p).txdisUntil with
  | some t => if t ≤ s.time.up then startLock p (modPort p (fun q => { q with txdisUntil := none, txFault := false }) s) else s
  | none => s

/-- CAGE_SUPPLY_TRIP (R457): the supply goes off, and the module with it; a trip at the retry counts the retry. -/
def cageSupplyTrip (p : Port) (s : State) : State :=
  let s := cageRetry p s
  if (portSt s p).cageOff then s
  else
    let s := modPort p (fun q => { q with cageOff := true, cageUp := s.time.up }) s
    match (portSt s p).span with
    | .adminDown => s
    | _ => setSpan p .down s

/-- LIVENESS_LOSS (R71, R125): three marker intervals missed and lock lost. -/
def livenessLoss (p : Port) (s : State) : State :=
  match (portSt s p).span with
  | .up => setSpan p .down (bumpBy (portAddr p 0x34) 3 s)
  | .training | .refused | .miswired | .foreign => seekLock p (bumpBy (portAddr p 0x34) 3 s)
  | .locking => bumpBy (portAddr p 0x34) 3 s
  | _ => s

/-- RING_PCFG.EN or SPAN_ADMIN takes effect (R74). -/
def adminPort (p : Port) (up : Bool) (s : State) : State :=
  if up then
    let s := setFld (portAddr p 0) 0 1 1 s
    if (portSt s p).span = .adminDown then startLock p (setSpan p .down s)
    else startLock p (modPort p (fun q => { q with train := none, consistent := 0 }) (setSpan p .down s))
  else setSpan p .adminDown (setFld (portAddr p 0) 0 1 0 s)

/-- TRAINING_TIMEOUT (R74, R75): a training without UP within 100,000 ticks fails, and starts again from LOCKING. A span that finds no
lock counts under R70 instead. -/
def trainingTimeout (p : Port) (s : State) : State :=
  let q := portSt s p
  if trains q.span && decide (since q.lockUp s ≥ 100000) then seekLock p (bump (portAddr p 0x38) s) else s

/-- FEC_LOCK_TIMEOUT (R70): each 100 ms spent LOCKING counts. -/
def fecLockTimeout (p : Port) (s : State) : State :=
  let q := portSt s p
  if q.span = .locking ∧ since q.fecFailUp s ≥ 200000 then
    modPort p (fun q => { q with fecFailUp := s.time.up }) (bump (portAddr p 0x38) s)
  else s

/-- BLOCK_LOCK (R70, R75): lock on the incoming stream, with or without FEC; an AUTO end takes the mode it received. -/
def blockLock (p : Port) (peerFec : Bool) (s : State) : State :=
  let q := portSt s p
  let mode := bits (pcfg s p) 1 2
  if q.span = .locking ∧ (mode = 2 ∨ (mode = 1 ∧ peerFec) ∨ (mode = 0 ∧ !peerFec)) then
    setSpan p .training (modPort p (fun q => { q with fecOn := peerFec, txFec := peerFec, train := none, consistent := 0 }) s)
  else s

/-- TRAIN payload of this end (R84). -/
def trainPayload (p : Port) (s : State) : List Byte :=
  let q := portSt s p
  [1, BitVec.ofNat 8 (portNo p), BitVec.ofNat 8 (bits (pcfg s p) 4 4), BitVec.ofNat 8 (bits (pcfg s p) 8 4)]
    ++ leBytes 8 (myUid s).toNat ++ leBytes 4 (ringId s)
    ++ [BitVec.ofNat 8 s.ring.node, BitVec.ofNat 8 (fld s 0x50400 8 1 + 2 * b2n (isMaster s)), BitVec.ofNat 8 (b2n q.txFec),
        BitVec.ofNat 8 (min 3 q.consistent)]
    ++ leBytes 2 (match s.ring.light with | some l => l.gen.toNat | none => 0) ++ zeros 2

/-- TRAIN_SEND (R73). -/
def trainSend (p : Port) (s : State) : State :=
  if trains (portSt s p).span then sendLocal p (trainPayload p s) s else s

/-- The state that training reaches from a TRAIN with these facts (R65, R72, R73). -/
def trainState (p : Port) (s : State) (i : TrainInfo) (count peerCount : Nat) : SpanState :=
  let lo := bits (pcfg s p) 4 4
  let hi := bits (pcfg s p) 8 4
  if i.port = portNo p then .miswired
  else if ringId s ≠ 0 ∧ i.ringId ≠ 0 ∧ ringId s ≠ i.ringId then .foreign
  else if hi < lo ∨ i.revMax < i.revMin ∨ hi < i.revMin ∨ i.revMax < lo then .refused
  else if count ≥ 3 ∧ peerCount ≥ 3 then .up
  else .training

/-- A TRAIN received on a port (R73, R84). While UP, a TRAIN with a count below 3 shows a peer that trains anew (R125); the declaration
shows DOWN, and lock is sought from the tick after. -/
def takeTrain (p : Port) (b : List Byte) (s : State) : State :=
  let q := portSt s p
  let i : TrainInfo := ⟨rd b 1 1, rd b 2 1, rd b 3 1, rd b 12 4⟩
  let peerCount := rd b 19 1
  match q.span with
  | .up => if peerCount < 3 ∧ q.peerUp then setSpan p .down s else s
  | .training | .refused | .miswired | .foreign =>
    let count := if q.train = some i then min 255 (q.consistent + 1) else 0
    let s := modPort p (fun q => { q with
      train := some i, consistent := count, peerNode := rd b 16 1, keepNode := 0, peerPort := rd b 1 1, peerUid := BitVec.ofNat 64 (rd b 4 8)
      peerMasterInit := bit (rd b 17 1) 1 }) s
    match trainState p s i count peerCount with
    | .up => setSpan p .up (modPort p (fun q => { q with rev := min (bits (pcfg s p) 8 4) i.revMax }) s)
    | .miswired => onlyIf (q.span != .miswired) (bump (portAddr p 0x38)) (setSpan p .miswired s)
    | st => setSpan p st s
  | _ => s

/-- The head of the LOCAL CTL queue, if its CTL type is `t` and it has `n` bytes or more. -/
def ctlHead (s : State) (t n : Nat) : Option Frame :=
  match queueOf s .local 4 with
  | f :: _ => if rd f.payload 0 1 = t ∧ n ≤ f.payload.length then some f else none
  | [] => none

/-- Take the head CTL frame of a type: the frame, and the state without it. -/
def takeCtl (t n : Nat) (k : Frame → State → State) (s : State) : State :=
  match ctlHead s t n with
  | some f => k f (dequeue .local 4 s)
  | none => s

/-- TRAIN_RX (R73). -/
def trainRx (s : State) : State := takeCtl 1 24 (fun f s => takeTrain (ingressPort f) f.payload s) s

/-- KEEP_MARKER_SEND (R71). -/
def keepMarkerSend (p : Port) (s : State) : State :=
  match (portSt s p).span with
  | .adminDown => s
  | _ => sendKeep p s

/-- KEEP_MARKER_RX (R71, R125, R138): the marker intervals missed before it are counted. A peer that is not UP takes an UP span DOWN; one
that is UP starts the hold-off. A marker that shows TRAINING before the peer was first seen UP belongs to the same training (log
entry 7). -/
def keepMarkerRx (p : Port) (node : Nat) (st missed : Nat) (s : State) : State :=
  let q := portSt s p
  match q.span with
  | .adminDown => s
  | .up =>
    let s := bumpBy (portAddr p 0x34) missed s
    if st = 3 then
      modPort p (fun q => { q with peerUp := true, keepNode := node, holdUp := some (q.holdUp.getD s.time.up) }) s
    else if st = 2 ∧ !q.peerUp then s
    else setSpan p .down s
  | _ => bumpBy (portAddr p 0x34) missed s

/-! ## Unwrap (R138 to R140) -/

/-- Hold-off of a port in ticks: RING_HOLDOFF (R149). -/
def holdoffTicks (s : State) (p : Port) : Nat := csr s (match p with | .east => 0x50604 | .west => 0x50608) * 2000

def holdElapsed (s : State) (p : Port) : Bool :=
  isUp s p && (match (portSt s p).holdUp with | some t => decide (since t s ≥ holdoffTicks s p) | none => false)

/-- UNWRAP_HOLDOFF_ELAPSE (R138): the hub whose EAST port faces the span plans the unwrap, once for each time it came UP, whether or not
it is itself wrapped there. -/
def unwrapHoldoffElapse (p : Port) (s : State) : State :=
  if p = .east ∧ !(portSt s .east).unwrapDone ∧ holdElapsed s .east ∧ (portSt s .east).unwrapAt = none then
    let k := cycleNow s + 2
    wrapNotice .east 1 k (modPort .east (fun q => { q with unwrapAt := some k }) s)
  else s

/-- One DRAIN frame, turned at admission (R139). -/
def sendDrain (p : Port) (k c : Nat) (s : State) : State :=
  let pay := [0xD0, BitVec.ofNat 8 (portNo p), 0, 0] ++ leBytes 4 (k % 2 ^ 32)
  originate { newFrame s c (neighbour s p) 0 (p == .west) pay with cycle := if c = 0 then k else 0, wrapped := true } s

/-- UNWRAP_START (R139): at T_k the port drains. -/
def unwrapStart (p : Port) (s : State) : State :=
  match (portSt s p).unwrapAt with
  | some k =>
    if k ≤ cycleNow s ∧ isUp s p then
      let s := (drainClasses s).foldl (fun s c => sendDrain p k c s) s
      modPort p (fun q => { q with
        unwrapAt := none, holdUp := none, unwrapDone := true, drainDone := [], drainTick := tickNow s }) (setWrap p (wrapped s p) true s)
    else s
  | none => s

/-- The wrap state clears once every class has drained (R139). -/
def finishDrain (p : Port) (s : State) : State :=
  if (drainClasses s).all (fun c => (portSt s p).drainDone.contains c) then
    let s := setWrap p false false s
    let s := wrapNotice p 2 0 s
    let s := spanReport p 3 3 (neighbour s p) true s
    ringEvent 3 (portNo p) (neighbour s p) (bump 0x50624 s)
  else s

/-- Release the frames of a class held on the restored port (R139). -/
def releaseDrain (p : Port) (c : Nat) (s : State) : State :=
  let s := modPort p (fun q => { q with drainDone := q.drainDone ++ [c] }) s
  finishDrain p (letGo p (fun x => x.2.cls == c) s)

/-- DRAIN_TIMEOUT (R140). -/
def drainTimeout (p : Port) (c : Nat) (s : State) : State :=
  let q := portSt s p
  if draining s p ∧ (drainClasses s).contains c ∧ !q.drainDone.contains c ∧ q.drainTick + 1000 ≤ tickNow s then
    releaseDrain p c (bump 0x50648 s)
  else s

/-- A payload is a DRAIN frame (R139). -/
def isDrain (f : Frame) : Bool := f.payload.length == 8 && rd f.payload 0 1 == 0xD0

/-- A WRAP_NOTICE received (R133, R138). -/
def takeWrapNotice (src : Nat) (b : List Byte) (s : State) : State :=
  let kind := rd b 1 1
  let p := portOf (1 - min 1 (rd b 2 1))  -- our port facing a sender's port: its other name (R65)
  let mine := (rd b 3 1 == s.ring.node || rd b 3 1 == 0) && neighbour s p == src
  if kind = 0 then replaySpan src (rd b 3 1) s
  else if kind = 1 ∧ mine then
    if holdElapsed s p then modPort p (fun q => { q with unwrapAt := some (rd b 16 8) }) s
    else bump 0x5064C (wrapNotice p 3 0 s)
  else if kind = 3 ∧ mine then
    modPort p (fun q => { q with unwrapAt := none, holdUp := if isUp s p && q.peerUp then some s.time.up else none }) s
  else s

def wrapNoticeRx (s : State) : State := takeCtl 0x0A 24 (fun f s => takeWrapNotice f.src f.payload s) s

/-! ## The light list in the hubs (R90, R142) -/

def spanReportRx (s : State) : State := takeCtl 6 16 (fun f s => takeSpanReport f.src f.payload s) s

/-- UNPLANNED_REMOVAL (R92). -/
def unplannedRemoval (n : Nat) (s : State) : State :=
  match slook s.ring.absentSince n, newestLight s with
  | some t, some l =>
    if isMaster s ∧ since t s ≥ 120000000 ∧ l.entries.any (fun e => e.node == n && bit e.flags.toNat 2 && !entryPresent e) then
      newGeneration (fun l => { l with entries := l.entries.filter (fun e => e.node != n) })
        (modRing (fun r => { r with absentSince := sdel r.absentSince n }) s)
    else s
  | _, _ => s

/-- LIGHT_SEND (R90): every 1 s. -/
def lightSend (s : State) : State :=
  match newestLight s with
  | some l => if isMaster s ∧ since s.ring.lightSentUp s ≥ 2000000 then sendLight l s else s
  | none => s

/-- What the designated backup writes to MRAM (R142). -/
def saveRing (s : State) : SavedRing :=
  { light := s.ring.light, n := s.maps.n, epoch := s.time.label, cycle := s.time.lastBeacon.getD 0, time := s.time.lastRef
    rate := s.time.lastRate }

/-- A LIGHT fragment received (R90); the designated backup saves at each (R142). -/
def takeLight (f : Frame) (s : State) : State :=
  let b := f.payload
  let total := rd b 2 2
  let key := total * 65536 + f.gen.toNat
  let s := onlyIf (s.master.role == 2) (modMaster (fun m => { m with saved := saveRing s })) s
  let stale := s.ring.fragments.any (fun x => x.1 != key)
  let s := onlyIf stale (bump 0x5044C) s
  let kept := (s.ring.fragments.filter (fun x => x.1 == key && x.2.1 != rd b 1 1)) ++ [(key, rd b 1 1, b.drop 4)]
  let whole := (kept.filter (fun x => x.2.1 == 0)).flatMap (·.2.2) ++ (kept.filter (fun x => x.2.1 == 1)).flatMap (·.2.2)
  if whole.length ≥ total ∧ kept.any (fun x => x.2.1 == 0) then
    let l := parseLight (whole.take total)
    modRing (fun r => { r with
      fragments := [], nextLight := if (r.light.map (·.gen)) = some l.gen then r.nextLight else some l }) s
  else modRing (fun r => { r with fragments := kept }) s

def lightRx (s : State) : State := takeCtl 7 4 takeLight s

/-! ## Joining (R85 to R88, R96) -/

/-- JOIN payload of this hub (R85). -/
def joinPayload (s : State) : List Byte :=
  [8, BitVec.ofNat 8 (fld s 0x50400 0 8), BitVec.ofNat 8 (neighbour s .east), BitVec.ofNat 8 (neighbour s .west)]
    ++ leBytes 8 (myUid s).toNat ++ leBytes 4 s.ring.charge ++ leBytes 4 (imgCrc s.upd.active)
    ++ [BitVec.ofNat 8 (orderCode s), BitVec.ofNat 8 (myStep s), 0, 0]

/-- Send a JOIN to the master. -/
def sendJoin (s : State) : State :=
  let m := masterNode s
  if m = 0 ∨ m = s.ring.node then s
  else
    let s := sendCtl m 0 0 (Config.unicastCcw m 4) (joinPayload s) s
    modRing (fun r => { r with joinUp := s.time.up, joinSent := true }) s

/-- JOIN_SEND (R85): every 10 ms once a beacon was received, while the hub holds no number and no ASSIGN has answered it. -/
def joinSend (s : State) : State :=
  if s.ring.node = 0 ∧ s.time.lastBeacon.isSome ∧ !s.ring.answered ∧ (!s.ring.joinSent ∨ since s.ring.joinUp s ≥ 20000) then sendJoin s
  else s

/-- The number that the master gives a joiner, with whether it is unplanned; or the reason of refusal (R86). One whose unique ID is present
already keeps its number (log entry 91). -/
def chooseNumber (l : LightList) (ps : List Plan) (j : JoinReq) : Nat × Bool × Nat :=
  let held (n : Nat) : Bool := l.entries.any (fun e => e.node == n && entryPresent e && e.uid != j.uid)
  let planned (n : Nat) : Bool := ps.any (fun p => p.node == n)
  if j.cfgNode ≠ 0 then (if held j.cfgNode then (0, false, 1) else (j.cfgNode, false, 0))
  else
    match l.entries.find? (fun e => entryPresent e && e.uid == j.uid) with
    | some e => (e.node, bit e.flags.toNat 2, 0)
    | none =>
      match ps.find? (fun p => p.east == j.eastNode && p.west == j.westNode && !l.entries.any (fun e => e.node == p.node && entryPresent e)) with
      | some p => (p.node, false, 0)
      | none =>
        match (upFrom 1 254).find? (fun n => !planned n && !l.entries.any (fun e => e.node == n && entryPresent e)) with
        | some n => (n, true, 0)
        | none => (0, false, 2)

/-- The MEMBERS bytes of groups (R91). -/
def memberBytes (gs : List Nat) : List Byte := leBytes 32 ((gs.eraseDups.map (fun g => 2 ^ g)).sum)

/-- The master answers a JOIN (R86, R87, R96). The groups of a hub that joins reach the master by no message of the spec: a free value
that holds group 0 (log entry 90). -/
def answerJoin (j : JoinReq) (s : State) : State :=
  match newestLight s with
  | none => s
  | some l =>
    let ps := plans s.upd.inForce
    let (n, unpl, why) := chooseNumber l ps j
    let old := l.entries.find? (fun e => e.node == n && e.uid == j.uid && entryPresent e)
    let kept := match old with | some e => some e.members | none => if n = s.ring.node then some (memberBytes (membership s)) else none
    let others := ((l.entries.filter (fun e => e.node != n)).map (fun e => e.grant.toNat)).sum
    let why := if why = 0 ∧ others + j.charge > 1250 * l.n.toNat then 4 else why
    let prev := match old with | some e => e.grant.toNat | none => 0
    let grant := if why = 0 then j.charge else if why = 4 then prev else 0
    let s :=
      if why = 0 then
        let plan := ps.find? (fun p => p.node == n)
        let mis := match plan with | some p => p.uid ≠ 0 ∧ p.uid ≠ j.uid.toNat | none => false
        let cap := match plan with | some p => p.capable | none => false
        let d := if kept.isSome then (0, s) else draw s
        let s := d.2
        let e : LightEntry :=
          { node := n, flags := BitVec.ofNat 8 (1 + 2 * b2n plan.isSome + 4 * b2n unpl + 8 * b2n mis + 16 * b2n cap)
            state := 1, role := if n = l.backup.toNat then 2 else 0, uid := j.uid
            east := (match old with | some e => e.east | none => if j.eastNode = 0 then 0 else 3)
            west := (match old with | some e => e.west | none => if j.westNode = 0 then 0 else 3)
            eastPeer := BitVec.ofNat 8 j.eastNode, westPeer := BitVec.ofNat 8 j.westNode, code := j.code, step := j.step
            cfgCrc := j.cfgCrc, members := (match kept with | some m => m | none => leBytes 32 (d.1 % 2 ^ 255 * 2 + 1)), grant := BitVec.ofNat 32 grant }
        newGeneration (fun l => { l with entries := putEntry e l.entries })
          (modRing (fun r => { r with absentSince := sdel r.absentSince n }) s)
      else bump 0x50448 s
    -- the master that comes back to the acting backup has joined (R145)
    let s := match s.master.saved.light with
      | some m => onlyIf (s.master.role == 3 && m.entries.any (fun e => e.node == m.master.toNat && e.uid == j.uid))
          (modMaster (fun m => { m with returned := true })) s
      | none => s
    let gen := match newestLight s with | some l => l.gen.toNat | none => 0
    sendCtlAll 0 ([9, BitVec.ofNat 8 (if why = 0 then n else 0), BitVec.ofNat 8 why, 0] ++ leBytes 8 j.uid.toNat ++ leBytes 4 grant
      ++ leBytes 2 gen ++ zeros 2 ++ leBytes 8 (cycleNow s + 1)) s

/-- The JOIN of the LOCAL CTL queue that the master processes: of the tick of the first one, that of the lowest unique ID (R86). -/
def nextJoin (l : List Frame) : Option Frame :=
  let js := l.filter (fun f => rd f.payload 0 1 == 8)
  match js with
  | [] => none
  | f :: _ => some ((js.filter (fun g => g.rxTick == f.rxTick)).foldl (fun a g => if rd g.payload 4 8 < rd a.payload 4 8 then g else a) f)

/-- JOIN_RX (R86): in tick order, once the tick is over, so that every JOIN of that tick is there. -/
def joinRx (s : State) : State :=
  match ctlHead s 8 24, nextJoin (queueOf s .local 4) with
  | some _, some f =>
    if f.rxTick ≥ tickNow s then s
    else
      let s := freeCells f (setQueue .local 4 ((queueOf s .local 4).erase f) s)
      let b := f.payload
      if isMaster s then
        answerJoin ⟨rd b 1 1, rd b 2 1, rd b 3 1, BitVec.ofNat 64 (rd b 4 8), rd b 12 4, BitVec.ofNat 32 (rd b 16 4),
          BitVec.ofNat 8 (rd b 20 1), BitVec.ofNat 8 (rd b 21 1)⟩ s
      else s
  | _, _ => s

/-- An ASSIGN that bears this hub's unique ID ends the JOINs (R85) and waits for its cycle (R87). -/
def takeAssign (b : List Byte) (s : State) : State :=
  if rd b 4 8 = (myUid s).toNat then
    modRing (fun r => { r with assign := some ⟨rd b 1 1, rd b 2 1, rd b 12 4, rd b 20 8⟩, joinSent := false, answered := true }) s
  else s

/-- An ASSIGN whose cycle has come takes effect (R87, R114): number, grant, and its reason in RING_LL.JOIN (log entry 92). -/
def applyAssign (k : Nat) (s : State) : State :=
  match s.ring.assign with
  | some a =>
    if a.cycle ≤ k then
      modRing (fun r => { r with
        assign := none, joinReason := a.reason, node := if a.reason = 0 then a.node else r.node
        grant := if a.reason = 0 ∨ a.reason = 4 then a.grant else r.grant }) s
    else s
  | none => s

/-- Streams of a source marked absent end: gaps LOST, states cleared (R120, R137). -/
def clearSource (n : Nat) (s : State) : List Handed × State :=
  let hs := s.sw.holdBack.filter (fun h => h.src == n)
  let r := hs.foldl (fun (acc : List Handed × State) h =>
    let x := lostAll (h.held.length + 1) h acc.2
    (acc.1 ++ x.1, x.2)) ([], s)
  (r.1, modSw (fun w => { w with holdBack := w.holdBack.filter (fun h => h.src != n), twins := w.twins.filter (fun t => t.src != n) }) r.2)

/-- A generation commits at its cycle boundary (R90, R114). What absent sources still held is handed on. -/
def commitLight (k : Nat) (s : State) : List Handed × State :=
  match s.ring.nextLight with
  | some l =>
    if l.effective.toNat ≤ k then
      let gone := (l.entries.filter (fun e => !entryPresent e)).map (·.node)
      let s := modRing (fun r => { r with light := some l, nextLight := none }) s
      let s := modMaps (fun m => { m with n := if l.n = 0 then m.n else l.n.toNat }) s
      let s := modSw (fun w => { w with previous := w.current, current := { gen := l.gen, node := s.ring.node, members := membership s } }) s
      gone.foldl (fun (acc : List Handed × State) n =>
        let x := clearSource n acc.2
        (acc.1 ++ x.1, x.2)) ([], s)
    else ([], s)
  | none => ([], s)

/-- RING_BACKUP_SET at the master (R57, R91). -/
def setBackup (n : Nat) (s : State) : State :=
  newGeneration (fun l => { l with
    backup := BitVec.ofNat 8 n
    entries := l.entries.map (fun e => { e with role := if e.node = l.master.toNat then 1 else if e.node = n then 2 else 0 }) }) s

end Sys2Proof.Machine
end

