-- ==== Sys2Proof/Machine/Validate.lean ====
section
/-! DEFINITION. Validation of configuration images (R398, R399, R437 to R439) and the values that an image gives its registers. -/

namespace Sys2Proof.Machine

open Sys2Proof

/-- Outcome of a validation: held cause (0: passed), section, offset (R398, R399). -/
structure Verdict where
  cause : Nat
  sect  : Nat
  off   : Nat
  deriving DecidableEq, Repr

/-- The verdict of an image that passes. -/
def Verdict.pass : Verdict := ⟨0, 0xFF, 0⟩

/-- Status of a verdict (R398). -/
def Verdict.status (v : Verdict) : Status := if v.cause = 0 then .ok else if v.cause = 6 then .budget else .denied

/-! ## Checks 1 to 4 (R398, R437) -/

/-- Defect of the directory, entry by entry: out of order, overlapping, or beyond LENGTH − 4 (R437). -/
def dirBad (b : List Byte) : Nat → Nat → List DirEntry → Option Nat
  | _, _, [] => none
  | code, last, d :: t =>
    if d.code ≤ code ∨ d.code > 11 then some d.at_
    else if d.off % 8 ≠ 0 ∨ d.off < last then some (d.at_ + 4)
    else if d.off + d.size > imgLength b - 4 then some (d.at_ + 8)
    else dirBad b d.code (d.off + d.size) t

/-- Checks 1 and 2. `given` counts the bytes received. -/
def headVerdict (b : List Byte) : Option Verdict :=
  if b.length < 64 ∨ imgLength b = 0 then some ⟨1, 0, 0⟩
  else if b.length < imgLength b then some ⟨1, 0, b.length⟩
  else if rd b 0 4 ≠ 0x4643594C then some ⟨2, 0, 0⟩
  else if imgFormat b ≠ 5 ∧ imgFormat b ≠ 6 then some ⟨2, 0, 4⟩
  else if rd b 5 1 = 0 ∨ rd b 5 1 > 11 then some ⟨2, 0, 5⟩
  else if imgLength b > 7340032 ∨ imgLength b < 68 + 16 * rd b 5 1 then some ⟨2, 0, 8⟩
  else (dirBad b 0 (64 + 16 * rd b 5 1) (directory b)).map (fun o => ⟨2, 0, o⟩)

/-- Checks 3 and 4. -/
def crcVerdict (b : List Byte) : Option Verdict :=
  match (directory b).find? (fun d => crc32c (slice b d.off d.size) != d.crc) with
  | some d => some ⟨3, d.code, d.off⟩
  | none => if crc32c (b.take (imgLength b - 4)) ≠ imgCrc b then some ⟨4, 0xFE, 0⟩ else none

/-! ## Records and settings (R438, R439) -/

/-- A place in an image: section and offset. -/
structure Place where
  sect : Nat
  off  : Nat
  deriving DecidableEq, Repr

/-- One SETTING entry. -/
structure Setting where
  sect : Nat
  off  : Nat
  addr : Nat
  val  : Nat
  deriving DecidableEq, Repr

/-- SETTING entries of an image in order. -/
def settings (b : List Byte) : List Setting :=
  (directory b).flatMap (fun d => ((records b d.code).filter (fun r => r.kind == 1)).flatMap (fun r =>
    (entries 8 0 r.body).zipIdx.map (fun e => ⟨d.code, r.at_ + 8 + 8 * e.2, rd e.1 0 4, rd e.1 4 4⟩)))

/-- Last value given to each address. -/
def rawRegs (b : List Byte) : Sparse Word := (settings b).foldl (fun m x => sins m x.addr (BitVec.ofNat 32 x.val)) []

/-- Fixed part and entry size of a record kind where its section allows it; none: not allowed (R439). -/
def kindShape (sect kind : Nat) : Option (Nat × Nat) :=
  match kind with
  | 0x0001 => if sect = 5 then none else some (0, 8)
  | 0x0101 => if sect = 1 then some (16, 0) else none
  | 0x0102 => if sect = 1 then some (0, 16) else none
  | 0x0301 => if sect = 3 then some (8, 8) else none
  | 0x0302 => if sect = 3 then some (8, 28) else none
  | 0x0303 => if sect = 3 then some (8, 1) else none
  | 0x0401 => if sect = 4 then some (8, 12) else none
  | 0x0402 => if sect = 4 then some (0, 12) else none
  | 0x0501 => if sect = 5 then some (8, 32) else none
  | 0x0601 => if sect = 6 then some (8, 3) else none
  | 0x0A01 => if sect = 10 then some (0, 4) else none
  | 0x0B01 => if sect = 11 then some (0, 8) else none
  | _ => none

/-- Defects of a record's size and kind (R438, R439). -/
def recordBad (sect : Nat) (r : Rec) : List Nat :=
  match kindShape sect r.kind with
  | none => [r.at_]
  | some (fixed, size) =>
    if r.body.length < fixed then [r.at_]
    else if size = 0 then (if r.body.length = fixed then [] else [r.at_ + 8 + fixed])
    else if (r.body.length - fixed) % size ≠ 0 then [r.at_ + 8 + r.body.length - (r.body.length - fixed) % size]
    else []

/-- The address may be set in the section (R439). -/
def inScope (sect addr : Nat) : Bool :=
  let within (lo hi : Nat) : Bool := decide (lo ≤ addr) && decide (addr < hi)
  match sect with
  | 1 => within 0x40000 0x60000
  | 2 => within 0x60000 0x70000
  | 3 => within 0x80000 0xC0000 || within 0x101000 0x103000
  | 4 => within 0xF0000 0xF0020
  | 6 => within 0xC0000 0xE0000
  | 7 => within 0xE0000 0xF0000
  | 8 => within 0x30000 0x40000
  | 9 => within 0x20000 0x30000
  | 10 => addr == 0x110000
  | 11 => within 0x100000 0x100200 || addr == 0x103000
  | _ => false

/-- A field that a SETTING sets (R439). -/
def settable (f : FieldRow) : Bool := f.ty == .rw || f.cfg

/-- Personality and Modbus service of a channel as settings give them. -/
def rawPers (raw : Sparse Word) (ch : Nat) : Nat := bits (sget 0 raw (chnAddr ch 0)).toNat 0 3
def rawMb (raw : Sparse Word) (ch : Nat) : Bool := bit (sget 0 raw (chnAddr ch 0x200)).toNat 0

/-- Field rows of an address under an image. -/
def imgRows (itm : Nat) (raw : Sparse Word) (addr : Nat) : List FieldRow := fieldsOf itm (rawPers raw) (rawMb raw) addr

/-- Register word under a setting: its fields over the table's reset values (R439). -/
def settingWord (rows : List FieldRow) (v : Nat) : Nat :=
  rows.foldl (fun w f => if settable f then setBits w f.lo f.w (bits v f.lo f.w) else w) (resetWord rows)

/-- Register word that an image determines. -/
def imgReg (itm : Nat) (raw : Sparse Word) (addr : Nat) : Nat :=
  let rows := imgRows itm raw addr
  match slook raw addr with
  | some v => settingWord rows v.toNat
  | none => resetWord rows

/-- The value lies within the allowed encodings of a field (R8). -/
def allowed (f : FieldRow) (v : Nat) : Bool := f.allow.isEmpty || f.allow.any (fun a => decide (a.1 ≤ v) && decide (v ≤ a.2))

/-- One entry is wrong by itself: address, fields that no configuration sets, reserved encodings (R439). -/
def settingBad (itm : Nat) (raw : Sparse Word) (x : Setting) : Bool :=
  let rows := imgRows itm raw x.addr
  !inScope x.sect x.addr || x.addr % 4 != 0 || rows.isEmpty
    || (rows.filter settable).foldl (fun w f => setBits w f.lo f.w 0) x.val != 0
    || rows.any (fun f => settable f && !allowed f (bits x.val f.lo f.w))

/-! ## What an image gives the map (R439) -/

/-- Descriptors of an image, with the offset of each. -/
def imgDescs (b : List Byte) : Sparse (Nat × List Byte) :=
  ((records b 4).filter (fun r => r.kind == 0x0401)).foldl (fun m r =>
    (entries 12 8 r.body).zipIdx.foldl (fun m e => sins m (rd r.body 0 4 + e.2) (r.at_ + 16 + 12 * e.2, e.1)) m) []

/-- Subscriptions of an image, with the offset of each. -/
def parseSub (e : List Byte) : Subscr := { node := rd e 0 1, count := rd e 2 2, remote := rd e 4 4, local_ := rd e 8 4 }
def imgSubs (b : List Byte) : List (Nat × Subscr) :=
  ((records b 4).filter (fun r => r.kind == 0x0402)).flatMap (fun r =>
    (entries 12 0 r.body).zipIdx.map (fun e => (r.at_ + 8 + 12 * e.2, parseSub e.1)))

/-- Rule bytes of an image, with the offset of each. -/
def imgRules (b : List Byte) : Sparse (Nat × List Byte) :=
  ((records b 5).filter (fun r => r.kind == 0x0501)).foldl (fun m r =>
    (entries 32 8 r.body).zipIdx.foldl (fun m e => sins m (rd r.body 0 4 + e.2) (r.at_ + 16 + 32 * e.2, e.1)) m) []

/-- Poll entries of an image: offset, channel, entry. -/
def imgPolls (b : List Byte) : List (Nat × Nat × Poll) :=
  ((records b 3).filter (fun r => r.kind == 0x0302)).flatMap (fun r =>
    (entries 28 8 r.body).zipIdx.map (fun e => (r.at_ + 16 + 28 * e.2, rd r.body 0 1, parsePoll e.1)))

/-- Templates of an image: offset of the record's body, channel, index, base (R273). -/
def imgTemplates (b : List Byte) : List (Nat × Nat × Nat × List Byte) :=
  ((records b 3).filter (fun r => r.kind == 0x0303)).map (fun r => (r.at_ + 8, rd r.body 0 1, rd r.body 1 1, (r.body.drop 8).take (rd r.body 2 2)))

/-- The cycle length in force where a light list or a beacon gave one, else the image's (R275, R439). -/
def lengthFor (s : State) (b : List Byte) : Nat :=
  if s.ring.light.isSome || s.time.lastBeacon.isSome then s.maps.n
  else match ringParams b with | some (n, _, _) => n | none => s.maps.n

/-- Published ranges that stand from a cycle on. -/
def imgView (s : State) (b : List Byte) : MapView :=
  let raw := rawRegs b
  let reg := imgReg (itripMax s) raw
  let n := lengthFor s b
  let val (a d : Nat) : Nat := match slook raw a with | some v => v.toNat | none => d
  { rules := (imgRules b).map (fun e => (e.1, e.2.2)), descs := (imgDescs b).map (fun e => (e.1, e.2.2))
    subs := (imgSubs b).map (·.2), published := s.maps.published, reg := reg, pers := rawPers raw, mb := rawMb raw
    polls := (imgPolls b).map (·.2), templates := (imgTemplates b).map (fun t => (t.2.1, t.2.2.1, t.2.2.2))
    n := n, p := val 0xF0004 (n / 8), h := val 0xF0000 (n / 4), dout := val 0xF0008 20, pub := val 0xF000C 0, sub := val 0xF0010 0
    level := bits (reg 0x20010) 0 2 }

/-! ## Check 5: content -/

/-- Content rules of one record (R243, R273, R410, R439). -/
def bodyBad (raw : Sparse Word) (reg : Nat → Nat) (sect : Nat) (r : Rec) : List Nat :=
  let at_ := r.at_ + 8
  let b := r.body
  let ifs (c : Bool) (o : Nat) : List Nat := if c then [at_ + o] else []
  let line (ch : Nat) : Bool := rawPers raw ch == 1 || rawPers raw ch == 2
  match r.kind with
  | 0x0101 => ifs (decide (rd b 0 4 < 125) || decide (rd b 0 4 > 131072)) 0 ++ ifs (rd b 4 1 == 255) 4 ++ ifs (rd b 5 1 != 0) 5 ++ ifs (rd b 6 2 != 0) 6
  | 0x0102 => (entries 16 0 b).zipIdx.flatMap (fun e =>
      let o := 16 * e.2
      ifs (rd e.1 0 1 == 0 || rd e.1 0 1 == 255) o ++ ifs (decide (rd e.1 1 1 > 1)) (o + 1) ++ ifs (rd e.1 2 1 == 255) (o + 2)
        ++ ifs (rd e.1 3 1 == 255) (o + 3) ++ ifs (rd e.1 4 4 != 0) (o + 4))
  | 0x0301 =>
    ifs (!(line (rd b 0 1) && rawMb raw (rd b 0 1))) 0 ++ ifs (rd b 1 7 != 0) 1 ++ ifs (decide ((entries 8 8 b).length > 64)) (8 + 8 * 64)
      ++ (entries 8 8 b).zipIdx.flatMap (fun e =>
        let o := 8 + 8 * e.2
        ifs (rd e.1 0 1 == 0 || decide (rd e.1 0 1 > 247)) o ++ ifs (decide (rd e.1 1 1 > 7)) (o + 1)
          ++ ifs (rd e.1 2 2 == 0 || decide (rd e.1 2 2 > 10000)) (o + 2) ++ ifs (rd e.1 4 4 != 0) (o + 4))
  | 0x0302 =>
    ifs (!(line (rd b 0 1) && rawMb raw (rd b 0 1))) 0 ++ ifs (rd b 1 7 != 0) 1 ++ ifs (decide ((entries 28 8 b).length > 256)) (8 + 28 * 256)
      ++ (entries 28 8 b).zipIdx.flatMap (fun e =>
        let o := 8 + 28 * e.2
        let p := parsePoll e.1
        let one := p.func == 5 || p.func == 6
        let slots := (pollRSlots p ++ pollWSlots p)
        ifs (decide (p.slave > 247) || (p.slave == 0 && !([5, 6, 15, 16].contains p.func))) o
          ++ ifs (mbMaxQty p.func == 0) (o + 1) ++ ifs (decide (rd e.1 2 1 > 1)) (o + 2) ++ ifs (rd e.1 3 1 != 0) (o + 3)
          ++ ifs (p.qty == 0 || decide (p.qty > mbMaxQty p.func) || (one && p.qty != 1) || decide (p.addr + p.qty > 65536)) (o + 6)
          ++ (if p.func = 23 then ifs (p.wqty == 0 || decide (p.wqty > 121) || decide (p.waddr + p.wqty > 65536)) (o + 10)
              else ifs (p.waddr != 0) (o + 8) ++ ifs (p.wqty != 0) (o + 10))
          ++ ifs (p.period == 0) (o + 12) ++ ifs (decide (p.phase ≥ p.period)) (o + 14) ++ ifs (rd e.1 18 2 != 0) (o + 18)
          ++ ifs (slots.any (fun x => decide (x ≥ 262144))) (o + 20))
  | 0x0303 =>
    let ch := rd b 0 1
    let len := rd b 2 2
    ifs (!line ch || rawMb raw ch) 0 ++ ifs (decide (rd b 1 1 > 15)) 1
      ++ ifs (len == 0 || decide (len > bits (reg (chnAddr ch 0x110)) 16 13) || decide (len ≠ b.length - 8)) 2 ++ ifs (rd b 4 4 != 0) 4
      ++ ifs (line ch && bits (reg (chnAddr ch 0x10C)) 0 2 == 2 && rd b (7 + len) 1 != bits (reg (chnAddr ch 0x10C)) 24 8) (7 + len)
  | 0x0401 => ifs (decide (rd b 0 4 + rd b 4 4 > 262144)) 0 ++ ifs (rd b 4 4 != (entries 12 8 b).length) 4
  | 0x0402 => (entries 12 0 b).zipIdx.flatMap (fun e => ifs (rd e.1 1 1 != 0) (12 * e.2 + 1))
  | 0x0501 => ifs (decide (rd b 0 4 + rd b 4 4 > 65536)) 0 ++ ifs (rd b 4 4 != (entries 32 8 b).length) 4
  | 0x0601 =>
    ifs (decide (rd b 0 1 ≥ 32)) 0 ++ ifs (rd b 1 1 != 0) 1 ++ ifs (decide (rd b 2 2 + rd b 4 4 > 16384)) 2
      ++ ifs (rd b 4 4 != (entries 3 8 b).length) 4
      ++ (entries 3 8 b).zipIdx.flatMap (fun e =>
        let ent := leVal e.1
        let arg := bits ent 0 5
        let okArg : Bool := match bits ent 5 3 with
          | 0 => arg == 0 | 1 => decide (arg < 8) | 2 => decide (arg < 8) | 3 => decide (arg < 2) | 4 => arg == 0 | 5 => decide (arg < 4) | _ => true
        ifs (!okArg) (8 + 3 * e.2))
  | 0x0A01 => (entries 4 0 b).zipIdx.flatMap (fun e =>
      let m := rd e.1 2 1
      ifs ((sourceRow (rd e.1 0 2)).isNone) (4 * e.2)
        ++ ifs (decide (m ≥ 32) || (bit m 2 && (match sourceRow (rd e.1 0 2) with | some r => r.2.2.2.isNone | none => true))
            || (rd e.1 0 2 / 256 == 2 && !bit m 3)) (4 * e.2 + 2)
        ++ ifs (rd e.1 3 1 != 0) (4 * e.2 + 3))
  | 0x0B01 => (entries 8 0 b).zipIdx.flatMap (fun e =>
      let o := 8 * e.2
      let most := if rd e.1 1 1 = 0 then 256 else 32
      ifs (rd e.1 0 1 == 0 || decide (rd e.1 0 1 > 7)) o ++ ifs (decide (rd e.1 1 1 > 1)) (o + 1)
        ++ ifs (decide (rd e.1 2 2 + rd e.1 4 2 > most)) (o + 2) ++ ifs (rd e.1 6 2 != 0) (o + 6))
  | _ => if sect = 0 then [at_] else []

/-- A format-5 faults section names groups 0x00 to 0x08 only (R439). -/
def reactScope (b : List Byte) (r : Rec) : List Nat :=
  if imgFormat b = 5 ∧ r.kind = 0x0A01 then
    (entries 4 0 r.body).zipIdx.flatMap (fun e => if rd e.1 1 1 > 8 then [r.at_ + 8 + 4 * e.2] else [])
  else []

/-- Offset of the last SETTING entry of an address, else of the section. -/
def settingAt (b : List Byte) (addr : Nat) (sect : Nat) : Place :=
  match ((settings b).filter (fun x => x.addr == addr)).getLast? with
  | some x => ⟨x.sect, x.off⟩
  | none => ⟨sect, match dirOf b sect with | some d => d.off | none => 0⟩

/-- Addresses of a sum in the order in which the model adds them: those an image leaves alone, then those it sets (log entry 98). -/
def sumOrder (raw : Sparse Word) (all : List Nat) : List Nat :=
  all.filter (fun a => (slook raw a).isNone) ++ all.filter (fun a => (slook raw a).isSome)

/-- The address at which a sum of sizes first passes `cap`. -/
def firstOver (size : Nat → Nat) (cap : Nat) : Nat → List Nat → Option Nat
  | _, [] => none
  | sum, a :: t => if sum + size a > cap then some a else firstOver size cap (sum + size a) t

/-- Addresses of the reserves of the switch and of the channels (R107, R194). -/
def swResvs : List Nat := (List.range 4).flatMap (fun o => [resvAddr o 2, resvAddr o 4])
def chnResvs : List Nat := (List.range 128).flatMap (fun c => [chnAddr c 0x10, chnAddr c 0x14])

/-- A limit or reserve that is itself at fault in a set (R107): a reserve above its limit is, where the image sets it, else the limit. The
status is that of check 5 (log entry 104). -/
def swFieldBad (reg : Nat → Nat) (raw : Sparse Word) (addr : Nat) : Bool :=
  let v := bits (reg addr) 0 20
  if addr < 0x60180 then
    let o := (addr - 0x60100) / 0x20
    let c := (addr - 0x60100) % 0x20 / 4
    decide (v < 38) || decide (524288 < v)
      || ((c == 2 || c == 4) && (slook raw (resvAddr o c)).isNone && decide (v < bits (reg (resvAddr o c)) 0 20))
  else
    let o := (addr - 0x60180) / 8
    let c := if addr % 8 = 0 then 2 else 4
    decide (v < 38) || decide (bits (reg (limitAddr o c)) 0 20 < v) || firstOver (fun a => bits (reg a) 0 20) 458752 0 (sumOrder raw swResvs) == some addr

/-- A queue's limit and reserve that are themselves at fault (R194): in their range, or where the sum of the reserves first passes 32,768. -/
def queueBad (reg : Nat → Nat) (raw : Sparse Word) (addr : Nat) : Bool :=
  !limitResvOk (reg addr) || firstOver (fun a => bits (reg a) 16 15) 32768 0 (sumOrder raw chnResvs) == some addr

/-- A word of a parameter set at fault (R348): beyond the WIDTH of the set, or POLY without bit 0. A reserved WIDTH is at fault
itself. -/
def cvWordBad (reg : Nat → Nat) (base off : Nat) : Bool :=
  let w := bits (reg base) 0 7
  let v := reg (base + off)
  1 ≤ w && w ≤ 64 && (if off % 8 = 4 then decide (2 ^ w ≤ v) || (off == 4 && v % 2 == 0) else decide (2 ^ (w - 32) ≤ v))

/-- A register of a parameter set at fault (R348): WIDTH is, where it leaves a word invalid that the image does not set. -/
def cvFieldBad (reg : Nat → Nat) (raw : Sparse Word) (base off : Nat) : Bool :=
  if off = 0 then [4, 8, 0xC, 0x10, 0x14, 0x18].any (fun o => (slook raw (base + o)).isNone && cvWordBad reg base o)
  else decide (off ≤ 0x18) && cvWordBad reg base off

/-- A SYNC_OUT register at fault (R168): PERIOD, WIDTH, or the enable where the image sets no WIDTH (log entry 15). -/
def syncFieldBad (reg : Nat → Nat) (raw : Sparse Word) (addr : Nat) : Bool :=
  if addr = 0x40048 then !syncPeriodOk reg
  else !syncWidthOk reg && (addr == 0x4004C || (slook raw 0x4004C).isNone)

/-- Register addresses whose joint value breaks a rule of its chapter, among those that an image sets. -/
def jointBad (reg : Nat → Nat) (raw : Sparse Word) (addr : Nat) : Bool :=
  if 0x80000 ≤ addr ∧ addr < 0xC0000 then
    let ch := (addr - 0x80000) / 0x800
    let off := (addr - 0x80000) % 0x800
    let p := rawPers raw ch
    if off = 0 then
      (p == 2 && (ch % 2 == 1 || rawPers raw (ch + 1) != 0)) || !termOk p (isPartner (rawPers raw) ch) (bits (reg addr) 4 2) (bits (reg addr) 6 1)
    else if off = 0x10 ∨ off = 0x14 then queueBad reg raw addr
    else if p = 3 ∧ off = 0x108 then !nominalValid (reg addr)
    else if p = 3 ∧ off = 0x10C then !dataValid (bit (reg (chnAddr ch 0x100)) 0) (reg (chnAddr ch 0x108)) (reg addr)
    else if off = 0x100 ∧ (p = 1 ∨ p = 2) then rawMb raw ch && bits (reg addr) 0 2 != 0
    else if off = 0x200 ∧ bit (reg addr) 0 then !(p == 1 || p == 2)
    else if off = 0x300 ∧ p = 4 then
      decide ((((upFrom (ch / 64 * 64) 64).filter (fun c => rawPers raw c == 4 && bits (reg (chnAddr c 0x300)) 3 5 == bits (reg addr) 3 5)).length) > 8)
    else false
  else if 0x60100 ≤ addr ∧ addr < 0x601C0 then !swSetOk reg && swFieldBad reg raw addr
  else if 0x101000 ≤ addr ∧ addr < 0x103000 then
    if addr % 0x40 = 0x2C then !aliveOk reg ((addr - 0x101000) / 0x40) else cvFieldBad reg raw (addr / 0x40 * 0x40) (addr % 0x40)
  else if 0x100000 ≤ addr ∧ addr < 0x100200 then cvFieldBad reg raw (addr / 0x40 * 0x40) (addr % 0x40)
  else if addr = 0x40000 ∨ addr = 0x40048 ∨ addr = 0x4004C then syncFieldBad reg raw addr
  else false

/-- Output positions of engine `e` as lines of its bank (R331). -/
def regOuts (reg : Nat → Nat) (e : Nat) : List Nat := (List.range 8).map (fun p => bits (reg (leAddr e (0x010 + p / 4 * 4))) (p % 4 * 8) 5)
def regIns (reg : Nat → Nat) (e : Nat) : List Nat := (List.range 8).map (fun p => bits (reg (leAddr e (0x008 + p / 4 * 4))) (p % 4 * 8) 5)

/-- R323 and R331: owners of the discrete outputs, lines that engines claim. -/
def lineFindings (b : List Byte) (reg : Nat → Nat) : List Place :=
  let out (l : Nat) : Bool := bits (reg (0xE0000 + l * 4)) 0 3 == 3 || bits (reg (0xE0000 + l * 4)) 0 3 == 4
  (List.range 128).flatMap (fun l =>
    let w := reg (0xE0000 + l * 4)
    let e := bits w 10 5
    if out l ∧ bits w 8 2 = 2 ∧ (e / 4 ≠ l / 16 ∨ ((regOuts reg e).filter (fun x => x == l % 16)).length ≠ 1) then [settingAt b (0xE0000 + l * 4) 7] else [])
    ++ (List.range 32).flatMap (fun e =>
      let wrong (p : Nat) : Bool :=
        let x := (regOuts reg e)[p]?.getD 31
        let l := 16 * (e / 4) + x
        decide (x < 16) && (!out l || bits (reg (0xE0000 + l * 4)) 8 2 != 2 || bits (reg (0xE0000 + l * 4)) 10 5 != e)
      (if (List.range 4).any wrong then [settingAt b (leAddr e 0x010) 6] else [])
        ++ (if (upFrom 4 4).any wrong then [settingAt b (leAddr e 0x014) 6] else [])
        ++ (if (((regOuts reg e ++ regIns reg e).filter (fun x => decide (x < 16))).eraseDups).length > 8 then [settingAt b (leAddr e 0x008) 6] else []))

/-- Two templates of a channel share an index (R273). -/
def templateDups : List (Nat × Nat) → List (Nat × Nat × Nat × List Byte) → List Place
  | _, [] => []
  | seen, (o, ch, ix, _) :: t => (if seen.contains (ch, ix) then [⟨3, o + 1⟩] else []) ++ templateDups ((ch, ix) :: seen) t

/-- Place of a finding of the map's checks. -/
def placeOf (b : List Byte) (f : Finding) : Place :=
  let at_ : Place := match f.spot with
    | .desc x => ⟨4, match slook (imgDescs b) x with | some e => e.1 + f.off | none => 0⟩
    | .sub i => ⟨4, match (imgSubs b)[i]? with | some e => e.1 + f.off | none => 0⟩
    | .rule i => ⟨5, match slook (imgRules b) i with | some e => e.1 + f.off | none => 0⟩
    | .param a => settingAt b a (if a < 0xC0000 then 3 else 4)
    | .poll i => ⟨3, match (imgPolls b)[i]? with | some e => e.1 + f.off | none => 0⟩
  if f.chans then { at_ with sect := 3 } else at_

/-- Half-duplex time of a poll entry in ns: request and reply at full length, and twice t3.5 (R237, R238, R243). -/
def pollNs (reg : Nat → Nat) (ch : Nat) (p : Poll) : Nat :=
  let l := reg (chnAddr ch 0x100)
  let rate := max 1 (bits (reg (chnAddr ch 0x104)) 0 25)
  let charBits := 1 + 8 + b2n (bits l 2 2 != 0) + 1 + bits l 4 1
  let (rq, rp) : Nat × Nat := match p.func with
    | 1 => (8, 5 + ceilDiv p.qty 8)
    | 2 => (8, 5 + ceilDiv p.qty 8)
    | 3 => (8, 5 + 2 * p.qty)
    | 4 => (8, 5 + 2 * p.qty)
    | 15 => (9 + ceilDiv p.qty 8, 8)
    | 16 => (9 + 2 * p.qty, 8)
    | 23 => (13 + 2 * p.wqty, 5 + 2 * p.qty)
    | _ => (8, 8)
  let charNs := charBits * 1000000000 / rate
  (rq + rp) * charNs + 2 * (if rate ≤ 19200 then 7 * charNs / 2 else 1750000)

/-- Largest excess of bus time over the shortest period among entries due together; `chosen` are they (R243). -/
def busOver (cycleNs : Nat) : List (Nat × Nat) → Nat → Nat → List (Nat × Nat × Nat) → Bool
  | _, ns, shortest, [] => decide (ns > shortest * cycleNs)
  | chosen, ns, shortest, (per, ph, w) :: t =>
    busOver cycleNs chosen ns shortest t
      || (chosen.all (fun c => coincide c (per, ph)) && busOver cycleNs ((per, ph) :: chosen) (ns + w) (min shortest per) t)

/-- Channels whose poll list needs more bus time than there is (R243). -/
def busFindings (b : List Byte) (v : MapView) : List Place :=
  (List.range 128).flatMap (fun ch =>
    let ps := (imgPolls b).filter (fun x => x.2.1 == ch)
    match ps with
    | [] => []
    | x :: _ =>
      if busOver (v.n * 500) [] 0 65536 (ps.map (fun x => (x.2.2.period, x.2.2.phase, pollNs v.reg ch x.2.2))) then [⟨3, x.1⟩] else [])

/-- Every content fault of an image (check 5). -/
def contentFaults (s : State) (b : List Byte) : List Place :=
  let raw := rawRegs b
  let itm := itripMax s
  let reg := imgReg itm raw
  let secs := directory b
  let at_ (sect : Nat) (l : List Nat) : List Place := l.map (fun o => ⟨sect, o⟩)
  secs.flatMap (fun d =>
    let scan := sectionScan b d
    at_ d.code scan.2.toList
      ++ (if imgFormat b = 6 ∧ (d.size < 8 ∨ rd b d.off 1 ≠ 1 ∨ rd b (d.off + 1) 7 ≠ 0) then [⟨d.code, d.off⟩] else [])
      ++ scan.1.flatMap (fun r => at_ d.code (if (recordBad d.code r).isEmpty then bodyBad raw reg d.code r ++ reactScope b r else recordBad d.code r)))
    ++ (settings b).flatMap (fun x => if settingBad itm raw x || jointBad reg raw x.addr then [⟨x.sect, x.off⟩] else [])
    ++ lineFindings b reg ++ templateDups [] (imgTemplates b)
    ++ ((mapFindings (imgView s b)).filter (fun f => !f.budget)).map (placeOf b)

/-- Every exceeded budget of an image (check 6). -/
def budgetFaults (s : State) (b : List Byte) : List Place :=
  let v := imgView s b
  ((budgetFindings v).filter (·.budget)).map (placeOf b)
    ++ (List.range 4).flatMap (fun k =>
      if bankOk v.reg k then []
      else match ((upFrom (8 * k) 8).filter (fun o => bit (v.reg (0x30000 + o * 0x10)) 28)).getLast? with
        | some o => [settingAt b (0x30000 + o * 0x10) 8]
        | none => [])
    ++ busFindings b v

/-- The first place: lowest section, then lowest offset (R399). -/
def firstPlace : List Place → Option Place
  | [] => none
  | p :: t =>
    match firstPlace t with
    | some q => some (if q.sect < p.sect ∨ (q.sect = p.sect ∧ q.off < p.off) then q else p)
    | none => some p

/-- Validation of an image (R398): checks 1 to 6 in order. -/
def validate (s : State) (b : List Byte) : Verdict :=
  match headVerdict b with
  | some v => v
  | none =>
    match crcVerdict b with
    | some v => v
    | none =>
      match firstPlace (contentFaults s b) with
      | some p => ⟨5, p.sect, p.off⟩
      | none =>
        match firstPlace (budgetFaults s b) with
        | some p => ⟨6, p.sect, p.off⟩
        | none => .pass

/-- CYC bytes per cycle of the published ranges under a light list (R95, R280): merged ranges, 1,194 entries a frame. -/
def chargeOfRange (count : Nat) : Nat :=
  let full := count / 1194
  let rest := count % 1194
  full * (8 + 8 * 1194 + 48) + (if rest = 0 then 0 else 8 + 8 * rest + 48)

end Sys2Proof.Machine
end

