-- ==== Sys2Proof/Machine/CheckValues.lean ====
section
/-! DEFINITION. The general check-value units, scrubbing and the verification of stored images (R355 to R357). -/

namespace Sys2Proof.Machine

open Sys2Proof

/-- Parameter set of a general unit (R348, R355, R358). -/
def cvSet (s : State) (u : Nat) : CrcParams :=
  let a := 0x100000 + u * 0x40
  let g (off : Nat) : Nat := csr s (a + off) + csr s (a + off + 4) * 2 ^ 32
  let c := csr s a
  ⟨bits c 0 7, g 4, g 0xC, bit c 7, bit c 8, g 0x14⟩

/-- Last value computed and expected value of a general unit (R358). -/
def cvNote (u result expect : Nat) (s : State) : State :=
  modCv (fun c => { c with
    results := sput 0 c.results u (BitVec.ofNat 64 result), expects := sput 0 c.expects u (BitVec.ofNat 64 expect) }) s

/-- CV0 shows the last check value that a validation computed (R355, R356): of the section that failed, else of the whole
image. -/
def cvNoteImage (b : List Byte) (v : Verdict) (s : State) : State :=
  if (headVerdict b).isSome then s
  else if v.cause = 3 then
    match dirOf b v.sect with
    | some d => cvNote 0 (crc32c (slice b d.off d.size)) d.crc s
    | none => s
  else cvNote 0 (crc32c (b.take (imgLength b - 4))) (imgCrc b) s

/-- Bytes of a scrub step: rule block 0 to 255, then engine table (R356). -/
def scrubBytes (s : State) (step : Nat) : List Byte :=
  if step < 256 then (upFrom (256 * step) 256).flatMap (fun i => sget (zeros 32) s.maps.rules i)
  else (List.range 16384).flatMap (fun i => leBytes 3 (sget 0 (engine s (step - 256)).table i).toNat)

/-- The unit that scrubs a step (R355): of the job table's last entry that names it; CV1 where none does (log entry 16). -/
def scrubUnit (s : State) (step : Nat) : Nat :=
  let jobs := ((records s.upd.inForce 11).filter (fun r => r.kind == 0x0B01)).flatMap (fun r => entries 8 0 r.body)
  let kind := if step < 256 then 0 else 1
  let n := if step < 256 then step else step - 256
  match (jobs.filter (fun e => rd e 1 1 == kind && decide (rd e 2 2 ≤ n) && decide (n < rd e 2 2 + rd e 4 2))).getLast? with
  | some e => rd e 0 1
  | none => 1

/-- SCRUB_STEP (R356, R357): once a period, the step in turn. The scrub of a step runs from the step before it (log entry 16).
The value that damaged content gives is a free value (log entry 5). -/
def scrubStep (good : Bool) (s : State) : State :=
  if !fieldLive s || fld s 0x103000 10 1 == 0 || decide (since s.cv.lastScrubUp s < fld s 0x103000 0 10 * 2000) then s
  else
    let step := s.cv.next
    let dropped := s.cv.abandoned
    let s := modCv (fun c => { c with next := (c.next + 1) % 288, lastScrubUp := s.time.up, abandoned := false }) s
    let s := onlyIf (step == 287) (bump 0x103010) s
    if dropped then s
    else
      let u := scrubUnit s step
      let want := crcCompute (cvSet s u) (scrubBytes s step)
      if good then cvNote u want want s
      else
        let r := draw s
        let s := cvNote u r.1 want r.2
        let s := detect 0x0903 {} (bump 0x103014 s)
        if step < 256 then modMaps (fun m => { m with badBlocks := m.badBlocks ++ [(step, m.cycle + 1)] }) s
        else engineReset (step - 256) s

/-- Blocks and tables are written (R357): the scrub of one among them is abandoned and counted; a rewritten rule block is good
again (R356). -/
def scrubTouch (steps : List Nat) (s : State) : State :=
  let s := modMaps (fun m => { m with badBlocks := m.badBlocks.filter (fun b => !steps.contains b.1) }) s
  if steps.contains s.cv.next ∧ !s.cv.abandoned ∧ fieldLive s ∧ fld s 0x103000 10 1 = 1 then
    modCv (fun c => { c with abandoned := true, restarts := min 0xFFFF (c.restarts + 1) }) s
  else s

/-- A stored image: 0 the active configuration, then slots A and B of components 0 to 3. None where the slot holds no image. -/
def storedCrc (s : State) (image : Nat) : Option Nat :=
  if image = 0 then (if (headVerdict s.upd.active).isSome then none else some (imgCrc s.upd.active))
  else
    match s.upd.comps[(image - 1) / 2]? with
    | some c =>
      let x := if (image - 1) % 2 = 0 then c.a else c.b
      if x.st = .empty ∨ x.st = .receiving then none else some x.crc.toNat
    | none => none

/-! ## Stored images -/

def comp (s : State) (c : Nat) : FwComp := (s.upd.comps[c]?).getD {}
def modComp (c : Nat) (f : FwComp → FwComp) (s : State) : State :=
  modUpd (fun u => { u with comps := setAt u.comps c (f ((u.comps[c]?).getD {})) }) s

/-- A mismatch of a stored firmware image sets its slot BAD (R436); image numbers as in `storedCrc`. -/
def slotBad (image : Nat) (s : State) : State :=
  if image = 0 then s
  else
    let c := (image - 1) / 2
    modComp c (fun x => if (image - 1) % 2 = 0 then { x with a := { x.a with st := .bad } } else { x with b := { x.b with st := .bad } }) s

/-- IMAGE_VERIFY (R356): one stored image every 60 s in RUN and ISOLATED. -/
def imageVerify (image : Nat) (good : Bool) (s : State) : State :=
  if !fieldLive s || decide (since s.cv.lastImageUp s < 120000000) then s
  else
    match storedCrc s image with
    | none => s
    | some want =>
      let s := modCv (fun c => { c with lastImageUp := s.time.up }) s
      if good then cvNote 0 want want s
      else
        let r := draw s
        slotBad image (detect 0x0902 {} (bump 0x103018 (cvNote 0 r.1 want r.2)))

end Sys2Proof.Machine
end

