-- ==== Sys2Proof/Machine/Power.lean ====
section
/-! DEFINITION. Outlets (R365 to R372), performance levels (R373 to R375) and junction temperature (R375). -/

namespace Sys2Proof.Machine

open Sys2Proof

/-! ## Outlet settings (R366, R384) -/

def outCfg (s : State) (o : Nat) : Nat := csr s (0x30000 + o * 0x10)
def outCfg1 (s : State) (o : Nat) : Nat := csr s (0x30004 + o * 0x10)
def outTrip (s : State) (o : Nat) : Nat := 100 + 25 * bits (outCfg s o) 0 6
/-- I_LIM of R366. -/
def outLimit (s : State) (o : Nat) : Nat := min (outTrip s o * 3 / 2) (if orderCode s = 2 then 1800 else 2400)
def outRetries (s : State) (o : Nat) : Nat := bits (outCfg s o) 24 3
def outEn (s : State) (o : Nat) : Bool := bit (outCfg s o) 28
def outAuto (s : State) (o : Nat) : Bool := bit (outCfg s o) 27
/-- Times in own ticks. -/
def outTflt (s : State) (o : Nat) : Nat := bits (outCfg s o) 8 7 * 1000
def outTstart (s : State) (o : Nat) : Nat := bits (outCfg s o) 16 8 * 2000
def outCool (s : State) (o : Nat) : Nat := bits (outCfg1 s o) 0 7 * 200000
def outForgive (s : State) (o : Nat) : Nat := bits (outCfg1 s o) 16 16 * 2000000

/-- The bank of an outlet lies below 16 V (R365). -/
def outUv (s : State) (o : Nat) : Bool := s.power.vfbLow.contains (o / 8)

/-- Outlets stand without supply for sleep or reset (R367, R372, R377). -/
def outsOff (s : State) : Bool := !fieldLive s && !(s.hub == .sleep && s.power.sleepLevel == 1)

/-- The FET of an outlet is on (R367). -/
def outDrives : OutSt → Bool
  | .starting => true
  | .on => true
  | .limit => true
  | _ => false

/-- Enter a state. With its FET off an outlet carries no current (R367). -/
def outTo (o : Nat) (st : OutSt) (s : State) : State :=
  modOutlet o (fun x => { x with
    st := st, sinceUp := s.time.up, okUp := s.time.up, waitCool := false, cooling := false, ma := if outDrives st then x.ma else 0 }) s

/-- Start an outlet that is commanded on (R368): once its FET is below 100 °C. -/
def outStart (o : Nat) (s : State) : State :=
  if (outlet s o).deciC < 1000 then outTo o .starting s else modOutlet o (fun x => { x with waitCool := true }) s

def outletEvent (o kind : Nat) (s : State) : State := emit 5 [BitVec.ofNat 8 o, BitVec.ofNat 8 kind] s

/-- An outlet is latched, shown or standing in SUPPLY_OFF (R365). -/
def outLatched (x : Outlet) : Bool := x.st == .latched || (x.st == .supplyOff && x.latched)

def anyLatched (s : State) : Bool := (List.range 32).any (fun o => outLatched (outlet s o))

/-- The latch of an outlet is released: the condition of OUT_LATCH ends with the last (R365, R371, R406). -/
def unlatch (o : Nat) (s : State) : State :=
  let s := modOutlet o (fun x => { x with latched := false }) s
  condEnd 0x0105 ((List.range 32).any (fun i => i != o && outLatched (outlet s i))) s

/-- A trip (R369). -/
def outTripNow (o : Nat) (s : State) : State :=
  let s := outletEvent o 0 (unitFault 0x0104 2 o (bump 0x30304 s))
  if (outlet s o).used < outRetries s o then outTo o .cooldown s
  else outletEvent o 2 (unitFault 0x0105 2 o (bump 0x30310 (modOutlet o (fun x => { x with latched := true }) (outTo o .latched s))))

/-- OUTLET_START_OK (R368). -/
def outletStartOk (o : Nat) (s : State) : State :=
  let x := outlet s o
  if x.st = .starting ∧ since x.okUp s ≥ 2000 then outTo o .on (modOutlet o (fun x => { x with ma := min x.ma (outTrip s o) }) s) else s

/-- OUTLET_OVERCURRENT (R368): the current of an outlet, which never exceeds I_LIM. In STARTING the 1 ms counts from the last instant at
which it stood above I_TRIP. -/
def outletOvercurrent (o ma : Nat) (s : State) : State :=
  let st := (outlet s o).st
  let high := decide (ma > outTrip s o)
  let was := decide ((outlet s o).ma > outTrip s o)
  let s := onlyIf (outDrives st) (modOutlet o (fun x => { x with ma := min ma (outLimit s o) })) s
  match st with
  | .starting => onlyIf (high || was) (modOutlet o (fun x => { x with okUp := s.time.up })) s
  | .on => if high then bump 0x30300 (outTo o .limit s) else s
  | .limit => if high then s else outTo o .on s
  | _ => s

/-- T_FLT_EXPIRY (R368). -/
def tFltExpiry (o : Nat) (s : State) : State :=
  if (outlet s o).st = .limit ∧ since (outlet s o).sinceUp s ≥ outTflt s o then outTripNow o s else s

/-- T_START_EXPIRY (R368): t_START is over; that the current stands above I_TRIP is what the event says. -/
def tStartExpiry (o : Nat) (s : State) : State :=
  if (outlet s o).st = .starting ∧ since (outlet s o).sinceUp s ≥ outTstart s o then outTripNow o s else s

/-- A retry starts (R369): STARTING, USED up by 1, counted, reported. -/
def outRetry (o : Nat) (s : State) : State :=
  outletEvent o 1 (bump 0x3030C (modOutlet o (fun x => { x with used := x.used + 1 }) (outTo o .starting s)))

/-- OUTLET_TEMP_TRIP (R368): the FET temperature of an outlet; above 150 °C it trips. A start that waits for the FET goes on
once it is below 100 °C. -/
def outletTempTrip (o : Nat) (deciC : Int) (s : State) : State :=
  let s := modOutlet o (fun x => { x with deciC := deciC }) s
  let x := outlet s o
  match x.st with
  | .starting => if deciC > 1500 then outTripNow o (bump 0x30308 s) else s
  | .on => if deciC > 1500 then outTripNow o (bump 0x30308 s) else s
  | .limit => if deciC > 1500 then outTripNow o (bump 0x30308 s) else s
  | _ => if x.waitCool && x.cmd && !outUv s o && !outsOff s then outStart o s else s

/-- COOLDOWN_END (R369): the later of the cool-down's end and the FET below 100 °C. -/
def cooldownEnd (o : Nat) (s : State) : State :=
  let x := outlet s o
  if x.st = .cooldown ∧ since x.sinceUp s ≥ outCool s o ∧ x.deciC < 1000 then outRetry o s else s

/-- T_FORGIVE_EXPIRY (R370). -/
def tForgiveExpiry (o : Nat) (s : State) : State :=
  let x := outlet s o
  if x.st = .on ∧ since x.sinceUp s ≥ outForgive s o ∧ x.used > 0 then
    outletEvent o 3 (bump 0x30314 (modOutlet o (fun x => { x with used := 0 }) s))
  else s

/-- An outlet loses its supply (R365): no trip, no retry; what it stood in stays known. -/
def outSupplyOff (o : Nat) (s : State) : State :=
  modOutlet o (fun x => { x with
    latched := x.latched || x.st == .latched
    cooling := x.cooling || x.st == .cooldown
    sinceUp := if x.st = .cooldown ∨ x.cooling then x.sinceUp else s.time.up
    waitCool := false, ma := 0, st := .supplyOff }) s

/-- An outlet has its supply again (R365, R371, R372): latched, restarted by its command, or OFF. A retry that fell due
meanwhile is one now. -/
def outSupplyOn (o : Nat) (s : State) : State :=
  let x := outlet s o
  if x.st ≠ .supplyOff then s
  else if x.latched then outTo o .latched s
  else if x.cmd then
    if x.cooling ∧ since x.sinceUp s ≥ outCool s o ∧ x.deciC < 1000 then outRetry o s else outStart o s
  else outTo o .off s

/-- VFB_UV (R365): the voltage of a bank's supply, with its hysteresis-free limit of 16 V. -/
def vfbUv (b mv : Nat) (s : State) : State :=
  let s := modPower (fun p => { p with vfbMv := sput 24000 p.vfbMv b mv }) s
  let low := s.power.vfbLow.contains b
  if mv < 16000 ∧ !low then
    forEach (upFrom (8 * b) 8) outSupplyOff (unitFault 0x0102 4 b (modPower (fun p => { p with vfbLow := b :: p.vfbLow }) s))
  else if mv ≥ 16000 ∧ low then
    let s := modPower (fun p => { p with vfbLow := p.vfbLow.filter (fun x => x != b) }) s
    let s := condEnd 0x0102 (!s.power.vfbLow.isEmpty) s
    if outsOff s then s else forEach (upFrom (8 * b) 8) outSupplyOn s
  else s

/-- OUT_SET (R371). -/
def outSet (o : Nat) (on : Bool) (s : State) : Status × State :=
  let x := outlet s o
  if !on then
    let s := unlatch o (modOutlet o (fun x => { x with cmd := false, cooling := false, waitCool := false }) s)
    (.ok, if x.st = .supplyOff then s else outTo o .off s)
  else if !outEn s o || outLatched x then (.denied, s)
  else
    let s := modOutlet o (fun x => { x with cmd := true }) s
    (.ok, if x.st = .off then outStart o s else s)

/-- OUT_CLEAR (R371): the retries used before, and the state after. -/
def outClear (o : Nat) (s : State) : Nat × State :=
  let x := outlet s o
  let s := modOutlet o (fun x => { x with used := 0 }) s
  if outLatched x then
    let s := unlatch o s
    (x.used, if x.st = .supplyOff then s else if x.cmd then outStart o s else outTo o .off s)
  else (x.used, s)

/-- Every outlet off without a trip, into SUPPLY_OFF (R372, R377). -/
def outletsOff (s : State) : State := forEach (List.range 32) outSupplyOff s

/-- Outlets follow their commands again (R372, R379), where their bank has its supply. -/
def outletsResume (s : State) : State :=
  forEach (List.range 32) (fun o s => if outUv s o then s else outSupplyOn o s) s

/-- Outlets as a configuration takes effect (R371, R372): AUTO_ON commands on, an outlet no longer configured is off. -/
def outletsActivate (s : State) : State :=
  outletsResume (forEach (List.range 32) (fun o s =>
    if !outEn s o then (if (outlet s o).st = .supplyOff then unlatch o (modOutlet o (fun x => { x with cmd := false, cooling := false }) s)
                        else (outSet o false s).2)
    else if outAuto s o then (outSet o true s).2 else s) s)

/-! ## Performance levels (R373 to R375) -/

/-- A transition to a level begins (R374, R375): down switches the clocks first, up the core voltage. -/
def plBegin (level : Nat) (s : State) : State :=
  modPower (fun p => { p with plTarget := some level, plClocks := false, plVcore := false, plUp := s.time.up }) s

/-- PL_TRANSITION_STEP (R374): a step out of its order does not occur. The level in force is that of the clocks. -/
def plStep (st : PlStep) (s : State) : State :=
  match s.power.plTarget with
  | none => s
  | some t =>
    let down : Bool := decide (t > s.power.level) || s.power.plClocks
    match st with
    | .clocks =>
      if !s.power.plClocks && (down || s.power.plVcore) then
        bump 0x20100 (modPower (fun p => { p with level := t, plClocks := true }) s)
      else s
    | .vcore =>
      if !s.power.plVcore && (!down || s.power.plClocks) then bump 0x20100 (modPower (fun p => { p with plVcore := true }) s) else s

/-- JUNCTION_TEMP_HIGH (R375): the hottest junction; the warning limit, cleared 5 K below it. -/
def junctionTempHigh (deciC : Int) (s : State) : State :=
  let s := modPower (fun p => { p with junctionDeciC := deciC }) s
  let lim : Int := if orderCode s = 2 then 1200 else 1100
  if deciC ≥ lim ∧ !s.power.tjHigh then detect 0x0103 {} (modPower (fun p => { p with tjHigh := true }) s)
  else if deciC ≤ lim - 50 ∧ s.power.tjHigh then condEnd 0x0103 false (modPower (fun p => { p with tjHigh := false }) s)
  else s

end Sys2Proof.Machine
end

