-- ==== Sys2Proof/Machine/Time.lean ====
section
/-! DEFINITION. Ring time (R151 to R159, R466), peer delay (R160 to R163), stamps (R165), SYNC_IN and SYNC_OUT (R166 to R168),
the ring master and its backup (R142 to R147), and the frame that an output sends (R110, R158). -/

namespace Sys2Proof.Machine

open Sys2Proof

/-! ## Times in 2^−16 ns -/

/-- Ring time as one number of 2^−16 ns (R151). -/
def ringFine (s : State) : Nat := ringNs s * 65536 + s.time.frac

/-- Set the ring-time counter (R151, R153). -/
def setRing (fine : Nat) (t : TimeState) : TimeState :=
  { t with
    seconds := fine / 65536 / 1000000000 % 2 ^ 48
    ns := fine / 65536 % 1000000000
    frac := fine % 65536 }

/-- Tick of one millisecond and more. -/
def msTicks (n : Nat) : Nat := n * 2000

/-! ## Peer delay (R160, R161, R163) -/

/-- Mean of the accepted measurements, whole units of 2^−16 ns. -/
def pdMean (d : PeerDelay) : Nat := if d.samples.isEmpty then 0 else d.samples.sum / d.samples.length

/-- The peer delay is valid (R161). -/
def pdValid (s : State) (p : Port) : Bool := isUp s p && decide ((portSt s p).pd.accepted ≥ 4)

/-- Delay of frames arriving on the port: the mean plus half the asymmetry (R163). -/
def pdIn (s : State) (p : Port) : Int :=
  pdMean (portSt s p).pd + toSigned 32 (csr s (match p with | .east => 0x40038 | .west => 0x4003C)) * 65536 / 2000

def modPd (p : Port) (f : PeerDelay → PeerDelay) (s : State) : State := modPort p (fun q => { q with pd := f q.pd }) s

/-- PDELAY_REQ_SEND (R160): every 1 ms on a span that is UP. `mac` is the transmit stamp of the MAC (R162). -/
def pdelayReqSend (p : Port) (mac : Nat) (s : State) : State :=
  let d := (portSt s p).pd
  if isUp s p ∧ (d.sentUp = 0 ∨ since d.sentUp s ≥ 2000) then
    let q := d.seq + 1
    sendLocal p ([3, BitVec.ofNat 8 (portNo p)] ++ leBytes 2 q.toNat ++ zeros 4)
      (modPd p (fun d => { d with seq := q, t1 := some (txStamp s p mac), sentUp := s.time.up }) s)
  else s

/-- PDELAY_REQ_RX (R160): answered at once; `mac` is the MAC's transmit stamp of the answer (R162). -/
def pdelayReqRx (mac : Nat) (s : State) : State :=
  takeCtl 3 8 (fun f s =>
    let p := ingressPort f
    let res := txStamp s p mac - f.rxTime
    let res := if (portSt s p).rev = 2 then res / 65536 * 65536 else res
    sendLocal p ([4, BitVec.ofNat 8 (portNo p)] ++ slice f.payload 2 2 ++ zeros 4 ++ leBytes 8 res) s) s

/-- A measurement meets the filter (R161). -/
def pdFilter (p : Port) (m : Nat) (s : State) : State :=
  let d := (portSt s p).pd
  let cur := pdMean d
  if d.samples.isEmpty ∨ (m ≤ cur + 20 * 65536 ∧ cur ≤ m + 20 * 65536) then
    modPd p (fun d => { d with samples := (d.samples ++ [m]).drop (d.samples.length + 1 - 16), accepted := d.accepted + 1, outliers := 0 }) s
  else
    let s := bump (match p with | .east => 0x40108 | .west => 0x4010C) s
    if d.outliers + 1 ≥ 8 then modPd p (fun d => { d with samples := [], accepted := 0, outliers := 0 }) s
    else modPd p (fun d => { d with outliers := d.outliers + 1 }) s

/-- PDELAY_RSP_RX (R160, R161): a response with another SEQ or after 100 µs is no measurement. -/
def pdelayRspRx (s : State) : State :=
  takeCtl 4 16 (fun f s =>
    let p := ingressPort f
    let d := (portSt s p).pd
    match d.t1 with
    | some t1 =>
      if rd f.payload 2 2 = d.seq.toNat ∧ since d.sentUp s ≤ 200 then
        pdFilter p (((f.rxTime - t1) - rd f.payload 8 8) / 2) (modPd p (fun d => { d with t1 := none }) s)
      else s
    | none => s) s

/-- PDELAY_RSP_TIMEOUT (R160). -/
def pdelayRspTimeout (p : Port) (s : State) : State :=
  let d := (portSt s p).pd
  if d.t1.isSome ∧ since d.sentUp s ≥ 200 then modPd p (fun d => { d with t1 := none }) s else s

/-! ## Beacons (R153 to R159) -/

/-- The sender is one whose beacons this hub takes (R144). -/
def senderAllowed (s : State) (src flags : Nat) : Bool :=
  match s.ring.light with
  | none => true
  | some l => src == l.master.toNat || (src == l.backup.toNat && bit flags 2)

/-- A neighbour's TRAIN shows the node as ring master (R84, R144). -/
def trainMaster (s : State) (n : Nat) : Bool :=
  [Port.east, Port.west].any (fun p => (portSt s p).peerNode == n && (portSt s p).peerMasterInit)

/-- A beacon that overrides the one followed (R144): the sender is the configured master, as its TRAIN or the BACKUP flag shows (R157), and
the one followed is not (log entry 94). -/
def overrides (s : State) (src flags : Nat) : Bool :=
  s.ring.beaconSrc != src && ((s.time.lastBackup && !bit flags 2) || (trainMaster s src && !trainMaster s s.ring.beaconSrc))

/-- The acting backup meets a beacon of the master it stands in for: it follows that one (R144). -/
def yieldsTo (s : State) (src flags : Nat) : Bool :=
  s.master.role == 3 && !bit flags 2
    && (trainMaster s src || (match s.master.saved.light with | some l => l.master.toNat == src | none => false))

/-- SOURCE of TIME_STAT (R175). -/
def sourceOf (p : Port) : Nat := match p with | .east => 1 | .west => 2

/-- Offset in 2^−16 ns judged for lock (R153). -/
def judgeOffset (off : Int) (s : State) : State :=
  let a := off.natAbs
  if a ≤ 100 * 65536 then
    let s := modTime (fun t => { t with good := t.good + 1 }) s
    if s.time.good ≥ 3 ∧ !s.time.locked then condEnd 0x0401 false (modTime (fun t => { t with locked := true }) s) else s
  else
    let s := modTime (fun t => { t with good := 0 }) s
    if a > 1000 * 65536 ∧ s.time.locked then detect 0x0401 {} (modTime (fun t => { t with locked := false }) s) else s

/-- The rate that the hub's control takes after an offset: within ±200 ppm, lower where the hub is ahead, higher where it is behind; how
far the spec leaves open (R152, R159; log entry 5). -/
def newRate (off : Int) (s : State) : Int × State :=
  let r := draw s
  let lim : Int := 200000000
  let lo : Int := if off < 0 then min lim (s.time.rate + 1) else -lim
  let hi : Int := if off > 0 then max (-lim) (s.time.rate - 1) else lim
  (lo + (r.1 % ((hi - lo).toNat + 1) : Nat), r.2)

/-- The mean of the last 16 accepted adjustments (R154). -/
def meanRate (t : TimeState) : Int := if t.rates.isEmpty then t.rate else t.rates.sum / (t.rates.length : Int)

/-- Steer by an offset (R152): the new rate is an accepted adjustment. -/
def steer (off : Int) (s : State) : State :=
  let r := newRate off s
  modTime (fun t => { t with rate := r.1, rates := (t.rates ++ [r.1]).drop (t.rates.length + 1 - 16) }) r.2

/-- An accepted beacon sets or steers ring time (R153, R155, R159, R466). A hub without ring time makes the initial step, one in ISOLATED
removes an offset above 1 µs by a step (log entry 95). -/
def acceptBeacon (f : Frame) (s : State) : State :=
  let b := f.payload
  let p := ingressPort f
  let origin : Int := ((rd b 8 6 * 1000000000 + rd b 16 4) * 65536 + rd b 14 2 : Nat)
  let ref := origin + toSigned 64 (rd b 20 8) + pdIn s p
  let off : Int := (f.rxTime : Int) - ref
  let n := rd b 4 4
  let s := condEnd 0x0303 false s
  let s := modTime (fun t => { t with
    lastBeacon := some f.cycle, accepted := f.cycle :: t.accepted, lastBeaconUp := t.up, missed := 0, holdover := false, source := sourceOf p
    lastRef := ref.toNat / 65536, lastRate := toSigned 32 (rd b 36 4), lastBackup := bit (rd b 1 1) 2
    label := BitVec.ofNat 64 (rd b 28 8) }) s
  let s := modRing (fun r => { r with beaconSrc := f.src }) s
  let s := modMaster (fun m => { m with
    lostUp := none, firstBeacon := if m.stopped then some (m.firstBeacon.getD f.cycle) else m.firstBeacon }) s
  let s := if s.ring.light.isNone then modMaps (fun m => { m with n := if 0 < n then n else m.n }) s else s
  if !s.time.holds then
    modTime (fun t => { setRing ref.toNat t with holds := true, offset := 0, good := 0, locked := false }) s
  else if (s.hub = .isolated ∨ (s.hub = .sleep ∧ s.power.sleepLevel = 2)) ∧ off.natAbs > 1000 * 65536 then
    modTime (fun t => { setRing ref.toNat t with offset := off, good := 0, stepped := true }) s
  else judgeOffset off (steer off (modTime (fun t => { t with offset := off }) s))

/-- BEACON_RX (R144, R159). The copy that goes on was admitted to its output with the frame; R158 acts as it leaves. -/
def beaconRx (s : State) : State :=
  takeCtl 2 40 (fun f s =>
    let b := f.payload
    let flags := rd b 1 1
    let n := rd b 4 4
    let origin := rd b 8 6 * 1000000000 + rd b 16 4
    let start := f.cycle * n * 500
    let nOk : Bool := match s.ring.light with | some l => n == l.n.toNat | none => n != 0
    let yields := yieldsTo s f.src flags
    let outranks : Bool := overrides s f.src flags && (s.time.lastBeacon == some f.cycle)
    if isMaster s && !yields then bump 0x50654 s
    else if !yields && !outranks && !senderAllowed s f.src flags && !(f.src == s.ring.beaconSrc && !s.time.lastBackup && s.time.lastBeacon.isSome) then
      bump 0x50654 s
    else if s.time.accepted.contains f.cycle && !outranks && !yields then bump 0x40110 s
    else if nOk ∧ start ≤ origin ∧ origin ≤ start + 4000 ∧ pdValid s (ingressPort f) then
      acceptBeacon f (if yields then ringEvent 4 0 f.src (modMaster (fun m => { m with role := 2, handBackAt := none, returned := false }) s) else s)
    else bump 0x40114 s) s

/-- HOLDOVER_ENTRY (R154): the rate freezes at the mean of the last 16 accepted adjustments. -/
def holdoverEntry (s : State) : State :=
  if s.time.missed ≥ 3 ∧ since s.time.lastBeaconUp s ≥ 2000 ∧ !isMaster s ∧ s.time.holds ∧ !s.time.holdover then
    modTime (fun t => { t with holdover := true, rate := meanRate t }) s
  else s

/-- BEACON_LOST (R147). -/
def beaconLost (s : State) : State :=
  if s.time.missed ≥ 3 ∧ since s.time.lastBeaconUp s ≥ 2000 ∧ !isMaster s ∧ (faultSrc s 0x0303).st ≠ .active then detect 0x0303 {} s else s

/-- BOOT_BEACON_TIMEOUT (R396): no beacon within 2 s of the first span UP. -/
def bootBeaconTimeout (s : State) : State :=
  match s.time.firstUpUp with
  | some t => if s.hub = .boot ∧ s.time.lastBeacon = none ∧ since t s ≥ 4000000 ∧ (faultSrc s 0x0303).st ≠ .active then detect 0x0303 {} s else s
  | none => s

/-! ## The master function (R143, R145, R146, R156, R157) -/

/-- EPOCH_LABEL of the ring section (R157, R439). -/
def epochLabel (s : State) : Nat := match ringParams s.upd.inForce with | some (_, _, e) => e | none => 0

/-- BEACON payload before its origin time is inserted (R157). -/
def beaconPayload (s : State) : List Byte :=
  [2, BitVec.ofNat 8 (b2n s.time.ppsLock + 2 * b2n (!s.time.ppsLock) + 4 * b2n (s.master.role == 3)), 0, 0] ++ leBytes 4 s.maps.n
    ++ zeros 20 ++ leBytes 8 (if s.master.role = 3 then s.master.saved.epoch.toNat else epochLabel s) ++ leBytes 4 (ofSigned 32 s.time.rate)

/-- The master offers the beacon of cycle `k` to both ring outputs (R156). -/
def sendBeacon (k : Nat) (s : State) : State := sendCtl 255 0 k true (beaconPayload s) (sendCtl 255 0 k false (beaconPayload s) s)

/-- The light list that a master starts with: planned entries, and itself present (R91, R439). -/
def startList (s : State) : LightList :=
  let img := s.upd.inForce
  let (n, bk) := match ringParams img with | some (n, b, _) => (n, b) | none => (s.maps.n, 0)
  let me := fld s 0x50400 0 8
  let mine : LightEntry :=
    { node := me, flags := BitVec.ofNat 8 (1 + 2 * b2n ((plans img).any (fun p => p.node == me)) + 16 * fld s 0x50400 8 1), state := BitVec.ofNat 8 (hubNo s.hub)
      role := 1, uid := myUid s, east := BitVec.ofNat 8 (spanNo (portSt s .east).span + 16 * (portSt s .east).rev)
      west := BitVec.ofNat 8 (spanNo (portSt s .west).span + 16 * (portSt s .west).rev)
      eastPeer := BitVec.ofNat 8 (neighbour s .east), westPeer := BitVec.ofNat 8 (neighbour s .west)
      code := BitVec.ofNat 8 (orderCode s), step := BitVec.ofNat 8 (myStep s), cfgCrc := BitVec.ofNat 32 (imgCrc img)
      members := memberBytes (membership s), grant := BitVec.ofNat 32 (min s.ring.charge (1250 * n)) }
  let absent := (plans img).map (fun p =>
    { node := p.node, flags := BitVec.ofNat 8 (2 + 16 * b2n p.capable), state := 0, role := if p.node = bk then 2 else 0
      uid := BitVec.ofNat 64 p.uid, east := 0, west := 0, eastPeer := BitVec.ofNat 8 p.east, westPeer := BitVec.ofNat 8 p.west
      code := 0, step := 0, cfgCrc := 0, members := 1 :: zeros 31, grant := 0 : LightEntry })
  { gen := 0, master := BitVec.ofNat 8 me, backup := BitVec.ofNat 8 bk, ringId := BitVec.ofNat 32 (ringId s), flags := 0, n := BitVec.ofNat 32 n
    effective := 0, cycUsed := 0, cycLimit := BitVec.ofNat 32 (1250 * n)
    entries := absent.foldl (fun l e => if e.node = me then l else putEntry e l) [mine] }

/-- MASTER_INIT: this hub is the configured ring master (R99). -/
def masterInit (s : State) : Bool := fld s 0x50400 9 1 == 1

/-- The number under which a returning hub stands as backup in the list that its MRAM holds (R142, R147). -/
def savedBackup (s : State) : Option Nat :=
  match s.master.saved.light with
  | some l => (l.entries.find? (fun e => e.uid == myUid s && e.node == l.backup.toNat)).map (·.node)
  | none => none

/-- Which of the two takes the role where nobody sends beacons: the backup on standby, or, returned and with a span up that brings it
no beacon, the configured master or the backup of the saved list (R143, R147; log entry 96). -/
def standsBy (s : State) : Bool :=
  s.master.role == 2 || (s.master.role == 0 && (masterInit s || (savedBackup s).isSome) && !noSpanUp s
    && (match s.time.firstUpUp with | some t => decide (since t s ≥ 2000) | none => false))

/-- MASTER_LOST (R143, R147): no beacon for three boundaries and 1 ms, or both neighbours of the master report their spans to it DOWN. -/
def masterLost (s : State) : State :=
  let both : Bool := s.master.role == 2 && match s.ring.light with
    | some l => match l.entries.find? (fun e => e.node == l.master.toNat) with
      | some e => s.ring.spanDown.contains (e.eastPeer.toNat, e.node) && s.ring.spanDown.contains (e.westPeer.toNat, e.node)
      | none => false
    | none => false
  if standsBy s ∧ s.master.lostUp = none ∧ ((s.time.missed ≥ 3 ∧ since s.time.lastBeaconUp s ≥ 2000) ∨ both) then
    onlyIf (!(masterInit s && s.master.role == 0)) (detect 0x0301 {}) (modMaster (fun m => { m with lostUp := some s.time.up }) s)
  else s

/-- Ring time as the master function starts (R143, R154, R466): held from now on, where it was not held from the saved time; the configured
master runs with adjustment 0, the backup as in holdover or at the saved rate. -/
def masterTime (configured : Bool) (s : State) : State :=
  let v := s.master.saved
  modTime (fun t =>
    let t := if t.holds then t else { setRing (if configured then ringNs s * 65536 else v.time * 65536) t with rate := v.rate }
    { t with holds := true, locked := true, rate := if configured then 0 else t.rate, source := if t.ppsLock then 4 else 3 }) s

/-- The master function starts on the configured master (R147, R466): its number taken, a first generation distributed. -/
def startMaster (s : State) : State :=
  let s := masterTime true s
  let me := fld s 0x50400 0 8
  let s := modMaster (fun m => { m with role := 1, stopped := false, proof := false }) s
  let s := modRing (fun r => { r with node := me, grant := r.charge, light := r.light.orElse (fun _ => some (startList s)) }) s
  newGeneration (fun l => { l with master := BitVec.ofNat 8 me }) s

/-- The master function starts on the backup (R143), with the saved list, number and N where it holds none. -/
def startBackup (s : State) : State :=
  let v := s.master.saved
  let s := masterTime false (modMaster (fun m => { m with role := 3, returned := false }) s)
  let s := onlyIf s.ring.light.isNone (modMaps (fun m => { m with n := if v.n = 0 then m.n else v.n })) s
  let s := modRing (fun r => { r with
    node := if r.node = 0 then (savedBackup s).getD 0 else r.node, light := r.light.orElse (fun _ => v.light) }) s
  let me := s.ring.node
  let s := ringEvent 4 0 me (bump 0x50650 s)
  newGeneration (fun l => { l with
    master := BitVec.ofNat 8 me
    entries := l.entries.map (fun e => { e with role := if e.node = me then 1 else if e.node = l.master.toNat then 0 else e.role }) }) s

/-- MASTER_TAKEOVER (R143): after the declaration the master function starts; the first beacon follows at the next cycle boundary. -/
def masterTakeover (s : State) : State :=
  if s.master.lostUp.isNone then s
  else if s.master.role = 0 ∧ masterInit s then startMaster s
  else if s.master.role = 2 ∨ (s.master.role = 0 ∧ (savedBackup s).isSome) then
    -- the list that it stands in for is the saved one from now on (R145)
    startBackup (onlyIf s.ring.light.isSome (modMaster (fun m => { m with saved := { m.saved with light := s.ring.light } })) s)
  else s

/-- The first beacon of a take-over: its duration from the declaration (R143), and its cycle (R146). -/
def noteTakeover (k : Nat) (s : State) : State :=
  match s.master.lostUp with
  | some t =>
    if s.master.role = 1 ∨ s.master.role = 3 then
      modMaster (fun m => { m with lostUp := none, takeoverMs := min 0xFFFF (since t s / 2000), firstBeacon := some k }) s
    else s
  | none => s

/-- The backup gives the role back at its cycle (R145): a generation that names another master is in force. -/
def yieldRole (s : State) : State :=
  match s.master.handBackAt, s.ring.light with
  | some k, some l =>
    if s.master.role = 3 ∧ k ≤ cycleNow s ∧ l.master.toNat ≠ s.ring.node then
      ringEvent 4 0 l.master.toNat (modMaster (fun m => { m with role := 2, handBackAt := none, returned := false, firstBeacon := none }) s)
    else s
  | _, _ => s

/-- The list in force gives this hub the role, and it does not act yet (R145). -/
def regains (s : State) : Bool :=
  match s.ring.light with
  | some l => l.master.toNat == s.ring.node && numbered s && s.time.locked
      && (s.master.role == 0 || (s.master.stopped && s.master.firstBeacon.isSome))
  | none => false

/-- The returned master takes the role (R145): a generation in force gives it MASTER. -/
def regainRole (s : State) : State :=
  if regains s then
    ringEvent 4 0 s.ring.node (masterTime true (modMaster (fun m => { m with role := 1, stopped := false, proof := false, firstBeacon := none }) s))
  else s

/-- A proof take-over has lasted its cycles from the backup's first beacon: the master joins again (R145, R146). -/
def proofOver (k : Nat) (s : State) : State :=
  match s.master.firstBeacon with
  | some f => if s.master.proof ∧ s.master.stopped ∧ k = f + s.master.proofCycles then sendJoin s else s
  | none => s

/-- MASTER_HAND_BACK (R145). The acting backup, once the old master has joined again, is locked to ring time and holds the list in force
(`ready`; log entry 97), publishes the generation that gives MASTER back, effective two cycles on. At that cycle it stops, and the returned
master sends the beacon, where the boundary has not brought that already. -/
def masterHandBack (ready : Bool) (s : State) : State :=
  if s.master.role = 3 then
    match s.master.handBackAt with
    | some _ => yieldRole s
    | none =>
      match s.master.saved.light with
      | some old =>
        if ready && s.master.returned && (newestLight s).any (fun l => l.entries.any (fun e => e.node == old.master.toNat && entryPresent e)) then
          let k := cycleNow s + 2
          newGenerationAt k (fun l => { l with
            master := old.master
            entries := l.entries.map (fun e => { e with role := if e.node = old.master.toNat then 1 else if e.node = s.ring.node then 2 else 0 }) })
            (modMaster (fun m => { m with handBackAt := some k }) s)
        else s
      | none => s
  else if regains s then sendBeacon (cycleNow s) (regainRole s)
  else s

/-- PROOF_FAIL (R146): no backup beacon by the first boundary at least three cycles and 20 ms after T_k. -/
def proofFail (s : State) : State :=
  if s.master.proof ∧ s.master.stopped ∧ cycleNow s ≥ s.master.proofStartCycle + 3 ∧ since s.master.proofUp s ≥ 40000
      ∧ since s.time.lastBeaconUp s ≥ since s.master.proofUp s then
    let s := setFld 0x50614 3 1 1 (modMaster (fun m => { m with stopped := false, proof := false, firstBeacon := none }) s)
    sendBeacon (cycleNow s) (detect 0x0302 {} s)
  else s

/-! ## What an output sends (R110, R112, R156, R158, R165) -/

/-- The origin time enters a beacon of this hub (R156); a forwarded beacon gains its share of CORRECTION (R158). -/
def beaconOut (txTime : Nat) (f : Frame) (s : State) : Frame :=
  if f.cls = 4 ∧ rd f.payload 0 1 = 2 ∧ f.payload.length = 40 then
    if f.ingress = .local then
      let ns := txTime / 65536
      { f with payload := overwrite (overwrite (overwrite f.payload 8 (leBytes 6 (ns / 1000000000))) 14 (leBytes 2 (txTime % 65536))) 16 (leBytes 4 (ns % 1000000000)) }
    else if pdValid s (ingressPort f) then
      let c := toSigned 64 (rd f.payload 20 8) + pdIn s (ingressPort f) + ((txTime : Int) - f.rxTime)
      { f with payload := overwrite f.payload 20 (leBytes 8 (ofSigned 64 c)) }
    else f
  else f

/-- A transmit stamp of a frame that this hub originates (R165). -/
def stampOut (p : Port) (txTime : Nat) (f : Frame) (s : State) : State :=
  if f.ingress = .local ∧ f.stampId ≠ 0 then
    match p with
    | .east =>
      if s.time.stampsEast.length < 16 then modTime (fun t => { t with stampsEast := t.stampsEast ++ [(f.stampId, txTime / 65536)] }) s
      else modTime (fun t => { t with lostEast := t.lostEast + 1 }) (setFld 0x40060 16 1 1 (bump 0x40100 s))
    | .west =>
      if s.time.stampsWest.length < 16 then modTime (fun t => { t with stampsWest := t.stampsWest ++ [(f.stampId, txTime / 65536)] }) s
      else modTime (fun t => { t with lostWest := t.lostWest + 1 }) (setFld 0x40060 17 1 1 (bump 0x40104 s))
  else s

/-- The frame leaves by the port. `mac` is the transmit stamp of the MAC (R162). -/
def sendFrame (p : Port) (c : Nat) (mac : Nat) (s : State) : State :=
  match queueOf s (outOf p) c with
  | f :: _ =>
    let g := beaconOut (txStamp s p mac) f s
    let g := if (portSt s p).rev = 2 then { g with stampId := 0 } else g
    modSw (fun w => { w with wire := sins w.wire (portNo p) g }) (stampOut p (txStamp s p mac) f (dequeue (outOf p) c s))
  | [] => s

/-- The output is still sending a frame whose rest has not arrived (R111, R113). -/
def busyOut (p : Port) (s : State) : Bool := match slook s.sw.wire (portNo p) with | some f => f.arriving.isSome | none => false

/-- OUTPUT_FRAME_SEND (R110): a ring output whose span is UP sends the frame it chooses; while training, TRAIN frames only
(R72). LOCAL and PCIE are emptied by their consumers. -/
def outputFrameSend (o : Output) (mac : Nat) (s : State) : State :=
  let onPort (p : Port) : State :=
    if busyOut p s then s
    else if isUp s p then
      match pickClass o s with
      | some (c, s) => sendFrame p c mac s
      | none => s
    else if trains (portSt s p).span then
      match queueOf s o 4 with
      | f :: _ => if f.dst = 0 ∧ rd f.payload 0 1 = 1 then sendFrame p 4 mac s else s
      | [] => s
    else s
  match o with
  | .east => onPort .east
  | .west => onPort .west
  | _ => s

/-! ## SYNC_IN, SYNC_OUT, snapshots (R166 to R168, R175) -/

/-- SYNC_IN_EDGE (R166, R167). -/
def syncInEdge (ns : Nat) (s : State) : State :=
  let s := modTime (fun t => { t with syncIn := ns }) s
  if isMaster s ∧ fld s 0x40000 0 1 = 1 then
    match s.time.syncInAccepted with
    | none => modTime (fun t => { t with syncInAccepted := some ns, syncInGood := 1 }) s
    | some prev =>
      let d := ns - prev
      if 999900000 ≤ d ∧ d ≤ 1000100000 then
        let s := modTime (fun t => { t with syncInAccepted := some ns, syncInGood := t.syncInGood + 1 }) s
        if s.time.syncInGood ≥ 3 then
          let ph : Int := ns % 1000000000
          let s := steer ((if ph < 500000000 then ph else ph - 1000000000) * 65536) s
          condEnd 0x0402 false (modTime (fun t => { t with ppsLock := true, holdover := false, source := 4 }) s)
        else s
      else bump 0x40118 (modTime (fun t => { t with syncInGood := 0, syncInAccepted := if d > 2000100000 then some ns else some prev }) s)
  else s

/-- PPS_LOST (R166): two edges missing, 2 s and 100 µs after the last accepted one; the master goes on at the mean of its last adjustments
(R154). -/
def ppsLost (s : State) : State :=
  match s.time.syncInAccepted with
  | some prev =>
    if s.time.ppsLock ∧ ringNs s ≥ prev + 2000100000 then
      detect 0x0402 {} (modTime (fun t => { t with
        ppsLock := false, syncInGood := 0, syncInAccepted := none, source := 3, holdover := true, rate := meanRate t }) s)
    else s
  | none => s

/-- SYNC_OUT settings that R168 allows. -/
def syncSettings (period width : Nat) : Bool :=
  (period == 0 || decide (1000 ≤ period)) && decide (20 ≤ width) && (period == 0 || decide (width + 20 ≤ period))
    && period % 5 == 0 && width % 5 == 0

/-- The first edge that SYNC_OUT will drive: FIRST on the 5 ns grid, or for a periodic output in the past the first one at
least 20 µs ahead; none for a single pulse in the past (R168). -/
def syncFirst (s : State) (first period : Nat) : Option Nat :=
  let g := ceilDiv first 5 * 5
  if nsNow s ≤ g then some g
  else if period = 0 then none
  else some (g + ceilDiv (nsNow s + 20000 - g) period * period)

/-- Level of SYNC_OUT while no pulse stands: POL inverts (R175). -/
def syncIdle (s : State) : Bool := fld s 0x40000 3 1 == 1

/-- Load SYNC_OUT from its registers (R168, R175). -/
def loadSync (s : State) : State :=
  let first := csr s 0x40044 * 2 ^ 32 + csr s 0x40040
  modTime (fun t => { t with syncNext := syncFirst s first (csr s 0x40048) }) s

/-- SYNC_OUT as a configuration takes effect (R168): driven, inactive at first, and loaded where the configuration enables it. -/
def syncConfigured (s : State) : State :=
  let s := modTime (fun t => { t with syncBall := some (t.syncBall.getD (syncIdle s)) }) s
  onlyIf (fld s 0x40000 2 1 == 1 && s.time.syncNext.isNone) loadSync s

/-- SYNC_OUT_PULSE (R168): the next edge, rising or falling, at its instant. -/
def syncOutPulse (s : State) : State :=
  let pol := fld s 0x40000 3 1 == 1
  let period := csr s 0x40048
  let width := csr s 0x4004C
  match s.time.syncNext with
  | some t =>
    if fld s 0x40000 2 1 = 1 ∧ t ≤ nsNow s ∧ fieldLive s then
      let active := s.time.syncBall == some (!pol)
      if active then
        modTime (fun x => { x with syncBall := some pol, syncNext := if period = 0 then none else some (t + period - width) }) s
      else modTime (fun x => { x with syncBall := some (!pol), syncNext := some (t + width) }) s
    else s
  | none => s

/-- TIME_SNAP_TAKE (R175). -/
def timeSnapTake (s : State) : State :=
  modTime (fun t => { t with snapSec := t.seconds, snapNs := t.ns, snapFrac := t.frac }) s

end Sys2Proof.Machine
end

