-- ==== Sys2Proof/Machine/Activate.lean ====
section
/-! DEFINITION. Taking a configuration into use (R397, R400, R439), and the changes of maps and subscriptions (R279, R281). -/

namespace Sys2Proof.Machine

open Sys2Proof

/-! ## Registers (R439) -/

/-- Registers that a configuration can set. -/
def cfgScope (addr : Nat) : Bool :=
  (upFrom 1 11).any (fun c => inScope c addr) || (decide (0x111000 ≤ addr) && decide (addr < 0x112000))

/-- The channel that a personality register belongs to. -/
def persReg (addr : Nat) : Option Nat :=
  if 0x80000 ≤ addr ∧ addr < 0xC0000 ∧ (addr - 0x80000) % 0x800 ≥ 0x100 then some ((addr - 0x80000) / 0x800) else none

/-- Reaction masks that an image gives, by register (R410, R439). -/
def imgReacts (b : List Byte) : List (Nat × Nat) :=
  ((records b 10).filter (fun r => r.kind == 0x0A01)).flatMap (fun r =>
    (entries 4 0 r.body).map (fun e => (srcAddr (rd e 0 2), rd e 2 1)))

/-- Personality and service of a channel in one number. -/
def persKey (s : State) (ch : Nat) : Nat := pers s ch * 2 + b2n (mbOn s ch)

/-- Key of a channel register under a personality. -/
def shelfKey (s : State) (addr : Nat) : Nat := persKey s ((addr - 0x80000) / 0x800) * 2 ^ 32 + addr

/-- Put away the counters of registers that end with a personality (R23): of `old`, the state before. -/
def shelve (old : State) (gone : Nat → Bool) (s : State) : State :=
  (old.totals.filter (fun e => gone e.1)).foldl (fun s e =>
    { s with shelf := sput (0, 0) s.shelf (shelfKey old e.1) (BitVec.ofNat 32 (wordOr old e.1 0), e.2) }) s

/-- Bring back the counters of the personality that a channel has now, where it had another before. -/
def unshelve (old s : State) : State :=
  (s.shelf.filter (fun e => shelfKey s (e.1 % 2 ^ 32) == e.1 && shelfKey old (e.1 % 2 ^ 32) != e.1)).foldl (fun s e =>
    let a := e.1 % 2 ^ 32
    { csrPut a e.2.1.toNat s with totals := sput 0 s.totals a e.2.2, shelf := sdel s.shelf e.1 }) s

/-- Every field that a configuration sets takes its value; registers of another personality end (R439). -/
def takeRegs (b : List Byte) (s : State) : State :=
  let raw := rawRegs b
  let itm := itripMax s
  let cfg : Sparse Word := raw.map (fun e => (e.1, BitVec.ofNat 32 (imgReg itm raw e.1)))
  let cfg := (imgReacts b).foldl (fun m e => sins m e.1 (BitVec.ofNat 32 e.2)) cfg
  let t := { s with cfgRegs := cfg, csr := s.csr.filter (fun e => !cfgScope e.1) }
  let gone (addr : Nat) : Bool := match persReg addr with
    | some ch => persKey s ch != persKey t ch
    | none => false
  let keep := s.csr.filterMap (fun e =>
    if !cfgScope e.1 then some e
    else
      let rows := rowsAt t e.1
      let v := rows.foldl (fun w f => if settable f then setBits w f.lo f.w (bits (resetOf t e.1) f.lo f.w) else w) e.2.toNat
      if rows.isEmpty || gone e.1 || v == resetOf t e.1 then none else some (e.1, BitVec.ofNat 32 v))
  unshelve s (shelve s gone { t with csr := keep, totals := s.totals.filter (fun e => !gone e.1) })

/-- A configuration is taken into use: registers, maintenance address, ports, the master function (R62, R74, R142, R439). -/
def takeImage (b : List Byte) (s : State) : State :=
  let en (s : State) (p : Port) : Bool := bit (pcfg s p) 0
  let t := modUpd (fun u => { u with inForce := b }) (takeRegs b s)
  let t := modPower (fun p => { p with i2cAddr := fld t 0x20014 0 7 }) t
  let t := [Port.east, Port.west].foldl (fun t p => if en t p != en s p then adminPort p (en t p) t else t) t
  t

/-! ## Maps as they will stand (R279) -/

/-- The map in force. -/
def nowView (s : State) : MapView :=
  { rules := s.maps.rules, descs := s.maps.descs, subs := s.maps.subs, published := s.maps.published, reg := csr s, pers := pers s
    mb := mbOn s, polls := (imgPolls s.upd.inForce).map (·.2), templates := (imgTemplates s.upd.inForce).map (fun t => (t.2.1, t.2.2.1, t.2.2.2))
    n := s.maps.n, p := mapP s, h := mapH s, dout := mapDout s, pub := splitPub s, sub := splitSub s, level := s.power.level }

/-- Rule bytes written from an index on; a NOP is not listed. -/
def writeRules (first : Nat) (bs : List Byte) (rules : Sparse (List Byte)) : Sparse (List Byte) :=
  (List.range (bs.length / 32)).foldl (fun m i => sput (zeros 32) m (first + i) (slice bs (32 * i) 32)) rules

/-- The map after a change. -/
def changeView (s : State) (v : MapView) : Change → MapView
  | .rules _ _ _ first bs => { v with rules := writeRules first bs v.rules }
  | .subAdd _ _ _ x => { v with subs := v.subs ++ [x] }
  | .subRemove _ _ _ node loc => { v with subs := v.subs.filter (fun x => !(x.node == node && x.local_ == loc)) }
  | .config _ _ _ img => imgView s img

def changeCycle : Change → Nat
  | .rules _ _ k _ _ => k
  | .subAdd _ _ k _ => k
  | .subRemove _ _ k _ _ => k
  | .config _ _ k _ => k

def changeSession : Change → Nat
  | .rules se _ _ _ _ => se
  | .subAdd se _ _ _ => se
  | .subRemove se _ _ _ _ => se
  | .config se _ _ _ => se

def changeTag : Change → Tag
  | .rules _ t _ _ _ => t
  | .subAdd _ t _ _ => t
  | .subRemove _ t _ _ _ => t
  | .config _ t _ _ => t

/-- The map as it stands at cycle `k`, every change accepted for it or before made. -/
def viewAt (k : Nat) (s : State) : MapView :=
  (s.maps.changes.filter (fun c => decide (changeCycle c ≤ k))).foldl (changeView s) (nowView s)

/-- Keep the accepted changes by cycle, then session (R170, R279). -/
def addChange (c : Change) : List Change → List Change
  | [] => [c]
  | h :: t =>
    if changeCycle c < changeCycle h ∨ (changeCycle c = changeCycle h ∧ changeSession c < changeSession h) then c :: h :: t
    else h :: addChange c t

def noteChange (c : Change) (s : State) : State := modMaps (fun m => { m with changes := addChange c m.changes }) s

/-! ## A change takes effect -/

/-- A slot that gains a writer holds INIT, NOT_READY, until it is written; one that loses its rule has no entry of its own
(R264). -/
def gainSlot (x : Nat) (s : State) : State :=
  if (slook s.maps.slots x).isSome then s else putSlot x (initEntry s x stNotReady 0) s

def loseSlot (x : Nat) (s : State) : State :=
  modMaps (fun m => { m with slots := sdel m.slots x, everValid := sdel m.everValid x }) s

/-- Slots that the rules in force write. -/
def rulesWrite (s : State) : List Nat := (ruleList s.maps.rules).flatMap (fun x => ruleSlots s x.2)

/-- A carried state of a rule starts anew when the rule is written (R268). -/
def freshRule (i : Nat) (s : State) : State :=
  modMaps (fun m => { m with
    started := m.started.filter (fun x => x != i)
    lanes := m.lanes.filter (fun e => !(List.range 16).any (fun j => e.1 == laneKey i j))
    codedLanes := m.codedLanes.filter (fun e => !(List.range 16).any (fun j => e.1 == laneKey i j)) }) s

/-- The coded image of the slots of a rule starts from what they hold. -/
def freshCoded (i : Nat) (s : State) : State :=
  ((ruleList s.maps.rules).filter (fun x => x.1 == i && x.2.coded && x.2.kind != 10)).foldl (fun s x =>
    (List.range x.2.width).foldl (fun s j =>
      let dst := laneSlot s x.2.dst j
      let o := opd s dst
      modMaps (fun m => { m with codedImg := sins m.codedImg dst (encA o.int, 7 - o.stat) }) s) s) s

/-- MAP_CHANGE takes effect (R279). -/
def takeRules (first : Nat) (bs : List Byte) (s : State) : State :=
  let n := bs.length / 32
  let before := rulesWrite s
  let s := modMaps (fun m => { m with rules := writeRules first bs m.rules }) s
  let s := forEach (upFrom first n) freshRule s
  let after := rulesWrite s
  let s := forEach (before.filter (fun x => !after.contains x)) loseSlot s
  let s := forEach (after.filter (fun x => !before.contains x)) gainSlot s
  scrubTouch ((upFrom first n).map (· / 256)).eraseDups (forEach (upFrom first n) freshCoded s)

/-- Slots of a subscription. -/
def subSlots (x : Subscr) : List Nat := upFrom x.local_ x.count

/-- Status of a slot set to STALE with its VALUE kept (R281). -/
def staleSlot (x : Nat) (s : State) : State :=
  let e := nowEntry s x
  putSlot x (mkEntry (eVal e) (eVcyc e) stStale (eHigh e) (eType e)) s

/-- Slots with a writer under an image, as the configuration takes effect: INIT, NOT_READY (R264, R397). -/
def writerSlots (s : State) : List Nat :=
  (rulesWrite s ++ (s.maps.descs.filter (fun e => dHostW e.2)).map (·.1) ++ s.maps.subs.flatMap subSlots
    ++ (List.range 128).flatMap (fun ch => if mbOn s ch then (polls s ch).flatMap pollRSlots else []))

/-- The map of an image takes effect. -/
def mapActivate (b : List Byte) (s : State) : State :=
  let s := modMaps (fun m => { m with
    active := true, n := lengthFor s b, slots := [], everValid := []
    descs := (imgDescs b).map (fun e => (e.1, e.2.2)), rules := ((imgRules b).map (fun e => (e.1, e.2.2))).filter (fun e => e.2 != zeros 32)
    lanes := [], started := [], subs := (imgSubs b).map (·.2), snaps := [], hostCycle := [], codedImg := [], codedLanes := []
    codedFail := [], codedFault := [], badBlocks := [] }) s
  forEach (writerSlots s) (fun x s => putSlot x (initEntry s x stNotReady 0) s) s

/-- Every channel as a configuration takes effect (R184, R192, R197, R313, R314, R353): a fresh channel in its first state, item and pop
sequences 0. What its TX queue still held is ended and reported; packets already received and the STATUS words stay readable (R31; log
entry 17). -/
def chansActivate (s : State) : State :=
  forEach (List.range 128) (fun ch s =>
    let c := chan s ch
    let s := abortWaiters ch (cutPush ch (failAll ch c.txq .aborted s))
    let s := c.draining.foldl (fun s w => complete w.1 w.2 .aborted [] s) s
    let k := chan s ch
    let auto := fld s (chnAddr ch 0) 3 1 == 1
    let st : ChState := if isPartner (pers s) ch then .partner else if pers s ch = 0 then .off else if auto then .joining else .disabled
    setChan ch { st := st, enabled := st == .joining, lockWaits := c.lockWaits, rxq := k.rxq, pendRpt := k.pendRpt, rptWaits := k.rptWaits
                 rxSeq := k.rxSeq, dropPush := k.dropPush, joinTick := k.joinTick, rateFound := k.rateFound } s) s

/-- Table entries that an image gives an engine (R439). -/
def imgTable (b : List Byte) (e : Nat) : List (Nat × List Byte) :=
  ((records b 6).filter (fun r => r.kind == 0x0601 && rd r.body 0 1 == e)).map (fun r => (rd r.body 2 2, r.body.drop 8))

/-- Every engine as a configuration takes effect (R326, R339, R341): its table as the image gives it, its halt values on its
outputs, AUTO engines armed for this boundary. -/
def enginesActivate (b : List Byte) (s : State) : State :=
  let s := forEach (List.range 32) (fun e s =>
    let s := if leActive (engine s e).st then haltNow e s else s
    let s := setEngine e { st := if leEn s e then .idle else .off, lastTick := tickNow s } s
    let s := (imgTable b e).foldl (fun s x => writeTable e x.1 x.2 s) s
    if leEn s e then haltPins e s else s) s
  forEach ((List.range 32).filter (fun e => leEn s e && leAuto s e)) (fun e s => arm e (tickNow s) false s) s

/-- Ask a node for a range (R281): the hub sends the command's own packet as a REQ (log entry 18). -/
def askSub (opcode : Nat) (session : Nat) (tag : Tag) (effc : Option Nat) (params : List Byte) (node : Nat) (s : State) : State :=
  sendPacket 1 node (packetBytes ⟨0, if effc.isSome then 2 else 0, opcode, session, tag.toNat, 0xFFFF, 0⟩ effc params) s

/-- Parameters of SUB_ADD (R57). -/
def subParams (x : Subscr) : List Byte := leBytes 1 x.node ++ [0] ++ leBytes 2 x.count ++ leBytes 4 x.remote ++ leBytes 4 x.local_

/-- Types of the slots that a subscription fills, for the publisher to compare (R281, log entry 18). -/
def subTypes (s : State) (x : Subscr) : List Byte :=
  ((upFrom x.local_ x.count).take 16000).map (fun y => BitVec.ofNat 8 (slotType s y))

/-- Frames to other nodes can leave: the hub is numbered and not ISOLATED. -/
def ringSends (s : State) : Bool := numbered s && s.hub != .isolated

/-- Ask for a subscription under a tag of its own of session 0 (log entry 18). -/
def askOwn (params : List Byte) (x : Subscr) (s : State) : State :=
  askSub 0x0304 0 (BitVec.ofNat 16 s.maps.asks) none params x.node (modMaps (fun m => { m with asks := m.asks + 1 }) s)

/-- Ask the publishers of the subscriptions of an image, each under a tag of its own of session 0. -/
def askAll (s : State) : State :=
  if !ringSends s then s
  else s.maps.subs.foldl (fun s x =>
    if x.node = s.ring.node then s else askOwn (subParams x ++ subTypes s x) x s) s

/-- A configuration takes effect at a cycle boundary (R397). -/
def takeEffect (b : List Byte) (s : State) : State :=
  let s := mapActivate b s
  let s := chansActivate (linesActivate s)
  let s := outletsActivate (enginesActivate b s)
  let s := syncConfigured (scrubTouch [s.cv.next] s)
  let lv := fld s 0x20010 0 2
  askAll (if lv = s.power.level ∧ s.power.plTarget.isNone then s else plBegin lv s)

/-- One accepted change takes effect at its boundary. In HELD an activation waits for the cycle to run. -/
def takeChange (c : Change) (s : State) : State :=
  match c with
  | .rules _ _ _ first bs => takeRules first bs s
  | .subAdd _ _ _ x => forEach (subSlots x) gainSlot (modMaps (fun m => { m with subs := m.subs ++ [x] }) s)
  | .subRemove _ _ _ node loc =>
    let gone := s.maps.subs.filter (fun x => x.node == node && x.local_ == loc)
    let s := modMaps (fun m => { m with subs := m.subs.filter (fun x => !(x.node == node && x.local_ == loc)) }) s
    let s := onlyIf (ringSends s) (fun s => gone.foldl (fun s x => askSub 0x0305 0 0 none (subParams x) x.node s) s) s
    forEach (gone.flatMap subSlots) staleSlot s
  | .config _ _ _ img => takeEffect img (takeImage img s)

/-- The subscriptions that were in force before cycle `k` stay known for frames of earlier cycles (R116): those of the last 64 changes. -/
def keepSubs (k : Nat) (before : List Subscr) (s : State) : State :=
  if s.maps.subs = before then s
  else modMaps (fun m => { m with pastSubs := (m.pastSubs ++ [(k, before)]).drop (m.pastSubs.length + 1 - 64) }) s

/-- Changes accepted for cycle `k` or before, in order (R279). -/
def takeChanges (k : Nat) (s : State) : State :=
  let due := s.maps.changes.filter (fun c => decide (changeCycle c ≤ k))
  let s := modMaps (fun m => { m with changes := m.changes.filter (fun c => decide (changeCycle c > k)), effLast := if due.isEmpty then m.effLast else k }) s
  keepSubs k s.maps.subs (due.foldl (fun s c => takeChange c s) s)

/-! ## RUN or ISOLATED (R17, R396) -/

/-- A port that can bring no span within its allowance (R396). -/
def portOver (s : State) (p : Port) : Bool :=
  let q := portSt s p
  q.span == .adminDown || !q.modPresent || q.allowanceOver

/-- The state that BOOT or HELD leads to, once a valid configuration is active. -/
def fieldState (s : State) : Option HubState :=
  if noSpanUp s then (if portOver s .east && portOver s .west then some .isolated else none)
  else if s.time.locked then some .run else none

/-! ## Levels of performance (R374, R375) -/

/-- PL_SET begins (R375): refused, done at once, or a transition runs. -/
def plStart (level : Nat) (s : State) : Option Status × State :=
  if !fitsAt (nowView s) level && s.maps.active then (some .budget, s)
  else if level = s.power.level then (some .ok, s)
  else (none, plBegin level s)

/-- PL_SET commands whose turn has come, one after another. -/
def plNext : Nat → State → State
  | 0, s => s
  | n + 1, s =>
    match s.power.plTarget, s.power.plCmds with
    | none, (se, tag, lv) :: t =>
      match plStart lv s with
      | (some .ok, s) => plNext n (complete se tag .ok [BitVec.ofNat 8 s.power.level] (modPower (fun p => { p with plCmds := t }) s))
      | (some st, s) => plNext n (complete se tag st [] (modPower (fun p => { p with plCmds := t }) s))
      | (none, s) => s
    | _, _ => s

/-- PL_TRANSITION_STEP (R374, R375): at its last step the transition ends; the command that asked for it is answered. -/
def plTransitionStep (st : PlStep) (s : State) : State :=
  let s := plStep st s
  if s.power.plTarget.isSome && s.power.plClocks && s.power.plVcore then
    let s := modPower (fun p => { p with plTarget := none, plClocks := false, plVcore := false, plLastUs := min 0xFFFF (since p.plUp s / 2) }) s
    match s.power.plCmds with
    | (se, tag, lv) :: t =>
      if lv = s.power.level then complete se tag .ok [BitVec.ofNat 8 s.power.level] (modPower (fun p => { p with plCmds := t }) s) else s
    | [] => s
  else s

/-- PL_SET commands that wait for a transition go on at a cycle boundary (R374). -/
def plResume (s : State) : State := if tickNow s = cycleNow s * s.maps.n then plNext (s.power.plCmds.length + 1) s else s

end Sys2Proof.Machine
end

