-- ==== Sys2Proof/Machine/Cycle.lean ====
section
/-! DEFINITION. The cycle (R275): gather (R271), stages, publications (R280), remote gather (R281), pack and close (R272 to R274),
release (R174), history (R282, R283), overruns (R278, R300), and what else happens at a cycle boundary. -/

namespace Sys2Proof.Machine

open Sys2Proof

/-! ## Received packets of a claimed channel (R192, R271) -/

/-- A packet or a STATUS word of an RX queue. -/
inductive RxItem where
  | pkt (tick : Nat) (bytes : List Byte) (words : List DWord)
  | stat (w : DWord)
  deriving DecidableEq, Repr

/-- Split queue words into packets and STATUS words; `cur` holds the words of the packet being read. -/
def rxSplit : List DWord → List DWord → List RxItem
  | _, [] => []
  | cur, w :: t =>
    if wordKind w = 2 then .stat w :: rxSplit cur t
    else
      let now := cur ++ [w]
      if wordEnd w then
        .pkt (match now with | h :: _ => wordBody h | [] => 0) (wordsData now) now :: rxSplit [] t
      else rxSplit now t

/-! ## Gather (R271) -/

/-- The UNPACK rules of the map in force. -/
def unpacks (s : State) : List Rule := ((ruleList s.maps.rules).filter (fun x => x.2.kind == 1)).map (·.2)

/-- A snapshot of a source replaces the one of the same key. -/
def putSnap (x : Snap) (s : State) : State :=
  modMaps (fun m => { m with snaps := (m.snaps.filter (fun y => !(y.desc == x.desc && y.mask == x.mask && y.mtch == x.mtch))) ++ [x] }) s

/-- Inputs stamped outside the window of the first cycle after a step of ring time (R155). -/
def orphanAt (s : State) (k tick : Nat) : Bool :=
  s.time.stepped && (decide (tick + s.maps.n < k * s.maps.n) || decide (tick ≥ k * s.maps.n))

/-- Newest frame of a BUFFER object stamped before the gather (R218, R271). -/
def objNewest (b : MoBuf) (before : Nat) : Option (Nat × List Byte) :=
  match b.shadow with
  | some f => if f.1 < before then some f else b.main.filter (fun m => decide (m.1 < before))
  | none => b.main.filter (fun m => decide (m.1 < before))

/-- Gather one claimed channel (R271): every packet stamped before T_k is taken; the newest match of each rule is its payload. -/
def gatherChannel (ch k : Nat) (s : State) : State :=
  let rules := (unpacks s).filter (fun r => descKind r.a == 1 && descUnit r.a == ch)
  let items := rxSplit [] (chan s ch).rxq
  let tk := k * s.maps.n
  let taken := items.filterMap (fun i => match i with | .pkt t b _ => if t < tk ∨ orphanAt s k t then some (t, b) else none | .stat _ => none)
  let rest := items.flatMap (fun i => match i with | .pkt t _ ws => if t < tk ∨ orphanAt s k t then [] else ws | .stat w => [w])
  let lost := taken.countP (fun p => orphanAt s k p.1)
  let good := taken.filter (fun p => !orphanAt s k p.1)
  let hit (r : Rule) (b : List Byte) : Bool :=
    Nat.land (rd b 0 4) (rd r.p 8 4) == Nat.land (rd r.p 4 4) (rd r.p 8 4)
  let newest (r : Rule) : Option (Nat × Nat × List Byte) :=
    ((good.zipIdx.filter (fun p => hit r p.1.2)).getLast?).map (fun p => (p.2, p.1))
  let kept := (rules.filterMap newest).map (·.1)
  let s := modChan ch (fun c => { c with rxq := rest }) s
  let s := bumpBy 0x4011C lost s
  let s := bumpBy 0xF0108 ((List.range good.length).countP (fun i => !kept.contains i)) s
  let s := bumpBy 0xF0110 (good.countP (fun p => !rules.any (fun r => hit r p.2))) s
  rules.foldl (fun s r => match newest r with
    | some (_, t, b) => putSnap ⟨r.a, rd r.p 8 4, rd r.p 4 4, b, some t, none⟩ s
    | none => s) s

/-- Gather one claimed engine (R271). -/
def gatherEngine (e k d : Nat) (s : State) : State :=
  let tk := k * s.maps.n
  let ws := (engine s e).push
  let due := ws.filter (fun w => decide (w.2 < tk) || orphanAt s k w.2)
  let lost := due.countP (fun w => orphanAt s k w.2)
  let good := due.filter (fun w => !orphanAt s k w.2)
  let s := modEngine e (fun x => { x with push := ws.filter (fun w => !(decide (w.2 < tk) || orphanAt s k w.2)) }) s
  let s := bumpBy 0x4011C lost (bumpBy 0xF0108 (good.length - 1) s)
  match good.getLast? with
  | some (w, t) => putSnap ⟨d, 0, 0, leBytes 4 w, some t, none⟩ s
  | none => s

/-- Gather one source descriptor. -/
def gatherSource (k d : Nat) (s : State) : State :=
  let u := descUnit d
  let tk := k * s.maps.n
  match descKind d with
  | 0 =>
    match objNewest (moBuf (chan s u) (descObj d)) tk with
    | some (t, b) => if orphanAt s k t then bump 0x4011C s else putSnap ⟨d, 0, 0, b.drop 8, some t, none⟩ s
    | none => s
  | 1 => gatherChannel u k s
  | 2 =>
    let p := gatherPd s u k
    putSnap ⟨d, 0, 0, p.1, p.2.1, some p.2.2⟩ s
  | 3 =>
    putSnap ⟨d, 0, 0, [BitVec.ofNat 8 (diBefore (chan s u).iol tk)], none, some stValid⟩ s
  | 4 => putSnap ⟨d, 0, 0, leBytes 2 (bankBits u (fun l => gatherLine s l k)), none, some (if bankFault s u then stFault else stValid)⟩ s
  | _ => gatherEngine u k d s

/-- Host writes gathered at T_k (R266): the newest of a slot counts, earlier ones are counted. One to a slot that a new configuration does
not let the host write so is dropped (log entry 17). -/
def gatherHost (k : Nat) (s : State) : State :=
  let tk := k * s.maps.n
  let due := s.maps.hostWrites.filter (fun w => decide (w.tick < tk) || orphanAt s k w.tick)
  let taken := due.filter (fun w => !orphanAt s k w.tick)
  let good := taken.filter (fun w => dHostW (descOf s w.slot) && eType w.entry == slotType s w.slot)
  let s := modMaps (fun m => { m with hostWrites := m.hostWrites.filter (fun w => !(decide (w.tick < tk) || orphanAt s k w.tick)) }) s
  let s := bumpBy 0x4011C (due.length - taken.length) s
  let slots := (good.map (·.slot)).eraseDups
  let s := bumpBy 0xF0108 (good.length - slots.length) s
  let s := slots.foldl (fun s x =>
    match (good.filter (fun w => w.slot == x)).getLast? with
    | some w =>
      modMaps (fun m => { m with
        hostCycle := sins m.hostCycle x (w.tick / m.n)
        slots := sins m.slots x (mkEntry (eVal w.entry) 0 stValid (highOf (slotType s x) x) (slotType s x)) }) s
    | none => s) s
  -- every host slot written so far is VALID, or EXPIRED once HOLD cycles have begun after its newest write
  s.maps.hostCycle.foldl (fun s e =>
    let hold := dHold (descOf s e.1)
    writeSlot e.1 (eVal (nowEntry s e.1)) (if hold ≠ 0 ∧ k > e.2 + hold then stExpired else stValid) s) s

/-- The gather of cycle `k` (R271, R245, R266). -/
def gather (k : Nat) (s : State) : State :=
  let s := gatherHost k s
  let s := forEach (List.range 128) gatherPolls s
  let s := ((unpacks s).map (·.a)).eraseDups.foldl (fun s d => gatherSource k d s) s
  modTime (fun t => { t with stepped := false }) (dropRises k s)

/-! ## Stages (R275, R278) -/

/-- Run the rules of a stage. After an overrun the finished ones have run, and no other does (R278). -/
def stageRun (stage lo hi : Nat) (s : State) : State := if s.maps.overrun.isSome then s else runStage stage lo hi s

/-- First rule index of a stage (R275). -/
def stageFrom (stage : Nat) (s : State) : Nat := if stage = 0 then 0 else if stage = 1 then splitPub s else splitSub s

/-- Last rule index and one (R267). -/
def rulesEnd : Nat := 65536

/-- First rule index behind a stage. -/
def stageTo (stage : Nat) (s : State) : Nat := if stage = 0 then splitPub s else if stage = 1 then splitSub s else rulesEnd

/-! ## Publications (R280) -/

/-- The published ranges merged, in ascending order. -/
def mergeRanges (l : List (Nat × Nat)) : List (Nat × Nat) :=
  (l.foldl (fun acc r => match acc with
    | (a, n) :: t => if r.1 ≤ a + n then (a, max n (r.1 + r.2 - a)) :: t else r :: acc
    | [] => [r]) []).reverse

def insertRange (r : Nat × Nat) : List (Nat × Nat) → List (Nat × Nat)
  | [] => [r]
  | h :: t => if r.1 < h.1 then r :: h :: t else h :: insertRange r t

def pubRanges (published : List (Nat × Nat × Nat)) : List (Nat × Nat) :=
  mergeRanges ((published.map (·.2)).foldl (fun l r => insertRange r l) [])

/-- CYC bytes per cycle of published ranges (R95, R280). -/
def pubCharge (published : List (Nat × Nat × Nat)) : Nat := ((pubRanges published).map (fun r => chargeOfRange r.2)).sum

/-- The charge that a list of ranges asks is requested where it differs (R85, R96): a JOIN asks the master, which grants its own charge
in a list of its own. -/
def requestCharge (ps : List (Nat × Nat × Nat)) (s : State) : State :=
  let q := pubCharge ps
  if q = s.ring.charge then s
  else if isMaster s then
    let s := modRing (fun r => { r with charge := q, grant := q }) s
    onlyIf (newestLight s).isSome (newGeneration (fun l => { l with entries := l.entries.map (fun e =>
      if e.node = s.ring.node then { e with grant := BitVec.ofNat 32 q } else e) })) s
  else sendJoin (modRing (fun r => { r with charge := q }) s)

/-- The frames of a range: first slot and count of each. -/
def rangeFrames (first count : Nat) : List (Nat × Nat) :=
  (List.range (ceilDiv count 1194)).map (fun i => (first + 1194 * i, min 1194 (count - 1194 * i)))

def pubPayload (s : State) (first count : Nat) : List Byte :=
  leBytes 4 first ++ leBytes 2 count ++ [0, 0] ++ (upFrom first count).flatMap (fun x => leBytes 8 (nowEntry s x).toNat)

/-- Put one CYC frame out at the port of its ring (R120, R128). -/
def cycOut (f : Frame) (s : State) : State :=
  match leaves s f with
  | some (q, g) => admitOrDrop (outOf q) g (onlyIf (q != portOfRing f.ccw) (bump 0x50628) s)
  | none => bump 0x50444 s

/-- Send one publication frame (R120): twice, with one SEQ, unless REDUCED; with STAMP_CYC it bears its cycle as STAMP_ID (R165). -/
def publishFrame (k first count : Nat) (s : State) : State :=
  let f := { newFrame s 0 255 0 false (pubPayload s first count) with
    cycle := k, stampId := if fld s 0x40000 1 1 = 1 then BitVec.ofNat 16 k else 0 }
  let (f, s) := withSeq f s
  if reduced s then cycOut f s
  else cycOut { f with twin := true, ccw := true } (cycOut { f with twin := true } s)

/-- The publications of cycle `k` (R280, R96): nothing beyond the grant; what is withheld is counted. -/
def publishAll (k : Nat) (s : State) : State :=
  if !numbered s || s.hub == .isolated then s
  else
    let fs := (pubRanges s.maps.published).flatMap (fun r => rangeFrames r.1 r.2)
    let g := s.ring.grant
    (fs.foldl (fun (acc : Nat × State) f =>
      let c := 8 + 8 * f.2 + 48
      if acc.1 + c ≤ g then (acc.1 + c, publishFrame k f.1 f.2 acc.2) else (acc.1, bump 0x50450 acc.2)) (0, s)).2

/-- PUBLISH (R275, R280): stage A ends, and the publications of the cycle leave. -/
def publish (s : State) : State :=
  if s.maps.phase = .stageA then
    let s := stageRun 0 0 (splitPub s) s
    publishAll s.maps.cycle (modMaps (fun m => { m with phase := .stageB }) s)
  else s

/-! ## Remote gather (R281) -/

/-- The publisher can be heard: present in the light list with a grant, and this hub not ISOLATED. -/
def pubPresent (s : State) (node : Nat) : Bool :=
  s.hub != .isolated && (match s.ring.light with
    | some l => l.entries.any (fun e => e.node == node && entryPresent e && e.grant != 0)
    | none => false)

/-- One subscribed slot (R281). -/
def subSlot (k : Nat) (x : Subscr) (i : Nat) (s : State) : State :=
  let slot := x.local_ + i
  let prev := eVal (nowEntry s slot)
  if !pubPresent s x.node then writeSlot slot prev stStale s
  else
    let remote := x.remote + i
    let fr := s.maps.cycRx.find? (fun f => f.src == x.node && f.cycle == k && decide (f.tick < k * s.maps.n + mapH s)
      && decide (f.first ≤ remote) && decide (remote < f.first + f.entries.length))
    match fr with
    | none => writeSlot slot prev stLate s
    | some f =>
      let e := (f.entries[remote - f.first]?).getD 0
      let t := slotType s slot
      if eType e ≠ t ∨ eHigh e ≠ highOf t slot ∨ eStat e > 5 then writeSlot slot prev stFault (bump 0xF0124 s)
      else writeSlot slot (eVal e) (if s.maps.twinDiff.contains (f.src, f.group, k) then stFault else eStat e) s

/-- The remote gather of the running cycle. -/
def remoteTake (s : State) : State :=
  let k := s.maps.cycle
  let s := s.maps.subs.foldl (fun s x => (List.range x.count).foldl (fun s i => subSlot k x i s) s) s
  modMaps (fun m => { m with phase := .stageC, cycRx := m.cycRx.filter (fun f => decide (f.cycle > k)), twinDiff := m.twinDiff.filter (fun x => decide (x.2.2 > k)) }) s

/-- Stage B and the remote gather, where they are still to come. -/
def toStageC (s : State) : State :=
  let s := publish s
  if s.maps.phase = .stageB then remoteTake (stageRun 1 (splitPub s) (splitSub s) s) else s

/-- REMOTE_GATHER (R275, R281): at T_k + H. -/
def remoteGather (s : State) : State :=
  if s.maps.phase ≠ .idle ∧ s.maps.phase ≠ .packed ∧ tickNow s ≥ s.maps.cycle * s.maps.n + mapH s then toStageC s else s

/-! ## Pack (R268, R272 to R274, R295) -/

/-- Field bits of a PACK lane, and whether the value was limited (R268). -/
def packField (r : Rule) (o : Opd) : Nat × Bool :=
  let w := placeWidth r
  let v : Int := if o.isF then (o.lo : Int) else o.int
  let lo : Int := if bit r.b 23 then -(2 ^ (w - 1)) else 0
  let hi : Int := if bit r.b 23 then 2 ^ (w - 1) - 1 else 2 ^ w - 1
  let c := max lo (min v hi)
  let n := ofSigned w c
  (if bit r.b 22 then leVal (leBytes (w / 8) n).reverse else n, c != v)

/-- An instance under construction: content as one number, bits placed, limits counted, held, every source VALID. -/
structure Built where
  val  : Nat
  mask : Nat
  sat  : Nat
  held : Bool
  ok   : Bool
  deriving DecidableEq, Repr

/-- INIT of a slot as an operand. -/
def initOpd (s : State) (slot : Nat) : Opd :=
  let t := slotType s slot
  { type := t, lo := dInit (descOf s slot), hi := if wide t then dInit (descOf s (slot + 1)) else 0, stat := stValid }

/-- Place one lane of a PACK rule (R274). `sick`: every lane counts as not VALID, and SEND acts as HOLD (R295). -/
def packLane (s : State) (r : Rule) (bank sick : Bool) (b : Built) (j : Nat) : Built :=
  let o := opd s (laneSlot s r.a j)
  let off := placeOff r j
  let w := placeWidth r
  let place (x : Opd) (b : Built) : Built :=
    let v := packField r x
    { b with val := setBits b.val off w v.1, mask := setBits b.mask off w (2 ^ w - 1), sat := b.sat + b2n v.2 }
  if o.stat = stValid ∧ !sick then place o b
  else
    let b := { b with ok := false }
    if r.op = 1 then place (initOpd s (laneSlot s r.a j)) b
    else if r.op = 0 ∨ sick then (if bank then b else { b with held := true })
    else place o b

/-- The configuration's view of targets. -/
def packBase (v : MapView) (d : Nat) : List Byte :=
  if descKind d = 1 then (v.template d).getD [] else zeros (v.instLen d)

/-- The instance of a CODED PACK is not to be trusted (R295): a source lane is FAULT under R294, its passes differ, or the checkpoint
failed (R296). -/
def packSick (s : State) (i : Nat) (r : Rule) : Bool :=
  r.coded && (s.maps.codedFail.contains i || (List.range r.width).any (fun j => s.maps.codedFault.contains (laneSlot s r.a j)))

/-- Build the instance of a target. -/
def buildInst (s : State) (v : MapView) (d : Nat) (rs : List (Nat × Rule)) : Built :=
  let sick := rs.any (fun x => packSick s x.1 x.2)
  rs.foldl (fun b x => (List.range x.2.width).foldl (packLane s x.2 (descKind d == 3) (sick && x.2.coded)) b)
    { val := leVal (packBase v d), mask := 0, sat := 0, held := false, ok := true }

/-- Targets due in cycle `k` with their rules, in the order of their first rule; none of whose rules is unfinished. -/
def dueTargets (k : Nat) (s : State) : List (Nat × List (Nat × Rule)) :=
  let all := (ruleList s.maps.rules).filter (fun x => x.2.kind == 10)
  let ds := (all.map (·.2.dst)).eraseDups
  (ds.map (fun d => (d, all.filter (fun x => x.2.dst == d)))).filter (fun t =>
    (match s.maps.overrun with | some f => t.2.all (fun x => decide (x.1 < f)) | none => true)
      && (match t.2 with
        | x :: _ => ((k : Int) - packPhase x.2) % (max 1 (packPeriod x.2) : Nat) == 0
        | [] => false))

/-- A CAN frame record of an object (R210, R272). -/
def canRecord (v : MapView) (d : Nat) (payload : List Byte) : List Byte :=
  let c := v.moCfg (descUnit d) (descObj d)
  let id := bits (v.reg (canAddr (descUnit d) (0x204 + descObj d * 0x10))) 0 29
  let fd := bits c 3 2 == 1
  leBytes 4 (id + b2n (bit c 5) * 2 ^ 29 + b2n fd * 2 ^ 31)
    ++ [BitVec.ofNat 8 (bits c 8 4 + 16 * b2n (fd && bit c 7)), BitVec.ofNat 8 (bits c 12 1), 0, 0] ++ payload

/-- A cycle-released item is offered to its channel (R188, R194, R195, R205); a record that R212 refuses is reported as for a push (log entry
100). -/
def offerMap (ch : Nat) (i : TxItem) (s : State) : State :=
  let refused := if pers s ch = 3 then recordFault (fdEn s ch) i.release.isSome i.data else none
  match (offerStatus (chan s ch)).or refused with
  | some st => failOffer ch i st s
  | none =>
    if txFits s ch i then queueItem ch i s
    else unitFault 0x0602 0 ch (bump (chnAddr ch 0x9C) s)

/-- Hand one built instance on (R272, R274). -/
def packTarget (k : Nat) (v : MapView) (t : Nat × List (Nat × Rule)) (s : State) : State :=
  let d := t.1
  let b := buildInst s v d t.2
  let s := bumpBy 0xF0118 b.sat s
  let rel := ((k + 1) * s.maps.n + mapDout s) * 500
  let len := v.instLen d
  let bytes := leBytes len b.val
  let later (s : State) : State :=
    modMaps (fun m => { m with instances := m.instances ++ [⟨d, k, rel, bytes, b.mask, b.ok⟩] }) s
  let item (data : List Byte) : TxItem := { seq := 0, release := some rel, data := data, producer := .map, bad := none, attempts := 0 }
  match descKind d with
  | 0 => if b.held then bump 0xF0114 s else offerMap (descUnit d) (item (canRecord v d bytes)) s
  | 1 => if b.held then bump 0xF0114 s else offerMap (descUnit d) (item bytes) s
  | 2 => later (onlyIf b.held (bump 0xF0114) s)
  | 3 => later s
  | _ => if b.held then bump 0xF0114 s else later s

/-- Bytes of the CODED instances that the checkpoint covers (R296). -/
def codedInsts (k : Nat) (s : State) : List Byte :=
  let v := nowView s
  (dueTargets k s).flatMap (fun t => if t.2.any (fun x => x.2.coded) then leBytes (v.instLen t.1) (buildInst s v t.1 t.2).val else [])

/-- An injected code check or mismatch of a CODED PACK that leads the map acts on its first lane where its instance is built (R295,
R299). -/
def packInject (k : Nat) (s : State) : State :=
  match codedHead s with
  | some (i, r) =>
    if r.kind ≠ 10 ∨ !(dueTargets k s).any (fun t => t.1 == r.dst) then s
    else
      let e := nowEntry s (laneSlot s r.a 0)
      let fail (code count kind : Nat) (p2 : DWord) (s : State) : State :=
        match armedOf s code with
        | some se => raiseCf code (some se) i (latchCf kind 3 0 true i e p2 (bump count (disarm code (failPacks [(i, r)] s))))
        | none => s
      fail 0x0703 0xF0144 2 (e ^^^ 1) (fail 0x0702 0xF0140 1 1 s)
  | none => s

/-- PACK_AND_CLOSE (R275): stage C, the checkpoint, and the instances of the cycle. -/
def packAndClose (s : State) : State :=
  let s := toStageC s
  if s.maps.phase = .stageC then
    let k := s.maps.cycle
    let s := stageRun 2 (splitSub s) rulesEnd s
    let s := if (ruleList s.maps.rules).any (fun x => x.2.coded) then checkpoint (codedInsts k s) (packInject k s) else s
    let v := nowView s
    let s := (dueTargets k s).foldl (fun s t => packTarget k v t s) s
    modMaps (fun m => { m with phase := .packed }) s
  else s

/-! ## Overruns (R278, R300) -/

/-- Rules from `f` on are not finished, and no CODED rule of the stage has been compared (R287, R300): the slots of both hold FAULT, and the
CODED ones restart at close. -/
def overrunAt (stage f : Nat) (s : State) : State :=
  let rs := (ruleList s.maps.rules).filter (fun x => decide (f ≤ x.1) || (x.2.coded && decide (stageFrom stage s ≤ x.1)))
  let s := (rs.flatMap (fun x => ruleSlots s x.2)).foldl (fun s x => faultSlot x s) s
  let coded := rs.filter (fun x => x.2.coded)
  let s := modMaps (fun m => { m with overrun := some f, codedFail := m.codedFail ++ coded.map (·.1) }) s
  let s := match coded.find? (fun x => decide (x.1 < stageTo stage s)) with | some c => latchCf 5 stage 0 false c.1 0 0 s | none => s
  detect 0x0701 { address := f } (bump 0xF0120 s)

/-- MAP_OVERRUN (R278): a stage has not finished by its bound; `f` is its first unfinished rule, and those before it have run. A stage A
that has not finished sends no publication. -/
def mapOverrun (stage f : Nat) (s : State) : State :=
  let inStage : Bool := match stage with
    | 0 => s.maps.phase == .stageA && decide (f < splitPub s)
    | 1 => s.maps.phase == .stageB && decide (splitPub s ≤ f) && decide (f < splitSub s)
    | _ => s.maps.phase == .stageC && decide (splitSub s ≤ f)
  if !inStage || s.maps.overrun.isSome then s
  else overrunAt stage f (onlyIf (stage == 0) (modMaps (fun m => { m with phase := .stageB })) (firstPass (stageFrom stage s) f s))

/-! ## Close and history (R282, R283, R297) -/

/-- SIG_READ results of a closed cycle (R283). -/
def sigResults (s : State) (cycle first count : Nat) : List Byte :=
  match closedImage s cycle with
  | some img => leBytes 8 cycle ++ (upFrom first count).flatMap (fun x => leBytes 8 (closedEntry img x).toNat)
  | none => leBytes 8 cycle

/-- The running history copy is complete (R282): reads that wait for it are answered. -/
def copyDone (s : State) : State :=
  match s.maps.copying with
  | some c =>
    let s := modMaps (fun m => { m with copied := some c, copying := none, replaced := none }) s
    let waits := s.cmd.inflight.filter (fun x => x.opcode == 0x0301 && x.phase == .issued
      && (rd x.params 8 8 == c || rd x.params 8 8 == 2 ^ 64 - 1))
    waits.foldl (fun s x => complete x.session x.tag .ok (sigResults s c (rd x.params 0 4) (rd x.params 4 2)) s) s
  | none => s

/-- The running cycle closes (R282). -/
def closeCycle (s : State) : State :=
  if s.maps.phase = .idle then s
  else
    let s := recode (copyDone (packAndClose s))
    modMaps (fun m => { m with
      history := sins m.history (m.cycle % 16) ⟨m.cycle, m.slots, m.descs⟩, lastClosed := some m.cycle, copying := some m.cycle
      replaced := slook m.history (m.cycle % 16)
      phase := .idle, overrun := none }) s

/-! ## Release (R174) -/

/-- An instance takes effect. -/
def releaseInst (i : Instance_) (s : State) : State :=
  match descKind i.target with
  | 2 => iolRelease (descUnit i.target) i.bytes i.valid s
  | 3 => setLines (descUnit i.target) (leVal i.bytes) i.mask s
  | _ => packEngine (descUnit i.target) (leVal i.bytes) s

/-- OUTPUT_RELEASE (R174, R330): what is due takes effect. -/
def outputRelease (s : State) : State :=
  let due := s.maps.instances.filter (fun i => decide (i.release ≤ nsNow s))
  let s := modMaps (fun m => { m with instances := m.instances.filter (fun i => !decide (i.release ≤ nsNow s)) }) s
  dlRelease (due.foldl (fun s i => releaseInst i s) s)

/-! ## The boundary -/

/-- Begin cycle `k` (R275): accepted changes, injections, gather. -/
def beginCycle (k : Nat) (s : State) : State :=
  let s := modMaps (fun m => { m with
    cycle := k, phase := .stageA, overrun := none, codedArmed := m.codedArmed ++ m.codedInject, codedInject := [] }) s
  gather k s

/-- Every gap of every stream is reported LOST (R148). -/
def allGapsLost (s : State) : List Handed × State :=
  s.sw.holdBack.foldl (fun (acc : List Handed × State) h =>
    let x := lostAll (h.held.length + 1) h acc.2
    (acc.1 ++ x.1, x.2)) ([], s)

/-- The hub enters ISOLATED (R148): every copy and gap is LOST; ring time is no longer locked, and the counter runs on at the frozen rate
(R154; log entry 95). -/
def isolate (s : State) : List Handed × State :=
  let r := allGapsLost (dropReplay s)
  (r.1, ringEvent 5 0 s.ring.node (toHub .isolated none
    (modTime (fun t => { t with locked := false, good := 0, source := 0, rate := meanRate t }) r.2)))

/-- RUN and ISOLATED change into each other (R17, R148): RUN at the first ring cycle boundary with ring time locked. -/
def runOrIsolated (s : State) : List Handed × State :=
  match s.hub with
  | .run => if noSpanUp s then isolate s else ([], s)
  | .isolated => if !noSpanUp s && s.time.locked then ([], toHub .run none s) else ([], s)
  | _ => ([], s)

/-- The role that a light list in force gives this hub (R91, R142). -/
def takeRole (s : State) : State :=
  match s.ring.light with
  | some l =>
    if s.master.role = 0 ∧ numbered s ∧ l.backup.toNat = s.ring.node ∧ l.master.toNat ≠ s.ring.node then modMaster (fun m => { m with role := 2 }) s
    else if s.master.role = 2 ∧ l.backup.toNat ≠ s.ring.node then modMaster (fun m => { m with role := 0, lostUp := none }) s
    else s
  | none => s

/-- What every boundary brings, whether or not a cycle runs: light list, number, switch settings, CYC budget, beacon (R90, R87,
R107, R110, R146, R156). -/
def ringBoundary (k : Nat) (s : State) : List Handed × State :=
  let s := applyAssign k s
  let r := commitLight k s
  let s := regainRole (yieldRole (takeRole r.2))
  let s := s.sw.pendingCfg.foldl (fun s x => csrPut x.1 x.2.toNat s) s
  let s := modSw (fun w => { w with pendingCfg := [], cycBytes := [] }) s
  let s := proofOver k (notePoolMin (modTime (fun t => { t with missed := t.missed + 1 }) s))
  (r.1, if isMaster s then sendBeacon k (noteTakeover k s) else s)

/-- An activation accepted for cycle `k` or before (R400). -/
def configDue (k : Nat) (s : State) : Bool :=
  s.maps.changes.any (fun c => match c with | .config _ _ j _ => decide (j ≤ k) | _ => false)

/-- The hub enters RUN or ISOLATED (R17, R148). -/
def enterField (st : HubState) (s : State) : List Handed × State :=
  if st = .isolated then isolate s else ([], toHub st none s)

/-- The hub leaves HELD (R400). -/
def leaveHeld (st : HubState) (s : State) : List Handed × State :=
  enterField st (modReset (fun r => { r with bootStep := 8, heldCause := 0, heldSection := 0xFF, heldOffset := 0 }) (condEnd 0x0A01 false s))

/-- A sleep entry is due at cycle `k` (R376). -/
def sleepDue (k : Nat) (s : State) : Bool :=
  match s.power.sleepAt with
  | some (_, j, _, _) => decide (j ≤ k)
  | none => false

/-- After the wake sequence (R379): ISOLATED with no span up, RUN once ring time is locked. SL3 lost its maps: they are taken
anew. -/
def wakeBoundary (k : Nat) (s : State) : List Handed × State :=
  let next := match s.maps.lastClosed with | some l => decide (k > l) | none => true
  let st : Option HubState := if noSpanUp s then some .isolated else if s.time.locked && next then some .run else none
  match st with
  | some st =>
    let s := if s.power.sleepLevel = 3 then takeEffect s.upd.inForce s else takeChanges k s
    let r := enterField st (modPower (fun p => { p with wakeDone := false, sleepLevel := 0 }) s)
    (r.1, if next then beginCycle k r.2 else r.2)
  | none => ([], s)

/-- The map part of a boundary: the cycle before closes, changes take effect, cycle `k` begins. -/
def mapBoundary (k : Nat) (s : State) : List Handed × State :=
  let s := closeCycle s
  match s.hub with
  | .held =>
    match fieldState s with
    | some st =>
      if configDue k s then
        let r := leaveHeld st (takeChanges k s)
        (r.1, beginCycle k r.2)
      else ([], s)
    | none => ([], s)
  | .sleep => if s.power.wakeDone then wakeBoundary k s else ([], s)
  | _ =>
    if fieldLive s && s.maps.active && !sleepDue k s then
      let s := takeChanges k s
      ([], if (match s.maps.lastClosed with | some l => decide (k > l) | none => true) then beginCycle k s else s)
    else ([], s)

/-- CYCLE_BOUNDARY (R275, R171, R17): the boundary of the present cycle, once. -/
def cycleBoundary (s : State) : List Handed × State :=
  let k := cycleNow s
  if s.maps.boundary = some k ∨ s.reset_.inReset then ([], s)
  else
    let s := modMaps (fun m => { m with boundary := some k }) s
    let r := ringBoundary k s
    let q := runOrIsolated r.2
    let m := mapBoundary k q.2
    (r.1 ++ q.1 ++ m.1, m.2)

/-- FIRST_CYCLE (R396, R397): after step 7, with a span up and ring time locked, or with no span to come, the configuration
takes effect and the hub enters RUN or ISOLATED. -/
def firstCycle (s : State) : List Handed × State :=
  let k := cycleNow s
  match s.hub, s.reset_.bootStep, fieldState s with
  | .boot, 7, some st =>
    if s.reset_.inReset then ([], s)
    else
      let r := if s.maps.boundary = some k then ([], s) else ringBoundary k (modMaps (fun m => { m with boundary := some k }) s)
      let s := takeEffect s.upd.inForce r.2
      let q := enterField st (modReset (fun x => { x with bootStep := 8 }) s)
      (r.1 ++ q.1, beginCycle k q.2)
  | .held, _, some _ => cycleBoundary s
  | _, _, _ => ([], s)

end Sys2Proof.Machine
end

