-- ==== Sys2Proof/Machine/Commands.lean ====
section
/-! DEFINITION. Sessions, retained replies, and the way replies and events leave by the host paths (R38 to R64). -/

namespace Sys2Proof.Machine

open Sys2Proof

/-! ## Sessions (R48 to R53) -/

/-- The session of a number, open or suspended. -/
def sess (s : State) (n : Nat) : Option Session := s.cmd.sessions.find? (fun x => x.num == n)

def modSession (n : Nat) (f : Session → Session) (s : State) : State :=
  modCmd (fun c => { c with sessions := c.sessions.map (fun x => if x.num = n then f x else x) }) s

/-- Sessions open, suspended ones left out (R53, R60). -/
def openCount (s : State) : Nat := s.cmd.sessions.countP (fun x => !x.suspended)

/-- The lowest free session number (R48): one whose commands are all answered (log entry 19). -/
def freeNumber (s : State) : Option Nat :=
  (upFrom 1 255).find? (fun n => !s.cmd.sessions.any (fun x => x.num == n) && !s.cmd.inflight.any (fun x => x.session == n))

/-- The command interpreter takes commands (R15, R16): from boot step 5 on, outside reset, OFF, SL2 and SL3, unless the firmware of
that step failed; the boot ROM of R435 serves the maintenance port alone. -/
def serves (s : State) (p : Path) : Bool :=
  !s.reset_.inReset &&
  match s.hub with
  | .off => false
  | .boot => (decide (5 ≤ s.reset_.bootStep) && s.reset_.bootFail == 0) || (s.upd.recovery && p == .maint)
  | .sleep => s.power.sleepLevel == 1 || s.power.wakeDone
  | _ => true

/-- Commands whose reply stands unsent (R42): it waits to leave, in its originating block (R109) or in the PCIE queue (R105). -/
def owed (s : State) : List Owed :=
  s.cmd.out.filterMap (·.frees) ++ s.sw.heldOut.filterMap (·.frees) ++ (queueOf s .pcie 2).filterMap (·.frees)

/-- Commands in flight of a session (R42): accepted and not yet answered, each multi-part command once. -/
def inFlightOf (s : State) (n : Nat) : Nat :=
  s.cmd.inflight.countP (fun c => c.session == n) + s.cmd.partials.countP (fun a => a.cmd.session == n)
    + (owed s).countP (fun o => o.session == n)

/-- An access that another node carries here stands among the commands under a number of its own, 256 + 256·node + session (log
entry 18); it takes no in-flight place. -/
def carriedSession (node session : Nat) : Nat := 256 + node * 256 + session

/-- The command is a carried access. -/
def isCarried (c : Cmd) : Bool := decide (256 ≤ c.session)

/-- Commands in flight of the hub. -/
def inFlight (s : State) : Nat := s.cmd.inflight.countP (fun c => !isCarried c) + s.cmd.partials.length + (owed s).length

/-! ## Replies (R40, R41, R46) -/

/-- Parts of a result: `n` of them, of at most 16,352 bytes each. -/
def resultParts : Nat → List Byte → List (List Byte)
  | 0, _ => []
  | n + 1, bs => bs.take maxParams :: resultParts n (bs.drop maxParams)

/-- The packets of a reply, numbered, MORE on all but the last (R46). -/
def replyPackets (flags session tag opcode : Nat) (st : Status) (results : List Byte) : List (List Byte) :=
  let n := max 1 (ceilDiv results.length maxParams)
  (resultParts n results).zipIdx.map (fun (part, i) =>
    packetBytes { kind := 1, flags := flags + (if i + 1 < n then 16 else 0), opcode := opcode, session := session, tag := tag,
                  target := statusNo st, part := i } none part)

/-- Packets leave by a path: a ring node takes them as RSP (R109), the other paths queue them (R60, R64). The sending of the last
one answers the command `frees` (R42). -/
def sendOut (path : Path) (session : Nat) (frees : Option Owed) (pkts : List (List Byte)) (s : State) : State :=
  let last := pkts.length
  match path with
  | .ring n => pkts.zipIdx.foldl (fun s p =>
      onlyIf (numbered s) (sendPacketFor (if p.2 + 1 = last then frees else none) 2 n.val p.1) s) s
  | p =>
    modCmd (fun c => { c with
      out := c.out ++ pkts.zipIdx.map (fun (b, i) =>
        { path := p, session := session, frees := if i + 1 = last then frees else none, bytes := b, made := c.made, counted := false })
      made := c.made + 1 }) s

/-- A reply that is not retained (R38). -/
def directReply (path : Path) (session tag opcode : Nat) (st : Status) (results : List Byte) (s : State) : State :=
  sendOut path session none (replyPackets 0 session tag opcode st results) s

/-- Retain a reply among the last 256 (R41). -/
def retain (r : Reply) (s : State) : State :=
  modCmd (fun c => { c with retained := (c.retained ++ [r]).drop (c.retained.length + 1 - 256) }) s

/-- The newest retained reply of a tag of a session (R40). -/
def retainedOf (s : State) (se : Session) (tag : Tag) : Option Reply :=
  s.cmd.retained.reverse.find? (fun r => !r.opening && r.session == se.num && r.nonce == se.nonce && r.tag == tag)

/-- Send a retained reply again, RETAINED in every part, and count it (R40). -/
def resendReply (path : Path) (r : Reply) (s : State) : State :=
  bump 0x140020 (sendOut path r.session none
    (replyPackets 128 (if r.opening then 0 else r.session) r.tag.toNat r.opcode r.status r.results) s)

/-- The reply is kept in MRAM with the session record (R53): a COLD or WARM write of RST_CTL (R390), a commit of K (R431). -/
def mramReply (s : State) (c : Cmd) : Bool :=
  (c.opcode == 0x0901 && rd c.params 0 1 == 3)
    || (c.opcode == 0x0008 && (rd c.params 7 1 == 0 || rd c.params 7 1 == s.ring.node) && rd c.params 0 7 == 0x10000
        && decide (bits (rd c.params 12 4) 0 2 < 2))

/-- The path of a session now; its commands' own path once it is closed (R48). -/
def pathOf (s : State) (c : Cmd) : Path := match sess s c.session with | some se => se.path | none => c.path

/-- The command of a multicast item stands under numbers above those of carried accesses; its target is the item ID (R118). -/
def itemSession (node session : Nat) : Nat := 65792 + node * 256 + session

def isItem (c : Cmd) : Bool := decide (65792 ≤ c.session)

/-- Delivery report of a multicast item (R118). -/
def sendReport (node id status : Nat) (s : State) : State :=
  onlyIf (numbered s) (sendUnicast 2 node ([0x50, 0] ++ leBytes 2 status ++ leBytes 4 id ++ zeros 4)) s

/-- An item was executed: its status is kept among the source's last 256 and reported (R118). -/
def itemDone (c : Cmd) (st : Status) (s : State) : State :=
  let src := (c.session - 65792) / 256
  let s := modSw (fun w =>
    let l := sget [] w.mcDone src ++ [(BitVec.ofNat 32 c.target, statusNo st)]
    { w with mcDone := sput [] w.mcDone src (l.drop (l.length - 256)) }) s
  sendReport src c.target (statusNo st) s

/-- What follows the sending of a reply (R431): behind that of UPD_COMMIT the UPDATE event of kind 0, and the start of S or K 2,000 ticks
later. -/
def afterReply (c : Cmd) (st : Status) (s : State) : State :=
  if c.opcode = 0x0901 ∧ st = .ok then
    emit 6 [BitVec.ofNat 8 (rd c.params 0 1), 0] (modUpd (fun u => { u with
      start := u.start.map (fun x => if 2 ≤ x.1 then (x.1, s.time.up + 2000) else x) }) s)
  else s

/-- The reply of a command of a session: retained, sent unless NORPLY, and again for each repeat that waited (R40, R41). Those of a session
that is closed are retained only (R52). -/
def sendAnswer (c : Cmd) (st : Status) (results : List Byte) (s : State) : State :=
  let nonce := match sess s c.session with | some se => se.nonce | none => 0
  let r : Reply := { session := c.session, tag := c.tag, opcode := c.opcode, status := st, results := results, nonce := nonce,
                     opening := false, inMram := mramReply s c }
  let s := retain r s
  if (sess s c.session).isNone && c.opcode != 0x0002 then s
  else
    let p := pathOf s c
    let s := onlyIf (!(bit c.flags.toNat 2)) (sendOut p c.session (some ⟨c.session, c.tag, c.opcode⟩)
      (replyPackets 0 c.session c.tag.toNat c.opcode st results)) s
    (List.range c.repeats).foldl (fun s _ => resendReply p r s) s

/-- Answer a completed command (R40 to R42). The reply of a carried access goes back to its node and is not retained. -/
def answer (c : Cmd) (s : State) : State :=
  match c.phase with
  | .ready st results =>
    if isItem c then itemDone c st s
    else if isCarried c then sendOut c.path (c.session % 256) none (replyPackets 0 (c.session % 256) c.tag.toNat c.opcode st results) s
    else afterReply c st (sendAnswer c st results s)
  | _ => s

def isReady (c : Cmd) : Bool := match c.phase with | .ready _ _ => true | _ => false

/-- Commands whose reply may leave: complete, with no earlier command of their session unanswered (R42), and those that stay.
The first argument lists the sessions held back by a command that stays. -/
def splitReady : List Nat → List Cmd → List Cmd × List Cmd
  | _, [] => ([], [])
  | held, c :: t =>
    if isReady c && !held.contains c.session then
      let r := splitReady held t
      (c :: r.1, r.2)
    else
      let r := splitReady (c.session :: held) t
      (r.1, c :: r.2)

/-- Send every reply whose turn has come (R42). -/
def flushReplies (s : State) : State :=
  let r := splitReady [] s.cmd.inflight
  r.1.foldl (fun s c => answer c s) (modCmd (fun c => { c with inflight := r.2 }) s)

/-! ## Events on their way out (R54, R55) -/

/-- The packet of an event. -/
def eventPacket (n : Nat) (e : Event) : List Byte :=
  packetBytes { kind := 2, flags := if e.loss then 64 else 0, opcode := e.code, session := n, tag := e.seq.toNat, target := 0,
                part := 0 } none e.params

def isRing : Path → Bool
  | .ring _ => true
  | _ => false

/-- Events of sessions on the ring leave as RSP at once; the switch holds what does not fit (R109). -/
def ringEvents (s : State) : State :=
  s.cmd.sessions.foldl (fun s se =>
    if isRing se.path && !se.suspended && !se.events.isEmpty then
      se.events.foldl (fun s e => sendOut se.path se.num none [eventPacket se.num e] s)
        (modSession se.num (fun x => { x with events := [] }) s)
    else s) s

/-- Bytes in the maintenance port's outbound queue. -/
def mntBytes (s : State) : Nat := (s.cmd.mntOut.map (fun x => x.2.length)).sum

/-- A packet enters the outbound queue with the next number (R62, R64). -/
def mntPut (bs : List Byte) (s : State) : State :=
  modCmd (fun c => { c with mntOut := c.mntOut ++ [(c.mntSeq, bs)], mntSeq := c.mntSeq + 1 }) s

/-- The session of a path whose next event was produced first, with that event. -/
def firstEvent (p : Path) (s : State) : Option (Session × Event) :=
  (s.cmd.sessions.filter (fun se => se.path == p && !se.suspended)).foldl (fun m se =>
    match se.events, m with
    | e :: _, some x => if e.made < x.2.made then some (se, e) else m
    | e :: _, none => some (se, e)
    | [], _ => m) none

/-- The reply or event of a path that was produced first, and the hub without it (R64). -/
def nextOut (p : Path) (s : State) : Option (OutPkt × State) :=
  let event (x : Session × Event) : OutPkt × State :=
    ({ path := p, session := x.1.num, frees := none, bytes := eventPacket x.1.num x.2, made := x.2.made, counted := true },
      modSession x.1.num (fun se => if se.path = p then { se with events := se.events.drop 1 } else se) s)
  let reply (o : OutPkt) : OutPkt × State := (o, modCmd (fun c => { c with out := c.out.erase o }) s)
  match s.cmd.out.find? (fun o => o.path == p), firstEvent p s with
  | some o, some x => some (if x.2.made < o.made then event x else reply o)
  | some o, none => some (reply o)
  | none, some x => some (event x)
  | none, none => none

/-- Packets of a path that wait. -/
def waitingOn (p : Path) (s : State) : Nat :=
  s.cmd.out.countP (fun o => o.path == p) + (s.cmd.sessions.map (fun se => if se.path = p then se.events.length else 0)).sum

/-- Move waiting replies and events into the maintenance port's outbound queue, in the order in which they were produced, while
they fit in its 64 KiB (R64). -/
def mntFill : Nat → State → State
  | 0, s => s
  | n + 1, s =>
    match nextOut .maint s with
    | some x => if mntBytes s + x.1.bytes.length ≤ 65536 then mntFill n (mntPut x.1.bytes x.2) else s
    | none => s

/-! ## The PCIe rings (R60, R105, R109) -/

/-- Slots of a command ring: 2^n (R60). -/
def ringSlots (s : State) : Nat := 2 ^ fld s 0x140048 0 4

/-- Both rings run. -/
def ringsOn (s : State) : Bool := fld s 0x140048 4 1 == 1

/-- Completion slots that are free: the ring is full when its tail is one slot behind its head. -/
def cqFree (s : State) : Nat :=
  (fld s 0x140058 0 8 + 2 * ringSlots s - 1 - fld s 0x140054 0 8 % ringSlots s) % ringSlots s

/-- The completion ring is full. -/
def cqFull (s : State) : Bool := cqFree s == 0

/-- A packet of this hub as it stands in the PCIE queue (R105). -/
def pcieFrame (o : OutPkt) (s : State) : Frame := { newFrame s 2 s.ring.node 0 false o.bytes with src := 0, frees := o.frees }

/-- Replies and events for PCIe sessions pass into the PCIE queue in the order in which they were produced, no more than there are
completion slots for them (R60, R105, R320); a reply without room is held and counted (R109). After the rings were disabled
only replies to what was fetched go on (R60). -/
def pcieFill : Nat → State → State
  | 0, s => s
  | n + 1, s =>
    match nextOut .pcie s with
    | some (o, t) =>
      if (!ringsOn s && !s.cmd.out.contains o) || decide (cqFree s ≤ (allClasses.map (fun c => (queueOf s .pcie c).length)).sum) then s
      else if judge s .pcie (pcieFrame o s) = .yes then pcieFill n (enqueue .pcie (pcieFrame o s) t)
      else if o.counted then s
      else bump 0x60410 (modCmd (fun c => { c with out := c.out.map (fun x => if x = o then { x with counted := true } else x) }) s)
    | none => s

/-- Replies and events leave by the paths that take them: ring, maintenance port, PCIe; frames held for room are offered again
(R109). -/
def drainPaths (s : State) : State :=
  let s := ringEvents (offerAll s)
  let s := mntFill (waitingOn .maint s) s
  pcieFill (waitingOn .pcie s) s

/-! ## Closing sessions (R51 to R53) -/

/-- A session ends (R51, R52): its locks are released, its number is freed; a multi-part command being received ends with it. -/
def closeSession (n : Nat) (s : State) : State :=
  modCmd (fun c => { c with
    sessions := c.sessions.filter (fun x => x.num != n)
    partials := c.partials.filter (fun a => a.cmd.session != n)
    locks := c.locks.filter (fun l => l.2.session != n) }) s

/-- SESSION_LEASE_LAPSE (R52): no command arrived for the lease time. -/
def leaseLapse (n : Nat) (s : State) : State :=
  match sess s n with
  | some se =>
    if !se.suspended ∧ se.lease ≠ 0 ∧ since se.lastUp s ≥ se.lease * 2000000 then
      let s := closeSession n s
      let h := leBytes 1 (hubNo s.hub)
      emit 1 (h ++ h ++ [0x10]) s
    else s
  | none => s

/-- SUSPENDED_SESSION_FREE (R53): not resumed within 60 s of leaving BOOT. -/
def suspendedFree (n : Nat) (s : State) : State :=
  match sess s n with
  | some se =>
    if se.suspended ∧ s.hub ≠ .boot ∧ s.hub ≠ .off ∧ !s.reset_.inReset ∧ since s.cmd.leftBootUp s ≥ 120000000 then closeSession n s
    else s
  | none => s

/-! ## Multi-part commands (R45) -/

/-- End a multi-part command: its tag is consumed, and its reply takes its place in tag order. -/
def endAssembly (n : Nat) (st : Status) (s : State) : State :=
  match s.cmd.partials.find? (fun a => a.cmd.session == n) with
  | some a =>
    modSession n (fun x => { x with expected := x.expected + 1 }) (modCmd (fun c => { c with
      partials := c.partials.filter (fun a => a.cmd.session != n)
      inflight := c.inflight ++ [{ a.cmd with phase := .ready st [], effected := true }] }) s)
  | none => s

/-- MULTIPART_TIMEOUT (R45): no part within 100 ms. -/
def multipartTimeout (n : Nat) (s : State) : State :=
  match s.cmd.partials.find? (fun a => a.cmd.session == n) with
  | some a => onlyIf (decide (since a.lastUp s ≥ 200000)) (endAssembly n .aborted) s
  | none => s

/-! ## Sessions at a reset (R53, R387, R390) -/

/-- A SERVICE reset completes every command in flight with ABORTED, in tag order for each session. -/
def abortInflight (s : State) : State :=
  let s := s.cmd.partials.foldl (fun s a => endAssembly a.cmd.session .aborted s) s
  flushReplies (modCmd (fun c => { c with
    locks := []
    inflight := c.inflight.map (fun x => if isReady x then x else { x with phase := .ready .aborted [], effected := true }) }) s)

/-- What a WARM or COLD reset leaves of one session (R53), given the commands in flight that end ABORTED. -/
def suspendOne (cmds : List Owed) (se : Session) : Session :=
  let mine := cmds.filter (fun c => c.session == se.num)
  { se with
    suspended := true, events := [], lossPend := se.lossPend || !se.events.isEmpty
    abortedCount := mine.length
    firstAborted := match mine.head? with | some c => c.tag | none => 0 }

/-- Commands of sessions whose reply was not sent and is not kept in MRAM, those first whose reply was ready (R42, R53): a
SESSION_OPEN takes no tag of its session. -/
def abortedAt (s : State) : List Owed :=
  (owed s).filter (fun o => o.opcode != 1 && !s.cmd.retained.any (fun r => r.inMram && r.session == o.session && r.tag == o.tag && !r.opening))
    ++ (s.cmd.inflight.filter (fun c => !isCarried c && !(isReady c && mramReply s c))).map (fun c => ⟨c.session, c.tag, c.opcode⟩)

/-- A WARM or COLD reset suspends every session (R53): of the replies it keeps those in MRAM and ABORTED for each tag in flight. -/
def suspendSessions (s : State) : State :=
  let s := s.cmd.partials.foldl (fun s a => endAssembly a.cmd.session .aborted s) s
  let reply (o : Owed) (st : Status) (res : List Byte) : Option Reply := (sess s o.session).map (fun se =>
    { session := o.session, tag := o.tag, opcode := o.opcode, status := st, results := res, nonce := se.nonce, opening := false,
      inMram := true })
  let kept := s.cmd.retained.filter (·.inMram)
  let own := s.cmd.inflight.filterMap (fun c => match c.phase with
    | .ready st res => if mramReply s c then reply ⟨c.session, c.tag, c.opcode⟩ st res else none
    | _ => none)
  let all := kept ++ own ++ (abortedAt s).filterMap (fun o => reply o .aborted [])
  modCmd (fun c => { c with
    sessions := c.sessions.map (fun se => if se.suspended then se else suspendOne (abortedAt s) se)
    inflight := [], partials := [], locks := [], out := [], mntOut := [], heldPushes := [], pendingReset := none
    retained := all.drop (all.length - 256) }) s

/-! ## PCIe pushes that are held (R319) -/

/-- BAR2 address of a window's register (R317). -/
def barAddr (target off : Nat) : Nat := if target < 0x100 then target * 0x10000 + off else 0x800000 + (target - 0x100) * 0x1000 + off

/-- The target of a held PCIe write. -/
def heldTarget (h : HeldPush) : Nat := if h.engine then 0x100 + h.unit else h.unit

/-- A held write is dropped on record (R319). -/
def pushDropped (h : HeldPush) (s : State) : State :=
  detect 0x0002 { detail := unitDetail (if h.engine then 1 else 0) h.unit, address := barAddr (heldTarget h) 0x10,
                  initiator := h.requester, initKind := 2, access := 2 } (bump 0x140084 s)

end Sys2Proof.Machine
end

