-- ==== Sys2Proof/Machine/Slots.lean ====
section
/-! DEFINITION. Firmware slots, trials and fall-back, update ownership (R424 to R436). -/

namespace Sys2Proof.Machine

open Sys2Proof

/-! ## Slots (R424 to R426) -/

/-- Size of a firmware slot (R424). -/
def slotSize : Nat → Nat
  | 0 => 524288
  | 1 => 524288
  | 2 => 6291456
  | _ => 1048576

/-- The active slot and the other one. -/
def actSlot (x : FwComp) : FwSlot := if x.active then x.b else x.a
def othSlot (x : FwComp) : FwSlot := if x.active then x.a else x.b
def setAct (v : FwSlot) (x : FwComp) : FwComp := if x.active then { x with b := v } else { x with a := v }
def setOth (v : FwSlot) (x : FwComp) : FwComp := if x.active then { x with a := v } else { x with b := v }

/-- VERSION of a slot's header, 0 while EMPTY (R444). -/
def slotVersion (x : FwSlot) : Nat := if x.st = .empty then 0 else rd x.bytes 8 4

/-- The window of a header for a component includes a version (R426, R427). -/
def inWindow (hdr : List Byte) (c v : Nat) : Bool := decide (rd hdr (16 + 8 * c) 4 ≤ v) && decide (v ≤ rd hdr (20 + 8 * c) 4)

/-- A new image of component `c` is compatible with what is active (R427). -/
def compatible (s : State) (c : Nat) (hdr : List Byte) : Bool :=
  [0, 1, 2, 3].all (fun k =>
    let act := actSlot (comp s k)
    k == c || (inWindow hdr k (slotVersion act) && inWindow act.bytes c (rd hdr 8 4)))

/-- The service firmware reads a configuration format (R426). -/
def readsFormat (slot : FwSlot) (fmt : Nat) : Bool := bit (rd slot.bytes 7 1) fmt

/-- UPDATE event (R54). -/
def updateEvent (c kind : Nat) (s : State) : State := emit 6 [BitVec.ofNat 8 c, BitVec.ofNat 8 kind] s

/-! ## Ownership (R428) -/

/-- Ownership ends: a partial image of the owner is discarded, a whole one stays (R428). -/
def endOwner (s : State) : State :=
  let s := match s.upd.recv with
    | some (4, _) => onlyIf (s.upd.lehrSt == .receiving) (modUpd (fun u => { u with lehr := [], lehrSt := .empty })) s
    | some (c, _) => modComp c (fun x => if (othSlot x).st = .receiving then setOth {} x else x) s
    | none => s
  modUpd (fun u => { u with owner := none, recv := none, recvCount := 0 }) s

/-- The owner's session has ended (R428). -/
def ownerGone (s : State) : State :=
  match s.upd.owner with
  | some (se, _) => onlyIf (match sess s se with | some x => x.suspended | none => true) endOwner s
  | none => s

/-- The component of the firmware slot that the owner holds RECEIVING or COMPLETE; 0xFF for a configuration (R428). -/
def ownerComp (s : State) : Nat :=
  match [0, 1, 2, 3].find? (fun c => (othSlot (comp s c)).st == .receiving || (othSlot (comp s c)).st == .complete) with
  | some c => c
  | none => 0xFF

/-- OWNER_LAPSE (R428): 60 s without a block while no trial runs. -/
def ownerLapse (s : State) : State :=
  if s.upd.owner.isSome ∧ s.upd.trial.isNone ∧ since s.upd.lastBlockUp s ≥ 120000000 then
    updateEvent (ownerComp s) 3 (bump 0x120110 (endOwner s))
  else s

/-! ## Trials (R431 to R434) -/

/-- Exchange the active and lehr configuration slots (R432): the lehr state becomes what is given. -/
def exchangeCfg (st : LehrSt) (s : State) : State :=
  modUpd (fun u => { u with active := u.lehr, lehr := u.active, lehrSt := st }) s

/-- The trial image of a component is the one that runs from its start on (log entry 20). -/
def enterTrial (c : Nat) (s : State) : State :=
  let s := modComp c (fun x => if (othSlot x).st = .trial then { x with active := !x.active } else x) s
  -- R432: a trial S that does not read the active format takes the staged one
  if c = 2 ∧ !readsFormat (actSlot (comp s 2)) (imgFormat s.upd.active) ∧ s.upd.lehrSt = .valid ∧ (actSlot (comp s 2)).st = .trial then
    exchangeCfg .kept s
  else s

/-- A trial ends by fall-back (R434): the older slot is active again, a kept configuration comes back, ownership ends. `failed`:
verification failed in the trial slot. The event and the count follow the restart. -/
def fallBack (failed : Bool) (s : State) : State :=
  match s.upd.trial with
  | none => s
  | some (c, _) =>
    let end_ (v : FwSlot) : FwSlot := if v.st = .trial then { v with st := if failed then .bad else .valid } else v
    let s := modComp c (fun x =>
      let x := if (actSlot x).st = .trial then { x with active := !x.active } else x
      { x with a := end_ x.a, b := end_ x.b }) s
    let s := if s.upd.lehrSt = .kept then exchangeCfg .valid s else s
    modUpd (fun u => { u with trial := none, start := none, fellBack := some c }) (endOwner s)

/-- The UPDATE event of a fall-back, and its count, once the component has started again (R434; log entry 20). -/
def tellFallBack (s : State) : State :=
  match s.upd.fellBack with
  | some c => updateEvent c 2 (bump 0x12010C (modUpd (fun u => { u with fellBack := none }) s))
  | none => s

/-- A start that was due is made by a reset that loads the component anyway (R424, R434). -/
def startByReset (cs : List Nat) (s : State) : State :=
  match s.upd.start with
  | some (c, _) => if cs.contains c then enterTrial c (modUpd (fun u => { u with start := none }) s) else s
  | none => s

/-- The trial time left is kept by the second through a loss of power (R433); `up` counts on from it at BOOT. -/
def saveTrial (s : State) : State :=
  modUpd (fun u => { u with trial := u.trial.map (fun (c, e) => (c, ceilDiv (e - s.time.up) 2000000 * 2000000)) }) s

def resumeTrial (s : State) : State := modUpd (fun u => { u with trial := u.trial.map (fun (c, left) => (c, s.time.up + left)) }) s

/-- Load a component at BOOT (R435): the active slot where it verifies, else the other one where it is VALID. `good`: the active
slot's content verifies. Answers whether one was loaded. -/
def loadComp (c : Nat) (good : Bool) (s : State) : Bool × State :=
  if good then (true, modComp c (fun x => { x with bootAlt := false }) s)
  else if s.upd.trial.any (fun t => t.1 == c) ∧ (actSlot (comp s c)).st = .trial then (true, fallBack true s)
  else if (othSlot (comp s c)).st = .valid then
    (true, modComp c (fun x =>
      let x := setAct { actSlot x with st := .bad } x
      { x with active := !x.active, bootAlt := true }) s)
  else (false, s)

/-! ## Identity and tags at BOOT (R441, R443) -/

/-- Bytes of the identity block (R443). -/
def identBytes (s : State) : List Byte := (List.range 4096).map (fun i => sget 0 s.upd.ident i)

/-- BOOT checks the identity block's CRC (R443). -/
def identCheck (s : State) : State :=
  let b := identBytes s
  modUpd (fun u => { u with idBad := crc32c (b.take 4092) != rd b 4092 4 }) s

end Sys2Proof.Machine
end

