-- ==== Sys2Proof/Machine/Reset.lean ====
section
/-! DEFINITION. Reset sources, reaches and their effects (R386 to R394), the VIN stage and PWRGD (R360 to R364), BOOT (R395 to
R400) and the reset record (R401 to R403). -/

namespace Sys2Proof.Machine

open Sys2Proof

/-! ## Reaches (R386, R387) -/

/-- Reach of a cause code (R386). -/
def causeReach (c : Nat) : Reach :=
  if c ≤ 4 ∨ c = 7 then .cold else if c = 9 then .service else .warm

/-- Number of a reach (R404); the larger, the narrower. -/
def reachNo : Reach → Nat
  | .cold => 0
  | .warm => 1
  | .service => 2
  | .block => 3

/-- Register fields of the reach, and of narrower ones, load their reset values; totals of counters restart (R9, R23, R439). -/
def resetRegs (r : Reach) (s : State) : State :=
  let covered (f : FieldRow) : Bool := match f.reach with | some x => r.covers x | none => false
  let keep := s.csr.filterMap (fun e =>
    let rows := rowsAt s e.1
    let v := rows.foldl (fun w f => if covered f then setBits w f.lo f.w (bits (resetOf s e.1) f.lo f.w) else w) e.2.toNat
    if v = resetOf s e.1 then none else some (e.1, BitVec.ofNat 32 v))
  { s with csr := keep, totals := s.totals.filter (fun e => !(rowsAt s e.1).any covered)
           shelf := if r = .block then s.shelf else [] }

/-- Ports as a COLD or WARM reset leaves them: down, with what stands in the cages (R387). -/
def portReset (q : PortSt) : PortSt :=
  { modPresent := q.modPresent, los := q.los, txFault := q.txFault, modId := q.modId, cageOff := q.cageOff, cageUp := q.cageUp }

/-- An outlet at a reset (R372, R384, R387): SUPPLY_OFF without a trip; a SERVICE reset keeps its command; a latch is released (log
entry 21). -/
def outletReset (wide : Bool) (x : Outlet) : Outlet :=
  { x with st := .supplyOff, latched := false, waitCool := false, cooling := false, ma := 0, used := if wide then 0 else x.used, cmd := x.cmd && !wide }

def outletsReset (wide : Bool) (s : State) : State :=
  condEnd 0x0105 false (forEach (List.range 32) (fun o s => modOutlet o (outletReset wide) s) s)

/-- What every reset stops: maps, service, channels, engines, lines and outlets (R387). -/
def fieldReset (wide : Bool) (s : State) : State :=
  let s := outletsReset wide s
  let s := { s with
    maps := { n := s.maps.n, boundary := s.maps.boundary, history := s.maps.history }
    chans := [], engines := []
    dl := { lines := s.dl.lines.map (fun e => (e.1, { level := e.2.level, before := e.2.before, edgeTick := e.2.edgeTick }))
            banks := (s.dl.banks.map (fun e => (e.1, { e.2 with trip := false }))).filter (fun e => e.2 != {}), pend := [] } }
  let s := [0x0604, 0x0607, 0x0801, 0x0802, 0x0A01].foldl (fun s c => condEnd c false s) s
  let s := modCv (fun c => { next := c.next, restarts := c.restarts, lastScrubUp := c.lastScrubUp, lastImageUp := c.lastImageUp }) s
  let s := modPower (fun p => { p with plCmds := [], sleepAt := none, wakeDone := false, portsDown := false, waking := false, sleepLevel := 0 }) s
  let s := modTime (fun t => { t with syncBall := none, syncNext := none }) (modRing (fun r => { r with pubWaits := [] }) s)
  modReset (fun r => { r with bootStep := 5, bootFail := 0, heldCause := 0, heldSection := 0xFF, heldOffset := 0 }) s

/-- A SERVICE reset (R53, R387): E and S load again, sessions stay, commands in flight complete ABORTED, and PCIe pushes that are held
find their windows gone: each is dropped on record (R31, R319). The hub publishes nothing any more, and asks for no charge (R85). -/
def serviceReset (s : State) : State :=
  let held := s.cmd.heldPushes
  let s := fieldReset false s
  let s := startByReset [1, 2] (resetRegs .service s)
  let s := abortInflight (modCmd (fun c => { c with pendingReset := none, heldPushes := [] }) s)
  requestCharge s.maps.published (held.foldl (fun s h => pushDropped h s) s)

/-- Ring time at a WARM or COLD reset: held no longer (R466). The shadow of R402 runs on to the end of the reset, for a wider source asserted
meanwhile (R389; log entry 27). -/
def timeReset (t : TimeState) : TimeState :=
  { up := t.up, seconds := t.seconds, ns := t.ns, frac := t.frac, shadow := t.holds || t.shadow }

/-- Ring time is lost, at once with the ring island's power (R466). -/
def loseTime (s : State) : State := modTime (fun t => { up := t.up }) s

/-- A WARM or COLD reset (R387, R419): everything but the backup domain and MRAM. -/
def warmReset (r : Reach) (s : State) : State :=
  let s := suspendSessions s
  let s := fieldReset true s
  let s := ownerGone (startByReset [0, 1, 2, 3] (resetRegs r s))
  { s with
    changes := 0
    maps := { n := s.maps.n }
    ring := { east := portReset s.ring.east, west := portReset s.ring.west }
    sw := {}, master := { saved := s.master.saved }, time := timeReset s.time, cv := { lastScrubUp := s.time.up, lastImageUp := s.time.up }
    power := { s.power with level := 0, plTarget := none, plClocks := false, plVcore := false, plLastUs := 0, tjHigh := false }
    reset_ := { s.reset_ with bootStep := 1, bootLastMs := 0 }
    faults := { s.faults with sources := [], latches := [], ovf := [], pend := 0, commits := [] }
    cmd := { s.cmd with mntPtr := 0, mntInBad := false } }

/-! ## Sources (R386, R388, R389, R402, R403) -/

/-- The record of one assertion: COUNT adds to the cause's counter; LAST keeps the widest reach, then the first, then the lowest
code of one tick. -/
def recordCause (c : Nat) (s : State) : State :=
  let r := s.reset_
  if r.countMode then modReset (fun r => { r with counts := sput 0 r.counts c (min 0xFFFF (sget 0 r.counts c + 1)) }) s
  else
    let now := reachNo (causeReach c)
    let timed := s.time.holds || s.time.shadow
    let sameTick := r.asserted.any (fun a => a.1 == r.recCause && a.2 == s.time.up)
    if !r.inReset || decide (now < r.recReach) || (now == r.recReach && sameTick && decide (c < r.recCause)) then
      modReset (fun r => { r with
        recValid := true, recCause := c, recReach := now, recTv := timed
        recSec := (if timed then s.time.seconds else 0), recNs := (if timed then s.time.ns else 0) }) s
    else s

/-- Fall-back at a reset whose cause is WATCHDOG, CRITICAL or FAULT_CHIP (R434). -/
def fallAtCause (c : Nat) (s : State) : State := onlyIf (c == 6 || c == 0xA || c == 0xB) (fallBack false) s

/-- A source is asserted (R386, R388): recorded, and its reach takes effect where it is wider than the reset that runs. -/
def assertSource (c : Nat) (s : State) : State :=
  if s.reset_.asserted.any (fun a => a.1 == c) then s
  else
    let s := fallAtCause c (recordCause c s)
    let r := causeReach c
    let wider := !s.reset_.inReset || decide (reachNo r < reachNo s.reset_.reach)
    let off := c == 1 || c == 2
    let s := modReset (fun x => { x with asserted := x.asserted ++ [(c, s.time.up)], inReset := true
                                         reach := if wider then r else x.reach }) s
    let dest : HubState := if off || s.hub == .off then .off else .boot
    let s := if dest = .off ∧ s.hub ≠ .off then saveTrial s else s
    let s := toHub dest (if dest = .boot then some c else none) s
    let s := onlyIf (dest == .off) loseTime s
    if !wider then s else match r with
      | .service => serviceReset s
      | _ => warmReset r s

/-- Junction temperature, in 0.1 °C, of the THERMAL reset (R386). -/
def thermalLimit (s : State) : Int := if orderCode s = 2 then 1450 else 1350

/-- RESET_RELEASE (R386): the condition of the source has ended; fixed ones last 100 µs, those of the supply until PWRGD, THERMAL until the
junction is 20 K below its figure. -/
def resetRelease (c : Nat) (s : State) : State :=
  match s.reset_.asserted.find? (fun a => a.1 == c) with
  | some a =>
    let may := if c ≤ 2 then s.power.pwrgd
      else if c = 3 then decide (s.power.junctionDeciC ≤ thermalLimit s - 200)
      else if 6 ≤ c then decide (since a.2 s ≥ 200) else true
    if !may then s
    else
      let s := modReset (fun r => { r with asserted := r.asserted.filter (fun a => a.1 != c), lastReleaseUp := s.time.up }) s
      if s.reset_.asserted.isEmpty ∧ s.hub = .off then resumeTrial (toHub .boot (some c) s) else s
  | none => s

/-- Conditions that still hold are detected again when their blocks restart (R419). -/
def redetect (s : State) : State :=
  let s := s.power.vfbLow.foldl (fun s b => unitFault 0x0102 4 b s) s
  s.dl.banks.foldl (fun s e => onlyIf e.2.uv (unitFault 0x0803 4 e.1) s) s

/-- RESET_END (R388): 200 ticks after the last release BOOT begins; the outbound numbers of the maintenance port restart (R62). -/
def resetEnd (s : State) : State :=
  let r := s.reset_
  if r.inReset ∧ r.asserted.isEmpty ∧ since r.lastReleaseUp s ≥ 200 then
    let full := decide (r.reach ≠ .service)
    let s := modReset (fun r => { r with inReset := false, bootUp := s.time.up, bootStep := if full then 1 else 5 }) s
    let s := onlyIf full loseTime s
    let s := modCmd (fun c => { c with
      mntSeq := BitVec.ofNat 16 c.mntOut.length
      mntOut := c.mntOut.zipIdx.map (fun (x, i) => (BitVec.ofNat 16 i, x.2)) }) s
    let s := onlyIf full redetect s
    let s := if s.power.tripPend then detect 0x0101 {} (modPower (fun p => { p with tripPend := false }) s) else s
    onlyIf (!full) tellFallBack s
  else s

/-! ## Sources one by one -/

/-- COMMAND_RESET_ASSERT (R390). -/
def commandResetAssert (s : State) : State :=
  match s.cmd.pendingReset with
  | some (r, t) =>
    if since t s ≥ 2000 then
      assertSource (match r with | .cold => 7 | .warm => 8 | _ => 9) (modCmd (fun c => { c with pendingReset := none }) s)
    else s
  | none => s

/-- THERMAL (R386): the hottest junction, in 0.1 °C, and for how long it stands there. -/
def thermal (deciC : Int) (us : Nat) (s : State) : State :=
  let s := modPower (fun p => { p with junctionDeciC := deciC }) s
  if deciC ≥ thermalLimit s ∧ 10 ≤ us then assertSource 3 s else s

/-- PORST_N and WRST_N (R386): a pulse shorter than 2 µs is ignored. -/
def ballReset (c lowNs : Nat) (s : State) : State := onlyIf (decide (lowNs ≥ 2000)) (assertSource c) s

/-- WATCHDOG (R386). -/
def watchdog (us : Nat) (s : State) : State := onlyIf (decide (us ≥ 50000)) (assertSource 6) s

/-- CRITICAL (R392, R415): the log is frozen; the record waits in the backup domain for the next BOOT. -/
def critical (code : Nat) (s : State) : State :=
  if code / 256 ≠ 2 ∨ (sourceRow code).isNone ∨ s.faults.frozen then s
  else
    let tv := s.time.holds
    let e : LogEntry := { seq := 0, source := code, flags := 0x21 + (if tv then 16 else 0), reaction := bits (csr s (srcAddr code)) 0 5
                          time := (if tv then tickNow s * 500 else s.time.up), address := 0, initiator := 0, initKind := 0
                          access := 4, merges := 0, detail := 0 }
    assertSource 0xB (modFaults (fun f => { f with frozen := true, frozenCount := 0, backup := some e }) s)

/-- At BOOT step 2 the critical record is written from the backup domain, before any other (R415). -/
def writeCritical (s : State) : State :=
  match s.faults.backup with
  | none => s
  | some e =>
    let merges := min 0xFFFF s.faults.frozenCount
    let s := modFaults (fun f => { f with frozen := false, backup := none }) s
    let head := s.faults.head
    let s := detect e.source { address := e.address } s
    modFaults (fun f => { f with frozenCount := 0, log := match slook f.log (head % 512) with
      | some x => sins f.log (head % 512) { x with flags := e.flags, time := e.time, reaction := e.reaction, merges := merges }
      | none => f.log }) s

/-! ## The VIN stage (R360 to R362, R364) -/

/-- Rails of the four steps (R363). -/
def railSteps : List Byte := [0x20, 0x03, 0x1C, 0xC0]

/-- A tick of the regulators (R363): the rails of the lowest step that is not good become good within 1 ms of its start, a free value when
(log entry 5); no step runs while the bulk capacitance charges. Those that sleep switched off stay off. -/
def railsTick (s : State) : State :=
  let p := s.power
  if !p.stageOn || p.limit || p.rails == 0xFF || s.hub == .sleep then s
  else match railSteps.find? (fun m => p.rails &&& m != m) with
    | none => s
    | some m =>
      let d := draw s
      if since p.stepUp s ≥ 2000 ∨ d.1 % 2 = 1 then
        modPower (fun p => { p with rails := p.rails ||| m, stepUp := s.time.up, railsUp := s.time.up }) d.2
      else d.2

/-- The stage switches off: every rail falls, and PWRGD with them. -/
def stageOff (s : State) : State := modPower (fun p => { p with stageOn := false, limit := false, pwrgd := false, rails := 0 }) s

/-- BROWN_OUT (R360): VIN below 15.5 V for 10 µs. -/
def brownOut (mv us : Nat) (s : State) : State :=
  let s := modPower (fun p => { p with vinMv := mv }) s
  if mv < 15500 ∧ 10 ≤ us ∧ s.power.stageOn then assertSource 1 (stageOff s) else s

/-- VIN_OVERVOLTAGE (R360): above 34.0 V for 1 µs the stage is off until VIN is below 33.0 V. -/
def vinOvervoltage (mv us : Nat) (s : State) : State :=
  let s := modPower (fun p => { p with vinMv := mv }) s
  if mv > 34000 ∧ 1 ≤ us ∧ s.power.stageOn then
    assertSource 2 (stageOff (modPower (fun p => { p with ov := min 255 (p.ov + 1), ovLock := true }) s))
  else if mv < 33000 then modPower (fun p => { p with ovLock := false }) s
  else s

/-- VIN_STAGE_ON (R360, R362). -/
def vinStageOn (mv : Nat) (fet : Int) (s : State) : State :=
  let s := modPower (fun p => { p with vinMv := mv, fetDeciC := fet, ovLock := p.ovLock && decide (mv ≥ 33000) }) s
  let p := s.power
  let waited := match p.tripUp with | some t => decide (since t s ≥ 2000000) | none => true
  if p.stageOn ∨ mv < 17000 ∨ p.ovLock ∨ !waited then s
  else if fet ≥ 1000 then modPower (fun p => { p with gated := true, gateWait := true }) s
  else modPower (fun p => { p with stageOn := true, stepUp := s.time.up, railsUp := s.time.up, gated := p.gateWait, gateWait := false, tripUp := none }) s

/-- VIN_STAGE_LIMIT (R361): the limit begins, and the fault timer with it, or both end. -/
def vinStageLimit (entering : Bool) (s : State) : State :=
  if !s.power.stageOn ∨ s.power.limit = entering then s
  else if entering then bump 0x2010C (modPower (fun p => { p with limit := true, limitUp := s.time.up }) s)
  else modPower (fun p => { p with limit := false, stepUp := s.time.up, railsUp := s.time.up }) s

/-- VIN_TRIP (R361): 40 ms in the limit, or a FET above 150 °C. -/
def vinTrip (fet : Int) (s : State) : State :=
  let s := modPower (fun p => { p with fetDeciC := fet }) s
  if s.power.stageOn ∧ ((s.power.limit ∧ since s.power.limitUp s ≥ 80000) ∨ fet > 1500) then
    assertSource 2 (stageOff (modPower (fun p => { p with trips := min 255 (p.trips + 1), tripUp := some s.time.up, tripPend := true }) s))
  else s

/-- PWRGD_RISE (R364): every rail good for 10 ms with the fault timer idle. -/
def pwrgdRise (s : State) : State :=
  if s.power.stageOn ∧ !s.power.pwrgd ∧ !s.power.limit ∧ s.power.rails = 0xFF ∧ since s.power.railsUp s ≥ 20000 then
    modPower (fun p => { p with pwrgd := true }) s
  else s

/-- PWRGD_FALL (R364): the rails still good; a fall is treated as a brown-out. Rails that a sleep level has off are left out. -/
def pwrgdFall (rails : Byte) (s : State) : State :=
  let asleep : Byte := if s.hub = .sleep then (match s.power.sleepLevel with | 2 => 0x40 | 3 => 0xDF | _ => 0) else 0
  if s.power.pwrgd ∧ (rails ||| asleep) ≠ 0xFF then
    assertSource 1 (modPower (fun p => { p with pwrgd := false, rails := rails, stepUp := s.time.up, railsUp := s.time.up }) s)
  else s

/-- The backup domain starts from empty (R62, R382, R401). -/
def backupEmpty (s : State) : State :=
  let s := modReset (fun r => { r with
    countMode := false, recValid := false, recTv := false, recLoss := true, recCause := 0, recReach := 0, recSec := 0, recNs := 0
    counts := [] }) s
  modFaults (fun f => { f with backup := none })
    (modPower (fun p => { p with trips := 0, ov := 0, gated := false, gateWait := false, i2cAddr := 0x5C, lastSl := 0, lastSource := 0, lastMs := 0 }) s)

/-- POWER_ON (R386, R401): the backup domain first sees VIO, or PWRGD is low. -/
def powerOn (empty : Bool) (s : State) : State :=
  let s := onlyIf empty backupEmpty s
  if empty ∨ !s.power.pwrgd then assertSource 0 s else s

/-! ## The reset record (R401 to R404) -/

/-- RST_REC_CLR (R402, R403). -/
def recClear (s : State) : State :=
  modReset (fun r => { r with recValid := false, recTv := false, recCause := 0, recReach := 0, recSec := 0, recNs := 0, counts := [] }) s

/-- RST_REC_MODE_WRITE (R401). -/
def recModeSet (count : Bool) (s : State) : State :=
  if s.reset_.countMode = count then s else modReset (fun r => { r with countMode := count }) (recClear s)

/-! ## RST_CTL (R390, R391) -/

/-- BLOCK reset of a port (R387): ADMIN_DOWN for 1 ms, then DOWN. -/
def portBlock (p : Port) (s : State) : State := modPort p (fun q => { q with blockUntil := some (s.time.up + 2000) }) (setSpan p .adminDown s)

/-- BLOCK reset of a unit (R387): 0 channel, 1 engine, 2 outlet, 3 port. -/
def blockUnit (kind n : Nat) (s : State) : State :=
  match kind with
  | 0 => (chanReset n s).2
  | 1 => engineReset n s
  | 2 => (outSet n false s).2
  | _ => portBlock (portOf n) s

/-- The unit is one that the KIND has (R391). -/
def unitOk (kind n : Nat) : Bool :=
  match kind with
  | 0 => decide (n < 128)
  | 1 => decide (n < 32)
  | 2 => decide (n < 32)
  | _ => decide (n < 2)

/-- A write of RST_CTL (R390, R391): whether it was taken. -/
def rstCtl (reach kind index key : Nat) (s : State) : Bool × State :=
  if key ≠ 0xC3 ∨ (reach = 3 ∧ !unitOk kind index) then (false, sysErr 0 s)
  else if reach = 3 then (true, blockUnit kind index s)
  else
    let r : Reach := match reach with | 0 => .cold | 1 => .warm | _ => .service
    (true, modCmd (fun c => { c with pendingReset := some (r, s.time.up) }) s)

/-! ## BOOT (R395, R396, R399, R435) -/

/-- Ports come up at step 4 with the reset values of RING_PCFG (R395). -/
def portsEnable (s : State) : State :=
  let s := modReset (fun r => { r with step4Up := s.time.up }) s
  [Port.east, Port.west].foldl (fun s p => if bit (pcfg s p) 0 then adminPort p true s else s) s

/-- The active image fails: HELD, with the place of the fault (R399). -/
def enterHeld (v : Verdict) (s : State) : State :=
  let s := modReset (fun r => { r with heldCause := v.cause, heldSection := v.sect, heldOffset := v.off, bootStep := 6 }) s
  detect 0x0A01 {} (toHub .held (some (0x20 + v.cause)) s)

/-- Step 6: the active configuration is validated and taken into use, or the hub is HELD (R395, R398, R399). -/
def bootValidate (s : State) : State :=
  let b := s.upd.active
  let v := validate s b
  let s := cvNoteImage b v s
  if v.cause = 0 then takeImage b (modReset (fun r => { r with bootStep := 6 }) s) else enterHeld v s

/-- A step that loads firmware: it passes, or the hub stays there with FAIL (R435). -/
def bootLoad (step : Nat) (r : Bool × State) (k : State → State) : State :=
  let s := modReset (fun x => { x with bootStep := step }) r.2
  if r.1 then k s else modReset (fun x => { x with bootFail := step }) s

/-- BOOT_STEP (R395): the step that runs completes. Bit c of `verified` says that the content of the active slot of component c
verifies where the step loads it. -/
def bootNext (verified : BitVec 4) (s : State) : State :=
  if s.hub ≠ .boot ∨ s.reset_.inReset ∨ s.reset_.bootFail ≠ 0 then s
  else
    let ok (c : Nat) : Bool := verified.getLsbD c
    match s.reset_.bootStep with
    | 1 =>
      let r := loadComp 3 (ok 3) s
      if r.1 then bootLoad 2 r (fun s => writeCritical (identCheck (modUpd (fun u => { u with recovery := false }) s)))
      else modUpd (fun u => { u with recovery := true }) (identCheck (bootLoad 2 r id))
    | 2 => modReset (fun r => { r with bootStep := 3 }) s
    | 3 => bootLoad 4 (loadComp 0 (ok 0) s) portsEnable
    | 4 =>
      let e := loadComp 1 (ok 1) s
      let f := loadComp 2 (ok 2) e.2
      bootLoad 5 (e.1 && f.1, f.2) tellFallBack
    | 5 => bootValidate s
    | 6 => modReset (fun r => { r with bootStep := 7 }) s
    | _ => s

/-- SPAN_ALLOWANCE_EXPIRY (R396). -/
def spanAllowance (p : Port) (s : State) : State :=
  if 4 ≤ s.reset_.bootStep ∧ !isUp s p ∧ since s.reset_.step4Up s ≥ 100000 then modPort p (fun q => { q with allowanceOver := true }) s else s

end Sys2Proof.Machine
end

