-- ==== Sys2Proof/Machine/Sleep.lean ====
section
/-! DEFINITION. Sleep and wake (R376 to R380), and the voltages and currents that the hub reports. -/

namespace Sys2Proof.Machine

open Sys2Proof

/-- An update session owns the hub, or SL2 or SL3 is asked of the ring master or designated backup (R376, R428). -/
def sleepDenied (level : Nat) (s : State) : Bool :=
  s.upd.owner.isSome || (decide (level ≥ 2) && s.master.role != 0)

/-- Commands that sleep ends (R376): those of groups 0x02 to 0x06 whose effect needs the cycle, a channel, an engine or an
outlet, and those held for a cycle; not the SLEEP_ENTER itself, and not PL_SET. -/
def endedBySleep (session : Nat) (tag : Tag) (c : Cmd) : Bool :=
  let g := c.opcode / 256
  !isReady c && !(c.session == session && c.tag == tag)
    && ((decide (2 ≤ g) && decide (g ≤ 6) && c.opcode != 0x0603 && c.opcode != 0x0605)
      || (match c.phase with | .heldUntil _ _ => true | _ => c.effc.isSome && !c.effected))

/-- A channel's kept items no longer answer a command (R185, R376). -/
def keepItems (c : Chan) : Chan :=
  { c with txq := c.txq.map (fun i => match i.producer with | .send _ _ => { i with producer := .push } | _ => i), draining := [] }

/-- SLEEP_ENTRY (R326, R376): at T_k the last cycle closes, what needs the field ends with ABORTED, the engines halt, the hub is in SLEEP
and answers. -/
def sleepEntry (s : State) : State :=
  match s.power.sleepAt with
  | none => s
  | some (level, k, se, tag) =>
    if !fieldLive s ∨ cycleNow s < k then s
    else
      let s := modPower (fun p => { p with sleepAt := none }) s
      if sleepDenied level s then complete se tag .denied [] s
      else
        let s := modMaps (fun m => { m with boundary := some (cycleNow s), changes := [] }) (closeCycle s)
        let ended := s.cmd.inflight.filter (endedBySleep se tag)
        let s := ended.foldl (fun s c => complete c.session c.tag .aborted [] s) s
        let s := forEach (List.range 128) (fun ch s => modChan ch keepItems (abortWaiters ch s)) s
        let s := forEach (List.range 32) (fun e s => onlyIf (leActive (leState s e)) (haltNow e) s) s
        let s := modPower (fun p => { p with
          sleepLevel := level, sleepUp := s.time.up, portsDown := false, waking := false, wakeDone := false, wakeSource := 0 }) s
        let s := onlyIf (level == 3) (modTime (fun t => { t with holds := false, locked := false, good := 0 })) s
        complete se tag .ok [] (toHub .sleep none (setFld 0x004 4 2 level s))

/-- A channel in SL2 stands as in reset (R185, R377); whether it was enabled is kept for the wake, and SRAM keeps what it had received and
reported. -/
def chanSleep (c : Chan) : Chan :=
  { enabled := c.enabled, popSeq := c.popSeq, txSeq := c.txSeq, rxSeq := c.rxSeq, rxq := c.rxq, pendRpt := c.pendRpt, rptWaits := c.rptWaits
    history := c.history, dropPush := c.dropPush, joinTick := c.joinTick, rateFound := c.rateFound }

/-- SLEEP_PORTS_DOWN (R376, R377): 1 ms after the last release the ports of SL2 and SL3 go to ADMIN_DOWN, the field side stands
as in reset. SL3 keeps the backup domain and MRAM alone (log entry 22). -/
def sleepPortsDown (s : State) : State :=
  let p := s.power
  if s.hub ≠ .sleep ∨ p.sleepLevel < 2 ∨ p.portsDown ∨ since p.sleepUp s < mapDout s + 2000 then s
  else
    let s := setSpan .west .adminDown (setSpan .east .adminDown s)
    let s := forEach (List.range 128) (fun ch s => cutPush ch (failAll ch (chan s ch).txq .aborted s)) s
    let s := { s with
      chans := (s.chans.map (fun e => (e.1, chanSleep e.2))).filter (fun e => e.2 != {})
      dl := { s.dl with lines := s.dl.lines.map (fun e => (e.1, { e.2 with rises := [] })), pend := [] } }
    let s := modTime (fun t => { t with locked := false, good := 0 }) s
    let s := outletsOff (modPower (fun p => { p with portsDown := true }) s)
    if p.sleepLevel = 3 then
      let t := loseTime (warmReset .cold s)
      modPower (fun q => { q with sleepLevel := 3, sleepUp := p.sleepUp, portsDown := true, rails := 0x20 }) (setFld 0x004 4 2 3 t)
    else modPower (fun q => { q with rails := 0xBF }) s

/-- A wake starts (R378 to R380): 1 a WAKE frame, 2 the address match, which wins in one tick. Ports that sleep took down train
again. -/
def startWake (source : Nat) (s : State) : State :=
  if s.hub ≠ .sleep ∨ s.power.wakeDone then s
  else if s.power.waking then
    onlyIf (source == 2 && since s.power.wakeUp s == 0) (modPower (fun p => { p with wakeSource := 2 })) s
  else
    let s := modPower (fun p => { p with waking := true, wakeSource := source, wakeUp := s.time.up }) s
    if s.power.sleepLevel < 2 then s
    else
      let s := if s.power.sleepLevel = 3 then takeImage s.upd.active (modReset (fun r => { r with bootStep := 8 }) s) else s
      [Port.east, Port.west].foldl (fun s p =>
        if bit (pcfg s p) 0 then startLock p (if (portSt s p).span = .adminDown then setSpan p .down s else s) else s) s

/-- I2C_ADDRESS_MATCH (R378). -/
def i2cMatch (addr : Nat) (s : State) : State := onlyIf (addr == s.power.i2cAddr) (startWake 2) s

/-- WAKE_RX (R378): an awake hub ignores the frame; a hub in SL1 wakes where DST, ring ID and unique ID match. -/
def wakeRx (s : State) : State :=
  takeCtl 0x0B 16 (fun f s =>
    if s.hub ≠ .sleep ∨ s.power.sleepLevel ≠ 1 ∨ fld s 0x20014 7 1 = 0 then s
    else if f.dst = s.ring.node ∧ rd f.payload 4 4 = ringId s ∧ rd f.payload 8 8 = (myUid s).toNat then startWake 1 s
    else bump 0x20108 s) s

/-- PWR_WAKE_TX (R378, R382): the frame, or none for a reserved encoding; whether it was taken. -/
def wakeTx (node : Nat) (s : State) : Bool × State :=
  let known : Option LightEntry := match s.ring.light with
    | some l => l.entries.find? (fun e => e.node == node)
    | none => none
  match known with
  | some e =>
    if node = 0 ∨ node = 255 then (false, sysErr 0 s)
    else (true, onlyIf (numbered s) (sendCtl node 0 0 false ([0x0B, 0, 0, 0] ++ leBytes 4 (ringId s) ++ leBytes 8 e.uid.toNat)) s)
  | none => (false, sysErr 0 s)

/-- Channels after a wake (R185, R379): those enabled watch for idle again, the others rest. -/
def chansWake (s : State) : State :=
  forEach (List.range 128) (fun ch s =>
    let p := pers s ch
    modChan ch (fun c =>
      if isPartner (pers s) ch then { c with st := .partner }
      else if p = 0 then { c with st := .off }
      else if c.enabled then { c with st := .joining, busIdle := false, onWire := none, turnUntil := 0, can := { c.can with onBus := none, idleFrom := 0 } }
      else { c with st := .disabled }) s) s

/-- WAKE_SEQUENCE_END (R379): the record, then channels to JOINING and outlets to their commands; a verify failure of SL3 is a
WARM reset. Without a span the retrain of step 5 takes its 50 ms. `spanUp` says whether a span has retrained, as the spans show. -/
def wakeSequenceEnd (spanUp verifyOk : Bool) (s : State) : State :=
  let early := s.power.sleepLevel ≥ 2 ∧ !spanUp ∧ since s.power.wakeUp s < 100000
  if s.hub ≠ .sleep ∨ !s.power.waking ∨ spanUp = noSpanUp s ∨ early then s
  else if s.power.sleepLevel = 3 ∧ !verifyOk then assertSource 0xC s
  else
    let level := s.power.sleepLevel
    let s := bump 0x20104 (modPower (fun p => { p with
      waking := false, wakeDone := true, rails := 0xFF, lastSl := level, lastSource := p.wakeSource
      lastMs := min 0xFFFF (since p.wakeUp s / 2000) }) s)
    if level = 3 then s
    else
      let s := chansWake s
      if level = 2 then outletsResume s else s

end Sys2Proof.Machine
end

