-- ==== Sys2Proof/Machine/Faults.lean ====
section
/-! DEFINITION. Reactions to fault records, clearing, injecting and reading faults (R405 to R421). -/

namespace Sys2Proof.Machine

open Sys2Proof

/-! ## Entries (R412) -/

/-- The 32 bytes of a log entry. -/
def entryBytes (e : LogEntry) : List Byte :=
  leBytes 4 e.seq ++ leBytes 2 e.source ++ leBytes 1 e.flags ++ leBytes 1 e.reaction ++ leBytes 8 e.time ++ leBytes 8 e.address
    ++ leBytes 2 e.initiator ++ leBytes 1 e.initKind ++ leBytes 1 e.access ++ leBytes 2 e.merges ++ leBytes 2 e.detail

/-- Entry `i` as it stands; one never written reads all zero (R414). -/
def logBytes (s : State) (i : Nat) : List Byte :=
  match slook s.faults.log i with
  | some e => entryBytes e
  | none => zeros 32

/-! ## Reactions (R409) -/

/-- IRQ: the event, the pending bit of the group, and MSI-X when that bit rises. -/
def reactIrq (idx : Nat) (e : LogEntry) (s : State) : State :=
  let g := e.source / 256
  let s := emit 2 (leBytes 2 e.source ++ leBytes 2 idx ++ leBytes 1 e.reaction) s
  if bit s.faults.pend g then s
  else
    modCmd (fun c => { c with msix := sput 0 c.msix (1 + g) (sget 0 c.msix (1 + g) + 1) })
      (modFaults (fun f => { f with pend := f.pend + 2 ^ g }) s)

/-- BLOCK: the unit in DETAIL is reset; a record that names none resets nothing. -/
def reactBlock (e : LogEntry) (s : State) : State :=
  match sourceRow e.source with
  | some (_, _, _, some kind) => if e.detail / 256 = kind ∧ unitOk kind (e.detail % 256) then blockUnit kind (e.detail % 256) s else s
  | _ => s

/-- TRAP: counted, and a snapshot stands in buffer SEQ mod 8. -/
def reactTrap (e : LogEntry) (s : State) : State :=
  bump 0x110210 (modFaults (fun f => { f with snaps := sins f.snaps (e.seq % 8) e.seq }) s)

/-- FAULT_LOG_COMMIT (R409): the oldest record is committed, and its reactions follow in their order. The record that BOOT writes of a
critical-state error has had its CHIP reaction, the reset that CRITICAL made (R392, R415; log entry 107). -/
def faultCommit (s : State) : State :=
  match s.faults.commits with
  | [] => s
  | (idx, _) :: t =>
    let s := modFaults (fun f => { f with commits := t }) s
    match slook s.faults.log idx with
    | none => s
    | some e =>
      let s := onlyIf (bit e.reaction 1) (reactTrap e) s
      let s := onlyIf (bit e.reaction 2) (reactBlock e) s
      let s := onlyIf (bit e.reaction 0) (reactIrq idx e) s
      onlyIf (bit e.reaction 3 && !bit e.flags 5) (assertSource 0xA) s

/-! ## Clearing (R417, R419) -/

/-- A PENDING source returns to IDLE; its entries are marked CLEARED. -/
def clearSource1 (code : Nat) (s : State) : State :=
  modFaults (fun f => { f with log := f.log.map (fun e => if e.2.source = code then (e.1, { e.2 with flags := setBits e.2.flags 3 1 1 }) else e) })
    (modSrc code (fun x => { x with st := .idle, pinHeld := false }) s)

/-- FLT_CLEAR (R419). -/
def fltClear (code : Nat) (s : State) : Status × State :=
  if code = 0xFFFF then
    let s := sourceTable.foldl (fun s r => if (faultSrc s r.1).st = .pending then clearSource1 r.1 s else s) s
    (if sourceTable.any (fun r => (faultSrc s r.1).st == .active) then .denied else .ok, s)
  else if (sourceRow code).isNone then (.denied, s)
  else
    match (faultSrc s code).st with
    | .idle => (.ok, s)
    | .active => (.denied, s)
    | .pending => (.ok, clearSource1 code s)

/-- The map latch is emptied, and the first-fault latch of its group with it (R301, R417). -/
def ffClear (g : Nat) (s : State) : State :=
  let s := modFaults (fun f => { f with latches := sdel f.latches g, ovf := f.ovf.filter (fun x => x != g) }) s
  if g = 7 then modMaps (fun m => { m with cf := none, cfOvf := false }) s else s

/-! ## Injecting (R299, R420) -/

/-- Sources whose injection the coded pass takes (R299). -/
def codedSource (code : Nat) : Bool := decide (0x0702 ≤ code) && decide (code ≤ 0x0705)

def injectPending (s : State) (code : Nat) : Bool := (faultSrc s code).injPend

/-- FLT_INJECT (R420): armed; one of the coded pass acts in the cycle that begins at this tick, else in the next. -/
def fltInject (code session : Nat) (s : State) : Status × State :=
  if (sourceRow code).isNone ∨ fld s 0x110000 0 1 = 0 ∨ injectPending s code then (.denied, s)
  else
    let s := bump 0x110208 (modSrc code (fun x => { x with injPend := true, injBy := session, injTick := s.time.up }) s)
    if codedSource code then
      let now := s.maps.phase == .stageA && tickNow s == s.maps.cycle * s.maps.n
      (.ok, modMaps (fun m => if now then { m with codedArmed := m.codedArmed ++ [(code, session)] }
                              else { m with codedInject := m.codedInject ++ [(code, session)] }) s)
    else (.ok, s)

/-- INJECTED_DETECTION (R420): in class 2 of the tick after the injection was armed. -/
def injectedDetection (code : Nat) (s : State) : State :=
  let x := faultSrc s code
  if x.injPend ∧ since x.injTick s ≥ 1 ∧ !codedSource code then
    detect code { detail := 0xFFFF, initiator := x.injBy, initKind := 1, inj := true } (modSrc code (fun x => { x with injPend := false }) s)
  else s

/-! ## Masks (R410) -/

/-- A reaction mask that a source may take. -/
def reactOk (code mask : Nat) : Bool :=
  match sourceRow code with
  | some r => decide (mask < 32) && (!bit mask 2 || r.2.2.2.isSome) && (code / 256 != 2 || bit mask 3)
  | none => false

/-- FLT_REACT_SET (R410). -/
def fltReact (code mask : Nat) (s : State) : Status × State :=
  if reactOk code mask then (.ok, setFld (srcAddr code) 0 5 mask s) else (.denied, s)

/-- FLT_READ (R414). -/
def fltRead (first count : Nat) (s : State) : Status × List Byte :=
  if first > 511 ∨ count = 0 then (.denied, [])
  else if count > 510 then (.badLength, [])
  else (.ok, leBytes 2 count ++ [0, 0] ++ (List.range count).flatMap (fun i => logBytes s ((first + i) % 512)))

end Sys2Proof.Machine
end

