-- ==== Sys2Proof/Machine/Update.lean ====
section
/-! DEFINITION. Transfers, commits, trials and starts of firmware, the lehr slot and activation (R398, R424 to R440, R465), the tag
area and the identity block (R441 to R443). -/

namespace Sys2Proof.Machine

open Sys2Proof

/-! ## Ownership answers (R428) -/

/-- Node of a path: 0 for the PCIe and maintenance paths. -/
def pathNode : Path → Nat
  | .ring n => n.val
  | _ => 0

/-- Path on which the owner sits now. -/
def ownerNode (s : State) : Nat :=
  match s.upd.owner with
  | some (se, p) => pathNode (match sess s se with | some x => x.path | none => p)
  | none => 0

def ownerNo (s : State) : Nat := match s.upd.owner with | some (se, _) => se | none => 0

/-- The results of BUSY: owner session and owner node. -/
def ownerBytes (s : State) : List Byte := leBytes 1 (ownerNo s) ++ leBytes 1 (ownerNode s)

/-- Another session owns. -/
def ownedByOther (s : State) (session : Nat) : Bool := s.upd.owner.isSome && ownerNo s != session

/-! ## Transfers (R429, R430): targets 0 to 3 are the components, 4 the lehr slot -/

/-- Bytes that the target holds. -/
def heldBytes (s : State) (t : Nat) : List Byte := if t = 4 then s.upd.lehr else (othSlot (comp s t)).bytes

def headSize (t : Nat) : Nat := if t = 4 then 64 else 256

/-- A transfer of the owner is RECEIVING. -/
def receiving (s : State) : Bool := match s.upd.recv with | some (_, len) => decide (s.upd.recvCount < len) | none => false

/-- The header check at offset 0 (R430); none when it passes. -/
def headerCheck (s : State) (t : Nat) (h : List Byte) : Option Status :=
  if t = 4 then
    if rd h 0 4 ≠ 0x4643594C then some .denied
    else if rd h 8 4 > 7340032 then some .badLength
    else if rd h 4 1 ≠ 5 ∧ rd h 4 1 ≠ 6 then some .version
    else if s.upd.lehrSt = .kept then some .denied
    else none
  else if rd h 0 4 ≠ 0x5746594C ∨ rd h 4 1 ≠ 1 then some .denied
  else if rd h 5 1 ≠ t then some .denied
  else if rd h 12 4 < 320 ∨ rd h 12 4 > slotSize t then some .badLength
  else if !compatible s t h ∨ (t = 2 ∧ rd h 7 1 = 0) then some .version
  else none

def lengthOf (t : Nat) (h : List Byte) : Nat := if t = 4 then rd h 8 4 else rd h 12 4

/-- Put the bytes of a target, RECEIVING or COMPLETE by its LENGTH. -/
def putBytes (t len : Nat) (bs : List Byte) (s : State) : State :=
  let full := decide (bs.length ≥ len)
  let s := modUpd (fun u => { u with recv := some (t, len), recvCount := bs.length, lastBlockUp := s.time.up }) s
  let s := bump 0x120100 s
  if t = 4 then modUpd (fun u => { u with lehr := bs, lehrSt := if full then .complete else .receiving }) s
  else modComp t (setOth { st := if full then .complete else .receiving, bytes := bs }) s

/-- A transfer starts with its first block. -/
def startTransfer (t : Nat) (bs : List Byte) (session : Nat) (path : Path) (s : State) : Status × State :=
  if bs.length < headSize t then (.denied, s)
  else
    match headerCheck s t bs with
    | some st => (st, s)
    | none =>
      if bs.length > lengthOf t bs then (.badLength, s)
      else (.ok, putBytes t (lengthOf t bs) bs (modUpd (fun u => { u with owner := some (session, path) }) s))

/-- A block of the transfer of the owner, not at its start. -/
def nextBlock (t off : Nat) (bs : List Byte) (s : State) : Status × State :=
  match s.upd.recv with
  | some (u, len) =>
    let r := s.upd.recvCount
    if u ≠ t then (.denied, s)
    else if off = r then
      if off + bs.length > len then (.badLength, s) else (.ok, putBytes t len (heldBytes s t ++ bs) s)
    else if off + bs.length ≤ r ∧ slice (heldBytes s t) off bs.length = bs then (.ok, s)
    else (.denied, s)
  | none => (.denied, s)

/-- UPD_BLOCK and CFG_STAGE (R428, R429): status and results. -/
def takeBlock (t off : Nat) (bs : List Byte) (session : Nat) (path : Path) (s : State) : Status × List Byte × State :=
  if ownedByOther s session then (.busy, ownerBytes s, s)
  else
    let s := if s.upd.owner.isSome then modUpd (fun u => { u with lastBlockUp := s.time.up }) s else s
    let done (r : Status × State) : Status × List Byte × State := (r.1, leBytes 4 r.2.upd.recvCount, r.2)
    if s.upd.owner.isNone then
      if off ≠ 0 then done (.denied, s) else done (startTransfer t bs session path s)
    else if off ≠ 0 then done (nextBlock t off bs s)
    else if receiving s then
      match s.upd.recv with
      | some (u, _) =>
        if u ≠ t then (.busy, ownerBytes s, s)
        else if bs.length ≤ s.upd.recvCount ∧ (heldBytes s t).take bs.length = bs then done (.ok, s)
        else done (startTransfer t bs session path s)
      | none => done (.denied, s)
    else if t ≠ 4 ∧ s.upd.trial.isSome then (.busy, ownerBytes s, s)
    else done (startTransfer t bs session path s)

/-! ## Commit, trial, start (R424, R431 to R434) -/

/-- A signing key of the identity block; none when absent (R443). -/
def signKey (s : State) (k : Nat) : Option (List Byte) :=
  let key := slice (identBytes s) (48 + 64 * k) 64
  if k > 1 ∨ key = zeros 64 then none else some key

/-- Due time of the start of a component (R424, R431): own ticks, and for E the cycle. -/
def startDue (c : Nat) (s : State) : Nat :=
  if c = 0 then s.time.up else if c = 1 then ceilDiv (tickNow s) s.maps.n + 2 else s.time.up + 2000

def scheduleStart (c : Nat) (s : State) : State := modUpd (fun u => { u with start := some (c, startDue c s), startPort := 0 }) s

/-- Step 5 of a commit of S (R431): the active format, or a staged image's, is one that it reads. -/
def formatServed (s : State) (slot : FwSlot) : Bool :=
  readsFormat slot (imgFormat s.upd.active) || (s.upd.lehrSt == .valid && readsFormat slot (imgFormat s.upd.lehr))

/-- UPD_COMMIT (R431): a second trial cannot start while one runs (log entry 20). The event follows the reply (`afterReply`). -/
def updCommit (c session : Nat) (s : State) : Status × List Byte × State :=
  if ownedByOther s session then (.busy, ownerBytes s, s)
  else
    let slot := othSlot (comp s c)
    if c > 3 ∨ s.upd.owner.isNone ∨ slot.st ≠ .complete ∨ s.upd.idBad ∨ s.upd.trial.isSome then (.denied, [], s)
    else
      match signKey s (rd slot.bytes 6 1) with
      | none => (.denied, [], s)
      | some key =>
        let len := rd slot.bytes 12 4
        if !Config.signatureGood key (slot.bytes.take 64 ++ slice slot.bytes 128 (len - 128)) (slice slot.bytes 64 64) then
          (.denied, [], bump 0x120104 (modComp c (setOth { slot with st := .bad }) s))
        else
          let slot := { slot with crc := BitVec.ofNat 32 (crc32c slot.bytes) }
          let s := modComp c (setOth slot) s
          if !compatible s c slot.bytes ∨ (c = 2 ∧ !formatServed s slot) then (.version, [], s)
          else
            let s := modComp c (setOth { slot with st := .trial }) s
            let s := modUpd (fun u => { u with trial := some (c, s.time.up + bits (csr s 0x120000) 0 17 * 2000000), recv := none, recvCount := 0 }) s
            (.ok, [], scheduleStart c s)
/-- UPD_CONFIRM (R433). -/
def updConfirm (c : Nat) (s : State) : Status × State :=
  match s.upd.trial with
  | some (t, _) =>
    if t ≠ c then (.notReady, s)
    else
      let s := modComp c (fun x =>
        let x := if (othSlot x).st = .trial then { x with active := !x.active } else x
        setAct { actSlot x with st := .valid } x) s
      let s := if s.upd.lehrSt = .kept then modUpd (fun u => { u with lehr := [], lehrSt := .empty }) s else s
      (.ok, updateEvent c 1 (bump 0x120108 (endOwner (modUpd (fun u => { u with trial := none }) s))))
  | none => (.notReady, s)

/-- A fall-back outside a reset restarts the component (R434). -/
def fallAndRestart (s : State) : State :=
  match s.upd.trial with
  | some (c, _) => scheduleStart c (fallBack false s)
  | none => s

/-- UPD_ABORT (R428, R434). -/
def updAbort (session : Nat) (s : State) : Status × List Byte × State :=
  if ownedByOther s session then (.busy, ownerBytes s, s)
  else if s.upd.owner.isNone then (.denied, [], s)
  else if s.upd.trial.isSome then (.ok, [], fallAndRestart s)
  else (.ok, [], endOwner s)

/-- TRIAL_EXPIRY (R433, R434). -/
def trialExpiry (s : State) : State :=
  match s.upd.trial with
  | some (_, e) => if s.hub ≠ .off ∧ e ≤ s.time.up then fallAndRestart s else s
  | none => s

/-- Trial seconds left (R433). -/
def trialLeft (s : State) : Nat := match s.upd.trial with | some (_, e) => ceilDiv (e - s.time.up) 2000000 | none => 0

/-- A commit's reply is not yet sent, and the component starts behind it (R431). -/
def commitOwed (s : State) : Bool := s.cmd.inflight.any (fun c => c.opcode == 0x0901 && c.effected)

/-- COMPONENT_START (R424): P by resets of EAST, then WEST; E at its boundary; S and K by command resets. -/
def componentStart (s : State) : State :=
  match s.upd.start with
  | none => s
  | some (c, due) =>
    if commitOwed s then s else
    match c with
    | 0 =>
      if s.upd.startPort = 0 then portBlock .east (modUpd (fun u => { u with startPort := 1 }) (enterTrial 0 s))
      else if isUp s .east then tellFallBack (portBlock .west (modUpd (fun u => { u with start := none, startPort := 0 }) s))
      else s
    | 1 => if cycleNow s ≥ due then tellFallBack (enterTrial 1 (modUpd (fun u => { u with start := none }) s)) else s
    | 2 => if due ≤ s.time.up then assertSource 9 s else s
    | _ => if due ≤ s.time.up then assertSource 8 s else s

/-- UPD_STATUS results (R57); a number of seconds that u16 cannot hold reads 65,535 (log entry 23). -/
def updStatus (s : State) : List Byte :=
  ownerBytes s ++ leBytes 2 (min 0xFFFF (trialLeft s))
    ++ [0, 1, 2, 3].flatMap (fun c => leBytes 4 (slotVersion (actSlot (comp s c))))
    ++ [0, 1, 2, 3].flatMap (fun c => leBytes 4 (slotVersion (othSlot (comp s c))))

/-! ## The lehr slot (R398, R400, R440, R465) -/

/-- Number of a lehr state (R440). -/
def lehrNo : LehrSt → Nat
  | .empty => 0
  | .receiving => 1
  | .complete => 2
  | .valid => 3
  | .kept => 4
  | .bad => 5

/-- Validate the lehr slot (R398, R440): the verdict, and its state after. -/
def lehrValidate (s : State) : Verdict × State :=
  let b := s.upd.lehr
  let v := validate s b
  let s := cvNoteImage b v s
  (v, if v.cause = 1 ∨ s.upd.lehrSt = .kept then s
      else modUpd (fun u => { u with lehrSt := if v.cause = 0 then .valid else .bad }) s)

/-- CFG_VALIDATE (R398, R399): with the figures of an image whose content passes; those of one that fails before check 6 are free
values (log entry 5). -/
def cfgValidate (s : State) : Status × List Byte × State :=
  let r := lehrValidate s
  let place := leBytes 1 r.1.sect ++ zeros 3 ++ leBytes 4 r.1.off
  if r.1.cause = 0 ∨ r.1.cause = 6 then
    let w := imgView r.2 r.2.upd.lehr
    let e := evals w
    (r.1.status, place ++ leBytes 4 (e.1 + e.2.1 + e.2.2.1) ++ leBytes 4 (perTick w.level * w.n), r.2)
  else
    let a := draw r.2
    let b := draw a.2
    (r.1.status, place ++ leBytes 4 a.1 ++ leBytes 4 b.1, b.2)

/-- CFG_ACTIVATE is judged (R398, R440): the status, none when the image may be taken. -/
def activateJudge (s : State) : Option Status × State :=
  if s.upd.lehrSt = .kept then (some .denied, s)
  else
    let r := lehrValidate s
    if r.1.cause ≠ 0 then (some r.1.status, r.2)
    else if !readsFormat (actSlot (comp s 2)) (imgFormat s.upd.lehr) then (some .version, r.2)
    else (none, r.2)

/-- The lehr image is copied into the active slot (R398, R440); the owner that activates is owner no more (R428). -/
def activateCopy (session : Nat) (img : List Byte) (s : State) : State :=
  let s := modUpd (fun u => { u with active := img, lehr := if u.lehr = img then [] else u.lehr
                                     lehrSt := if u.lehr = img then .empty else u.lehrSt }) s
  if ownerNo s = session ∧ s.upd.owner.isSome then endOwner s else s

/-- CFG_STATUS results (R57, R399). -/
def cfgStatus (s : State) : List Byte :=
  leBytes 1 (imgFormat s.upd.active) ++ leBytes 1 (lehrNo s.upd.lehrSt) ++ leBytes 1 s.reset_.heldSection ++ [0]
    ++ leBytes 4 s.reset_.heldOffset ++ leBytes 4 (imgCrc s.upd.active) ++ leBytes 4 (imgCrc s.upd.lehr)

/-- The bytes that a section code names in an image: start and size (R465). -/
def cfgPart (b : List Byte) (sect : Nat) : Option (Nat × Nat) :=
  if b.length < 64 ∨ rd b 0 4 ≠ 0x4643594C then none
  else if sect = 0 then some (0, 64 + 16 * rd b 5 1)
  else if sect = 0xFE then some (0, imgLength b)
  else if sect ≤ 11 then
    (if b.length < 64 + 16 * rd b 5 1 then none else (dirOf b sect).map (fun d => (d.off, d.size)))
  else none

/-- CFG_READ (R465). -/
def cfgRead (slot sect off len : Nat) (s : State) : Status × List Byte :=
  if slot > 1 then (.denied, [])
  else
    let b := if slot = 0 then s.upd.active else s.upd.lehr
    match cfgPart b sect with
    | some (at_, size) =>
      if off + len > size ∨ at_ + off + len > b.length then (.denied, []) else (.ok, slice b (at_ + off) len)
    | none => (.denied, [])

/-! ## Tag area and identity (R441 to R443) -/

/-- What a byte of the tag area reads as before it is written (R441): 0, and the CRC-32C of 252 bytes of 0. -/
def tagReset (off : Nat) : Byte :=
  match off % 256 with
  | 252 => 0x21
  | 253 => 0x53
  | 254 => 0xE6
  | 255 => 0x67
  | _ => 0

def tagByte (s : State) (off : Nat) : Byte := match slook s.upd.tags off with | some b => b | none => tagReset off

def tagBytes (s : State) (off n : Nat) : List Byte := (List.range n).map (fun i => tagByte s (off + i))

def tagPut (off : Nat) (v : Byte) (s : State) : State :=
  modUpd (fun u => { u with tags := if v = tagReset off then sdel u.tags off else sins u.tags off v }) s

def tagPutAll (off : Nat) (bs : List Byte) (s : State) : State :=
  bs.zipIdx.foldl (fun s (b, i) => tagPut (off + i) b s) s

def tagLocked (s : State) (r : Nat) : Bool := bit s.upd.tagLocks r

/-- A record fails its CRC (R441). -/
def tagCrcBad (s : State) (r : Nat) : Bool :=
  let b := tagBytes s (256 * r) 256
  crc32c (b.take 252) != rd b 252 4

/-- Content bytes are written and the CRC of the record with them (R441). -/
def tagStore (off : Nat) (bs : List Byte) (s : State) : State :=
  let r := off / 256
  let s := tagPutAll off bs s
  bump 0x130010 (tagPutAll (256 * r + 252) (leBytes 4 (crc32c (tagBytes s (256 * r) 252))) s)

/-- TAG_WRITE (R441, R442). -/
def tagWrite (r : Nat) (bs : List Byte) (s : State) : Status × State :=
  if r > 15 ∨ tagLocked s r then (.denied, s) else (.ok, tagStore (256 * r) bs s)

/-- A space-4 word write (R441, R442): whether it is allowed. -/
def tagWord (off value : Nat) (s : State) : Option State :=
  if off ≥ 4096 ∨ off % 4 ≠ 0 ∨ off % 256 ≥ 252 ∨ tagLocked s (off / 256) then none else some (tagStore off (leBytes 4 value) s)

/-- TAG_LOCK (R442). -/
def tagLock (r : Nat) (s : State) : Status × State :=
  if r > 15 then (.denied, s)
  else if tagLocked s r then (.ok, s)
  else if tagCrcBad s r then (.denied, s)
  else (.ok, modUpd (fun u => { u with tagLocks := u.tagLocks + 2 ^ r }) s)

end Sys2Proof.Machine
end

