-- ==== Sys2Proof/Machine/Access.lean ====
section
/-! DEFINITION. Reads and writes of the CSR blocks of space 0 (R4 to R9, R19, R26): what each register shows, and what a write
of it does. -/

namespace Sys2Proof.Machine

open Sys2Proof

/-! ## What registers show -/

/-- A word put together from fields: place, width, value. -/
def fieldsWord (w : Nat) (fs : List (Nat × Nat × Nat)) : Nat := fs.foldl (fun w f => setBits w f.1 f.2.1 f.2.2) w

/-- SYS block (R19). -/
def sysLive (s : State) (off : Nat) : Option Nat :=
  match off with
  | 0x000 => some (fieldsWord 0 [(0, 8, myStep s), (8, 8, orderCode s), (16, 16, 0x4859)])
  | 0x004 => some (fieldsWord (csr s 0x004) [(0, 4, hubNo s.hub), (6, 1, b2n s.upd.trial.isSome), (7, 1, b2n (reduced s)), (16, 16, s.changes)])
  | 0x00C => some (fieldsWord 0 [(0, 8, s.ring.node), (8, 8, masterNode s), (16, 8, backupNode s)])
  | _ => none

/-- RST block (R404). -/
def rstLive (s : State) (off : Nat) : Option Nat :=
  let r := s.reset_
  match off with
  | 0x004 => some (r.asserted.foldl (fun w a => setBits w a.1 1 1) 0)
  | 0x008 => some (fieldsWord 0 [(0, 1, b2n r.countMode), (1, 1, b2n r.recValid), (2, 1, b2n r.recTv), (3, 1, b2n r.recLoss),
                                 (4, 4, r.recCause), (8, 2, r.recReach)])
  | 0x00C => some (bits r.recSec 0 32)
  | 0x010 => some (bits r.recSec 32 16)
  | 0x014 => some (bits r.recNs 0 30)
  | 0x040 => some (fieldsWord 0 [(0, 4, r.bootStep), (4, 4, r.bootFail), (16, 16, r.bootLastMs)])
  | 0x044 => some (fieldsWord 0 [(0, 4, r.heldCause), (8, 8, r.heldSection)])
  | 0x048 => some (bits r.heldOffset 0 32)
  | _ =>
    if atStride off 0x020 4 8 then
      let i := (off - 0x020) / 4
      some (fieldsWord 0 [(0, 16, sget 0 r.counts (2 * i)), (16, 16, sget 0 r.counts (2 * i + 1))])
    else none

/-- PWR block (R382). Package power is a measurement that no event brings: a free value at each read (log entry 5). -/
def pwrLive (s : State) (off : Nat) : Option Nat :=
  let p := s.power
  match off with
  | 0x000 => some (fieldsWord 0 [(0, 8, p.trips), (8, 8, p.ov), (16, 1, b2n p.gated)])
  | 0x004 => some (fieldsWord 0 [(0, 8, p.rails.toNat), (8, 1, b2n p.pwrgd), (9, 1, b2n p.limit), (10, 2, p.level), (12, 1, b2n p.plTarget.isSome)])
  | 0x008 => some (fieldsWord 0 [(0, 16, min 0xFFFF p.vinMv), (16, 16, Config.freeValue s.fresh % 2 ^ 16)])
  | 0x00C => some (fieldsWord 0 [(0, 16, ofSigned 16 p.fetDeciC), (16, 16, ofSigned 16 p.junctionDeciC)])
  | 0x010 => some (fieldsWord (csr s 0x20010) [(16, 16, min 0xFFFF p.plLastUs)])
  | 0x014 => some (fieldsWord (csr s 0x20014) [(0, 7, p.i2cAddr), (8, 2, p.lastSl), (10, 2, p.lastSource), (16, 16, p.lastMs)])
  | _ => none

/-- Number of an outlet state (R367). -/
def outStNo : OutSt → Nat
  | .off => 0
  | .starting => 1
  | .on => 2
  | .limit => 3
  | .cooldown => 4
  | .latched => 5
  | .supplyOff => 6

/-- Sum of the outlet currents of a bank (R384). -/
def bankMa (s : State) (b : Nat) : Nat := ((upFrom (8 * b) 8).map (fun o => (outlet s o).ma)).sum

/-- OUT_STAT of an outlet (R384). -/
def outStat (s : State) (o : Nat) : Nat :=
  let x := outlet s o
  fieldsWord 0 [(0, 3, outStNo x.st), (3, 3, x.used), (6, 1, b2n x.cmd)]

/-- OUT block (R384). -/
def outLive (s : State) (off : Nat) : Option Nat :=
  if off < 0x200 then
    let o := off / 0x10
    let x := outlet s o
    match off % 0x10 with
    | 0x8 => some (outStat s o)
    | 0xC => some (fieldsWord 0 [(0, 16, x.ma), (16, 16, ofSigned 16 x.deciC)])
    | _ => none
  else if atStride off 0x200 4 4 then
    let b := (off - 0x200) / 4
    some (fieldsWord 0 [(0, 14, min 0x3FFF (bankMa s b)), (14, 1, b2n (s.power.vfbLow.contains b)), (16, 16, sget 24000 s.power.vfbMv b)])
  else none

/-- Peer delay of a port as TIME_PD shows it (R175). -/
def pdWord (s : State) (p : Port) : Nat := if pdValid s p then min 0xFFFFFFFF (pdMean (portSt s p).pd) else 0

/-- TIME block (R175). -/
def timeLive (s : State) (off : Nat) : Option Nat :=
  let t := s.time
  match off with
  | 0x004 => some (fieldsWord 0 [(0, 1, b2n t.locked), (1, 1, b2n t.holdover), (2, 1, b2n t.ppsLock), (3, 1, b2n (pdValid s .east)),
                                 (4, 1, b2n (pdValid s .west)), (5, 3, t.source)])
  | 0x00C => some (bits t.snapSec 0 32)
  | 0x010 => some (bits t.snapSec 32 16)
  | 0x014 => some (bits t.snapNs 0 30)
  | 0x018 => some (bits t.snapFrac 0 16)
  | 0x020 => some (ofSigned 32 (max (-2147483647) (min 2147483647 (t.offset * 1000 / 65536))))
  | 0x024 => some (ofSigned 32 t.rate)
  | 0x030 => some (pdWord s .east)
  | 0x034 => some (pdWord s .west)
  | 0x050 => some (bits t.syncIn 0 32)
  | 0x054 => some (bits t.syncIn 32 32)
  | 0x060 => some (fieldsWord (csr s 0x40060) [(0, 5, t.stampsEast.length), (8, 5, t.stampsWest.length)])
  | _ => none

/-- Port set of the RING block (R98). -/
def portLive (s : State) (p : Port) (off : Nat) : Option Nat :=
  let q := portSt s p
  match off with
  | 0x004 => some (fieldsWord 0 [(0, 4, spanNo q.span), (4, 4, if q.span = .up then q.rev else 0), (8, 1, b2n q.fecOn), (9, 1, b2n q.modPresent),
                                 (10, 1, b2n q.los), (11, 1, b2n q.txFault), (16, 8, q.shownPeer), (24, 1, q.peerPort)])
  | 0x008 => some (bits q.peerUid.toNat 0 32)
  | 0x00C => some (bits q.peerUid.toNat 32 32)
  | _ => if atStride off 0x080 4 24 then some (if q.modPresent then rd (padTo 96 q.modId) (off - 0x080) 4 else 0) else none

/-- RING block (R98, R99, R149). -/
def ringLive (s : State) (off : Nat) : Option Nat :=
  if off < 0x200 then portLive s (portOf (off / 0x100)) (off % 0x100)
  else
    match off with
    | 0x408 =>
      match s.ring.light with
      | some l => some (fieldsWord 0 [(0, 16, l.gen.toNat), (16, 8, l.entries.length), (24, 1, b2n (reduced s)), (28, 3, s.ring.joinReason)])
      | none => some (fieldsWord 0 [(28, 3, s.ring.joinReason)])
    | 0x410 => some (setBits (csr s 0x50410) 0 1 1)
    | 0x430 => some (bits s.ring.grant 0 32)
    | 0x434 => some (match s.ring.light with | some l => l.cycUsed.toNat | none => 0)
    | 0x438 => some (cycLimit s)
    | 0x600 => some (fieldsWord 0 [(0, 1, b2n s.sw.eastWrap), (1, 1, b2n s.sw.westWrap), (2, 1, b2n s.sw.eastDrain), (3, 1, b2n s.sw.westDrain)])
    | 0x60C => some (bits (replayCells s false) 0 15)
    | 0x610 => some (bits (replayCells s true) 0 15)
    | 0x614 => some (fieldsWord (csr s 0x50614)
      [(0, 2, if s.master.stopped then 0 else s.master.role), (2, 1, b2n s.master.proof), (16, 16, min 0xFFFF s.master.takeoverMs)])
    | _ => none

/-- A switch register as it reads (R107): with the setting that waits for the boundary, if any (log entry 105). -/
def swSetting (s : State) (addr : Nat) : Nat :=
  match (s.sw.pendingCfg.filter (fun x => x.1 == addr)).getLast? with
  | some x => x.2.toNat
  | none => csr s addr

/-- SW block (R123). -/
def swLive (s : State) (off : Nat) : Option Nat :=
  match off with
  | 0x008 => some (fieldsWord 0 [(0, 16, s.sw.current.gen.toNat), (16, 16, s.sw.previous.gen.toNat)])
  | 0x00C => some (bits (sharedFree s) 0 20)
  | _ =>
    if 0x100 ≤ off ∧ off < 0x200 then some (swSetting s (0x60000 + off))
    else if 0x200 ≤ off ∧ off < 0x280 then
      match allOutputs[(off - 0x200) / 0x20]? with
      | some o => some (bits (occ s o (off % 0x20 / 4)) 0 20)
      | none => none
    else none

/-- Number of a channel state (R184). -/
def chStNo : ChState → Nat
  | .off => 0
  | .disabled => 1
  | .joining => 2
  | .active => 3
  | .alone => 4
  | .detect => 5
  | .draining => 6
  | .partner => 7

/-- Items that wait in a TX queue (R204). -/
def txPkts (c : Chan) : Nat := c.txq.length

/-- Word of a queue: cells and whole items or packets (R204). -/
def queueWord (cells pkts : Nat) : Nat := fieldsWord 0 [(0, 15, cells), (16, 16, min 0xFFFF pkts)]

/-- The TX queue has no cell for a service producer (R195, R204). -/
def txFull (s : State) (ch : Nat) : Bool :=
  !txFits s ch { seq := 0, release := none, data := [0], producer := .push, bad := none, attempts := 0 }

/-- CHN_STAT (R204). -/
def chnStat (s : State) (ch : Nat) : Nat :=
  let c := chan s ch
  fieldsWord 0 [(0, 3, chStNo c.st), (3, 1, b2n c.busIdle), (4, 1, b2n (decide (rxPkts c ≠ 0))), (5, 1, b2n (txFull s ch)),
                (6, 1, b2n c.pendRpt.isSome)]

/-- Error state of a CAN node: 0 active, 1 passive, 2 bus-off (R228). -/
def canState (c : CanState) : Nat := if c.busOff then 2 else if c.tec ≥ 128 ∨ c.rec_ ≥ 128 then 1 else 0

/-- CAN_ERR (R228). -/
def canErr (c : CanState) : Nat :=
  fieldsWord 0 [(0, 8, if c.busOff then 255 else min 255 c.tec), (8, 8, min 255 c.rec_), (16, 2, canState c), (18, 3, c.lec),
                (21, 3, c.dlec), (24, 8, min 255 c.ackRun)]

/-- CAN_MO_STAT (R228). -/
def moStat (o : MoBuf) : Nat :=
  fieldsWord 0 [(0, 1, b2n o.new_), (1, 1, b2n o.shadow.isSome), (2, 1, b2n o.ovr), (3, 3, o.locks.length)]

/-- MB_STAT (R258). -/
def mbStat (s : State) (ch : Nat) : Nat :=
  let m := (chan s ch).mb
  let entry := match m.exchange with | some x => (match x.user with | .poll e => e | .txn _ _ => 0x1FF) | none => 0x1FF
  let txn := match m.exchange with | some x => (match x.user with | .txn _ _ => true | .poll _ => false) | none => false
  fieldsWord 0 [(0, 9, entry), (9, 1, b2n (!m.round.isEmpty)), (10, 1, b2n txn), (11, 1, b2n (lockedBy s ch).isSome)]

/-- Number of an IO-Link port state (R259). -/
def iolNo : IolSt → Nat
  | .inactive => 0
  | .noPower => 1
  | .wake => 2
  | .noDevice => 3
  | .startup => 4
  | .preoperate => 5
  | .operate => 6
  | .compFault => 7
  | .sioDi => 8
  | .sioDq => 9
  | .dqOverload => 10

/-- Registers of a channel that its personality lays out (R228, R257 to R259). While the Modbus service runs, SER_FRM reads what
the service uses: GAP framing, the check value with its low byte first (R236). -/
def persLive (s : State) (ch off : Nat) : Option Nat :=
  let c := chan s ch
  match pers s ch with
  | 3 =>
    if off = 0x104 then some (canErr c.can)
    else if 0x200 ≤ off ∧ off < 0x600 ∧ off % 0x10 = 0xC then some (moStat (moBuf c ((off - 0x200) / 0x10)))
    else none
  | 4 =>
    match off with
    | 0x304 => some (fieldsWord 0 [(0, 4, iolNo (iolSt s ch)), (4, 2, c.iol.com), (8, 8, c.iol.rev), (16, 16, c.iol.cycle)])
    | 0x308 => some (fieldsWord (csr s (chnAddr ch 0x308)) [(16, 16, c.iol.vidRead)])
    | 0x310 => some (bits c.iol.didRead 0 24)
    | _ => none
  | _ =>
    if mbOn s ch ∧ off = 0x208 then some (mbStat s ch)
    else if mbOn s ch ∧ off = 0x10C then some (fieldsWord (csr s (chnAddr ch 0x10C)) [(0, 2, 0), (2, 6, 7), (8, 1, 0), (9, 1, 1), (10, 1, 0)])
    else none

/-- Channel block (R204). -/
def chnLive (s : State) (ch off : Nat) : Option Nat :=
  let c := chan s ch
  match off with
  | 0x000 => if isPartner (pers s) ch then some (setBits (csr s (chnAddr ch 0)) 0 3 2) else none
  | 0x004 => some (chnStat s ch)
  | 0x018 => some (queueWord (txCells c) (txPkts c))
  | 0x01C => some (queueWord (rxCells c) (rxPkts c))
  | 0x020 => some (bits (chPoolFree s) 0 17)
  | 0x024 => some (bits c.txSeq 0 32)
  | 0x028 => some (bits c.rxSeq 0 32)
  | 0x030 => some (bits c.rateFound 0 32)
  | 0x038 => some (bits c.joinTick 0 32)
  | 0x03C => some (bits c.joinTick 32 32)
  | _ => if off < 0x100 then none else persLive s ch off

/-- LE_STAT (R346). -/
def leStat (s : State) (e : Nat) : Nat :=
  let x := engine s e
  fieldsWord 0 [(0, 3, leNo (leState s e)), (3, 6, x.lstate), (9, 6, x.count), (15, 5, x.push.length), (20, 5, x.pull.length),
                (25, 1, b2n (tickPendNow s e)), (26, 6, x.hwidth)]

/-- Engine block (R346). -/
def leLive (s : State) (e off : Nat) : Option Nat :=
  let x := engine s e
  match off with
  | 0x030 => some (leStat s e)
  | 0x034 => some (bits x.shift 0 32)
  | 0x038 => some (bits x.counter 0 32)
  | 0x03C => some (fieldsWord 0 [(0, 5, x.evtCode), (5, 1, b2n x.evtPend)])
  | _ => none

/-- DL block (R344). The bank's output current is a measurement that no event brings: a free value at each read (log entry 5). -/
def dlLive (s : State) (off : Nat) : Option Nat :=
  if 0x200 ≤ off ∧ off < 0x280 then
    let b := (off - 0x200) / 0x10
    let x := dlBank s b
    match off % 0x10 with
    | 0x0 => some (fieldsWord 0 [(0, 1, b2n x.trip), (1, 1, b2n x.uv), (2, 1, b2n (x.trip || x.uv))])
    | 0x4 => some (bankBits b (fun l => (line s l).commanded))
    | 0x8 => some (bankBits b (fun l => (line s l).tripped))
    | 0xC => some (Config.freeValue s.fresh % 2 ^ 16)
    | _ => none
  else none

/-- The low or high word of a cycle as MAP_LAST splits it, 48 bits of ones while there is none (R283, R284). -/
def cycleWord (c : Option Nat) (hi : Bool) : Nat :=
  let v := match c with | some k => k | none => 2 ^ 48 - 1
  if hi then bits v 32 16 else bits v 0 32

/-- MAP block (R284, R301). -/
def mapLive (s : State) (off : Nat) : Option Nat :=
  let m := s.maps
  let e := evals (nowView s)
  let cf (f : CfLatch → Nat) : Option Nat := some (match m.cf with | some x => f x | none => 0)
  match off with
  | 0x000 => some (mapH s)
  | 0x004 => some (mapP s)
  | 0x008 => some (mapDout s)
  | 0x00C => some (splitPub s)
  | 0x010 => some (splitSub s)
  | 0x020 => some (cycleWord m.lastClosed false)
  | 0x024 => some (cycleWord m.lastClosed true)
  | 0x028 => some (cycleWord m.copied false)
  | 0x02C => some (cycleWord m.copied true)
  | 0x030 => some (bits e.1 0 32)
  | 0x034 => some (bits e.2.1 0 32)
  | 0x038 => some (bits e.2.2.1 0 32)
  | 0x03C => some (bits (perTick s.power.level * m.n) 0 32)
  | 0x040 => some (bits (ruleList m.rules).length 0 17)
  | 0x048 => some (bits m.effLast 0 32)
  | 0x04C => some (bits m.effLast 32 16)
  | 0x080 => cf (fun x => fieldsWord 0 [(0, 3, x.kind), (3, 2, x.stage), (5, 4, x.lane), (9, 1, b2n x.inj), (30, 1, b2n m.cfOvf), (31, 1, 1)])
  | 0x084 => cf (fun x => bits x.rule 0 16)
  | 0x088 => cf (fun x => cycleWord (some x.cycle) false)
  | 0x08C => cf (fun x => cycleWord (some x.cycle) true)
  | 0x090 => cf (fun x => bits x.p1.toNat 0 32)
  | 0x094 => cf (fun x => bits x.p1.toNat 32 32)
  | 0x098 => cf (fun x => bits x.p2.toNat 0 32)
  | 0x09C => cf (fun x => bits x.p2.toNat 32 32)
  | 0x0A0 => some (bits e.2.2.2 0 32)
  | _ => none

/-- What an inline unit shows instead of its registers (R351): 0 with PERS 3 and 4, the Modbus set while the service runs. -/
def inlineFixed (s : State) (ch o : Nat) : Option Nat :=
  if pers s ch = 3 ∨ pers s ch = 4 then some 0
  else if mbOn s ch then
    match o with
    | 0x00 => some (fieldsWord 0 [(0, 7, 16), (7, 1, 1), (8, 1, 1)])
    | 0x04 => some 0x8005
    | 0x0C => some 0xFFFF
    | 0x08 | 0x10 | 0x14 | 0x18 => some 0
    | _ => none
  else none

/-- CV block (R358). -/
def cvLive (s : State) (off : Nat) : Option Nat :=
  let word (m : Sparse DWord) (u : Nat) (lo : Nat) : Option Nat := some (bits (sget 0 m u).toNat lo 32)
  if off < 0x200 then
    let u := off / 0x40
    match off % 0x40 with
    | 0x1C => word s.cv.results u 0
    | 0x20 => word s.cv.results u 32
    | 0x24 => word s.cv.expects u 0
    | 0x28 => word s.cv.expects u 32
    | _ => none
  else if 0x1000 ≤ off ∧ off < 0x3000 then
    let ch := (off - 0x1000) / 0x40
    let c := chan s ch
    match inlineFixed s ch (off % 0x40) with
    | some w => some w
    | none =>
      match off % 0x40 with
      | 0x1C => word s.cv.results (8 + ch) 0
      | 0x20 => word s.cv.results (8 + ch) 32
      | 0x30 => some (fieldsWord 0 [(0, 8, c.aliveTx.toNat), (8, 8, c.aliveRx.toNat), (16, 1, b2n c.aliveSync)])
      | _ => none
  else if off = 0x3004 then some (fieldsWord 0 [(0, 9, s.cv.next), (16, 16, s.cv.restarts)])
  else none

/-- Number of a source state (R422). -/
def srcStNo : SrcSt → Nat
  | .idle => 0
  | .active => 1
  | .pending => 2

/-- Source code of a FLT_SRC register (R422). -/
def srcOf (off : Nat) : Nat := (off - 0x1000) / 4 / 32 * 256 + (off - 0x1000) / 4 % 32

/-- FLT block (R422). -/
def fltLive (s : State) (off : Nat) : Option Nat :=
  let f := s.faults
  match off with
  | 0x004 =>
    let pins := f.sources.countP (fun e => e.2.pinHeld)
    some (fieldsWord 0 [(0, 1, b2n (decide (pins ≠ 0))), (1, 1, b2n f.frozen), (16, 9, pins)])
  | 0x008 => some (bits f.head 0 32)
  | 0x00C => some (bits f.snapBase 0 32)
  | 0x010 => some (bits f.pend 0 11)
  | _ =>
    if 0x100 ≤ off ∧ off < 0x158 then
      let g := (off - 0x100) / 8
      let l := slook f.latches g
      if off % 8 = 0 then
        match l with
        | some (src, _, inj) => some (fieldsWord 0 [(0, 16, src), (16, 1, 1), (17, 1, b2n (f.ovf.contains g)), (18, 1, b2n inj)])
        | none => some (fieldsWord 0 [(17, 1, b2n (f.ovf.contains g))])
      else some (match l with | some (_, seq, _) => bits seq 0 32 | none => 0)
    else if 0x1000 ≤ off ∧ (sourceRow (srcOf off)).isSome then
      let x := faultSrc s (srcOf off)
      some (fieldsWord (csr s (0x110000 + off)) [(6, 2, srcStNo x.st), (8, 1, b2n x.pinHeld), (9, 1, b2n x.injPend), (16, 16, x.occur)])
    else none

/-- Number of a firmware slot state (R425). -/
def slotNo : SlotSt → Nat
  | .empty => 0
  | .receiving => 1
  | .complete => 2
  | .valid => 3
  | .trial => 4
  | .bad => 5

/-- UPD block (R444). -/
def updLive (s : State) (off : Nat) : Option Nat :=
  let u := s.upd
  match off with
  | 0x004 =>
    let comp := match u.recv, u.trial with | some (c, _), _ => c % 4 | none, some (c, _) => c | none, none => 0
    some (fieldsWord 0 [(0, 8, ownerNo s), (8, 8, ownerNode s), (16, 1, b2n (receiving s)), (17, 1, b2n u.trial.isSome), (18, 2, comp),
                        (20, 1, match u.recv with | some (4, _) => 1 | _ => 0)])
  | 0x008 => some (bits u.recvCount 0 32)
  | 0x00C => some (bits (trialLeft s) 0 32)
  | 0x010 => some (fieldsWord 0 [(0, 1, b2n u.idBad), (1, 1, b2n (u.lehrSt == .kept)), (2, 1, b2n u.recovery)])
  | _ =>
    if 0x040 ≤ off ∧ off < 0x080 then
      let x := comp s ((off - 0x040) / 0x10)
      match off % 0x10 with
      | 0x0 => some (fieldsWord 0 [(0, 1, b2n x.active), (1, 3, slotNo x.a.st), (4, 3, slotNo x.b.st), (7, 1, b2n x.bootAlt)])
      | 0x4 => some (slotVersion x.a)
      | 0x8 => some (slotVersion x.b)
      | _ => none
    else none

/-- TAG block (R446). -/
def tagLive (s : State) (off : Nat) : Option Nat :=
  match off with
  | 0x000 => some (bits s.upd.tagLocks 0 16)
  | 0x004 => some ((List.range 16).foldl (fun w r => if tagCrcBad s r then setBits w r 1 1 else w) 0)
  | _ => none

/-- The live word of a register whose content stands elsewhere than in the CSR bank. -/
def csrLive (s : State) (addr : Nat) : Option Nat :=
  let off := addr % 0x10000
  match addr / 0x10000 with
  | 0x00 => sysLive s off
  | 0x01 => rstLive s off
  | 0x02 => pwrLive s off
  | 0x03 => outLive s off
  | 0x04 => timeLive s off
  | 0x05 => ringLive s off
  | 0x06 => swLive s off
  | 0x0E => dlLive s off
  | 0x0F => mapLive s off
  | 0x10 => cvLive s off
  | 0x11 => fltLive s off
  | 0x12 => updLive s off
  | 0x13 => tagLive s off
  | 0x14 => if off = 4 then some (fieldsWord 0 [(0, 8, openCount s), (8, 9, inFlight s)]) else none
  | b =>
    if 0x08 ≤ b ∧ b < 0x0C then chnLive s ((addr - 0x80000) / 0x800) ((addr - 0x80000) % 0x800)
    else if 0x0C ≤ b ∧ b < 0x0E then leLive s ((addr - 0xC0000) / 0x1000) (addr % 0x1000)
    else none

/-- What a register reads as, before any effect of the read (R5, R7). -/
def csrPeek (s : State) (addr : Nat) : Nat :=
  if (rowsAt s addr).isEmpty then 0 else match csrLive s addr with | some w => w | none => csr s addr

/-- The effect of a read (R5, R123): counters and CV_SCRUB_STAT.RESTARTS clear, SW_POOL_MIN loads the present SHARED_FREE. -/
def csrReadEffect (addr : Nat) (s : State) : State :=
  if addr = 0x60010 then csrPut addr (sharedFree s) s
  else if addr = 0x103004 then modCv (fun c => { c with restarts := 0 }) s
  else if addr = 0x20008 then (draw s).2
  else if (0xE0200 ≤ addr ∧ addr < 0xE0280) ∧ addr % 0x10 = 0xC then (draw s).2
  else if isCounter (rowsAt s addr) then { s with csr := sdel s.csr addr } else s

/-- A read of a register: the word, and the state after. -/
def csrRead (addr : Nat) (s : State) : Nat × State := (csrPeek s addr, csrReadEffect addr s)

/-! ## Writes -/

/-- Write one field (R5, R8): the new content is taken, a reserved encoding sets BAD_ENC instead. -/
def putField (addr v : Nat) (f : FieldRow) (s : State) : State :=
  match f.ty with
  | .rw => if allowed f (bits v f.lo f.w) then setFld addr f.lo f.w (bits v f.lo f.w) s else sysErr 0 s
  | .w1c => setFld addr f.lo f.w (Nat.land (fld s addr f.lo f.w) (2 ^ f.w - 1 - bits v f.lo f.w)) s
  | .w1s => setFld addr f.lo f.w (Nat.lor (fld s addr f.lo f.w) (bits v f.lo f.w)) s
  | _ => s

/-- Write every field of a register. -/
def putFields (addr v : Nat) (s : State) : State := (rowsAt s addr).foldl (fun s f => putField addr v f s) s

/-- Write a register where `may` holds; elsewhere the whole write is a reserved encoding (R8). -/
def putWhen (may : Bool) (addr v : Nat) (s : State) : State := if may then putFields addr v s else sysErr 0 s

/-- Write a register whose new content must fit the rest of a set, where the whole register is the setting judged: else it stays
as it was (R8, R194, R208). -/
def putJoint (ok : State → Bool) (addr v : Nat) (s : State) : State :=
  let t := putFields addr v s
  if ok t then t else sysErr 0 s

/-- Write a register of which one field must fit the rest of a set: where it does not, that field stays at its previous value
and the others are taken (R8). -/
def putHeld (ok : State → Bool) (lo w addr v : Nat) (s : State) : State :=
  let t := putFields addr v s
  if ok t then t else sysErr 0 (setFld addr lo w (fld s addr lo w) t)

/-- The channel's line set-up may be written (R208, R228, R257, R351): DISABLED or OFF. -/
def lineFree (s : State) (ch : Nat) : Bool := (chan s ch).st == .disabled || (chan s ch).st == .off

/-- CHN_CTL (R189): the highest-ranked action bit acts; several set BAD_ENC. -/
def chnCtl (ch v : Nat) (s : State) : State :=
  let n := b2n (bit v 0) + b2n (bit v 1) + b2n (bit v 2) + b2n (bit v 3)
  let s := onlyIf (decide (n > 1)) (sysErr 0) s
  if bit v 3 then (chanReset ch s).2
  else if bit v 2 then (chanAbort ch s).2
  else if bit v 1 then (let s := chanDrain ch s; drainComplete ch s)
  else if bit v 0 then onlyIf ((chan s ch).st == .disabled) (chanEnable ch) s
  else s

/-- CHN_CFG (R181): TERM and BIAS each as the personality allows. -/
def writeChnCfg (ch v : Nat) (s : State) : State :=
  let p := pers s ch
  let addr := chnAddr ch 0
  let two := isPartner (pers s) ch
  let s := if bits v 4 2 < 3 ∧ termOk p two (bits v 4 2) 0 then setFld addr 4 2 (bits v 4 2) s else sysErr 0 s
  if termOk p two 0 (bits v 6 1) then setFld addr 6 1 (bits v 6 1) s else sysErr 0 s

/-- The CAN timing registers hold a valid setting (R208). -/
def canTimingOk (ch : Nat) (s : State) : Bool := timingValid (fdEn s ch) (csr s (canAddr ch 0x108)) (csr s (canAddr ch 0x10C))

/-- CAN_CFG (R208, R228): FD_EN stays where the data timing would not be valid. -/
def writeCanCfg (ch v : Nat) (s : State) : State := putHeld (canTimingOk ch) 0 1 (canAddr ch 0x100) v s

/-- CAN registers (R208, R228). -/
def writeCan (ch off v : Nat) (s : State) : State :=
  let addr := chnAddr ch off
  if off = 0x100 then writeCanCfg ch v s
  else if off = 0x108 ∨ off = 0x10C then (if lineFree s ch then putJoint (canTimingOk ch) addr v s else sysErr 0 s)
  else if 0x200 ≤ off ∧ off < 0x600 then
    if off % 0x10 = 0xC then onlyIf (bit v 2) (modMo ch ((off - 0x200) / 0x10) (fun o => { o with ovr := false })) s
    else putWhen (lineFree s ch) addr v s
  else putFields addr v s

/-- Serial and Modbus registers (R257, R258). A setting that leaves the alive counter outside the covered bytes is taken, for
R353 refuses it in an image only. -/
def writeSer (ch off v : Nat) (s : State) : State :=
  let addr := chnAddr ch off
  if off = 0x100 ∨ off = 0x104 ∨ off = 0x10C ∨ off = 0x110 ∨ off = 0x114 then putWhen (lineFree s ch) addr v s
  else putFields addr v s

/-- Channel registers (R204). -/
def writeChn (ch off v : Nat) (s : State) : State :=
  match off with
  | 0x000 => writeChnCfg ch v s
  | 0x008 => chnCtl ch v s
  | 0x010 | 0x014 => putJoint (fun t => qcfgOk (csr t) ch) (chnAddr ch off) v s
  | _ =>
    if off < 0x100 then putFields (chnAddr ch off) v s
    else if pers s ch = 3 then writeCan ch off v s
    else if pers s ch = 1 ∨ pers s ch = 2 then writeSer ch off v s
    else putFields (chnAddr ch off) v s

/-- Engine registers (R341, R343, R346). The pins of a still engine follow its halt values (R337). -/
def writeLe (e off v : Nat) (s : State) : State :=
  let addr := leAddr e off
  if off = 0x040 then leCtl e v s
  else if off = 0x03C then onlyIf (bit v 5) (modEngine e (fun x => { x with evtPend := false })) s
  else if off < 0x020 then
    let still := leState s e == .idle || leState s e == .halted
    onlyIf still (haltPins e) (putWhen still addr v s)
  else putFields addr v s

/-- OUT_CFG0 and OUT_CFG1 (R384): only in OFF and LATCHED. An ITRIP beyond the limit of the bank (R366) is a reserved encoding,
and the other fields of the write are taken (R8). -/
def writeOut (off v : Nat) (s : State) : State :=
  let o := off / 0x10
  let may := (outlet s o).st == .off || (outlet s o).st == .latched
  if off < 0x200 ∧ off % 0x10 < 8 then
    if may then putHeld (fun t => bankOk (csr t) (o / 8)) 0 6 (0x30000 + off) v s else sysErr 0 s
  else putFields (0x30000 + off) v s

/-- SYNC_OUT as its registers now say (R168): a setting that R168 refuses is a reserved encoding (log entry 15). -/
def syncTaken (s : State) : Bool :=
  syncOk (csr s) && (fld s 0x40000 2 1 == 0 || (syncFirst s (csr s 0x40044 * 2 ^ 32 + csr s 0x40040) (csr s 0x40048)).isSome)

/-- TIME_CFG (R166, R168): enabling SYNC_OUT loads its settings, disabling it drives it inactive. -/
def writeTimeCfg (v : Nat) (s : State) : State :=
  let t := putFields 0x40000 v s
  let was := fld s 0x40000 2 1
  let t := if syncTaken t then t else sysErr 0 (setFld 0x40000 2 1 was t)
  let now := fld t 0x40000 2 1
  if now = 1 ∧ was = 0 then loadSync t
  else if now = 0 then modTime (fun x => { x with syncNext := none, syncBall := x.syncBall.map (fun _ => fld t 0x40000 3 1 == 1) }) t
  else t

/-- TIME registers (R168, R175). -/
def writeTime (off v : Nat) (s : State) : State :=
  let addr := 0x40000 + off
  match off with
  | 0x000 => writeTimeCfg v s
  | 0x008 => onlyIf (bit v 0) timeSnapTake s
  | 0x040 | 0x044 | 0x048 | 0x04C =>
    let t := putFields addr v s
    if !syncTaken t then sysErr 0 s else onlyIf (fld t 0x40000 2 1 == 1) loadSync t
  | _ => putFields addr v s

/-- RING_PCFG (R74, R98): the fields, then the port as EN says. -/
def writePcfg (p : Port) (v : Nat) (s : State) : State :=
  let s := putFields (portAddr p 0) v s
  adminPort p (bit v 0) s

/-- A switch limit or reserve (R107): taken at the next boundary, in BOOT and HELD at once. -/
def writeSwSet (addr v : Nat) (s : State) : State :=
  if (rowsAt s addr).isEmpty then s
  else
    let v := bits v 0 20
    let reg (a : Nat) : Nat := if a = addr then v else swSetting s a
    if !swSetOk reg then sysErr 0 s
    else if s.hub = .boot ∨ s.hub = .held then notePoolMin (csrPut addr v s)
    else modSw (fun w => { w with pendingCfg := w.pendingCfg.filter (fun x => x.1 != addr) ++ [(addr, BitVec.ofNat 32 v)] }) s

/-- DL registers (R324, R325, R344). -/
def writeDl (off v : Nat) (s : State) : State :=
  if 0x200 ≤ off ∧ off < 0x280 then
    let b := (off - 0x200) / 0x10
    match off % 0x10 with
    | 0x0 => onlyIf (bit v 0) (dlBankTripClear b) s
    | 0x8 => dlLineTripClear b (bits v 0 16) s
    | _ => s
  else putFields (0xE0000 + off) v s

/-- Inline check-value units (R5, R348, R351): outside DISABLED and OFF a write of the set is a reserved encoding; the Modbus
set and the results are read-only, and a unit that PERS 3 or 4 leaves unused takes nothing. In a write that leaves an invalid
set the field at fault stays: WIDTH of CV_IN_PARAM, elsewhere the register's one field (R8). A place of the alive counter
outside the covered bytes is taken, for R353 refuses it in an image only. -/
def writeInline (ch o v : Nat) (s : State) : State :=
  let addr := cvIn ch o
  if (inlineFixed s ch o).isSome ∨ (0x1C ≤ o ∧ o < 0x2C) ∨ o ≥ 0x30 then s
  else if !lineFree s ch then sysErr 0 s
  else if o = 0x2C then putFields addr v s
  else putHeld (fun t => cvSetOk (csr t) (cvIn ch 0)) 0 (if o = 0 then 7 else 32) addr v s

/-- FLT registers (R410, R417, R422). -/
def writeFlt (off v : Nat) (s : State) : State :=
  match off with
  | 0x010 => modFaults (fun f => { f with pend := Nat.land f.pend (0x7FF - bits v 0 11) }) s
  | _ =>
    if 0x100 ≤ off ∧ off < 0x158 then
      let g := (off - 0x100) / 8
      if off % 8 = 0 then
        let s := onlyIf (bit v 16) (ffClear g) s
        onlyIf (bit v 17) (modFaults (fun f => { f with ovf := f.ovf.filter (fun x => x != g) })) s
      else s
    else if 0x1000 ≤ off then
      if (sourceRow (srcOf off)).isNone then s
      else if reactOk (srcOf off) (bits v 0 5) then setFld (0x110000 + off) 0 5 (bits v 0 5) s else sysErr 0 s
    else putFields (0x110000 + off) v s

/-- CMDQ registers (R60): ring indices are taken modulo 2^n. -/
def writeCmdq (off v : Nat) (s : State) : State :=
  match off with
  | 0x04C | 0x058 => setFld (0x140000 + off) 0 8 (bits v 0 8 % ringSlots s) s
  | _ => putFields (0x140000 + off) v s

/-- RST registers (R390, R391, R401 to R404). -/
def writeRst (off v : Nat) (s : State) : State :=
  match off with
  | 0x000 => (rstCtl (bits v 0 2) (bits v 2 2) (bits v 4 7) (bits v 24 8) s).2
  | 0x008 =>
    let s := recModeSet (bit v 0) s
    let s := onlyIf (bit v 3) (modReset (fun r => { r with recLoss := false })) s
    onlyIf (bit v 31) recClear s
  | _ => s

/-- PWR registers (R378, R382). -/
def writePwr (off v : Nat) (s : State) : State :=
  match off with
  | 0x000 => onlyIf (bit v 24) (modPower (fun p => { p with trips := 0, ov := 0, gated := false })) s
  | 0x018 => (wakeTx (bits v 0 8) s).2
  | _ => putFields (0x20000 + off) v s

/-- A word write of a register (R5, R7, R8). -/
def csrWrite (addr v : Nat) (s : State) : State :=
  let off := addr % 0x10000
  match addr / 0x10000 with
  | 0x01 => writeRst off v s
  | 0x02 => writePwr off v s
  | 0x03 => writeOut off v s
  | 0x04 => writeTime off v s
  | 0x05 => if off = 0x000 then writePcfg .east v s else if off = 0x100 then writePcfg .west v s else putFields addr v s
  | 0x06 => if 0x100 ≤ off ∧ off < 0x200 then writeSwSet addr v s else putFields addr v s
  | 0x0E => writeDl off v s
  | 0x0F =>
    if off = 0x080 then
      let s := onlyIf (bit v 30) (modMaps (fun m => { m with cfOvf := false })) s
      onlyIf (bit v 31) (ffClear 7) s
    else s
  | 0x10 => if 0x1000 ≤ off ∧ off < 0x3000 then writeInline ((off - 0x1000) / 0x40) (off % 0x40) v s else putFields addr v s
  | 0x11 => writeFlt off v s
  | 0x14 => writeCmdq off v s
  | b =>
    if 0x08 ≤ b ∧ b < 0x0C then writeChn ((addr - 0x80000) / 0x800) ((addr - 0x80000) % 0x800) v s
    else if 0x0C ≤ b ∧ b < 0x0E then writeLe ((addr - 0xC0000) / 0x1000) (addr % 0x1000) v s
    else putFields addr v s

end Sys2Proof.Machine
end

