-- ==== Sys2Proof/Machine/Windows.lean ====
section
/-! DEFINITION. The windows of channels and engines in spaces 2 and 3 (R217, R305, R312 to R316): TX items pushed word by word,
and what each window register reads and takes. -/

namespace Sys2Proof.Machine

open Sys2Proof

/-! ## Items from queue words (R192, R193) -/

/-- A release instant from the 56 bits of a RELEASE word: of the values that end so, the one nearest to now (R192). -/
def restoreNs (s : State) (body : Nat) : Nat :=
  let now := nsNow s
  let m := now / 2 ^ 56
  let dist (x : Nat) : Nat := if x ≤ now then now - x else x - now
  let near (a b : Nat) : Nat := if dist b < dist a then b else a
  near (near (body + m * 2 ^ 56) (body + (m + 1) * 2 ^ 56)) (if m = 0 then body else body + (m - 1) * 2 ^ 56)

/-- The defect of an item of words, if any (R193, R212): a word that no TX item holds, data beyond the limit, a faulty record. -/
def itemDefect (s : State) (ch : Nat) (timed : Bool) (rest : List DWord) (data : List Byte) : Option Status :=
  if rest.any (fun w => wordKind w != 0) then some .denied
  else if pers s ch = 3 then recordFault (fdEn s ch) timed data
  else if data.length > 4096 then some .badLength
  else none

/-- The TX item that words up to an END word spell. -/
def itemOf (s : State) (ch : Nat) (ws : List DWord) : TxItem :=
  let timed : Option Nat := match ws with | w :: _ => if wordKind w = 3 then some (onGrid (restoreNs s (wordBody w))) else none | [] => none
  let rest := if timed.isSome then ws.drop 1 else ws
  let data := wordsData rest
  { seq := 0, release := timed, data := data, producer := .push, bad := itemDefect s ch timed.isSome rest data, attempts := 0 }

/-- The TX queue has room for `n` more words of a service producer (R195). -/
def wordRoom (s : State) (ch n : Nat) : Bool :=
  let c := chan s ch
  let cells := cellsFor (txWords c + n)
  decide (cells ≤ txLimit s ch) && decide (cells - txCells c ≤ chPoolFree s)

/-- One word enters a TX queue (R192, R316): END makes an item of the words since the last END. Words of a dropped item go
with it; a state that takes no item ends it at its END word (R188). -/
def pushWord (ch : Nat) (w : DWord) (s : State) : State :=
  let c := chan s ch
  if c.dropPush then onlyIf (wordEnd w) (modChan ch (fun c => { c with dropPush := false })) s
  else
    let ws := c.partPush ++ [w]
    if !wordEnd w then modChan ch (fun c => { c with partPush := ws }) s
    else
      let i := itemOf s ch ws
      let s := modChan ch (fun c => { c with partPush := [] }) s
      match offerStatus c with
      | some st => failOffer ch i st s
      | none => queueItem ch i s

/-- A word is dropped for want of room (R316): its item is discarded up to its END word and reported QUEUE_FULL. -/
def dropWord (ch : Nat) (w : DWord) (s : State) : State :=
  let s := modChan ch (fun c => { c with partPush := [], dropPush := !wordEnd w }) s
  failOffer ch (itemOf s ch [w]) .queueFull s

/-- Words of a push, cut after each END. -/
def cutItems : List DWord → List DWord → List (List DWord)
  | [], _ => []
  | w :: t, acc => if wordEnd w then (acc ++ [w]) :: cutItems t [] else cutItems t (acc ++ [w])

/-! ## Claims of the maps (R271, R272) -/

/-- A channel whose RX queue an UNPACK rule claims, or an engine whose push FIFO does. -/
def claimedRead (s : State) (target : Nat) : Bool :=
  (unpacks s).any (fun r => if target < 0x100 then descKind r.a == 1 && descUnit r.a == target
    else descKind r.a == 5 && descUnit r.a == target - 0x100)

/-- An engine that a PACK rule targets. -/
def packTargets (s : State) (e : Nat) : Bool :=
  (ruleList s.maps.rules).any (fun x => x.2.kind == 10 && descKind x.2.dst == 4 && descUnit x.2.dst == e)

/-! ## Registers of a window -/

/-- 16 bytes of POP or a HISTORY entry: word, sequence, 0 (R312). -/
def popBytes (w : DWord) (seq : Nat) : List Byte := leBytes 8 w.toNat ++ leBytes 4 seq ++ [0, 0, 0, 0]

/-- The HISTORY area (R312): entry q at (q mod 64)·16; an entry of a sequence not yet taken reads 0 (log entry 24). -/
def historyBytes (h : List (Nat × DWord)) : List Byte :=
  (List.range 64).flatMap (fun i =>
    match (h.filter (fun e => e.1 % 64 == i)).getLast? with
    | some (q, w) => popBytes w q
    | none => zeros 16)

/-- LOCK (R312): holder session and node, expiry tick. -/
def lockBytes (s : State) (ch : Nat) : List Byte :=
  match lockedBy s ch with
  | some l => leBytes 1 l.session ++ leBytes 1 (pathNode l.path % 256) ++ leBytes 6 l.expiry
  | none => zeros 8

/-- RECORD of a CAN object (R217): the main record, padded with 0. -/
def recordBytes (s : State) (ch m : Nat) : List Byte :=
  if isBuffer s ch m then padTo 72 (match (moBuf (chan s ch) m).main with | some f => f.2 | none => []) else zeros 72

/-- A read of the objects of a channel: one word of 8 bytes, or HEAD to END in one (R217, R305). -/
def objectRead (s : State) (ch off len : Nat) : Option (List Byte × State) :=
  let m := off / 0x80
  let o := off % 0x80
  if len = 0x58 ∧ o = 0 then
    let h := headRead ch m s
    let b := recordBytes h.2 ch m
    let e := endRead ch m h.2
    some (leBytes 8 h.1.toNat ++ b ++ leBytes 8 e.1.toNat, e.2)
  else if len ≠ 8 ∨ o % 8 ≠ 0 then none
  else if o = 0 then (let h := headRead ch m s; some (leBytes 8 h.1.toNat, h.2))
  else if o < 0x50 then some (slice (recordBytes s ch m) (o - 8) 8, s)
  else if o = 0x50 then (let e := endRead ch m s; some (leBytes 8 e.1.toNat, e.2))
  else some (zeros 8, s)

/-- A read of a channel's window (R312); none where it names no register whole. -/
def chWindowRead (s : State) (ch off len : Nat) : Option (List Byte × State) :=
  if off = 0x0000 ∧ len = 16 then (let r := popRx ch s; some (popBytes r.1 r.2.1, r.2.2))
  else if off = 0x0018 ∧ len = 8 then some (leBytes 4 (chan s ch).popSeq ++ zeros 4, s)
  else if off = 0x0020 ∧ len = 8 then some (lockBytes s ch, s)
  else if 0x0100 ≤ off ∧ off + len ≤ 0x0500 then some (slice (historyBytes (chan s ch).history) (off - 0x0100) len, s)
  else if 0x8000 ≤ off ∧ off < 0xA000 then objectRead s ch (off - 0x8000) len
  else none

/-- A read of an engine's window (R313). -/
def leWindowRead (s : State) (e off len : Nat) : Option (List Byte × State) :=
  let x := engine s e
  if off = 0x000 ∧ len = 16 then (let r := popEngine e s; some (popBytes r.1 r.2.1, r.2.2))
  else if off = 0x014 ∧ len = 4 then some (leBytes 4 x.popSeq, s)
  else if off = 0x018 ∧ len = 4 then some (leBytes 4 (fieldsWord 0 [(0, 5, x.push.length), (8, 5, 16 - x.pull.length)]), s)
  else if 0x100 ≤ off ∧ off + len ≤ 0x500 then some (slice (historyBytes x.history) (off - 0x100) len, s)
  else none

/-- The target of an offset of space 2 or 3, and the offset within its window: 0 to 127 a channel, 0x100 + n an engine. -/
def windowAt (space off : Nat) : Nat × Nat := if space = 2 then (off / 0x10000, off % 0x10000) else (0x100 + off / 0x1000, off % 0x1000)

/-- A read of a window. -/
def windowRead (s : State) (target off len : Nat) : Option (List Byte × State) :=
  if target < 0x100 then chWindowRead s target off len else leWindowRead s (target - 0x100) off len

/-- The read takes words that the maps claim (R304). -/
def readClaimed (s : State) (target off : Nat) : Bool := off == 0 && claimedRead s target

/-- The write names TX_PUSH or PUSH whole (R312, R313). -/
def namesPush (target off len : Nat) : Bool := off == 0x10 && len == (if target < 0x100 then 8 else 4)

/-- A push to this target is refused (R304). -/
def pushDenied (s : State) (target : Nat) : Bool :=
  if target < 0x100 then mbOn s target || pers s target == 4 || isPartner (pers s) target else packTargets s (target - 0x100)

/-- One word pushed at a target, if it has room (R316). A word that is dropped with its item needs none. -/
def pushOne (target : Nat) (w : DWord) (s : State) : Option State :=
  if target < 0x100 then
    let c := chan s target
    if c.dropPush || wordRoom s target 1 || (offerStatus c).isSome then some (pushWord target w s) else none
  else
    let r := pushEngine (target - 0x100) (bits w.toNat 0 32) s
    if r.1 then some r.2 else none

/-- The word is given up after 1 ms (R316). -/
def giveUpWord (target : Nat) (w : DWord) (s : State) : State := if target < 0x100 then dropWord target w s else s

end Sys2Proof.Machine
end

