-- ==== Sys2Proof/Machine/Spaces.lean ====
section
/-! DEFINITION. Accesses to the spaces of a hub (R20 to R23, R283), and host writes of signals (R266). -/

namespace Sys2Proof.Machine

open Sys2Proof

/-- Fabric address: node, space, offset (R20). -/
def addrNode (a : Nat) : Nat := bits a 56 8
def addrSpace (a : Nat) : Nat := bits a 52 4
def addrOff (a : Nat) : Nat := bits a 0 52

/-- The address names this hub (R20). -/
def isLocal (s : State) (a : Nat) : Bool := addrNode a == 0 || addrNode a == s.ring.node

/-- Size of a space, and its access unit (R21). -/
def spaceSize : Nat → Nat
  | 0 => 0x1000000
  | 1 => 0x200000
  | 2 => 0x800000
  | 3 => 0x20000
  | 4 => 0x2000
  | 5 => 0x4000
  | 6 => 0x400000
  | 7 => 0x10000000
  | _ => 0

def spaceUnit : Nat → Nat
  | 0 => 4
  | 3 => 4
  | 4 => 4
  | 5 => 4
  | _ => 8

/-- An access that R21 does not allow (R22). -/
def badSpace (s : State) : Status × List Byte × State := (.denied, [], sysErr 2 s)

/-- Words of a range. -/
def wordsIn (off len : Nat) : List Nat := (List.range (len / 4)).map (fun i => off + 4 * i)

/-- Why a range of a space is refused before anything of it acts (R4, R22, R26): the state with its sticky bit. -/
def rangeBad (space off len : Nat) (s : State) : Option State :=
  if spaceSize space < off + len then some (sysErr 2 s)
  else if space = 0 then
    if (wordsIn (off - off % 4) (len + off % 4 + 3)).any (fun a => decide (a < off + len) && !inBlock a) then some (sysErr 2 s)
    else if off % 4 ≠ 0 ∨ len % 4 ≠ 0 then some (sysErr 1 s)
    else none
  else if off % spaceUnit space ≠ 0 ∨ len % spaceUnit space ≠ 0 then some (sysErr 2 s)
  else none

/-! ## Reads -/

/-- Read registers in ascending order (R4, R5). -/
def readRegs (off len : Nat) (s : State) : List Byte × State :=
  (wordsIn off len).foldl (fun (acc : List Byte × State) a =>
    let r := csrRead a acc.2
    (acc.1 ++ leBytes 4 r.1, r.2)) ([], s)

/-- Entries of the last closed cycle from an offset of space 1 (R21, R283). -/
def readSignals (off len : Nat) (s : State) : Status × List Byte × State :=
  match s.maps.lastClosed with
  | some l => (.ok, (sigResults s l (off / 8) (len / 8)).drop 8, s)
  | none => (.notReady, [], s)

/-- Tag area and identity block (R21, R441, R443). -/
def readTags (s : State) (off len : Nat) : List Byte :=
  (upFrom off len).map (fun a => if a < 0x1000 then tagByte s a else sget 0 s.upd.ident (a - 0x1000))

/-- Fault log entries in index order (R21, R412). -/
def readLog (s : State) (off len : Nat) : List Byte :=
  slice ((upFrom (off / 32) (len / 32 + 2)).flatMap (fun i => if i < 512 then logBytes s i else [])) (off % 32) len

/-- A running total stands at this offset of space 6 (R23). -/
def hasTotal (s : State) (off : Nat) : Bool := off % 8 == 0 && isCounter (rowsAt s (off / 2))

/-- Running totals (R23). -/
def readTotals (s : State) (off len : Nat) : List Byte :=
  (List.range (len / 8)).flatMap (fun i => leBytes 8 (sget 0 s.totals ((off + 8 * i) / 2)).toNat)

/-- A read of a space of this hub (R21 to R23): its status, data and the state after. -/
def spaceRead (space off len : Nat) (s : State) : Status × List Byte × State :=
  match rangeBad space off len s with
  | some t => (.denied, [], t)
  | none =>
    match space with
    | 0 => (.ok, readRegs off len s)
    | 1 => readSignals off len s
    | 4 => (.ok, readTags s off len, s)
    | 5 => (.ok, readLog s off len, s)
    | 6 => if (List.range (len / 8)).all (fun i => hasTotal s (off + 8 * i)) then (.ok, readTotals s off len, s) else badSpace s
    | 7 => (.ok, (upFrom off len).map (Config.dramByte s.fresh), (draw s).2)
    | _ =>
      let w := windowAt space off
      if readClaimed s w.1 w.2 then (.denied, [], s)
      else match windowRead s w.1 w.2 len with
        | some r => (.ok, r.1, r.2)
        | none => badSpace s

/-! ## Host writes of signals (R266) -/

/-- An entry may be written to a slot by the host. -/
def hostEntryOk (s : State) (first count slot : Nat) (e : DWord) : Bool :=
  let t := slotType s slot
  let pair := if slot % 2 = 0 then slot + 1 else slot - 1
  dHostW (descOf s slot) && eType e == t && valueFits t (eVal e)
    && (!wide t || (decide (first ≤ pair) && decide (pair < first + count)))

/-- Entries with the slots they are for. -/
def slotEntries (first : Nat) (es : List DWord) : List (Nat × DWord) := es.zipIdx.map (fun x => (first + x.2, x.1))

/-- Host writes stand in the order of R170: by tick, then by session, and within a session as its commands run. -/
def insWrite (w : HostWrite) : List HostWrite → List HostWrite
  | [] => [w]
  | x :: t => if w.tick < x.tick ∨ (w.tick = x.tick ∧ w.session < x.session) then w :: x :: t else x :: insWrite w t

/-- SIG_WRITE and writes of space 1: all of it, or nothing (R266). -/
def hostSignals (session first : Nat) (es : List DWord) (s : State) : Status × State :=
  let xs := slotEntries first es
  if xs.all (fun x => hostEntryOk s first es.length x.1 x.2) then
    (.ok, modMaps (fun m => { m with
      hostWrites := xs.foldl (fun l x => insWrite ⟨x.1, x.2, tickNow s, session⟩ l) m.hostWrites }) s)
  else (.denied, s)

/-- Some slot of the range is not host-writable (R21). -/
def hostClosed (s : State) (first count : Nat) : Bool := (upFrom first count).any (fun x => !dHostW (descOf s x))

/-- The entries that bytes spell. -/
def entriesOf (bs : List Byte) : List DWord := (List.range (bs.length / 8)).map (fun i => BitVec.ofNat 64 (rd bs (8 * i) 8))

/-! ## Writes -/

/-- One register word of a command (R390, R391): whether it was taken. -/
def writeReg (addr v : Nat) (s : State) : Bool × State :=
  if addr = 0x10000 then rstCtl (bits v 0 2) (bits v 2 2) (bits v 4 7) (bits v 24 8) s else (true, csrWrite addr v s)

/-- Register words in ascending order. -/
def writeRegs (off : Nat) (bs : List Byte) (s : State) : Status × State :=
  let r := (wordsIn off bs.length).foldl (fun (acc : Bool × State) a =>
    let r := writeReg a (rd bs (a - off) 4) acc.2
    (acc.1 && r.1, r.2)) (true, s)
  (if r.1 then .ok else .denied, r.2)

/-- Tag words (R441, R442): all of them, or nothing. -/
def writeTags (off : Nat) (bs : List Byte) (s : State) : Option State :=
  if (wordsIn off bs.length).all (fun a => (tagWord a 0 s).isSome) then
    some ((wordsIn off bs.length).foldl (fun s a => match tagWord a (rd bs (a - off) 4) s with | some t => t | none => s) s)
  else none

/-- A write of a space of this hub other than the windows of spaces 2 and 3 (R21, R22). -/
def spaceWrite (session space off : Nat) (bs : List Byte) (s : State) : Status × State :=
  match rangeBad space off bs.length s with
  | some t => (.denied, t)
  | none =>
    match space with
    | 0 => writeRegs off bs s
    | 1 => if hostClosed s (off / 8) (bs.length / 8) then (.denied, sysErr 2 s) else hostSignals session (off / 8) (entriesOf bs) s
    | 4 => match writeTags off bs s with | some t => (.ok, t) | none => (.denied, sysErr 2 s)
    | _ => (.denied, sysErr 2 s)

end Sys2Proof.Machine
end

