-- ==== Sys2Proof/Machine/Transact.lean ====
section
/-! DEFINITION. Transactions (R303 to R321): their order at a target, locks, field services, and pops and pushes of windows. -/

namespace Sys2Proof.Machine

open Sys2Proof

/-- How far a command got when it was run. -/
inductive Ran where
  /-- complete, with its status and results -/
  | done (st : Status) (results : List Byte) (s : State)
  /-- its effect took place; the completion follows a later event -/
  | later (s : State)
  /-- started; its effect follows a later event -/
  | wait (s : State)
  /-- it may not act yet and is run again -/
  | hold (s : State)
  /-- `n` words of it stand in the target; the rest waits for room -/
  | push (n : Nat) (s : State)
  deriving DecidableEq, Repr

/-- The state a run leaves. -/
def Ran.state : Ran → State
  | .done _ _ s => s
  | .later s => s
  | .wait s => s
  | .hold s => s
  | .push _ s => s

/-! ## Kinds and targets (R303, R305, R306) -/

/-- Kinds of a transaction (R303). -/
inductive TxKind where
  | posted | nonPosted | read
  deriving DecidableEq, Repr

/-- Space and offset of a local memory command that names a window. -/
def windowSpace (s : State) (c : Cmd) : Option (Nat × Nat) :=
  let a := rd c.params 0 8
  if (c.opcode = 0x0007 ∨ c.opcode = 0x0008) ∧ isLocal s a ∧ (addrSpace a = 2 ∨ addrSpace a = 3) ∧ addrOff a < spaceSize (addrSpace a) then
    some (addrSpace a, addrOff a)
  else none

/-- The target that orders a command, if any (R303, R306): TX_RE_READ and TX_UNLOCK do not touch it. -/
def cmdTarget (s : State) (c : Cmd) : Option Nat :=
  if 0x0400 ≤ c.opcode ∧ c.opcode ≤ 0x0409 ∧ c.opcode ≠ 0x0408 then some c.target
  else (windowSpace s c).map (fun w => (windowAt w.1 w.2).1)

def kindOf (op : Nat) : TxKind :=
  match op with
  | 0x0401 => .nonPosted
  | 0x0402 => .nonPosted
  | 0x0404 => .nonPosted
  | 0x0409 => .nonPosted
  | 0x0407 => .posted
  | 0x0008 => .posted
  | _ => .read

/-- Commands that a lock binds (R309). -/
def lockBound (op : Nat) : Bool := (decide (0x0400 ≤ op) && decide (op ≤ 0x0405)) || op == 0x0409

/-- FENCE, and SESSION_CLOSE, order a command against all others of its session (R43, R51). -/
def fenced (c : Cmd) : Bool := bit c.flags.toNat 0 || c.opcode == 0x0002

/-- A command may start behind the earlier ones of its session (R42, R43). -/
def startable (before : List Cmd) (c : Cmd) : Bool :=
  before.all (fun e => e.session != c.session || isReady e || (e.effected && !fenced e && !fenced c))

/-- The commands of a list with those in front of each. -/
def cmdPrefixes : List Cmd → List Cmd → List (List Cmd × Cmd)
  | _, [] => []
  | acc, c :: t => (acc, c) :: cmdPrefixes (acc ++ [c]) t

def sameCmd (a b : Cmd) : Bool := a.session == b.session && a.tag == b.tag

/-- The transaction is issued to its target and not complete. -/
def underWay (c : Cmd) : Bool := match c.phase with | .issued => true | .pushing _ => true | _ => false

/-- The transaction waits for its turn. -/
def isWaiting (c : Cmd) : Bool := match c.phase with | .waiting => true | _ => false

/-- Transactions of a target that stand in its order in front of `c` (R306): those under way, and those that may start and were
accepted earlier (log entry 25). -/
def earlierAt (s : State) (t : Nat) (c : Cmd) : List Cmd :=
  let ahead := ((cmdPrefixes [] s.cmd.inflight).takeWhile (fun x => !sameCmd x.2 c)).filter (fun x => isWaiting x.2 && startable x.1 x.2)
  s.cmd.inflight.filter (fun e => !sameCmd e c && cmdTarget s e == some t && (underWay e || ahead.any (fun x => sameCmd x.2 e)))

/-- A PCIe write held at the target came before the command (R306: after every session of its tick). -/
def behindHeld (s : State) (t : Nat) (c : Cmd) : Bool := s.cmd.heldPushes.any (fun h => heldTarget h == t && decide (h.up < c.up))

/-- The command waits on another session's lock (R309). -/
def waitsOnLock (s : State) (t : Nat) (c : Cmd) : Bool := (chan s t).lockWaits.contains (c.session, c.tag)

/-- A read that the table of R307 calls stalled. -/
def stalledRead (s : State) (t : Nat) (e : Cmd) : Bool :=
  kindOf e.opcode == .read && (waitsOnLock s t e || (underWay e && decide (0x0400 ≤ e.opcode)))

/-- `c` passes the earlier `e` at target `t` (R307, R309). -/
def passes (s : State) (t : Nat) (c e : Cmd) : Bool :=
  (kindOf c.opcode == .posted && stalledRead s t e)
    || (waitsOnLock s t e && (match lockedBy s t with | some l => l.session == c.session | none => false))

/-- Another session's lock binds the command (R309). -/
def lockHolds (s : State) (t : Nat) (c : Cmd) : Bool :=
  lockBound c.opcode && (match lockedBy s t with | some l => l.session != c.session | none => false)

/-- LOCKED without the lock of the target (R47). -/
def lockMissing (s : State) (c : Cmd) : Bool :=
  bit c.flags.toNat 3 && (match lockedBy s c.target with | some l => l.session != c.session | none => true)

/-! ## Field services (R188, R239, R254, R304) -/

/-- Why a Modbus transaction is refused before it is issued (R239, R304, R464). -/
def mbRefused (s : State) (c : Cmd) : Option Status :=
  let r := mbReqOf c.opcode c.params
  let funcs : List Nat := match c.opcode with | 0x0400 => [1, 2, 3, 4] | 0x0401 => [5, 6, 15, 16] | _ => [23]
  if !mbOn s c.target || isPartner (pers s) c.target then some .denied
  else if !funcs.contains r.func || decide (247 < r.slave) then some .denied
  else mbFault r

/-- TX_MB_READ, TX_MB_WRITE and TX_MB_RW at their turn (R188, R241). -/
def runMb (c : Cmd) (s : State) : Ran :=
  match (chan s c.target).st with
  | .active | .joining | .alone =>
    .later (modMb c.target (fun m => { m with waiting := m.waiting ++ [(c.session, c.tag)] }) s)
  | .detect => .done .notReady [] s
  | .partner => .done .denied [] s
  | _ => .done .aborted [] s

/-- TX_IOL_READ and TX_IOL_WRITE at their turn (R254). -/
def runIol (c : Cmd) (s : State) : Ran :=
  let x := (chan s c.target).iol
  if iolLive s c.target && (x.st == .preoperate || x.st == .operate) then
    .later (bump (chnAddr c.target 0x390) (modIol c.target (fun x => { x with
      isdu := x.isdu ++ [(c.session, c.tag)], isduRuns := true, isduUp := s.time.up }) s))
  else .done .notReady [] s

/-- Why a TX_CAN_REQ is refused before it is issued (R212, R304). -/
def canRefused (s : State) (c : Cmd) : Option Status :=
  if pers s c.target ≠ 3 ∨ rd c.params 0 2 = 0 then some .denied else recordFault (fdEn s c.target) false (c.params.drop 12)

/-- TX_CAN_REQ at its turn (R188, R304): its frame is an untimed item; a service write without a free cell stalls (R195). -/
def runCan (c : Cmd) (s : State) : Ran :=
  match (chan s c.target).st with
  | .active | .joining | .alone =>
    let q : CanReq := { session := c.session, tag := c.tag, respId := rd c.params 4 4, respMask := rd c.params 8 4,
                        timeoutMs := rd c.params 0 2, itemSeq := 2 ^ 32, left := false, startUp := c.up }
    let i : TxItem := { seq := 0, release := none, data := c.params.drop 12, producer := .txn c.session c.tag, bad := none, attempts := 0 }
    let s := modCan c.target (fun x => { x with reqs := x.reqs ++ [q] }) s
    if (chan s c.target).stalled.isEmpty && txFits s c.target i then .later (queueItem c.target i s)
    else .later (bump (chnAddr c.target 0xA0) (modChan c.target (fun x => { x with stalled := x.stalled ++ [(i, s.time.up)] }) s))
  | .detect => .done .notReady [] s
  | .partner => .done .denied [] s
  | _ => .done .aborted [] s

/-! ## Windows (R304, R313 to R316, R337) -/

/-- The target is an engine that is OFF (R337). -/
def engineOff (s : State) (t : Nat) : Bool := decide (0x100 ≤ t) && leState s (t - 0x100) == .off

/-- The target is a partner channel (R189). -/
def partnerAt (s : State) (t : Nat) : Bool := decide (t < 0x100) && (chan s t).st == .partner

/-- Take up to `n` words: they, and the state after the first empty read if there is one (R314). -/
def popWords (t : Nat) : Nat → State → List DWord × State
  | 0, s => ([], s)
  | n + 1, s =>
    let r := if t < 0x100 then popRx t s else popEngine (t - 0x100) s
    let empty := if t < 0x100 then (chan s t).rxq.isEmpty else (engine s (t - 0x100)).push.isEmpty
    if empty then ([], r.2.2)
    else
      let m := popWords t n r.2.2
      (r.1 :: m.1, m.2)

/-- Next pop sequence of a window (R314). -/
def popSeqOf (s : State) (t : Nat) : Nat := if t < 0x100 then (chan s t).popSeq else (engine s (t - 0x100)).popSeq

/-- Words taken last, with their sequences (R314). -/
def historyOf (s : State) (t : Nat) : List (Nat × DWord) := if t < 0x100 then (chan s t).history else (engine s (t - 0x100)).history

def wordsBytes (ws : List DWord) : List Byte := ws.flatMap (fun w => leBytes 8 w.toNat)

/-- TX_POP (R304, R314). -/
def runPop (c : Cmd) (s : State) : Ran :=
  let first := popSeqOf s c.target
  let r := popWords c.target (rd c.params 0 2) s
  .done .ok (leBytes 4 first ++ leBytes 2 r.1.length ++ [0, 0] ++ wordsBytes r.1) r.2

/-- TX_RE_READ (R315). -/
def runReRead (c : Cmd) (s : State) : Ran :=
  let t := c.target
  let n := rd c.params 4 2
  let qs := (upFrom (rd c.params 0 4) n).map (· % 2 ^ 32)
  let h := historyOf s t
  let ahead (q : Nat) : Bool := decide ((q + 2 ^ 32 - popSeqOf s t) % 2 ^ 32 < 2 ^ 31)
  if engineOff s t || partnerAt s t then .done .denied [] s
  else if qs.any ahead then .done .denied [] s
  else
    let ws := qs.filterMap (fun q => h.find? (fun e => e.1 == q))
    if ws.length < n then .done .expired [] s
    else .done .ok (leBytes 2 n ++ [0, 0] ++ ws.flatMap (fun e => leBytes 4 e.1 ++ leBytes 8 e.2.toNat)) (bumpBy 0x140094 n s)

/-- Why a TX_PUSH is refused before it is issued (R304, R313, R316). -/
def pushRefused (s : State) (c : Cmd) : Bool :=
  let ws := entriesOf c.params
  engineOff s c.target || partnerAt s c.target || pushDenied s c.target
    || (if c.target < 0x100 then (match ws.getLast? with | some w => !wordEnd w | none => false)
        else ws.any (fun w => bits w.toNat 32 32 != 0))

/-- Place one whole item of a TX_PUSH, if it has room (R188, R316). -/
def pushItem (ch : Nat) (ws : List DWord) (s : State) : Option State :=
  let i := itemOf s ch ws
  match offerStatus (chan s ch) with
  | some st => some (failOffer ch i st s)
  | none => if wordRoom s ch ws.length then some (queueItem ch i s) else none

/-- Place items in order while there is room: words placed. -/
def pushItems (ch : Nat) : List (List DWord) → Nat → State → Nat × Bool × State
  | [], n, s => (n, true, s)
  | i :: t, n, s => match pushItem ch i s with | some u => pushItems ch t (n + i.length) u | none => (n, false, s)

/-- Place engine words in order while there is room. -/
def pushWords (e : Nat) : List DWord → Nat → State → Nat × Bool × State
  | [], n, s => (n, true, s)
  | w :: t, n, s => match pushOne (0x100 + e) w s with | some u => pushWords e t (n + 1) u | none => (n, false, s)

/-- TX_PUSH from its word `n` on (R316). -/
def runPush (c : Cmd) (n : Nat) (s : State) : Ran :=
  let ws := (entriesOf c.params).drop n
  let r := if c.target < 0x100 then pushItems c.target (cutItems ws []) n s else pushWords (c.target - 0x100) ws n s
  if r.2.1 then .done .ok (leBytes 4 r.1) r.2.2 else .push r.1 r.2.2

/-- The word of a MEM_WRITE to a window. -/
def windowWord (c : Cmd) : DWord := BitVec.ofNat 64 (leVal (c.params.drop 12))

/-- Why a MEM_WRITE of a window is refused (R22, R304, R305, R313), with the state after. -/
def windowRefused (space off : Nat) (c : Cmd) (s : State) : Option (Status × State) :=
  let w := windowAt space off
  match rangeBad space off (c.params.length - 12) s with
  | some t => some (.denied, t)
  | none =>
    if !namesPush w.1 w.2 (c.params.length - 12) then some (.denied, sysErr 2 s)
    else if pushDenied s w.1 || engineOff s w.1 then some (.denied, s)
    else none

/-- A MEM_WRITE of a window (R305, R316). -/
def runWindowWrite (space off : Nat) (c : Cmd) (s : State) : Ran :=
  match pushOne (windowAt space off).1 (windowWord c) s with
  | some t => .done .ok [] t
  | none => .push 0 s

/-! ## Locks (R308 to R310) -/

/-- The lock ends. -/
def dropLock (ch : Nat) (s : State) : State := modCmd (fun x => { x with locks := sdel x.locks ch }) s

/-- Write a lock. -/
def setLock (ch : Nat) (l : Lock) (s : State) : State := modCmd (fun x => { x with locks := sins x.locks ch l }) s

/-- TX_LOCK on a channel that no lock fits, or with a time out of range (R308). -/
def lockRefused (s : State) (c : Cmd) : Bool :=
  !(mbOn s c.target || pers s c.target == 4 || pers s c.target == 3) || partnerAt s c.target
    || rd c.params 0 2 == 0 || decide (100 < rd c.params 0 2)

/-- TX_LOCK at its turn (R308): the expiry counts from the tick of the grant (log entry 26). -/
def runLock (c : Cmd) (s : State) : Ran :=
  let now := tickNow s
  let first := match lockedBy s c.target with | some l => l.first | none => now
  let expiry := min (now + rd c.params 0 2 * 2000) (first + 200000)
  let path := match sess s c.session with | some se => se.path | none => c.path
  .done .ok (leBytes 8 expiry) (setLock c.target { session := c.session, path := path, expiry := expiry, first := first } s)

/-- TX_UNLOCK (R310). -/
def runUnlock (c : Cmd) (s : State) : Ran :=
  match lockedBy s c.target with
  | some l => if l.session = c.session then .done .ok [] (dropLock c.target s) else .done .denied [] s
  | none => .done .denied [] s

/-- Forget that a command waits on a lock, and entries of commands that are gone. -/
def endLockWait (t : Nat) (c : Cmd) (s : State) : State :=
  if (chan s t).lockWaits.isEmpty then s
  else modChan t (fun x => { x with lockWaits := x.lockWaits.filter (fun w =>
    w != (c.session, c.tag) && (match cmdOf s w.1 w.2 with | some e => isWaiting e | none => false)) }) s

/-- The command waits on another session's lock, counted once (R309). -/
def noteLockWait (t : Nat) (c : Cmd) (s : State) : State :=
  if waitsOnLock s t c then s
  else bump 0x140088 (modChan t (fun x => { x with lockWaits := x.lockWaits ++ [(c.session, c.tag)] }) s)

/-- LOCK_EXPIRY (R310): the event goes to the holder alone. -/
def lockExpiry (ch : Nat) (s : State) : State :=
  match lockedBy s ch with
  | some l =>
    if l.expiry ≤ tickNow s then
      let ps := leBytes 8 (tickNow s) ++ [BitVec.ofNat 8 ch, 4]
      let s := bump 0x140090 (dropLock ch s)
      let r := s.cmd.sessions.map (fun se => if se.num = l.session ∧ takesEvent 4 se then eventTo 4 ps (outEvents s se.num) s.cmd.made se else (se, false))
      bumpBy 0x140024 (r.countP (·.2)) (modCmd (fun x => { x with sessions := r.map (·.1), made := x.made + 1 }) s)
    else s
  | none => s

/-- LOCK_WAIT_TIMEOUT (R309): items still blocked 100 ms after their processing tick complete with LOCKED. -/
def lockWaitTimeout (ch : Nat) (s : State) : State :=
  (chan s ch).lockWaits.foldl (fun s w =>
    match cmdOf s w.1 w.2 with
    | some c =>
      if isWaiting c ∧ since c.up s ≥ 200000 then bump 0x14008C (complete c.session c.tag .locked [] (endLockWait ch c s)) else s
    | none => s) s

/-! ## Running a transaction -/

/-- A transaction that no order holds back: refused (R304), or issued. -/
def issueTx (c : Cmd) (s : State) : Ran :=
  match c.opcode with
  | 0x0400 | 0x0401 | 0x0402 => runMb c s
  | 0x0403 | 0x0404 => runIol c s
  | 0x0405 => runCan c s
  | 0x0406 => runPop c s
  | 0x0407 => runPush c 0 s
  | 0x0409 => runLock c s
  | 0x0008 => match windowSpace s c with | some w => runWindowWrite w.1 w.2 c s | none => .done .denied [] s
  | _ =>
    match windowSpace s c with
    | some w => let r := spaceRead w.1 w.2 (rd c.params 8 4) s; .done r.1 r.2.1 r.2.2
    | none => .done .denied [] s

/-- Why a transaction is refused whatever its place in the order (R47, R304, R305, R337). -/
def refuseTx (c : Cmd) (s : State) : Option (Status × State) :=
  let tell (o : Option Status) : Option (Status × State) := o.map (fun x => (x, s))
  if lockMissing s c then some (.denied, s)
  else match c.opcode with
    | 0x0400 | 0x0401 | 0x0402 => tell (mbRefused s c)
    | 0x0403 | 0x0404 => if pers s c.target ≠ 4 then some (.denied, s) else none
    | 0x0405 => tell (canRefused s c)
    | 0x0406 => if engineOff s c.target || partnerAt s c.target || claimedRead s c.target then some (.denied, s) else none
    | 0x0407 => if pushRefused s c then some (.denied, s) else none
    | 0x0409 => if lockRefused s c then some (.denied, s) else none
    | 0x0008 => match windowSpace s c with | some w => windowRefused w.1 w.2 c s | none => none
    | _ => none

/-- Run a transaction of target `t` (R306 to R309). -/
def runTx (t : Nat) (c : Cmd) (s : State) : Ran :=
  match refuseTx c s with
  | some r => .done r.1 [] (endLockWait t c r.2)
  | none =>
    if (earlierAt s t c).any (fun e => !passes s t c e) || behindHeld s t c then .hold s
    else if lockHolds s t c then .hold (noteLockWait t c s)
    else issueTx c (endLockWait t c s)

/-- Go on with a push whose first `n` words stand in the target (R316). -/
def resumePush (c : Cmd) (n : Nat) (s : State) : Ran :=
  if c.opcode = 0x0407 then runPush c n s
  else match windowSpace s c with
    | some w => runWindowWrite w.1 w.2 c s
    | none => .done .denied [] s

/-- WINDOW_PUSH_TIMEOUT (R316): pushes of a session without room 1 ms after their processing tick. -/
def windowPushTimeout (session : Nat) (s : State) : State :=
  s.cmd.inflight.foldl (fun s c =>
    match c.phase with
    | .pushing n =>
      if c.session = session ∧ since c.up s ≥ 2000 then
        if c.opcode = 0x0407 then bump 0x140098 (complete session c.tag .queueFull (leBytes 4 n) s)
        else match windowSpace s c with
          | some w => bump 0x140098 (complete session c.tag .queueFull [] (giveUpWord (windowAt w.1 w.2).1 (windowWord c) s))
          | none => s
      else s
    | _ => s) s

/-! ## PCIe accesses of windows (R217, R312 to R319) -/

/-- The PCIe endpoint takes accesses: from boot step 5 on (R395), through a SERVICE reset (R387), outside OFF and the deep sleep
levels. -/
def barServes (s : State) : Bool :=
  (!s.reset_.inReset || s.reset_.reach == .service) &&
  match s.hub with
  | .off => false
  | .boot => decide (5 ≤ s.reset_.bootStep) && s.reset_.bootFail == 0
  | .sleep => s.power.sleepLevel == 1 || s.power.wakeDone
  | _ => true

/-- A PCIe access of target `t` that arrived at own tick `up` waits behind a session's transaction there (R306, R307): one under
way, or one that may start and waits for its turn. A write passes a stalled read. -/
def barBehind (s : State) (t : Nat) (posted : Bool) (up : Nat) : Bool :=
  (cmdPrefixes [] s.cmd.inflight).any (fun x =>
    cmdTarget s x.2 == some t && decide (x.2.up ≤ up) && (underWay x.2 || (isWaiting x.2 && startable x.1 x.2))
      && !(posted && stalledRead s t x.2))

/-- While a pushed write is held, no later access of the endpoint goes on (R319). -/
def barFree (s : State) : Bool := barServes s && s.cmd.heldPushes.isEmpty

/-- The data of a PCIe read completion. -/
def barAnswer (bs : List Byte) (s : State) : State := modCmd (fun x => { x with barData := bs }) s

/-- A PCIe read that R4 or R22 refuses (R4, R22): it is recorded and returns all ones. -/
def pcieBadRead (requester addr size : Nat) (s : State) : State :=
  barAnswer (List.replicate size 0xFF) (pcieBad requester addr false s)

/-- A BAR2 read of a window's register (R307, R314, R317), by requester `rq`: refused, answered, or without effect while it waits
for its turn at the target. A read of what the maps claim is refused (R304). -/
def barReadFrom (rq target off size : Nat) (s : State) : State :=
  if !barFree s then s
  else if readClaimed s target off then pcieBadRead rq (barAddr target off) size (sysErr 2 s)
  else match windowRead s target off size with
    | some r => if barBehind s target false s.time.up then s else barAnswer r.1 r.2
    | none => pcieBadRead rq (barAddr target off) size (sysErr 2 s)

/-- A BAR2 write of one word by requester `rq` (R307, R316, R319): placed, held for its turn or for room, or refused. -/
def barPushFrom (rq target : Nat) (w : DWord) (s : State) : State :=
  let hold (s : State) : State := bump 0x140080 (modCmd (fun x => { x with heldPushes := x.heldPushes ++
    [{ engine := decide (0x100 ≤ target), unit := target % 0x100, word := w, up := s.time.up, requester := rq }] }) s)
  if !barFree s then s
  else if pushDenied s target then pcieBad rq (barAddr target 0x10) true (sysErr 2 s)
  else if barBehind s target true s.time.up then hold s
  else match pushOne target w s with
    | some t => t
    | none => hold s

/-- A BAR2 read by a row that carries no requester ID: an input left open, a free value (log entry 5). -/
def barRead (target off size : Nat) (s : State) : State := if barFree s then barReadFrom ((draw s).1 % 65536) target off size (draw s).2 else s

/-- A BAR2 write by a row that carries no requester ID. -/
def barPush (target : Nat) (w : DWord) (s : State) : State := if barFree s then barPushFrom ((draw s).1 % 65536) target w (draw s).2 else s

/-- Held writes find their turn and room in their order (R307, R319). -/
def placeHeld : Nat → State → State
  | 0, s => s
  | n + 1, s =>
    match s.cmd.heldPushes with
    | [] => s
    | h :: t =>
      if barBehind s (heldTarget h) true h.up then s
      else match pushOne (heldTarget h) h.word s with
        | some u => placeHeld n (modCmd (fun x => { x with heldPushes := t }) u)
        | none => s

/-- PCIE_PUSH_DROP (R319): a held write is discarded 1 ms after its arrival. -/
def pciePushDrop (s : State) : State :=
  match s.cmd.heldPushes with
  | [] => s
  | h :: t =>
    if since h.up s ≥ 2000 then
      let target := heldTarget h
      pushDropped h (giveUpWord target h.word (modCmd (fun x => { x with heldPushes := t }) s))
    else s

end Sys2Proof.Machine
end

