-- ==== Sys2Proof/Machine/Handlers.lean ====
section
/-! DEFINITION. What each opcode does at its execution (R57, R464): the effect, the status and the results. -/

namespace Sys2Proof.Machine

open Sys2Proof

/-- Complete with a status and no results. -/
def tell (st : Status) (s : State) : Ran := .done st [] s

/-- Complete with a status, and with results only where it is OK. -/
def give (st : Status) (results : List Byte) (s : State) : Ran := .done st (if st = .ok then results else []) s

/-! ## System and session (R51, R54, R464) -/

/-- SESSION_CLOSE (R51): later commands of the session that were accepted end with ABORTED (log entry 19). -/
def runClose (c : Cmd) (s : State) : Ran :=
  let s := flushReplies s
  match sess s c.session with
  | none => tell .aborted s
  | some se =>
    let s := closeSession c.session (modCmd (fun q => { q with inflight := q.inflight.map (fun x =>
      if x.session = c.session then
        (if isReady x || sameCmd x c then { x with path := se.path } else { x with path := se.path, phase := .ready .aborted [], effected := true })
      else x) }) s)
    .done .ok (leBytes 2 se.expected.toNat) (ownerGone s)

/-- GET_REPLY (R41, R464). -/
def runGetReply (c : Cmd) (s : State) : Ran :=
  match sess s c.session with
  | none => tell .expired s
  | some se =>
    let tag : Tag := BitVec.ofNat 16 (rd c.params 0 2)
    if (tag - se.expected).toNat < 0x8000 then tell .denied s
    else match retainedOf s se tag with
      | some r => .done .ok (replyPackets 0 r.session r.tag.toNat r.opcode r.status r.results).flatten s
      | none => if tag ≠ c.tag ∧ (cmdOf s c.session tag).isSome then .hold s else tell .expired s

/-- GET_STATE (R464). -/
def stateBytes (s : State) : List Byte :=
  leBytes 4 (csrPeek s 0x004) ++ leBytes 4 (csrPeek s 0x00C)
    ++ leBytes 8 (match s.maps.lastClosed with | some l => l | none => 2 ^ 64 - 1) ++ leBytes 8 (tickNow s)

/-- SET_EVENTS (R54). -/
def runSetEvents (c : Cmd) (s : State) : Ran :=
  .done .ok (slice c.params 0 4) (modSession c.session (fun x => { x with mask := BitVec.ofNat 32 (rd c.params 0 4) }) s)

/-! ## Memory (R20 to R24, R117, R119) -/

/-- The packet in which a command travels to other nodes (log entry 18). -/
def farPacket (c : Cmd) : List Byte :=
  packetBytes ⟨0, c.effc.elim 0 (fun _ => 2), c.opcode, c.session, c.tag.toNat, 0xFFFF, 0⟩ (c.effc.map (·.toNat)) c.params

/-- A command travels to another node as its own packet (R20). -/
def carry (node : Nat) (c : Cmd) (s : State) : State := sendPacket 1 node (farPacket c) s

/-- MEM_READ of a space; windows go by the order of their target (R306). -/
def runMemRead (c : Cmd) (s : State) : Ran :=
  let a := rd c.params 0 8
  if isLocal s a then (let r := spaceRead (addrSpace a) (addrOff a) (rd c.params 8 4) s; .done r.1 r.2.1 r.2.2)
  else if isCarried c then tell .denied s
  else if addrNode a = 255 then .done .denied [] (sysErr 2 s)
  else if !ringSends s then tell .notReady s
  else .later (carry (addrNode a) c s)

/-- Present members of a group, this hub left out (R117). -/
def mcMembers (s : State) (g : Nat) : List Nat :=
  match s.ring.light with
  | some l => ((l.entries.filter (fun e => entryPresent e && e.node != s.ring.node
      && (g == 0 || bit (rd e.members (g / 8) 1) (g % 8)))).map (·.node))
  | none => []

/-- Results of a multicast write (R24, R119): bitmap of the nodes that reported OK, then each other one with its status. -/
def mcResults (m : McItem) : List Byte :=
  let good := (m.reports.filter (fun r => r.2 == 0)).map (·.1)
  let bad := (m.expected.filter (fun n => !good.contains n)).map (fun n =>
    (n, match m.reports.find? (fun r => r.1 == n) with | some r => r.2 | none => statusNo (if m.lost.contains n then .lost else .timeout)))
  leBytes 32 ((good.map (fun n => 2 ^ n)).sum) ++ leBytes 1 bad.length ++ bad.flatMap (fun b => leBytes 1 b.1 ++ leBytes 2 b.2)

/-- A multicast write leaves (R117): once, clockwise. -/
def runMulticast (c : Cmd) (s : State) : Ran :=
  let g := rd c.params 8 1
  let id := s.sw.mcNext
  let members := mcMembers s g
  let payload := leBytes 4 id.toNat ++ leBytes 2 members.length ++ [0, 0] ++ farPacket c
  let m : McItem := { id := id, session := c.session, tag := c.tag, expected := members, reports := [], lost := [], sentUp := s.time.up,
                      rounds := 0, payload := payload }
  if members.isEmpty then .done .ok (mcResults m) s
  else
    let s := modSw (fun w => { w with mcNext := id + 1, mcItems := w.mcItems ++ [m] }) s
    if payload.length ≤ 9564 then .later (originate (newFrame s 1 255 g false payload) s)
    else
      let s := originate { newFrame s 1 255 g false (payload.take 9564) with last := false } s
      .later (originate { newFrame s 1 255 g false (payload.drop 9564) with first := false, frag := 1 } s)

/-- MEM_WRITE of a space; windows go by the order of their target. -/
def runMemWrite (c : Cmd) (s : State) : Ran :=
  let a := rd c.params 0 8
  if isLocal s a then (let r := spaceWrite c.session (addrSpace a) (addrOff a) (c.params.drop 12) s; .done r.1 [] r.2)
  else if isCarried c then tell .denied s
  else if addrNode a = 255 then
    (if addrSpace a > 1 then .done .denied [] (sysErr 2 s) else if !ringSends s then tell .notReady s else runMulticast c s)
  else if !ringSends s then tell .notReady s
  else .later (carry (addrNode a) c s)

/-- The command acts at another node, which holds it for its effective cycle itself (R44, log entry 18). -/
def actsFar (s : State) (c : Cmd) : Bool :=
  c.opcode == 0x0008 && !isCarried c && !isLocal s (rd c.params 0 8)

/-! ## Configuration, signals and maps (R266, R279, R281, R283, R440) -/

/-- Cycle from which a change without EFFC holds (R279). -/
def changeFrom (c : Cmd) (s : State) : Nat := match c.effc with | some k => k.toNat | none => cycleNow s + 1

/-- An image accepted for activation is noted for its boundary (R279, R398, R440). In HELD its registers are in use at once (R400). -/
def noteActivation (session : Nat) (tag : Tag) (effc : Option Nat) (img : List Byte) (s : State) : State :=
  let s := noteChange (.config session tag (match effc with | some k => k | none => cycleNow s + 1) img) s
  let s := onlyIf effc.isNone (activateCopy session img) s
  onlyIf (s.hub == .held) (takeImage img) s

/-- Subscriptions of an image that this hub does not hold: their publishers are asked first (R96). -/
def newSubs (img : List Byte) (s : State) : List Subscr :=
  ((imgSubs img).map (·.2)).filter (fun x => x.node != s.ring.node && !s.maps.subs.contains x)

/-- Types of the slots that a subscription of an image fills, by the image's own descriptors. -/
def imageTypes (img : List Byte) (x : Subscr) : List Byte :=
  let ds := (imgDescs img).map (fun e => (e.1, e.2.2))
  ((upFrom x.local_ x.count).take 16000).map (fun y => BitVec.ofNat 8 (dType (sget (zeros 12) ds y)))

/-- Ask the publishers of an image for its subscriptions (R96). -/
def askImage (img : List Byte) (w : ActWait) (s : State) : ActWait × State :=
  (newSubs img s).foldl (fun (a : ActWait × State) x =>
    ({ a.1 with asked := a.1.asked ++ [(a.2.maps.asks % 65536, x)] }, askOwn (subParams x ++ imageTypes img x) x a.2)) (w, s)

/-- CFG_ACTIVATE is judged (R398, R440); with subscriptions that need a larger charge of other hubs it waits for their answers (R96). -/
def runActivate (c : Cmd) (s : State) : Ran :=
  let img := s.upd.lehr
  let r := activateJudge s
  match r.1 with
  | some st => tell st r.2
  | none =>
    let effc := c.effc.map (·.toNat)
    if !ringSends r.2 || (newSubs img r.2).isEmpty then
      .done .ok (leBytes 4 (imgCrc img)) (noteActivation c.session c.tag effc img r.2)
    else
      let a := askImage img ⟨c.session, c.tag, effc, img, [], s.time.up⟩ r.2
      .wait (modMaps (fun m => { m with acts := m.acts ++ [a.1] }) a.2)

/-- The CFG_ACTIVATE of a wait ends (R96): every subscription granted, or a refusal, which withdraws what was asked. -/
def endActivate (w : ActWait) (st : Status) (s : State) : State :=
  let s := modMaps (fun m => { m with acts := m.acts.filter (fun x => x != w) }) s
  let live := s.cmd.inflight.any (fun c => c.session == w.session && c.tag == w.tag && c.opcode == 0x0102 && c.phase == .issued)
  if !live then s
  else if st = .ok ∧ w.effc.any (fun k => decide (k * s.maps.n ≤ tickNow s)) then complete w.session w.tag .tooLate [] s
  else if st = .ok then complete w.session w.tag .ok (leBytes 4 (imgCrc w.image)) (noteActivation w.session w.tag w.effc w.image s)
  else
    let s := (newSubs w.image s).foldl (fun s x => askSub 0x0305 0 0 none (subParams x) x.node s) s
    complete w.session w.tag st [] s

/-- A publisher answers a request of this hub's own (R96): BUDGET ends the activation that waits for it; with the last answer it is
taken. -/
def ownAnswer (tag st : Nat) (s : State) : State :=
  match s.maps.acts.find? (fun w => w.asked.any (fun x => x.1 == tag)) with
  | none => s
  | some w =>
    if st = 18 then endActivate w .budget s
    else
      let v := { w with asked := w.asked.filter (fun x => x.1 != tag) }
      let s := modMaps (fun m => { m with acts := m.acts.map (fun x => if x = w then v else x) }) s
      if v.asked.isEmpty then endActivate v .ok s else s

/-- Parts of a MAP_CHANGE (R45): first rule and rule bytes of each. -/
def mapParts : Nat → List Byte → List (Nat × List Byte)
  | 0, _ => []
  | n + 1, p =>
    if p.length < 8 then []
    else
      let k := rd p 4 2
      (rd p 0 4, slice p 8 (32 * k)) :: mapParts n (p.drop (8 + 32 * k))

/-- MAP_CHANGE (R279): every part of it, or nothing. -/
def runMapChange (c : Cmd) (s : State) : Ran :=
  let k := changeFrom c s
  let cs := (mapParts 64 c.params).map (fun p => Change.rules c.session c.tag k p.1 p.2)
  let v := cs.foldl (changeView s) (viewAt k s)
  match mapVerdict v with
  | some st => tell st s
  | none =>
    .done .ok [] (cs.foldl (fun s x => noteChange x s) s)

/-- Worst-case evaluations of the map in force. -/
def evalBytes (s : State) : List Byte :=
  let e := evals (nowView s)
  leBytes 4 (e.1 + e.2.1 + e.2.2.1)

/-- MAP_STATUS: rules, evaluations, limit, effective cycle of the last change. -/
def mapStatus (s : State) : List Byte :=
  leBytes 4 (ruleList s.maps.rules).length ++ evalBytes s ++ leBytes 4 (perTick s.power.level * s.maps.n) ++ leBytes 8 s.maps.effLast

/-- SIG_READ (R283). -/
def runSigRead (c : Cmd) (s : State) : Ran :=
  let k := rd c.params 8 8
  match s.maps.lastClosed with
  | none => .done .notReady (leBytes 8 (2 ^ 64 - 1)) s
  | some l =>
    let k' := if k = 2 ^ 64 - 1 then l else k
    -- cycles passed over are never closed (R148)
    let past := if s.maps.phase = .idle then decide (k' < cycleNow s) else decide (k' < s.maps.cycle)
    if k' > l then .done (if past then .expired else .notReady) (leBytes 8 l) s
    else if k' + 15 < l || (closedImage s k').isNone then .done .expired (leBytes 8 l) s
    else if s.maps.copying = some k' then .later s
    else .done .ok (sigResults s k' (rd c.params 0 4) (rd c.params 4 2)) s

/-- The subscription of SUB_ADD. -/
def subOf (p : List Byte) : Subscr := { node := rd p 0 1, remote := rd p 4 4, local_ := rd p 8 4, count := rd p 2 2 }

/-- A subscription is judged against the map as it will stand (R279, R281). -/
def subVerdict (k : Nat) (x : Subscr) (s : State) : Option Status :=
  let v := viewAt k s
  mapVerdict { v with subs := v.subs ++ [x] }

/-- SUB_ADD (R281): judged here, then the publisher is asked. -/
def runSubAdd (c : Cmd) (s : State) : Ran :=
  let x := subOf c.params
  if x.node = s.ring.node then tell .denied s
  else match subVerdict (changeFrom c s) x s with
    | some st => tell st s
    | none =>
      if !ringSends s then tell .notReady s
      else .wait (askSub 0x0304 c.session c.tag (c.effc.map (·.toNat)) (subParams x ++ subTypes s x) x.node s)

/-- SUB_REMOVE (R281): of a subscription that stands or is to stand at its cycle. -/
def runSubRemove (c : Cmd) (s : State) : Ran :=
  let k := changeFrom c s
  let n := rd c.params 0 1
  let l := rd c.params 4 4
  if !numbered s then tell .notReady s
  else if (viewAt k s).subs.any (fun x => x.node == n && x.local_ == l) then .done .ok [] (noteChange (.subRemove c.session c.tag k n l) s)
  else tell .denied s

/-! ## Channels (R187 to R190, R198 to R202, R225) -/

/-- CH_ENABLE (R187). -/
def runEnable (c : Cmd) (s : State) : Ran :=
  let ch := c.target
  let x := chan s ch
  match x.st with
  | .disabled => .later (modChan ch (fun x => { x with enabling := some (c.session, c.tag, s.time.up) }) (chanEnable ch s))
  | .active | .alone => .done .ok (leBytes 8 x.joinTick) s
  | .joining => .done .ok (leBytes 8 0) s
  | _ => tell .denied s

/-- CH_DISABLE (R188): it answers once the channel stands in DISABLED. -/
def runDisable (c : Cmd) (s : State) : Ran :=
  let ch := c.target
  let await (s : State) : State := modChan ch (fun x => { x with draining := x.draining ++ [(c.session, c.tag)] }) s
  if rd c.params 0 1 > 1 ∨ (chan s ch).st = .partner then tell .denied s
  else
    let r := if rd c.params 0 1 = 0 then (0, chanDrain ch s) else chanAbort ch s
    if (chan r.2 ch).st = .draining then .later (drainComplete ch (await r.2)) else .done .ok (leBytes 4 r.1) r.2

/-- CH_RESET (R190). -/
def runReset (c : Cmd) (s : State) : Ran :=
  if (chan s c.target).st = .partner then tell .denied s
  else (let r := chanReset c.target s; .done .ok (leBytes 4 r.1) r.2)

/-- CH_RATE_DETECT (R201, R226). -/
def runDetect (c : Cmd) (s : State) : Ran :=
  let ch := c.target
  let p := pers s ch
  let ms := rd c.params 0 4
  if (chan s ch).st ≠ .disabled ∨ (chan s ch).resetting ∨ !(p == 1 || p == 2 || p == 3) ∨ isPartner (pers s) ch ∨ ms < 10 ∨ 600000 < ms then tell .denied s
  else .later (modChan ch (fun x => { x with
    st := .detect, detect := some { session := c.session, tag := c.tag, startUp := s.time.up, timeoutMs := ms }
    can := { x.can with nominalFound := none, nominalUp := 0, brsSeen := false } }) s)

/-- CH_SEND (R173, R188, R193, R195, R212, R236, R255). -/
def runSend (c : Cmd) (s : State) : Ran :=
  let ch := c.target
  let rel := rd c.params 0 8
  let data := c.params.drop 10
  let i : TxItem := { seq := 0, release := if rel = 0 then none else some (onGrid rel), data := data, producer := .send c.session c.tag,
                      bad := none, attempts := 0 }
  if mbOn s ch ∨ pers s ch = 4 ∨ (chan s ch).st = .partner then tell .denied s
  else match (if pers s ch = 3 then recordFault (fdEn s ch) (decide (rel ≠ 0)) data else none) with
    | some st => tell st s
    | none =>
      match offerStatus (chan s ch) with
      | some st => .later (failOffer ch i st s)
      | none =>
        match (if rel = 0 then none else releaseStatus c.tick rel) with
        | some st => tell st s
        | none => if txFits s ch i then .later (queueItem ch i s) else tell .queueFull s

/-- Words of the first packet of an RX queue, its END word included; none while it is not whole. -/
def firstPacket : List DWord → Option (List DWord)
  | [] => none
  | w :: t => if wordEnd w then some [w] else (firstPacket t).map (w :: ·)

/-- A receive tick from the bits of a STAMP word (R192): the value that ends so nearest to now. -/
def restoreTick (s : State) (body : Nat) : Nat :=
  let m := tickNow s / 2 ^ 56
  if body + m * 2 ^ 56 ≤ tickNow s ∨ m = 0 then body + m * 2 ^ 56 else body + (m - 1) * 2 ^ 56

/-- An item of CH_RECEIVE (R57, R198). The tick of an item without a STAMP word is a free value (log entry 5). -/
def receiveItem (ws : List DWord) (s : State) : List Byte × State :=
  match ws with
  | w :: _ =>
    if wordKind w = 1 then (leBytes 8 (restoreTick s (wordBody w)) ++ leBytes 2 (wordsData (ws.drop 1)).length ++ wordsData (ws.drop 1), s)
    else
      let d := draw s
      let t := leBytes 8 (d.1 % 2 ^ 64)
      if wordKind w = 2 then
        (t ++ [0xFF, 0xFF] ++ leBytes 2 (bits w.toNat 0 16) ++ leBytes 1 (bits w.toNat 48 8) ++ [0] ++ leBytes 4 (bits w.toNat 16 32), d.2)
      else (t ++ leBytes 2 (wordsData ws).length ++ wordsData ws, d.2)
  | [] => ([], s)

/-- Move a packet to the front of the RX queue. -/
def toFront (ch : Nat) (ws : List DWord) (s : State) : State :=
  modChan ch (fun x => { x with rxq := ws ++ ws.foldl (fun q w => q.erase w) x.rxq }) s

/-- The next packet for CH_RECEIVE: of a channel that the maps claim only STATUS words (R271). -/
def nextPacket (s : State) (ch : Nat) : Option (List DWord) :=
  if claimedRead s ch then (((chan s ch).rxq.find? (fun w => wordKind w == 2)).map (fun w => [w])) else firstPacket (chan s ch).rxq

/-- Take up to `n` packets while the results hold them (R46). -/
def receiveItems (ch : Nat) : Nat → List Byte → Nat → State → List Byte × Nat × State
  | 0, acc, k, s => (acc, k, s)
  | n + 1, acc, k, s =>
    match nextPacket s ch with
    | none => (acc, k, s)
    | some ws =>
      let r := receiveItem ws s
      if acc.length + r.1.length + 2 > maxParams then (acc, k, s)
      else receiveItems ch n (acc ++ r.1) (k + 1) (popWords ch ws.length (onlyIf (claimedRead s ch) (toFront ch ws) r.2)).2

/-- CH_RECEIVE (R57, R198, R200). -/
def runReceive (c : Cmd) (s : State) : Ran :=
  if (chan s c.target).st = .partner then tell .denied s
  else
    let s := flushReport c.target s
    let r := receiveItems c.target (min (rd c.params 0 2) maxParams) [] 0 s
    .done .ok (leBytes 2 r.2.1 ++ r.1) r.2.2

/-- CH_RELEASE (R225). -/
def runRelease (c : Cmd) (s : State) : Ran :=
  let x := chan s c.target
  match x.st with
  | .partner => tell .denied s
  | .alone => .done .ok (leBytes 4 x.txq.length)
      (backToBus c.target (modChan c.target (fun x => { x with st := .active, can := { x.can with ackRun := 0 } }) s))
  | _ => .done .ok (leBytes 4 0) s

/-- Registers as u32 each. -/
def regWords (s : State) (addrs : List Nat) : List Byte := addrs.flatMap (fun a => leBytes 4 (csrPeek s a))

/-- Registers of a channel block at stride 4. -/
def chRegs (ch off n : Nat) : List Nat := (List.range n).map (fun i => chnAddr ch (off + 4 * i))

/-- Personality part of CH_STATUS (R58). -/
def persPart (s : State) (ch : Nat) : List Nat :=
  match pers s ch with
  | 1 | 2 => chRegs ch 0x100 4 ++ chRegs ch 0x180 8 ++ (if mbOn s ch then chRegs ch 0x208 1 ++ chRegs ch 0x280 10 else [])
  | 3 => chRegs ch 0x100 2 ++ chRegs ch 0x180 14
  | 4 => chRegs ch 0x300 3 ++ chRegs ch 0x310 1 ++ chRegs ch 0x380 8
  | _ => []

/-- Results of CH_STATUS (R58). -/
def chStatusBytes (s : State) (ch : Nat) : List Byte :=
  let head := [0x000, 0x004, 0x018, 0x01C, 0x024, 0x028, 0x038, 0x03C].map (chnAddr ch)
  let p := regWords s (persPart s ch)
  regWords s (head ++ chRegs ch 0x080 13) ++ regWords s (chRegs ch 0x030 1) ++ leBytes 2 p.length ++ [0, 0] ++ p

/-- CH_STATUS (R58). -/
def runChStatus (c : Cmd) (s : State) : Ran :=
  if (chan s c.target).st = .partner then tell .denied s else .done .ok (chStatusBytes s c.target) s

/-! ## Engines and lines (R329, R330, R337 to R341) -/

/-- LE_HALT (R340). -/
def runHalt (c : Cmd) (s : State) : Ran :=
  let e := c.target
  let st := leState s e
  if st = .off then tell .denied s
  else if !leActive st then .done .ok (haltResults (engine s e) (engine s e).abandoned true) s
  else .wait (askHalt e (some (c.session, c.tag)) s)

/-- Parts of an LE_LOAD (R45): first entry and entry bytes of each. -/
def loadParts : Nat → List Byte → List (Nat × List Byte)
  | 0, _ => []
  | n + 1, p =>
    if p.length < 4 then []
    else
      let k := rd p 2 2
      (rd p 0 2, slice p 4 (3 * k)) :: loadParts n (p.drop (4 + 3 * k))

/-- LE_LOAD (R341, R357): every part of it, or nothing. -/
def runLoad (c : Cmd) (s : State) : Ran :=
  let st := leState s c.target
  let ps := loadParts 64 c.params
  if st = .off then tell .denied s
  else if leActive st then tell .engineActive s
  else if ps.any (fun p => (List.range (p.2.length / 3)).any (fun i => !entryOk (loadEntry p.2 i))) then tell .denied s
  else .done .ok [] (scrubTouch [256 + c.target] (ps.foldl (fun s p => writeTable c.target p.1 p.2 s) s))

/-- LE_RESTART (R338). -/
def runRestart (c : Cmd) (s : State) : Ran :=
  if rd c.params 0 1 > 1 then tell .denied s
  else (let r := restart c.target c.tick (bit (rd c.params 0 1) 0) s; tell r.1 r.2)

/-- LE_GROUP_START (R339). -/
def runGroup (c : Cmd) (s : State) : Ran := let r := groupStart (rd c.params 0 4) (rd c.params 4 8) c.tick s; tell r.1 r.2

/-- LE_STATUS (R464). -/
def runLeStatus (c : Cmd) (s : State) : Ran :=
  let x := engine s c.target
  let st := leState s c.target
  if st = .off then tell .denied s
  else .done .ok (leBytes 1 (leNo st) ++ leBytes 1 x.count ++ leBytes 1 x.push.length ++ leBytes 1 x.pull.length ++ leBytes 4 x.shift) s

/-- DL_WRITE (R330): at T_k with EFFC, else at tick t + 40. -/
def runDlWrite (c : Cmd) (s : State) : Ran :=
  let v := rd c.params 0 2
  let m := rd c.params 2 2
  if !dlMaskOk s c.target m then tell .denied s
  else tell .ok (if c.effc.isSome then setLines c.target v m s else dlSchedule c.tick c.target v m s)

/-- DL_READ (R329). -/
def runDlRead (c : Cmd) (s : State) : Ran :=
  let t := tickNow s
  .done .ok (leBytes 2 (bankBits c.target (fun l => levelBefore s l t)) ++ [0, 0] ++ leBytes 8 (t - 1)) s

/-! ## Power (R367, R371, R375, R376) -/

def runOutSet (c : Cmd) (s : State) : Ran :=
  if rd c.params 0 1 > 1 then tell .denied s
  else (let r := outSet c.target (rd c.params 0 1 == 1) s; tell r.1 r.2)

def runOutClear (c : Cmd) (s : State) : Ran := let r := outClear c.target s; .done .ok (leBytes 1 r.1) r.2

/-- OUT_STATUS (R464). -/
def outStatusBytes (s : State) (o : Nat) : List Byte :=
  let x := outlet s o
  leBytes 1 (outStNo x.st) ++ leBytes 1 x.used ++ leBytes 2 (min 0xFFFF x.ma) ++ leBytes 2 (ofSigned 16 x.deciC)

/-- PL_SET (R375): it waits for a transition that runs. -/
def runPlSet (c : Cmd) (s : State) : Ran :=
  let lv := rd c.params 0 1
  if lv > 3 then tell .denied s
  else
    let s := modPower (fun p => { p with plCmds := p.plCmds ++ [(c.session, c.tag, lv)] }) s
    .later (if s.power.plCmds.length = 1 then plNext 1 s else s)

/-- SLEEP_ENTER (R376): SLEEP_ENTRY takes the hub to sleep at the boundary and answers. -/
def runSleep (c : Cmd) (s : State) : Ran :=
  let lv := rd c.params 0 1
  if lv = 0 ∨ lv > 3 ∨ sleepDenied lv s ∨ s.power.sleepAt.isSome then tell .denied s
  else .wait (modPower (fun p => { p with sleepAt := some (lv, changeFrom c s, c.session, c.tag) }) s)

/-- PWR_STATUS (R464). Package power is a measurement that no event brings: a free value (log entry 5). -/
def pwrStatusBytes (s : State) : List Byte :=
  let p := s.power
  leBytes 2 (min 0xFFFF p.vinMv) ++ leBytes 1 p.level ++ [p.rails] ++ leBytes 4 (Config.freeValue s.fresh)

/-! ## Time (R161, R165, R168) -/

/-- TIME_GET (R464). -/
def timeBytes (s : State) : List Byte :=
  leBytes 8 s.time.seconds ++ leBytes 4 s.time.ns ++ leBytes 2 s.time.frac ++ [0, 0] ++ leBytes 8 (tickNow s) ++ leBytes 8 (cycleNow s)

/-- SYNC_OUT_SET (R168): the settings, loaded where SYNC_OUT is enabled. -/
def runSyncOut (c : Cmd) (s : State) : Ran :=
  let first := rd c.params 0 8
  let period := rd c.params 8 4
  let width := rd c.params 12 4
  if !syncSettings period width || (syncFirst s first period).isNone then tell .denied s
  else
    let s := csrPut 0x40040 (bits first 0 32) (csrPut 0x40044 (bits first 32 32) (csrPut 0x40048 period (csrPut 0x4004C width s)))
    tell .ok (onlyIf (fld s 0x40000 2 1 == 1) loadSync s)

/-- STAMP_READ (R165). -/
def runStampRead (c : Cmd) (s : State) : Ran :=
  let n := rd c.params 0 1
  let east : Bool := c.target == 0
  let q := if east then s.time.stampsEast else s.time.stampsWest
  let lost := if east then s.time.lostEast else s.time.lostWest
  let taken := q.take n
  let s := setFld 0x40060 (16 + c.target) 1 0 s
  let s := modTime (fun t => if east then { t with stampsEast := q.drop n, lostEast := 0 } else { t with stampsWest := q.drop n, lostWest := 0 }) s
  .done .ok (leBytes 1 taken.length ++ leBytes 1 (min 255 lost) ++ taken.flatMap (fun e => leBytes 2 e.1.toNat ++ leBytes 8 e.2)) s

/-- PEER_DELAY_GET (R161). -/
def runPeerDelay (c : Cmd) (s : State) : Ran :=
  let p := portOf c.target
  if pdValid s p then
    (let d := pdMean (portSt s p).pd; .done .ok (leBytes 4 (d / 65536) ++ leBytes 2 (d % 65536)) s)
  else tell .notReady s

/-! ## Faults, update, identity (R410, R414, R419, R420, R428 to R434, R441 to R443) -/

def runFltRead (c : Cmd) (s : State) : Ran := let r := fltRead (rd c.params 0 2) (rd c.params 2 2) s; .done r.1 r.2 s

/-- UPD_BLOCK and CFG_STAGE (R428, R429). -/
def runBlock (t off : Nat) (bs : List Byte) (c : Cmd) (s : State) : Ran :=
  if t > 4 then tell .denied s else (let r := takeBlock t off bs c.session c.path s; .done r.1 r.2.1 r.2.2)

def runUpdBlock (c : Cmd) (s : State) : Ran :=
  if rd c.params 0 1 > 3 then tell .denied s else runBlock (rd c.params 0 1) (rd c.params 4 4) (c.params.drop 8) c s

def runUpdCommit (c : Cmd) (s : State) : Ran := let r := updCommit (rd c.params 0 1) c.session s; .done r.1 r.2.1 r.2.2

def runTagRead (c : Cmd) (s : State) : Ran :=
  let r := rd c.params 0 1
  if r > 15 then tell .denied s else .done .ok (tagBytes s (256 * r) 256) s

/-! ## Ring (R58, R74, R90, R91, R146, R149) -/

/-- RING_STATUS (R58). -/
def ringStatusBytes (s : State) : List Byte :=
  let rev (p : Port) : Nat := if isUp s p then (portSt s p).rev else 0
  [BitVec.ofNat 8 (spanNo s.ring.east.span), BitVec.ofNat 8 (spanNo s.ring.west.span), BitVec.ofNat 8 (rev .east), BitVec.ofNat 8 (rev .west),
   BitVec.ofNat 8 s.ring.east.shownPeer, BitVec.ofNat 8 s.ring.west.shownPeer, BitVec.ofNat 8 (csrPeek s 0x50600 % 16),
   BitVec.ofNat 8 s.master.role, BitVec.ofNat 8 (masterNode s), BitVec.ofNat 8 (backupNode s)]
    ++ leBytes 2 (match s.ring.light with | some l => l.gen.toNat | none => 0)
    ++ leBytes 1 (match s.ring.light with | some l => l.entries.length | none => 0)
    ++ leBytes 1 (b2n (reduced s) + 2 * b2n s.time.locked + 4 * b2n s.time.holdover + 8 * b2n s.master.proof)
    ++ [0, 0] ++ regWords s [0x50430, 0x50434, 0x50438]

/-- SPAN_ADMIN (R74). -/
def runSpanAdmin (c : Cmd) (s : State) : Ran :=
  if rd c.params 0 1 > 1 then tell .denied s else tell .ok (adminPort (portOf c.target) (rd c.params 0 1 == 1) s)

/-- RING_BACKUP_SET (R142): by the master, of another present node that can be master. -/
def runBackup (c : Cmd) (s : State) : Ran :=
  let n := rd c.params 0 1
  let fits : Bool := match newestLight s with
    | some l => l.entries.any (fun e => e.node == n && entryPresent e && bit e.flags.toNat 4) && l.master.toNat != n
    | none => false
  if isMaster s && fits then tell .ok (setBackup n s) else tell .denied s

/-- PROOF_TAKEOVER (R146): the master stops its duties. -/
def runProof (c : Cmd) (s : State) : Ran :=
  if s.master.role = 1 ∧ !s.master.stopped ∧ backupNode s ≠ 0 then
    tell .ok (modMaster (fun m => { m with
      proof := true, stopped := true, proofCycles := rd c.params 0 4, proofStartCycle := cycleNow s, proofUp := s.time.up }) s)
  else tell .denied s

/-- UNWRAP_HOLDOFF_SET (R149). -/
def runHoldoff (c : Cmd) (s : State) : Ran :=
  let ms := rd c.params 0 4
  if ms < 10 ∨ 3600000 < ms then tell .denied s else tell .ok (csrPut (0x50604 + 4 * c.target) ms s)

/-! ## The publisher's side of subscriptions (R96, R281) -/

/-- A range asked for cannot be published (R281). -/
def publishRefused (s : State) (first count : Nat) (types : List Byte) : Bool :=
  let v := viewAt (cycleNow s + 1) s
  count == 0 || decide (262144 < first + count) || decide (1024 ≤ s.maps.published.length)
    || types.zipIdx.any (fun t => slotType s (first + t.2) != t.1.toNat)
    || (upFrom first count).any v.subscribed
    || v.live.any (fun x => decide (v.pub ≤ x.1) && (v.ruleSlots (parseRule x.2)).any (fun y => decide (first ≤ y) && decide (y < first + count)))

/-- Another node asks for slots (R96, R281): published once the charge is granted. A hub that knows no master publishes within
its grant; the master grants its own charge. -/
def runPublish (c : Cmd) (s : State) : Ran :=
  let node := match c.path with | .ring n => n.val | _ => 0
  let first := rd c.params 4 4
  let count := rd c.params 2 2
  let ps := s.maps.published ++ [(node, first, count)]
  let publishNow (s : State) : State := modMaps (fun m => { m with published := ps }) s
  if publishRefused s first count (c.params.drop 12) then tell .denied s
  else if s.maps.published.contains (node, first, count) || pubCharge ps == s.ring.charge then
    tell .ok (if s.maps.published.contains (node, first, count) then s else publishNow s)
  else if isMaster s then
    (match newestLight s with
     | some l =>
       let others := ((l.entries.filter (fun e => e.node != s.ring.node)).map (fun e => e.grant.toNat)).sum
       if others + pubCharge ps > 1250 * l.n.toNat then tell .budget s else tell .ok (requestCharge ps (publishNow s))
     | none => tell .ok (publishNow s))
  else if masterNode s = 0 then tell .ok (requestCharge ps (publishNow s))
  else
    let w : PubWait := { node := node, session := c.session, tag := c.tag, first := first, count := count, up := s.time.up,
                         effc := c.effc.map (·.toNat) }
    .later (requestCharge ps (modRing (fun r => { r with pubWaits := r.pubWaits ++ [w] }) s))

/-- A node no longer asks for slots (R281). -/
def runUnpublish (c : Cmd) (s : State) : Ran :=
  let node := match c.path with | .ring n => n.val | _ => 0
  let ps := s.maps.published.erase (node, rd c.params 4 4, rd c.params 2 2)
  tell .ok (requestCharge ps (modMaps (fun m => { m with published := ps }) s))

/-- Answer those who wait for the grant (R96): published on reason 0, BUDGET on reason 4. -/
def endPubWaits (reason cycle : Nat) (s : State) : State :=
  let ws := s.ring.pubWaits
  let s := modRing (fun r => { r with pubWaits := [] }) s
  if reason = 0 then
    ws.foldl (fun s w =>
      let s := modMaps (fun m => { m with published := m.published ++ [(w.node, w.first, w.count)] }) s
      complete w.session w.tag (match w.effc with | some k => if cycle > k then .tooLate else .ok | none => .ok) [] s) s
  else
    let s := ws.foldl (fun s w => complete w.session w.tag .budget [] s) s
    if ws.isEmpty then s else modRing (fun r => { r with charge := pubCharge s.maps.published }) s

/-- ASSIGN_RX (R87, R96). -/
def assignRx (s : State) : State :=
  takeCtl 9 28 (fun f s =>
    if rd f.payload 4 8 = (myUid s).toNat then endPubWaits (rd f.payload 2 1) (rd f.payload 20 8) (takeAssign f.payload s) else s) s

/-- ASSIGN_WAIT_TIMEOUT (R96): 100 ms without an ASSIGN, or without the answers that a CFG_ACTIVATE waits for. -/
def assignWaitTimeout (s : State) : State :=
  let s := (s.maps.acts.filter (fun w => decide (since w.up s ≥ 200000))).foldl (fun s w => endActivate w .timeout s) s
  let late (w : PubWait) : Bool := decide (since w.up s ≥ 200000)
  let ws := s.ring.pubWaits.filter late
  let s := modRing (fun r => { r with pubWaits := r.pubWaits.filter (fun w => !late w) }) s
  let s := ws.foldl (fun s w => complete w.session w.tag .timeout [] s) s
  if ws.isEmpty || !s.ring.pubWaits.isEmpty then s else modRing (fun r => { r with charge := pubCharge s.maps.published }) s

/-! ## Dispatch of opcodes -/

/-- Groups 0x00 and 0x01. -/
def runSystem (c : Cmd) (s : State) : Ran :=
  match c.opcode with
  | 0x0000 => tell .ok s
  | 0x0001 => tell .denied s
  | 0x0002 => runClose c s
  | 0x0003 => .done .ok c.params s
  | 0x0004 => runGetReply c s
  | 0x0005 => .done .ok (stateBytes s) s
  | 0x0006 => runSetEvents c s
  | 0x0007 => runMemRead c s
  | 0x0008 => runMemWrite c s
  | 0x0100 => runBlock 4 (rd c.params 0 4) (c.params.drop 4) c s
  | 0x0101 => let r := cfgValidate s; .done r.1 r.2.1 r.2.2
  | 0x0102 => runActivate c s
  | 0x0103 => .done .ok (cfgStatus s) s
  | 0x0104 => let r := cfgRead (rd c.params 0 1) (rd c.params 1 1) (rd c.params 4 4) (rd c.params 8 4) s; .done r.1 r.2 s
  | _ => tell .unknownOpcode s

/-- Groups 0x02 to 0x05, without the transactions that a target orders. -/
def runField (c : Cmd) (s : State) : Ran :=
  match c.opcode with
  | 0x0200 => runEnable c s
  | 0x0201 => runDisable c s
  | 0x0202 => runReset c s
  | 0x0203 => runDetect c s
  | 0x0204 => runSend c s
  | 0x0205 => runReceive c s
  | 0x0206 => runRelease c s
  | 0x0207 => runChStatus c s
  | 0x0300 => let r := hostSignals c.session (rd c.params 0 4) (entriesOf (c.params.drop 8)) s; tell r.1 r.2
  | 0x0301 => runSigRead c s
  | 0x0302 => runMapChange c s
  | 0x0303 => .done .ok (mapStatus s) s
  | 0x0304 => if isCarried c then runPublish c s else runSubAdd c s
  | 0x0305 => if isCarried c then runUnpublish c s else runSubRemove c s
  | 0x0408 => runReRead c s
  | 0x040A => runUnlock c s
  | 0x0500 => runHalt c s
  | 0x0501 => runLoad c s
  | 0x0502 => runRestart c s
  | 0x0503 => runGroup c s
  | 0x0504 => runLeStatus c s
  | 0x0505 => runDlWrite c s
  | 0x0506 => runDlRead c s
  | _ => tell .unknownOpcode s

/-- Groups 0x06 to 0x0B. -/
def runBoard (c : Cmd) (s : State) : Ran :=
  match c.opcode with
  | 0x0600 => runOutSet c s
  | 0x0601 => runOutClear c s
  | 0x0602 => .done .ok (outStatusBytes s c.target) s
  | 0x0603 => runPlSet c s
  | 0x0604 => runSleep c s
  | 0x0605 => .done .ok (pwrStatusBytes s) (draw s).2
  | 0x0700 => .done .ok (timeBytes s) s
  | 0x0701 => runSyncOut c s
  | 0x0702 => runStampRead c s
  | 0x0703 => runPeerDelay c s
  | 0x0800 => runFltRead c s
  | 0x0801 => let r := fltClear (rd c.params 0 2) s; tell r.1 r.2
  | 0x0802 => let r := fltInject (rd c.params 0 2) c.session s; tell r.1 r.2
  | 0x0803 => let r := fltReact (rd c.params 0 2) (rd c.params 2 1) s; tell r.1 r.2
  | 0x0900 => runUpdBlock c s
  | 0x0901 => runUpdCommit c s
  | 0x0902 => let r := updConfirm (rd c.params 0 1) s; tell r.1 r.2
  | 0x0903 => let r := updAbort c.session s; .done r.1 r.2.1 r.2.2
  | 0x0904 => .done .ok (updStatus s) s
  | 0x0A00 => .done .ok (identBytes s) s
  | 0x0A01 => runTagRead c s
  | 0x0A02 => let r := tagWrite (rd c.params 0 1) (c.params.drop 4) s; tell r.1 r.2
  | 0x0A03 => let r := tagLock (rd c.params 0 1) s; tell r.1 r.2
  | 0x0B00 => .done .ok (ringStatusBytes s) s
  | 0x0B01 => match s.ring.light with | some l => .done .ok (lightBytes l) s | none => tell .notReady s
  | 0x0B02 => runSpanAdmin c s
  | 0x0B03 => runBackup c s
  | 0x0B04 => runProof c s
  | 0x0B05 => runHoldoff c s
  | _ => tell .unknownOpcode s

/-- A command acts (step 12 of R38), without regard to its effective cycle. -/
def runNow (c : Cmd) (s : State) : Ran :=
  match cmdTarget s c with
  | some t => runTx t c s
  | none =>
    if lockMissing s c then tell .denied s
    else if c.opcode < 0x0200 then runSystem c s
    else if c.opcode < 0x0600 then runField c s
    else runBoard c s

end Sys2Proof.Machine
end

