-- ==== Sys2Proof/Machine/Interp.lean ====
section
/-! DEFINITION. The command interpreter: the checks of an arriving packet (R38 to R45), the order in which accepted commands
start (R42 to R44), and SESSION_OPEN (R48 to R50). -/

namespace Sys2Proof.Machine

open Sys2Proof

/-! ## Running what may run (R42 to R44) -/

/-- Change a command in flight that is not complete. -/
def setCmd (c : Cmd) (f : Cmd → Cmd) (s : State) : State :=
  modCmd (fun q => { q with inflight := q.inflight.map (fun x => if sameCmd x c && !isReady x then f x else x) }) s

/-- Note how far a command got. -/
def noteRan (c : Cmd) (r : Ran) : State :=
  match r with
  | .done st res s => setCmd c (fun x => { x with phase := .ready st res, effected := true }) s
  | .later s => setCmd c (fun x => { x with phase := .issued, effected := true }) s
  | .wait s => setCmd c (fun x => { x with phase := .issued }) s
  | .hold s => s
  | .push n s => setCmd c (fun x => { x with phase := .pushing n, effected := true }) s

/-- A command that acts at another node takes effect at its cycle, where that node holds it (R44): until then it is only under way. -/
def Ran.farHeld : Ran → Ran
  | .later s => .wait s
  | r => r

/-- Opcodes whose change is prepared ahead of its cycle (R279). -/
def preparesChange (op : Nat) : Bool := op == 0x0102 || op == 0x0302 || op == 0x0304 || op == 0x0305

/-- A change is judged and noted; the command takes effect, and is answered, at the boundary of cycle `k` (R42, R44, R279). -/
def holdChange (c : Cmd) (k : Nat) (s : State) : State :=
  match runNow c s with
  | .done .ok res s => setCmd c (fun x => { x with phase := .heldUntil k res }) s
  | r => noteRan c r

/-- A command with effective cycle `k` reaches execution (R29, R44, R279). -/
def runEffc (c : Cmd) (k : Nat) (s : State) : State :=
  if k > cycleNow s + 65536 then noteRan c (tell .denied s)
  else if k * s.maps.n ≤ tickNow s then noteRan c (tell .tooLate s)
  else if actsFar s c then noteRan c (runNow c s).farHeld
  else if c.opcode == 0x0604 || (isCarried c && c.opcode == 0x0304) then noteRan c (runNow c s)
  else if preparesChange c.opcode then holdChange c k s
  else setCmd c (fun x => { x with phase := .heldUntil k [] }) s

/-- Run one command that waits or pushes. A change, and PL_SET, without effective cycle take effect at the next cycle boundary
(R279, R375). -/
def runOne (c : Cmd) (s : State) : State :=
  match c.phase with
  | .waiting =>
    (match c.effc with
     | some k => runEffc c k.toNat s
     | none =>
       if preparesChange c.opcode && !isCarried c then holdChange c (cycleNow s + 1) s
       else if c.opcode == 0x0603 then setCmd c (fun x => { x with phase := .heldUntil (cycleNow s + 1) [] }) s
       else noteRan c (runNow c s))
  | .pushing n => noteRan c (resumePush c n s)
  | _ => s

/-- The commands in front of one in the queue, and itself as it stands. -/
def findCmd (s : State) (c : Cmd) : Option (List Cmd × Cmd) := (cmdPrefixes [] s.cmd.inflight).find? (fun x => sameCmd x.2 c)

/-- The command is applied in class 7 of T_k. -/
def appliedAt (k : Nat) (c : Cmd) : Bool :=
  match c.phase with
  | .heldUntil j _ => j == k
  | .waiting => (match c.effc with | some j => j.toNat == k | none => false)
  | .issued => !c.effected && (match c.effc with | some j => j.toNat == k | none => false)
  | _ => false

/-- A change for cycle `k` waits only behind commands of its session that are themselves applied at T_k: it is applied with them
(R29), so it is judged now, and the map of cycle k is built with it (R279). -/
def judgedEarly (before : List Cmd) (c : Cmd) : Bool :=
  preparesChange c.opcode && (match c.effc with
    | some k => before.all (fun e => e.session != c.session || isReady e || appliedAt k.toNat e)
    | none => false)

/-- The command may be run now; none starts while a command reset is due (R390). -/
def mayRun (s : State) (before : List Cmd) (c : Cmd) : Bool :=
  s.cmd.pendingReset.isNone
    && (match c.phase with | .waiting => startable before c || judgedEarly before c | .pushing _ => true | _ => false)

/-- The command waits to start, or its words for room. -/
def runnable (c : Cmd) : Bool := match c.phase with | .waiting => true | .pushing _ => true | _ => false

/-- One pass over the commands in flight, in the order of acceptance. -/
def sweep (s : State) : State :=
  (s.cmd.inflight.filter runnable).foldl (fun s c =>
    match findCmd s c with
    | some (before, x) => if mayRun s before x then runOne x s else s
    | none => s) s

/-- Some command may run. -/
def someMayRun (s : State) : Bool := (cmdPrefixes [] s.cmd.inflight).any (fun x => mayRun s x.1 x.2)

/-- Replies whose turn has come leave and commands run, until nothing more can start: each pass that starts something completes
or issues a command. -/
def sweeps : Nat → State → State
  | 0, s => flushReplies s
  | n + 1, s => if someMayRun (flushReplies s) then sweeps n (sweep (flushReplies s)) else flushReplies s

/-- After every event: held PCIe writes find room, commands that may start run, replies and events leave. -/
def settle (s : State) : State :=
  let s := placeHeld s.cmd.heldPushes.length s
  drainPaths (sweeps (s.cmd.inflight.length + 1) s)

/-! ## Effective cycles (R29, R44) -/

/-- A command applied at T_k: a change that was prepared is in force from the boundary, and MAP_CHANGE answers with the
evaluations of the map that stands; CFG_ACTIVATE without effective cycle was copied as it was taken; any other command acts now. -/
def runHeld (c : Cmd) (res : List Byte) (s : State) : State :=
  if c.opcode = 0x0302 then noteRan c (.done .ok (evalBytes s) s)
  else if c.opcode = 0x0102 ∧ c.effc.isSome then
    let img := match s.maps.changes.findSome? (fun x => match x with
      | .config se t _ b => if se = c.session ∧ t = c.tag then some b else none
      | _ => none) with | some b => b | none => s.upd.inForce
    noteRan c (.done .ok res (activateCopy c.session img s))
  else if preparesChange c.opcode then noteRan c (.done .ok res s)
  else noteRan c (runNow c s)

/-- The command is due: held to its cycle, or processed before T_k and waiting only behind one applied in this class 7 (R29). -/
def heldDue (s : State) (before : List Cmd) (c : Cmd) : Option (List Byte) :=
  match c.phase with
  | .heldUntil k res => if k * s.maps.n ≤ tickNow s then some res else none
  | .waiting =>
    match c.effc with
    | some k => if startable before c && decide (k.toNat * s.maps.n = tickNow s) && decide (c.tick < tickNow s) then some [] else none
    | none => none
  | _ => none

/-- The due command of the lowest session, the first of its session. -/
def nextDue (s : State) : Option (Cmd × List Byte) :=
  let due := (cmdPrefixes [] s.cmd.inflight).filterMap (fun x => (heldDue s x.1 x.2).map (fun r => (x.2, r)))
  due.foldl (fun m x => match m with | none => some x | some y => if x.1.session < y.1.session then some x else some y) none

/-- Apply due commands one after another. -/
def applyDue : Nat → State → State
  | 0, s => s
  | n + 1, s =>
    match nextDue s with
    | some (c, res) =>
      match c.phase with
      | .heldUntil _ _ => applyDue n (runHeld c res s)
      | _ =>
        if preparesChange c.opcode then
          applyDue n (match runNow c s with | .done .ok r t => runHeld c r t | r => noteRan c r)
        else applyDue n (runHeld c res s)
    | none => s

/-- Commands that another node holds for a cycle that has begun have taken effect there (R42, R44). -/
def farEffected (s : State) : State :=
  modCmd (fun q => { q with inflight := q.inflight.map (fun c =>
    if actsFar s c && c.phase == .issued && (match c.effc with | some k => decide (k.toNat * s.maps.n ≤ tickNow s) | none => false) then
      { c with effected := true } else c) }) s

/-- EFFECTIVE_CYCLE_APPLY (R44): held commands whose cycle has begun act, by session, then by tag; at a boundary a PL_SET that
waited for a transition begins its own (R374). -/
def effectiveApply (s : State) : State :=
  if s.cmd.pendingReset.isSome ∨ s.reset_.inReset then s else plResume (applyDue (s.cmd.inflight.length + 1) (farEffected s))

/-! ## Arrival (R38 to R45) -/

/-- A packet that passed steps 1 and 2 of R38. -/
structure Arrival where
  path    : Path
  flags   : Nat
  opcode  : Nat
  session : Nat
  tag     : Tag
  target  : Nat
  part    : Nat
  effc    : Option DWord
  params  : List Byte
  /-- LENGTH is within 16,352 and the packet has the size it gives (step 6) -/
  sizeOk  : Bool
  /-- the CRC-32C is correct (step 7) -/
  crcOk   : Bool
  deriving DecidableEq, Repr

/-- The command of an arrival. -/
def cmdOfArrival (a : Arrival) (rev : Nat) (s : State) : Cmd :=
  { path := a.path, session := a.session, tag := a.tag, opcode := a.opcode, flags := BitVec.ofNat 8 a.flags, target := a.target,
    effc := a.effc, params := a.params, tick := tickNow s, up := s.time.up, rev := rev, phase := .waiting, repeats := 0,
    effected := false }

/-- A reply that is not retained; NORPLY suppresses it (R34, R38). -/
def refuse (a : Arrival) (st : Status) (results : List Byte) (s : State) : State :=
  onlyIf (!bit a.flags 2) (directReply a.path a.session a.tag.toNat a.opcode st results) s

/-- Advance the expected tag. -/
def takeTag (n : Nat) (s : State) : State := modSession n (fun x => { x with expected := x.expected + 1 }) s

/-- A refusal that consumes the tag (R38): retained, in its place of the session. A multi-part command ends with it (R45). -/
def consume (a : Arrival) (rev : Nat) (st : Status) (s : State) : State :=
  if s.cmd.partials.any (fun p => p.cmd.session == a.session) then endAssembly a.session st s
  else
    takeTag a.session (modCmd (fun q => { q with
      inflight := q.inflight ++ [{ cmdOfArrival a rev s with phase := .ready st [], effected := true }] }) s)

/-- Take an accepted packet in: a whole command, or a part of one (R45). -/
def acceptPacket (a : Arrival) (rev : Nat) (s : State) : State :=
  let more := bit a.flags 4
  match s.cmd.partials.find? (fun p => p.cmd.session == a.session) with
  | none =>
    if more then
      modCmd (fun q => { q with partials := q.partials ++ [{ cmd := cmdOfArrival a rev s, next := 1, lastUp := s.time.up }] }) s
    else takeTag a.session (modCmd (fun q => { q with inflight := q.inflight ++ [cmdOfArrival a rev s] }) s)
  | some p =>
    let whole := { p.cmd with params := p.cmd.params ++ a.params }
    if more then
      modCmd (fun q => { q with partials := q.partials.map (fun x =>
        if x.cmd.session = a.session then { x with cmd := whole, next := x.next + 1, lastUp := s.time.up } else x) }) s
    else
      takeTag a.session (modCmd (fun q => { q with
        partials := q.partials.filter (fun x => x.cmd.session != a.session)
        inflight := q.inflight ++ [{ whole with tick := tickNow s, up := s.time.up }] }) s)

/-- The part does not follow the parts before it (R45). -/
def partBad (a : Arrival) (s : State) : Bool :=
  match s.cmd.partials.find? (fun p => p.cmd.session == a.session) with
  | some p => a.part != p.next || decide (64 ≤ p.next) || a.opcode != p.cmd.opcode || a.target != p.cmd.target || a.effc != p.cmd.effc
  | none => a.part != 0

/-- Steps 5 to 12 of R38 for a packet whose tag is the expected one. A packet with MORE or a part number is a part of a multi-part
command, which ends with the status of the first check that the part fails from step 6 on (R45). Whether the part follows those
before it is judged between steps 7 and 8 (DESIGN CHOICE, log entry 81: R45 names no step). -/
def takePacket (a : Arrival) (se : Session) (s : State) : State :=
  let begun := s.cmd.partials.any (fun p => p.cmd.session == a.session)
  let part := begun || bit a.flags 4 || a.part != 0
  if !begun && (decide (se.window ≤ inFlightOf s a.session) || decide (256 ≤ inFlight s)) then bump 0x14001C (refuse a .busy [] s)
  else if !a.sizeOk then consume a se.rev .badLength s
  else if !a.crcOk then
    let s := bump 0x140018 s
    if part then consume a se.rev .badCrc s else refuse a .badCrc [] s
  else if partBad a s then consume a se.rev .aborted s
  else match catalogueRefusal s.hub s.upd.recovery se.rev a.opcode a.flags a.target (a.effc.map (·.toNat)) a.params with
    | some st => consume a se.rev st s
    | none => acceptPacket a se.rev s

/-- Step 4 of R38 (R39, R40). -/
def placeTag (a : Arrival) (se : Session) (s : State) : State :=
  let d := (a.tag - se.expected).toNat
  if d = 0 then takePacket a se s
  else if d < 0x8000 then refuse a .aborted (leBytes 2 se.expected.toNat) s
  else match retainedOf s se a.tag with
    | some r => resendReply a.path r s
    | none =>
      if s.cmd.inflight.any (fun c => c.session == a.session && c.tag == a.tag) then
        modCmd (fun q => { q with inflight := q.inflight.map (fun c =>
          if c.session = a.session ∧ c.tag = a.tag then { c with repeats := c.repeats + 1 } else c) }) s
      else refuse a .expired [] s

/-! ## SESSION_OPEN (R48 to R50) -/

/-- Answer an open: retained under its nonce, sent unless NORPLY. -/
def answerOpen (a : Arrival) (session : Nat) (nonce : DWord) (st : Status) (results : List Byte) (s : State) : State :=
  let r : Reply := { session := session, tag := 0, opcode := 1, status := st, results := results, nonce := nonce, opening := true,
                     inMram := false }
  onlyIf (!bit a.flags 2) (sendOut a.path session (some ⟨session, 0, 1⟩) (replyPackets 0 0 0 1 st results)) (retain r s)

/-- Results of an open. -/
def openResults (se : Session) (outcome : Nat) : List Byte :=
  leBytes 1 se.num ++ leBytes 1 se.rev ++ leBytes 1 se.window ++ leBytes 1 outcome ++ leBytes 2 se.expected.toNat
    ++ leBytes 2 (if outcome = 2 then se.abortedCount else 0) ++ leBytes 2 (if outcome = 2 then se.firstAborted.toNat else 0) ++ [0, 0]

/-- The retained open that a repeated one finds (R48). -/
def openRepeat (a : Arrival) (nonce : DWord) (s : State) : Option Reply :=
  s.cmd.retained.reverse.find? (fun r => r.opening && r.nonce == nonce && r.status == .ok
    && (match sess s r.session with
        | some se => se.nonce == nonce && !se.suspended && se.path == a.path && se.expected.toNat == rd r.results 4 2
        | none => false))

/-- Open or resume a session (R48 to R50, R52). -/
def openSession (a : Arrival) (s : State) : State :=
  let p := a.params
  let nonce : DWord := BitVec.ofNat 64 (rd p 0 8)
  let lo := max (rd p 8 1) 1
  let hi := min (rd p 9 1) 4
  let window := if rd p 10 1 = 0 then fld s 0x140000 0 8 else rd p 10 1
  let lease := if rd p 12 2 = 0 then fld s 0x140000 16 16 else if rd p 12 2 = 0xFFFF then 0 else rd p 12 2
  if nonce = 0 ∨ window > 64 then answerOpen a 0 nonce .denied [] s
  else if lo > hi then answerOpen a 0 nonce .version [] s
  else match s.cmd.sessions.find? (fun x => x.nonce == nonce) with
    | some old =>
      let se := { old with
        path := a.path, rev := hi, window := window, lease := lease, lastUp := s.time.up, suspended := false }
      answerOpen a se.num nonce .ok (openResults se (if old.suspended then 2 else 1)) (modSession se.num (fun _ => se) s)
    | none =>
      match freeNumber s with
      | none => answerOpen a 0 nonce .busy [] (bump 0x14001C s)
      | some n =>
        let se : Session := { num := n, nonce := nonce, path := a.path, rev := hi, window := window, lease := lease, expected := 0,
                              lastUp := s.time.up, mask := 0, evSeq := 0, events := [], lossPend := false, suspended := false,
                              abortedCount := 0, firstAborted := 0 }
        answerOpen a n nonce .ok (openResults se 0) (modCmd (fun q => { q with sessions := q.sessions ++ [se] }) s)

/-- A SESSION_OPEN from step 5 of R38 on (R48). A repeated open is looked up once its size and CRC-32C are right and a nonce stands
in it, before every other check (DESIGN CHOICE, log entry 80: R48 has the hub look first, whatever the packet now contains, and
names no step of R38). -/
def takeOpen (a : Arrival) (s : State) : State :=
  let nonce : DWord := BitVec.ofNat 64 (rd a.params 0 8)
  if 256 ≤ inFlight s then bump 0x14001C (refuse a .busy [] s)
  else if !a.sizeOk then answerOpen a 0 0 .badLength [] s
  else if !a.crcOk then bump 0x140018 (refuse a .badCrc [] s)
  else match (if 8 ≤ a.params.length then openRepeat a nonce s else none) with
    | some r => resendReply a.path r s
    | none =>
      if a.params.length ≠ 16 then answerOpen a 0 0 .badLength [] s
      else match catalogueRefusal s.hub s.upd.recovery 1 1 a.flags a.target (a.effc.map (·.toNat)) a.params with
      | some st => answerOpen a 0 nonce st [] s
      | none => openSession a s

/-- A packet from step 3 of R38 on. -/
def hostPacket (a : Arrival) (s : State) : State :=
  if !serves s a.path then s
  else if a.session = 0 then
    (if a.opcode = 1 ∧ a.tag = 0 then takeOpen a s else refuse a .denied [] s)
  else match sess s a.session with
    | some se =>
      if se.suspended ∨ se.path ≠ a.path then refuse a .denied [] s
      else placeTag a se (modSession a.session (fun x => { x with lastUp := s.time.up }) s)
    | none => refuse a .denied [] s

/-- A host command as the table lists it: its packet is whole and its checks good, so that steps 1, 2 and 7 pass. -/
def hostCommand (c : Ctx) (opcode : Nat) (params : List Byte) (s : State) : State :=
  hostPacket { path := c.path, flags := c.flags.toNat, opcode := opcode, session := c.session.val, tag := c.tag, target := c.target.toNat,
               part := c.part.toNat, effc := c.effc, params := params, sizeOk := decide (params.length ≤ maxParams), crcOk := true } s

end Sys2Proof.Machine
end

