-- ==== Sys2Proof/Machine/Arrive.lean ====
section
/-! DEFINITION. Packets as bytes on their way to the interpreter (R38, R60, R62 to R64): steps 1, 2, 6 and 7, the PCIe rings and
the maintenance port. -/

namespace Sys2Proof.Machine

open Sys2Proof

/-! ## From bytes to an arrival (R32, R33, R38) -/

/-- The effective cycle stands in the packet. -/
def bytesEffc (bs : List Byte) : Bool := bit (rd bs 1 1) 1

/-- Bytes of the packet that a header announces (R32). -/
def announced (bs : List Byte) : Nat := 20 + 8 * b2n (bytesEffc bs) + rd bs 8 2

/-- Step 1 of R38. -/
def headGood (bs : List Byte) : Bool := decide (16 ≤ bs.length) && rd bs 14 2 == crc16 (bs.take 14)

/-- Step 2 of R38. -/
def formatGood (bs : List Byte) : Bool := rd bs 0 1 == 0x40

/-- A packet whose first two checks passed. -/
def arrivalOf (path : Path) (bs : List Byte) : Arrival :=
  let body := (bs.drop 16).take (announced bs - 20)
  { path := path, flags := rd bs 1 1, opcode := rd bs 2 2, session := rd bs 4 1, tag := BitVec.ofNat 16 (rd bs 6 2), target := rd bs 10 2
    part := rd bs 12 2, effc := if bytesEffc bs then some (BitVec.ofNat 64 (rd bs 16 8)) else none
    params := body.drop (8 * b2n (bytesEffc bs)), sizeOk := decide (rd bs 8 2 ≤ maxParams) && bs.length == announced bs
    crcOk := rd bs (announced bs - 4) 4 == crc32c body }

/-- A packet's bytes reach the interpreter (R38). -/
def arrive (path : Path) (bs : List Byte) (s : State) : State :=
  if !headGood bs then bump 0x140010 s
  else if !formatGood bs then bump 0x140014 s
  else hostPacket (arrivalOf path bs) s

/-! ## PCIe rings (R60) -/

/-- A submission waits in its ring. -/
def sqWaits (s : State) : Bool := fld s 0x140050 0 8 % ringSlots s != fld s 0x14004C 0 8 % ringSlots s

/-- Advance a slot index. -/
def nextSlot (addr : Nat) (s : State) : State := setFld addr 0 8 ((fld s addr 0 8 + 1) % ringSlots s) s

/-- Submissions wait while a frame of this hub waits for room (R109). -/
def fetchHeld (s : State) : Bool := !s.sw.heldOut.isEmpty

/-- SUBMISSION_FETCH (R16, R60): the packet at the head of the submission ring. -/
def submissionFetch (bs : List Byte) (s : State) : State :=
  if ringsOn s && sqWaits s && !cqFull s && serves s .pcie && !fetchHeld s then arrive .pcie bs (nextSlot 0x140050 s) else s

/-- The next packet for the completion ring: the frame that the PCIE output chooses (R105, R110). Once the rings are disabled only
packets of this hub still leave (R60). -/
def nextCompletion (s : State) : Option (List Byte × State) :=
  match pickClass .pcie s with
  | some (c, t) =>
    (match queueOf s .pcie c with
     | f :: _ => if ringsOn s || f.src == 0 then some (f.payload, dequeue .pcie c t) else none
     | [] => none)
  | none => none

/-- COMPLETION_WRITE (R60): one packet into the slot at the tail, and MSI-X vector 0. -/
def completionWrite (s : State) : State :=
  if !cqFull s && barServes s then
    match nextCompletion s with
    | some (bs, s) =>
      let slot := fld s 0x140054 0 8
      nextSlot 0x140054 (modCmd (fun c => { c with cqSlots := sins c.cqSlots slot bs, msix := sput 0 c.msix 0 (sget 0 c.msix 0 + 1) }) s)
    | none => s
  else s

/-! ## Maintenance port (R62 to R64, R378, R435) -/

/-- The target ACKs data bytes: the interpreter or the boot ROM serves the port (R16, R378, R435). -/
def mntServes (s : State) : Bool := serves s .maint && (s.hub != .sleep || s.power.wakeDone)

/-- Registers of the port (R62). -/
def mntPointers : List Nat := [0x00, 0x01, 0x03, 0x10, 0x20, 0x30, 0x31]

/-- MNT_POINTER_WRITE (R62): a pointer that the table does not list is NACKed and selects nothing. -/
def mntPointerWrite (p : Byte) (s : State) : State :=
  if mntServes s && mntPointers.contains p.toNat then modCmd (fun c => { c with mntPtr := p }) s else s

/-- PACKET_IN (R63): IN_FREE is 1 whenever a transfer comes, for a packet is taken at its STOP (log entry 2). -/
def packetIn (bs : List Byte) (repeatedStart : Bool) (s : State) : State :=
  if !mntServes s then s
  else
    let s := modCmd (fun c => { c with mntPtr := 0x10 }) s
    if repeatedStart || decide (bs.length < 16) || bs.length != announced bs then
      bump 0x140028 (modCmd (fun c => { c with mntInBad := true }) s)
    else arrive .maint bs (modCmd (fun c => { c with mntInBad := false }) s)

/-- OUT_ACK (R64): the head packet leaves the outbound queue, or the write is counted. -/
def outAck (seq : BitVec 16) (s : State) : State :=
  if !mntServes s then s
  else
    let s := modCmd (fun c => { c with mntPtr := 0x30 }) s
    match s.cmd.mntOut with
    | h :: t => if h.1 = seq then modCmd (fun c => { c with mntOut := t }) s else bump 0x140028 s
    | [] => bump 0x140028 s

/-- IN_CLEAR (R62). -/
def inClear (v : Byte) (s : State) : State :=
  if !mntServes s then s
  else
    modCmd (fun c => { c with mntPtr := 0x31, mntInBad := c.mntInBad && v != 0xA5 }) s

/-- Content of a register of the port (R62): what a read transfer of it returns. -/
def mntRead (p : Nat) (s : State) : List Byte :=
  match p with
  | 0x00 => [BitVec.ofNat 8 (b2n (mntServes s) + 2 * b2n (mntServes s) + 4 * b2n (!s.cmd.mntOut.isEmpty) + 8 * b2n s.upd.recovery
      + 16 * b2n s.cmd.mntInBad)]
  | 0x01 => leBytes 2 (match s.cmd.mntOut with | h :: _ => h.2.length | [] => 0)
  | 0x03 => leBytes 2 (match s.cmd.mntOut with | h :: _ => h.1.toNat | [] => 0)
  | 0x20 => match s.cmd.mntOut with | h :: _ => h.2 | [] => []
  | _ => []

/-- What a read transfer returns now (R62). -/
def mntReadNow (s : State) : List Byte := mntRead s.cmd.mntPtr.toNat s

end Sys2Proof.Machine
end

