-- ==== Sys2Proof/Machine/Stream.lean ====
section
/-! DEFINITION. What the islands do with frames that reached LOCAL: hold-back and delivery (R135 to R137), commands, replies and
accesses of other nodes (R16, R20, R109), multicast items and reports (R117 to R119), CYC copies (R116, R120, R121, R280, R281),
acknowledgements and replay (R132 to R134), DRAIN (R139). -/

namespace Sys2Proof.Machine

open Sys2Proof

/-! ## Accesses that another node carries here (R20, R281; log entry 18) -/

/-- Opcodes that nodes carry to each other. -/
def carriedOp (op : Nat) : Bool := op == 0x0007 || op == 0x0008 || op == 0x0304 || op == 0x0305

/-- The carried command of an arrival, under a session number of its own. -/
def carriedCmd (session target : Nat) (params : List Byte) (a : Arrival) (s : State) : Cmd :=
  { cmdOfArrival a 4 s with session := session, flags := BitVec.ofNat 8 (a.flags % 4), target := target, params := params }

/-- A session of the arrival's number is bound to the node it came from. -/
def boundHere (a : Arrival) (s : State) : Bool := match sess s a.session with | some se => se.path == a.path | none => false

/-- A whole packet of a REQ stream: a command of a host on the ring, or an access that the node carries (R20, R38). -/
def ringPacket (src : Nat) (bs : List Byte) (s : State) : State :=
  let path : Path := .ring (Fin.ofNat 256 src)
  if !headGood bs then bump 0x140010 s
  else if !formatGood bs then bump 0x140014 s
  else
    let a := arrivalOf path bs
    if carriedOp a.opcode && !boundHere a s then
      if !a.sizeOk then directReply path a.session a.tag.toNat a.opcode .badLength [] s
      else if !a.crcOk then directReply path a.session a.tag.toNat a.opcode .badCrc [] (bump 0x140018 s)
      else modCmd (fun q => { q with
        inflight := q.inflight ++ [carriedCmd (carriedSession src a.session) a.target a.params a s] }) s
    else hostPacket a s

/-! ## Replies of other nodes -/

/-- A reply that belongs to no command of this hub leaves by the PCIE queue (R109). -/
def toPcie (src : Nat) (bs : List Byte) (s : State) : State :=
  admitOrDrop .pcie { newFrame s 2 s.ring.node 0 false bs with src := src, ingress := .local } s

/-- Outcome of a far access by the status that came back (R56). -/
def farEnd (st : Nat) (results : List Byte) : Status × List Byte :=
  if st = 0 then (.ok, results) else if st = 11 then (.lost, []) else (.farError, leBytes 2 st)

/-- Results of SUB_ADD: CYC bytes in use per cycle by the light list (R57, R91). -/
def subResults (s : State) : List Byte := leBytes 4 (match s.ring.light with | some l => l.cycUsed.toNat | none => 0)

/-- The publisher took the subscription: it is to hold from its cycle (R279, R281). -/
def subAccepted (c : Cmd) (s : State) : State :=
  let x := subOf c.params
  let k := changeFrom c s
  let withdraw (s : State) : State := askSub 0x0305 0 0 none (subParams x) x.node s
  match subVerdict k x s with
  | some st => complete c.session c.tag st [] (withdraw s)
  | none =>
    if c.effc.isSome ∧ k * s.maps.n ≤ tickNow s then complete c.session c.tag .tooLate [] (withdraw s)
    else setCmd c (fun y => { y with phase := .heldUntil k (subResults s) }) (noteChange (.subAdd c.session c.tag k x) s)

/-- Answer of a publisher to SUB_ADD (R96, R281). -/
def subAnswer (c : Cmd) (st : Nat) (s : State) : State :=
  match st with
  | 0 => subAccepted c s
  | 3 => complete c.session c.tag .tooLate [] s
  | 11 => complete c.session c.tag .lost [] s
  | 12 => complete c.session c.tag .timeout [] s
  | 18 => complete c.session c.tag .budget [] s
  | _ => complete c.session c.tag .farError (leBytes 2 st) s

/-- A whole packet of an RSP stream. -/
def ringReply (src : Nat) (bs : List Byte) (s : State) : State :=
  match packetOf bs with
  | none => s
  | some (n, tag, op) =>
    if n = 0 ∧ op = 0x0304 then ownAnswer tag.toNat (rd bs 10 2) s
    else if n = 0 ∧ op = 0x0305 then s
    else
      match s.cmd.inflight.find? (fun c => c.session == n && c.tag == tag && c.opcode == op && c.phase == .issued && carriedOp op) with
      | some c =>
        if op = 0x0304 then subAnswer c (rd bs 10 2) s
        else (let r := farEnd (rd bs 10 2) (slice bs 16 (rd bs 8 2)); complete n tag r.1 r.2 s)
      | none => toPcie src bs s

/-! ## Delivery (R135 to R137) -/

/-- A delivery report (R118). -/
def isReport (f : Frame) : Bool := f.cls == 2 && f.payload.length == 12 && rd f.payload 0 1 == 0x50

/-- A multicast item, or its resend to one destination (R117, R119). -/
def isItemFrame (f : Frame) : Bool :=
  f.cls == 1 && f.last && (f.dst == 255 || ((packetOf f.payload).isNone && (packetOf (f.payload.drop 8)).isSome))

def sameFragStream (a b : Frame) : Bool := a.src == b.src && a.cls == b.cls && a.dst == b.dst && groupOf a == groupOf b

/-- Keep a delivered frame for the event that takes it. -/
def keepDelivered (f : Frame) (s : State) : State := modSw (fun w => { w with delivered := w.delivered ++ [f] }) s

/-- Forget first fragments for which `p` holds. -/
def dropFrags (p : Frame → Bool) (s : State) : State :=
  modSw (fun w => { w with delivered := w.delivered.filter (fun g => g.last || !p g) }) s

/-- A whole packet: a frame that carries both marks, or two put together. -/
def deliverWhole (f : Frame) (s : State) : State :=
  if isDrain f || isReport f || isItemFrame f then keepDelivered f s
  else if f.dst = 255 then s
  else if f.cls = 1 then ringPacket f.src f.payload s
  else if f.cls = 2 then ringReply f.src f.payload s
  else s

/-- One frame or lost place that a hold-back window hands on; its cells are free again (R103). The first fragment of a packet waits for
its second (R79); with a place lost the packet does not come whole. No operation of this spec takes BULK frames. -/
def deliverOne (h : Handed) (s : State) : State :=
  match h with
  | .lost src dst group cls _ => dropFrags (fun g => g.src == src && g.dst == dst && groupOf g == group && g.cls == cls) s
  | .frame f =>
    let s := freeCells f s
    let f := { f with cells := [] }
    if f.first && f.last then deliverWhole f s
    else if f.first then keepDelivered f (dropFrags (fun g => sameFragStream g f) s)
    else
      match s.sw.delivered.find? (fun g => !g.last && sameFragStream g f) with
      | some g =>
        let s := dropFrags (fun g => sameFragStream g f) s
        if f.last then deliverWhole { g with last := true, payload := g.payload ++ f.payload } s else s
      | none => s

def deliverAll (hs : List Handed) (s : State) : State := hs.foldl (fun s h => deliverOne h s) s

/-- A command packet waits in the LOCAL queue until the interpreter starts (R16). -/
def headWaits (s : State) (f : Frame) : Bool := f.cls == 1 && !isDrain f && !serves s (.ring 0)

/-- The LOCAL output hands on a frame of class `c` where that class is the one it chooses (R110): its consumers take the frame. -/
def localTake (c : Nat) (k : Frame → State → State) (s : State) : State :=
  match pickWhere (fun f => !headWaits s f) .local s with
  | some (d, t) =>
    if d = c then
      (match queueOf t .local c with
       | f :: _ => k f (popQueue .local c t)
       | [] => s)
    else s
  | none => s

/-- STREAM_FRAME_RX (R135): the frame at the head of a LOCAL queue. -/
def streamFrameRx (cls : Nat) (s : State) : State :=
  if cls = 1 ∨ cls = 2 ∨ cls = 3 then
    localTake cls (fun f s =>
      let r := holdBackRx f s
      deliverAll r.1 r.2) s
  else s

/-! ## Multicast items (R117 to R119) -/

/-- Take the first delivered frame for which `p` holds. -/
def takeDelivered (p : Frame → Bool) (k : Frame → State → State) (s : State) : State :=
  match s.sw.delivered.find? p with
  | some f => k f (modSw (fun w => { w with delivered := w.delivered.erase f }) s)
  | none => s

/-- The item of a multicast frame runs once (R118): a MEM_WRITE of space 0 or 1 at this hub. -/
def takeItem (f : Frame) (s : State) : State :=
  let id := rd f.payload 0 4
  let bs := f.payload.drop 8
  match (sget [] s.sw.mcDone f.src).find? (fun x => x.1.toNat == id) with
  | some x => sendReport f.src id x.2 (bump 0x60434 s)
  | none =>
    if s.cmd.inflight.any (fun c => isItem c && decide ((c.session - 65792) / 256 = f.src) && c.target == id) then bump 0x60434 s
    else if !headGood bs then bump 0x140010 s
    else if !formatGood bs then bump 0x140014 s
    else
      let a := arrivalOf (.ring (Fin.ofNat 256 f.src)) bs
      let c := carriedCmd (itemSession f.src a.session) id (slice a.params 0 7 ++ [0] ++ a.params.drop 8) a s
      let ok : Bool := a.sizeOk && a.crcOk && a.opcode == 0x0008 && decide (bits (rd a.params 0 7) 52 4 ≤ 1)
      modCmd (fun q => { q with
        inflight := q.inflight ++ [if ok then c else { c with phase := .ready (if a.sizeOk && a.crcOk then .denied else .badCrc) [], effected := true }] }) s

/-- MULTICAST_REQ_RX (R118). -/
def multicastReqRx (s : State) : State := if serves s (.ring 0) then takeDelivered isItemFrame takeItem s else s

/-- DELIVERY_REPORT_RX (R119). -/
def deliveryReportRx (s : State) : State :=
  takeDelivered isReport (fun f s => mcReport (BitVec.ofNat 32 (rd f.payload 4 4)) f.src (rd f.payload 2 2) s) s

/-- Destinations of an item that have not reported. -/
def mcMissing (m : McItem) : List Nat := m.expected.filter (fun n => !(m.reports.any (fun r => r.1 == n)))

/-- MULTICAST_ROUND_END (R119): MC_TIMEOUT after a round, the silent destinations get the item again, or the write completes. -/
def multicastRoundEnd (id : Word) (s : State) : State :=
  match s.sw.mcItems.find? (fun m => m.id == id) with
  | some m =>
    if since m.sentUp s < fld s 0x60000 8 8 * 2000 then s
    else
      let miss := mcMissing m
      if miss.isEmpty ∨ m.rounds ≥ fld s 0x60000 16 3 then
        complete m.session m.tag .ok (mcResults m) (modSw (fun w => { w with mcItems := w.mcItems.filter (fun x => x.id != id) }) s)
      else
        let s := modSw (fun w => { w with mcItems := w.mcItems.map (fun x =>
          if x.id = id then { x with rounds := x.rounds + 1, sentUp := s.time.up } else x) }) s
        miss.foldl (fun s n => sendPacket 1 n m.payload (bump 0x60430 s)) s
  | none => s

/-! ## CYC copies (R116, R120, R121, R280, R281) -/

/-- The twin window of a stream. -/
def twinOf (s : State) (src group : Nat) : Option TwinWin := s.sw.twins.find? (fun t => t.src == src && t.group == group)

def putTwin (t : TwinWin) (s : State) : State :=
  modSw (fun w => { w with twins := (w.twins.filter (fun x => !(x.src == t.src && x.group == t.group))) ++ [t] }) s

/-- Key of a CYC stream: its group, or 256 for a unicast one. -/
def cycGroup (f : Frame) : Nat := if f.dst = 255 then f.mgroup else 256

/-- Verdict of R120 on a copy. -/
inductive TwinCase where
  | ahead
  | fresh
  | second
  | old
  deriving DecidableEq, Repr

/-- The first row of R120 that applies; a stream without state takes any SEQ as its highest. -/
def twinCase (t : Option TwinWin) (seq : Word) : TwinCase :=
  match t with
  | none => .ahead
  | some t =>
    if seqBefore t.high seq then .ahead
    else if (t.high - seq).toNat ≤ 63 then (if bit t.mask.toNat (t.high - seq).toNat then .second else .fresh)
    else .old

/-- The window after an accepted copy: bit i of the mask stands for SEQ H − i. -/
def twinAfter (t : Option TwinWin) (src group : Nat) (seq : Word) : TwinWin :=
  match t with
  | none => { src := src, group := group, high := seq, mask := 1, kept := [] }
  | some t =>
    if seqBefore t.high seq then
      let d := (seq - t.high).toNat
      { t with high := seq, mask := if d ≥ 64 then 1 else (t.mask <<< d) ||| 1 }
    else { t with mask := t.mask ||| (1 <<< (t.high - seq).toNat) }

/-- First slot and entries of a publication (R280). -/
def pubFirst (f : Frame) : Nat := rd f.payload 0 4
def pubEntries (f : Frame) : List DWord := (entriesOf (f.payload.drop 8)).take (rd f.payload 4 2)

/-- Entry `i` of the frame is used by a subscription in force for its cycle (R116, R121). -/
def entryUsed (subs : List Subscr) (src first i : Nat) : Bool :=
  subs.any (fun x => x.node == src && decide (x.remote ≤ first + i) && decide (first + i < x.remote + x.count))

/-- Cycle number of a frame, whose field holds 48 bits (R79), near the present cycle. -/
def cycleOf (f : Frame) (s : State) : Nat := cycleNow s / 2 ^ 48 * 2 ^ 48 + f.cycle

/-- Subscriptions in force for the frame's cycle (R116): those before a later change that has taken effect, else those that the changes
accepted for it or before will give. -/
def cycSubs (f : Frame) (s : State) : List Subscr :=
  let k := cycleOf f s
  match s.maps.pastSubs.find? (fun x => decide (k < x.1)) with
  | some x => x.2
  | none => (viewAt k s).subs

/-- The frame feeds some subscription. -/
def cycUsed (f : Frame) (s : State) : Bool :=
  let subs := cycSubs f s
  (List.range (pubEntries f).length).any (fun i => entryUsed subs f.src (pubFirst f) i)

/-- CRC-32C over the used payload bytes, and over the others (R121). -/
def twinCrcs (f : Frame) (s : State) : Word × Word :=
  let subs := cycSubs f s
  let tagged := f.payload.zipIdx.map (fun x => (x.1, decide (8 ≤ x.2) && entryUsed subs f.src (pubFirst f) ((x.2 - 8) / 8)))
  (BitVec.ofNat 32 (crc32c ((tagged.filter (·.2)).map (·.1))), BitVec.ofNat 32 (crc32c ((tagged.filter (fun x => !x.2)).map (·.1))))

/-- An accepted frame by the tick of its admission (R281). -/
def cycTake (f : Frame) (s : State) : State :=
  let k := cycleOf f s
  let n := s.maps.n
  if !cycUsed f s then s
  else if f.rxTick < k * n + mapH s then
    modMaps (fun m => { m with cycRx := m.cycRx ++ [⟨f.src, cycGroup f, k, pubFirst f, pubEntries f, f.rxTick⟩] }) s
  else if f.rxTick < (k + 1) * n then bump 0xF0100 s
  else bump 0xF0104 s

/-- COMPARE_TWINS is on (R123). -/
def comparing (s : State) : Bool := fld s 0x60000 0 1 == 1

/-- The second copy is compared with what was kept of the first (R121). A difference in used bytes that stands by the horizon makes every
signal of the stream FAULT in that cycle. -/
def twinCompare (t : TwinWin) (f : Frame) (s : State) : State :=
  match t.kept.find? (fun x => x.1 == f.seq) with
  | some (_, k, used, rest) =>
    let c := twinCrcs f s
    if c.1 ≠ used then
      let s := onlyIf (decide (f.rxTick < k * s.maps.n + mapH s))
        (modMaps (fun m => { m with twinDiff := m.twinDiff ++ [(f.src, cycGroup f, k)] })) s
      detect 0x0501 { address := k } (bump 0x6042C s)
    else if c.2 ≠ rest then bump 0x60428 s
    else s
  | none => s

/-- One CYC copy meets the twin window, and an accepted one the LOCAL queue (R108, R120). A DRAIN frame is for DRAIN_RX. -/
def cycCopy (f : Frame) (s : State) : State :=
  let t := twinOf s f.src (cycGroup f)
  match twinCase t f.seq with
  | .second => (match t with | some t => onlyIf (comparing s) (twinCompare t f) | none => id) (bump 0x60420 s)
  | .old => bump 0x60424 s
  | _ =>
    let w := twinAfter t f.src (cycGroup f) f.seq
    let w := if comparing s && cycUsed f s then
        (let c := twinCrcs f s
         { w with kept := (w.kept ++ [(f.seq, cycleOf f s, c.1, c.2)]).drop (w.kept.length + 1 - 64) })
      else w
    let s := putTwin w s
    if isDrain f then keepDelivered f s else admitOrDrop .local f s

/-- CYC_FRAME_RX (R120): the oldest copy before the twin window is judged; then the LOCAL output hands its next CYC frame, if it
chooses one, to the map island (R110). -/
def cycFrameRx (s : State) : State :=
  let s := match s.sw.cycIn with
    | f :: t => cycCopy f (modSw (fun w => { w with cycIn := t }) s)
    | [] => s
  localTake 0 (fun f s => cycTake f (freeCells f s)) s

/-! ## Acknowledgement and replay (R132 to R136) -/

/-- ACK_RX (R132 to R134). -/
def ackRx (s : State) : State :=
  takeCtl 5 16 (fun f s =>
    let b := f.payload
    takeAck (seqKey (rd b 1 1) f.src 0) (rd b 2 1) (BitVec.ofNat 32 (rd b 4 4)) (BitVec.ofNat 32 (rd b 8 4)) (rd b 12 2) s) s

/-- ACK_TIMER (R132): 100 ticks with delivered frames that no ACK has covered. -/
def ackTimer (src cls : Nat) (s : State) : State :=
  match s.sw.holdBack.find? (fun h => h.src == src && h.group.isNone && h.cls == cls && h.uncovered != 0 && decide (since h.timerUp s ≥ 100)) with
  | some h => ackNow h 0 0 s
  | none => s

/-- REPLAY_NO_ADVANCE (R133): 400 ticks without an advance of NEXT; the count starts again with the resend. -/
def replayNoAdvance (dst cls : Nat) (s : State) : State :=
  let k := seqKey cls dst 0
  let cs := copiesOf s k
  if cs.isEmpty ∨ since (sget 0 s.sw.advanceUp k) s < 400 then s
  else resendOrGiveUp k cs (modSw (fun w => { w with advanceUp := sput 0 w.advanceUp k s.time.up }) s)

/-- GAP_TIMEOUT (R136): a gap stands for 1,000 ticks. -/
def gapTimeout (src cls : Nat) (group : Option Nat) (s : State) : State :=
  match s.sw.holdBack.find? (fun h => h.src == src && h.group == group && h.cls == cls && !h.held.isEmpty && decide (since h.gapUp s ≥ 1000)) with
  | some h => (let r := lostGap h s; deliverAll r.1 r.2)
  | none => s

/-- DRAIN_RX (R139): a DRAIN of the far end releases its class on the restored port; one that comes before this end's T_k waits. -/
def drainRx (s : State) : State :=
  match s.sw.delivered.find? isDrain with
  | some f =>
    let p := otherPort (portOf (rd f.payload 1 1))
    let early : Bool := match (portSt s p).unwrapAt with | some k => k % 2 ^ 32 == rd f.payload 4 4 | none => false
    if early then s
    else
      let s := modSw (fun w => { w with delivered := w.delivered.erase f }) s
      if draining s p ∧ neighbour s p = f.src ∧ (drainClasses s).contains f.cls ∧ !(portSt s p).drainDone.contains f.cls then
        releaseDrain p f.cls s
      else s
  | none => s

end Sys2Proof.Machine
end

