-- ==== Sys2Proof/Machine/Commit.lean ====
section
/-! DEFINITION. How the effect of an event becomes the step's outcome. -/

namespace Sys2Proof.Machine

open Sys2Proof

/-- The outcome of an event that takes `s` to `t`: what may follow at once follows (held pushes find room, commands that may start
run, replies and events leave), and the queue of waiting commands stays as it was. -/
def commit (s t : State) : Host.Outcome State Fault Refusal := .next { settle t with pending := s.pending }

/-- A word write of the local host's BAR0 (R25): it is performed while the PCIe endpoint serves and no posted write is held (R319). -/
def hostWrite (addr v : Nat) (s : State) : State := if barFree s then csrWrite addr v s else s

/-- What is wrong with a BAR0 access of a size (R4, R22): the state with its sticky bit. -/
def barAccessBad (off size : Nat) (s : State) : Option State :=
  match rangeBad 0 off size s with
  | some t => some t
  | none => if size = 4 then none else some (sysErr 1 s)

/-- A BAR0 write (R4, R22, R25). -/
def bar0Write (requester off size v : Nat) (s : State) : State :=
  match barAccessBad off size s with
  | some t => pcieBad requester off true t
  | none => csrWrite off v s

/-- A BAR0 read (R4, R5, R22, R25): the register's word is returned, all ones where the access is refused. -/
def bar0Read (requester off size : Nat) (s : State) : State :=
  match barAccessBad off size s with
  | some t => pcieBadRead requester off size t
  | none => barAnswer (leBytes 4 (csrRead off s).1) (csrRead off s).2

/-- The window and register that an offset of BAR2 names (R317): none in the reserved part. -/
def bar2At (off : Nat) : Option (Nat × Nat) :=
  if off < 0x800000 then some (windowAt 2 off) else if off < 0x820000 then some (windowAt 3 (off - 0x800000)) else none

/-- A BAR2 write (R22, R316, R317): TX_PUSH or PUSH whole, or discarded and recorded. -/
def bar2Write (requester off size : Nat) (v : DWord) (s : State) : State :=
  match bar2At off with
  | some w =>
    if namesPush w.1 w.2 size then barPushFrom requester w.1 v s else pcieBad requester off true (sysErr 2 s)
  | none => pcieBad requester off true (sysErr 2 s)

/-- A BAR2 read (R22, R317). -/
def bar2Read (requester off size : Nat) (s : State) : State :=
  match bar2At off with
  | some w => barReadFrom requester w.1 w.2 size s
  | none => pcieBadRead requester off size (sysErr 2 s)

/-- A byte of the history regions (R282, R283, R317): region r holds, for slot i at 8·i, the entry of the cycle last copied into
it. A region into which nothing was copied holds open bytes (log entry 5). -/
def historyByte (s : State) (a : Nat) : Byte :=
  let region := a / 0x200000
  let shown : Option ClosedImage :=
    match slook s.maps.history region with
    | some img => if s.maps.copying = some img.cycle then s.maps.replaced else some img
    | none => none
  match shown with
  | some img => BitVec.ofNat 8 (bits (closedEntry img (a % 0x200000 / 8)).toNat (8 * (a % 8)) 8)
  | none => Config.dramByte s.fresh a

/-- A BAR4 read (R22, R25, R317): any length and alignment within the BAR, without side effect. -/
def bar4Read (requester off size : Nat) (s : State) : State :=
  if 0x2000000 < off + size then pcieBadRead requester off size (sysErr 2 s)
  else barAnswer ((upFrom off size).map (historyByte s)) (draw s).2

/-- A PCIe write at an offset of a BAR (R25, R317): BAR4 takes none (R22). -/
def barWrite (requester : Nat) (bar : Bar) (off size : Nat) (v : DWord) (s : State) : State :=
  if !barFree s then s
  else match bar with
    | .bar0 => bar0Write requester off size (bits v.toNat 0 32) s
    | .bar2 => bar2Write requester off size v s
    | .bar4 => pcieBad requester off true (sysErr 2 s)

/-- A PCIe read at an offset of a BAR (R25, R317). -/
def barReadAt (requester : Nat) (bar : Bar) (off size : Nat) (s : State) : State :=
  if !barFree s then s
  else match bar with
    | .bar0 => bar0Read requester off size s
    | .bar2 => bar2Read requester off size s
    | .bar4 => bar4Read requester off size s

/-- A BAR0 write of RST_CTL (R390, R391). -/
def hostReset (reach key kind index : Nat) (s : State) : State := if barFree s then (rstCtl reach kind index key s).2 else s

/-- The field side runs: outside sleep, or after the wake sequence (R185, R376, R379). -/
def fieldAwake (s : State) : Bool := s.hub != .sleep || s.power.wakeDone

/-- An event of the field side, which does not happen while its clocks are stopped (R185, R377). -/
def onField (f : State → State) (s : State) : State := if fieldAwake s then f s else s

end Sys2Proof.Machine
end

