-- ==== Sys2Proof/Machine/FieldEvents.lean ====
section
/-! DEFINITION. The meanings of what happens on the field side: channels and their personalities, discrete lines and LUT engines. -/

namespace Sys2Proof.Machine

open Sys2Proof

/-- CHN_CTL_ENABLE (R189). The write has the ENABLE bit, and the others of `value`. -/
def execChnCtlEnable (ch : Fin 128) (value : BitVec 4) (s : State) : Host.Outcome State Fault Refusal :=
  commit s (hostWrite (chnAddr ch.val 0x008) (Nat.lor value.toNat 1) s)

/-- CHN_CTL_DRAIN (R189). The write has the DRAIN bit, and the others of `value`. -/
def execChnCtlDrain (ch : Fin 128) (value : BitVec 4) (s : State) : Host.Outcome State Fault Refusal :=
  commit s (hostWrite (chnAddr ch.val 0x008) (Nat.lor value.toNat 2) s)

/-- CHN_CTL_ABORT (R189). The write has the ABORT bit, and the others of `value`. -/
def execChnCtlAbort (ch : Fin 128) (value : BitVec 4) (s : State) : Host.Outcome State Fault Refusal :=
  commit s (hostWrite (chnAddr ch.val 0x008) (Nat.lor value.toNat 4) s)

/-- CHN_CTL_RESET (R190). The write has the RESET bit, and the others of `value`. -/
def execChnCtlReset (ch : Fin 128) (value : BitVec 4) (s : State) : Host.Outcome State Fault Refusal :=
  commit s (hostWrite (chnAddr ch.val 0x008) (Nat.lor value.toNat 8) s)

/-- CHANNEL_JOIN (R186). -/
def execChannelJoin (ch : Fin 128) (s : State) : Host.Outcome State Fault Refusal :=
  commit s (onField (Sys2Proof.Machine.channelJoin ch.val) s)

/-- CHANNEL_RESET_END (R190). -/
def execChannelResetEnd (ch : Fin 128) (s : State) : Host.Outcome State Fault Refusal :=
  commit s (onField (Sys2Proof.Machine.channelResetEnd ch.val) s)

/-- DRAIN_COMPLETE (R188). -/
def execDrainComplete (ch : Fin 128) (s : State) : Host.Outcome State Fault Refusal :=
  commit s (onField (Sys2Proof.Machine.drainComplete ch.val) s)

/-- TX_ITEM_COMPLETE (R197). A frame on the wire at a sleep entry is finished (R185). -/
def execTxItemComplete (ch : Fin 128) (leaveNs : Nat) (s : State) : Host.Outcome State Fault Refusal :=
  commit s (if fieldAwake s || (chan s ch.val).onWire.isSome then Sys2Proof.Machine.itemComplete ch.val leaveNs s else s)

/-- TAT_RELEASE (R173). -/
def execTatRelease (ch : Fin 128) (s : State) : Host.Outcome State Fault Refusal :=
  commit s (onField (Sys2Proof.Machine.releaseItem ch.val) s)

/-- STATUS_REPORT_WRITE (R198). -/
def execStatusReportWrite (ch : Fin 128) (s : State) : Host.Outcome State Fault Refusal :=
  commit s (onField (flushReport ch.val) s)

/-- PRODUCER_WRITE_RESUME (R195). -/
def execProducerWriteResume (ch : Fin 128) (s : State) : Host.Outcome State Fault Refusal :=
  commit s (onField (Sys2Proof.Machine.producerWriteResume ch.val) s)

/-- SERIAL_RATE_CONFIRM (R202). -/
def execSerialRateConfirm (ch : Fin 128) (rate : Nat) (s : State) : Host.Outcome State Fault Refusal :=
  commit s (onField (Sys2Proof.Machine.serialRateConfirm ch.val rate) s)

/-- RATE_DETECT_TIMEOUT (R202). -/
def execRateDetectTimeout (ch : Fin 128) (s : State) : Host.Outcome State Fault Refusal :=
  commit s (onField (Sys2Proof.Machine.rateDetectTimeout ch.val) s)

/-- CAN_RATE_CONFIRM (R226). -/
def execCanRateConfirm (ch : Fin 128) (nominal : Nat) (dataRate : Option Nat) (s : State) : Host.Outcome State Fault Refusal :=
  commit s (onField (Sys2Proof.Machine.canRateConfirm ch.val nominal dataRate) s)

/-- BRS_WAIT_EXPIRY (R226). -/
def execBrsWaitExpiry (ch : Fin 128) (s : State) : Host.Outcome State Fault Refusal :=
  commit s (onField (Sys2Proof.Machine.brsWaitExpiry ch.val) s)

/-- SERIAL_FRAME_RX (R233). -/
def execSerialFrameRx (ch : Fin 128) (bytes : List Byte) (ticks : List Nat) (idle : Nat) (fault : Option (Nat × LineFault))
    (s : State) : Host.Outcome State Fault Refusal :=
  commit s (onField (Sys2Proof.Machine.serialFrameRx ch.val bytes ticks idle fault) s)

/-- CAN_FRAME_RX (R214). -/
def execCanFrameRx (ch : Fin 128) (record : List Byte) (stamp : Nat) (s : State) : Host.Outcome State Fault Refusal :=
  commit s (onField (Sys2Proof.Machine.canFrameRx ch.val record stamp) s)

/-- CAN_RECEIVE_ERROR (R213). -/
def execCanReceiveError (ch : Fin 128) (kind : CanErr) (dataPhase : Bool) (eights : Nat) (s : State) : Host.Outcome State Fault Refusal :=
  commit s (onField (Sys2Proof.Machine.canReceiveError ch.val kind dataPhase eights) s)

/-- CAN_ATTEMPT_END (R219). A frame on the bus at a sleep entry is finished (R185). -/
def execCanAttemptEnd (ch : Fin 128) (how : CanEnd) (s : State) : Host.Outcome State Fault Refusal :=
  commit s (if fieldAwake s || (chan s ch.val).can.onBus.isSome then Sys2Proof.Machine.canAttemptEnd ch.val how s else s)

/-- BUS_OFF_RECOVERY (R223). -/
def execBusOffRecovery (ch : Fin 128) (s : State) : Host.Outcome State Fault Refusal :=
  commit s (onField (Sys2Proof.Machine.busOffRecovery ch.val) s)

/-- ONCE_WINDOW_END (R221). -/
def execOnceWindowEnd (ch : Fin 128) (s : State) : Host.Outcome State Fault Refusal :=
  commit s (onField (Sys2Proof.Machine.onceWindowEnd ch.val) s)

/-- CAN_REQ_TIMEOUT (R304). -/
def execCanReqTimeout (ch : Fin 128) (s : State) : Host.Outcome State Fault Refusal :=
  commit s (onField (Sys2Proof.Machine.canReqTimeout ch.val) s)

/-- MB_REQUEST_START (R237). -/
def execMbRequestStart (ch : Fin 128) (s : State) : Host.Outcome State Fault Refusal :=
  commit s (onField (Sys2Proof.Machine.mbRequestStart ch.val) s)

/-- MB_REPLY_RX (R240). -/
def execMbReplyRx (ch : Fin 128) (bytes : List Byte) (gapOver15 : Bool) (stamp : Nat) (s : State) : Host.Outcome State Fault Refusal :=
  commit s (onField (Sys2Proof.Machine.mbReplyRx ch.val bytes gapOver15 stamp) s)

/-- MB_RESPONSE_TIMEOUT (R241). -/
def execMbResponseTimeout (ch : Fin 128) (s : State) : Host.Outcome State Fault Refusal :=
  commit s (onField (Sys2Proof.Machine.mbResponseTimeout ch.val) s)

/-- MB_BROADCAST_END (R242). -/
def execMbBroadcastEnd (ch : Fin 128) (s : State) : Host.Outcome State Fault Refusal :=
  commit s (onField (Sys2Proof.Machine.mbBroadcastEnd ch.val) s)

/-- IOL_POWER_GOOD (R249). -/
def execIolPowerGood (ch : Fin 128) (s : State) : Host.Outcome State Fault Refusal :=
  commit s (onField (Sys2Proof.Machine.iolPowerGood ch.val) s)

/-- IOL_POWER_LOST (R249). -/
def execIolPowerLost (ch : Fin 128) (s : State) : Host.Outcome State Fault Refusal :=
  commit s (onField (Sys2Proof.Machine.iolPowerLost ch.val) s)

/-- IOL_WAKE_UP (R250). -/
def execIolWakeUp (ch : Fin 128) (s : State) : Host.Outcome State Fault Refusal :=
  commit s (onField (Sys2Proof.Machine.iolWakeUp ch.val) s)

/-- IOL_COM_TRY_END (R250). -/
def execIolComTryEnd (ch : Fin 128) (replied : Bool) (s : State) : Host.Outcome State Fault Refusal :=
  commit s (onField (Sys2Proof.Machine.iolComTryEnd ch.val replied) s)

/-- IOL_STARTUP_DONE (R251). -/
def execIolStartupDone (ch : Fin 128) (page : List Byte) (s : State) : Host.Outcome State Fault Refusal :=
  commit s (onField (Sys2Proof.Machine.iolStartupDone ch.val page) s)

/-- IOL_M_SEQUENCE (R252). -/
def execIolMSequence (ch : Fin 128) (how : SeqEnd) (s : State) : Host.Outcome State Fault Refusal :=
  commit s (onField (Sys2Proof.Machine.iolMSequence ch.val how) s)

/-- ISDU_COMPLETE (R254). -/
def execIsduComplete (ch : Fin 128) (how : IsduEnd) (s : State) : Host.Outcome State Fault Refusal :=
  commit s (onField (Sys2Proof.Machine.isduComplete ch.val how) s)

/-- ISDU_TIMEOUT (R254). -/
def execIsduTimeout (ch : Fin 128) (s : State) : Host.Outcome State Fault Refusal :=
  commit s (onField (Sys2Proof.Machine.isduTimeout ch.val) s)

/-- IOL_DEVICE_EVENT (R255). -/
def execIolDeviceEvent (ch : Fin 128) (events : List (Byte × BitVec 16)) (stamp : Nat) (s : State) : Host.Outcome State Fault Refusal :=
  commit s (onField (Sys2Proof.Machine.iolDeviceEvent ch.val events stamp) s)

/-- IOL_DI_EDGE (R256). -/
def execIolDiEdge (ch : Fin 128) (ballB : Bool) (level : Bool) (stamp : Nat) (s : State) : Host.Outcome State Fault Refusal :=
  commit s (onField (Sys2Proof.Machine.iolDiEdge ch.val ballB level stamp) s)

/-- IOL_DQ_OVERLOAD (R256). -/
def execIolDqOverload (ch : Fin 128) (s : State) : Host.Outcome State Fault Refusal :=
  commit s (onField (Sys2Proof.Machine.iolDqOverload ch.val) s)

/-- CLAMP_EVENT (R183). -/
def execClampEvent (ch : Fin 128) (ns : Nat) (s : State) : Host.Outcome State Fault Refusal :=
  commit s (Sys2Proof.Machine.clampEvent ch.val ns s)

/-- DISCRETE_EDGE (R327). -/
def execDiscreteEdge (line : Fin 128) (level : Bool) (stampTick heldNs : Nat) (s : State) : Host.Outcome State Fault Refusal :=
  commit s (onField (Sys2Proof.Machine.discreteEdge line.val level stampTick heldNs) s)

/-- LINE_GLITCH (R327). -/
def execLineGlitch (line : Fin 128) (heldNs : Nat) (s : State) : Host.Outcome State Fault Refusal :=
  commit s (onField (Sys2Proof.Machine.lineGlitch line.val heldNs) s)

/-- DL_LINE_TRIP (R324). -/
def execDlLineTrip (line : Fin 128) (loadMa us fetC : Nat) (s : State) : Host.Outcome State Fault Refusal :=
  commit s (Sys2Proof.Machine.dlLineTrip line.val loadMa us fetC s)

/-- DL_LINE_TRIP_CLEAR (R324). -/
def execDlLineTripClear (bank : Fin 8) (mask : BitVec 16) (s : State) : Host.Outcome State Fault Refusal :=
  commit s (hostWrite (0xE0208 + bank.val * 0x10) mask.toNat s)

/-- DL_BANK_TRIP (R325). -/
def execDlBankTrip (bank : Fin 8) (sumMa us : Nat) (s : State) : Host.Outcome State Fault Refusal :=
  commit s (Sys2Proof.Machine.dlBankTrip bank.val sumMa us s)

/-- DL_BANK_TRIP_CLEAR (R325). -/
def execDlBankTripClear (bank : Fin 8) (s : State) : Host.Outcome State Fault Refusal :=
  commit s (hostWrite (0xE0200 + bank.val * 0x10) 1 s)

/-- DL_BANK_UV (R325). -/
def execDlBankUv (bank : Fin 8) (low : Bool) (s : State) : Host.Outcome State Fault Refusal :=
  commit s (Sys2Proof.Machine.dlBankUv bank.val low s)

/-- ENGINE_START (R339). -/
def execEngineStart (eng : Fin 32) (s : State) : Host.Outcome State Fault Refusal :=
  commit s (onField (Sys2Proof.Machine.engineStart eng.val) s)

/-- ENGINE_STEP (R334). -/
def execEngineStep (eng : Fin 32) (ns : Nat) (s : State) : Host.Outcome State Fault Refusal :=
  commit s (onField (Sys2Proof.Machine.engineStep eng.val ns) s)

/-- LE_CTL_HALT (R343). The write has the HALT bit, and the others of `value`. -/
def execLeCtlHalt (eng : Fin 32) (value : BitVec 4) (s : State) : Host.Outcome State Fault Refusal :=
  commit s (hostWrite (leAddr eng.val 0x040) (Nat.lor value.toNat 1) s)

/-- LE_CTL_RESTART (R343). The write has the RESTART bit, and the others of `value`. -/
def execLeCtlRestart (eng : Fin 32) (value : BitVec 4) (s : State) : Host.Outcome State Fault Refusal :=
  commit s (hostWrite (leAddr eng.val 0x040) (Nat.lor value.toNat 2) s)

/-- LE_CTL_RESET (R342). The write has the RESET bit, and the others of `value`. -/
def execLeCtlReset (eng : Fin 32) (value : BitVec 4) (s : State) : Host.Outcome State Fault Refusal :=
  commit s (hostWrite (leAddr eng.val 0x040) (Nat.lor value.toNat 8) s)

end Sys2Proof.Machine
end

