-- ==== Sys2Proof/Machine/HostField.lean ====
section
/-! DEFINITION. The meanings of the host commands of groups 0x02 to 0x06 (channels, signals and maps, transactions, engines and lines,
power): each is one whole packet of its opcode, with the parameters in the order of R57, that reaches the interpreter. -/

namespace Sys2Proof.Machine

open Sys2Proof

/-- CH_ENABLE (R57, R187). -/
def execChEnable (c : Ctx) (s : State) : Host.Outcome State Fault Refusal :=
  commit s (hostCommand c 0x0200 [] s)

/-- CH_DISABLE (R57, R188). -/
def execChDisable (c : Ctx) (mode : Byte) (s : State) : Host.Outcome State Fault Refusal :=
  commit s (hostCommand c 0x0201 [mode] s)

/-- CH_RESET (R57, R190). -/
def execChReset (c : Ctx) (s : State) : Host.Outcome State Fault Refusal :=
  commit s (hostCommand c 0x0202 [] s)

/-- CH_RATE_DETECT (R57, R201). -/
def execChRateDetect (c : Ctx) (timeoutMs : Word) (s : State) : Host.Outcome State Fault Refusal :=
  commit s (hostCommand c 0x0203 (leBytes 4 timeoutMs.toNat) s)

/-- CH_SEND (R57, R173). -/
def execChSend (c : Ctx) (release : DWord) (length : BitVec 16) (data : List Byte) (s : State) : Host.Outcome State Fault Refusal :=
  commit s (hostCommand c 0x0204 (leBytes 8 release.toNat ++ leBytes 2 length.toNat ++ data) s)

/-- CH_RECEIVE (R57, R198). -/
def execChReceive (c : Ctx) (maxItems : BitVec 16) (s : State) : Host.Outcome State Fault Refusal :=
  commit s (hostCommand c 0x0205 (leBytes 2 maxItems.toNat) s)

/-- CH_RELEASE (R57, R225). -/
def execChRelease (c : Ctx) (s : State) : Host.Outcome State Fault Refusal :=
  commit s (hostCommand c 0x0206 [] s)

/-- CH_STATUS (R57, R58). -/
def execChStatus (c : Ctx) (s : State) : Host.Outcome State Fault Refusal :=
  commit s (hostCommand c 0x0207 [] s)

/-- SIG_WRITE (R57, R266). -/
def execSigWrite (c : Ctx) (first : Word) (count resv : BitVec 16) (entries : List DWord) (s : State) : Host.Outcome State Fault Refusal :=
  commit s (hostCommand c 0x0300 (leBytes 4 first.toNat ++ leBytes 2 count.toNat ++ leBytes 2 resv.toNat ++ wordsBytes entries) s)

/-- SIG_READ (R57, R283). -/
def execSigRead (c : Ctx) (first : Word) (count resv : BitVec 16) (cycle : DWord) (s : State) : Host.Outcome State Fault Refusal :=
  commit s (hostCommand c 0x0301 (leBytes 4 first.toNat ++ leBytes 2 count.toNat ++ leBytes 2 resv.toNat ++ leBytes 8 cycle.toNat) s)

/-- MAP_CHANGE (R57, R279). -/
def execMapChange (c : Ctx) (first : Word) (count resv : BitVec 16) (rules : List Byte) (s : State) : Host.Outcome State Fault Refusal :=
  commit s (hostCommand c 0x0302 (leBytes 4 first.toNat ++ leBytes 2 count.toNat ++ leBytes 2 resv.toNat ++ rules) s)

/-- MAP_STATUS (R57). -/
def execMapStatus (c : Ctx) (s : State) : Host.Outcome State Fault Refusal :=
  commit s (hostCommand c 0x0303 [] s)

/-- SUB_ADD (R57, R281). -/
def execSubAdd (c : Ctx) (node resv : Byte) (count : BitVec 16) (remote loc : Word) (s : State) : Host.Outcome State Fault Refusal :=
  commit s (hostCommand c 0x0304 ([node, resv] ++ leBytes 2 count.toNat ++ leBytes 4 remote.toNat ++ leBytes 4 loc.toNat) s)

/-- SUB_REMOVE (R57, R281). -/
def execSubRemove (c : Ctx) (node resv1 : Byte) (resv2 : BitVec 16) (loc : Word) (s : State) : Host.Outcome State Fault Refusal :=
  commit s (hostCommand c 0x0305 ([node, resv1] ++ leBytes 2 resv2.toNat ++ leBytes 4 loc.toNat) s)

/-- TX_MB_READ (R57, R239). -/
def execTxMbRead (c : Ctx) (slave func : Byte) (addr qty : BitVec 16) (s : State) : Host.Outcome State Fault Refusal :=
  commit s (hostCommand c 0x0400 ([slave, func] ++ leBytes 2 addr.toNat ++ leBytes 2 qty.toNat) s)

/-- TX_MB_WRITE (R57, R239). -/
def execTxMbWrite (c : Ctx) (slave func : Byte) (addr qty : BitVec 16) (data : List Byte) (s : State) : Host.Outcome State Fault Refusal :=
  commit s (hostCommand c 0x0401 ([slave, func] ++ leBytes 2 addr.toNat ++ leBytes 2 qty.toNat ++ data) s)

/-- TX_MB_RW (R57, R239). -/
def execTxMbRw (c : Ctx) (slave resv : Byte) (rAddr rQty wAddr wQty : BitVec 16) (data : List Byte) (s : State) : Host.Outcome State Fault Refusal :=
  commit s (hostCommand c 0x0402 ([slave, resv] ++ leBytes 2 rAddr.toNat ++ leBytes 2 rQty.toNat ++ leBytes 2 wAddr.toNat ++ leBytes 2 wQty.toNat ++ data) s)

/-- TX_IOL_READ (R57, R254). -/
def execTxIolRead (c : Ctx) (index : BitVec 16) (subindex resv : Byte) (s : State) : Host.Outcome State Fault Refusal :=
  commit s (hostCommand c 0x0403 (leBytes 2 index.toNat ++ [subindex, resv]) s)

/-- TX_IOL_WRITE (R57, R254). -/
def execTxIolWrite (c : Ctx) (index : BitVec 16) (subindex resv : Byte) (data : List Byte) (s : State) : Host.Outcome State Fault Refusal :=
  commit s (hostCommand c 0x0404 (leBytes 2 index.toNat ++ [subindex, resv] ++ data) s)

/-- TX_CAN_REQ (R57, R304). -/
def execTxCanReq (c : Ctx) (timeoutMs resv : BitVec 16) (respId respMask : Word) (frame : List Byte) (s : State) : Host.Outcome State Fault Refusal :=
  commit s (hostCommand c 0x0405 (leBytes 2 timeoutMs.toNat ++ leBytes 2 resv.toNat ++ leBytes 4 respId.toNat ++ leBytes 4 respMask.toNat ++ frame) s)

/-- TX_POP (R57, R314). -/
def execTxPop (c : Ctx) (count : BitVec 16) (s : State) : Host.Outcome State Fault Refusal :=
  commit s (hostCommand c 0x0406 (leBytes 2 count.toNat) s)

/-- TX_PUSH (R57, R316). -/
def execTxPush (c : Ctx) (words : List DWord) (s : State) : Host.Outcome State Fault Refusal :=
  commit s (hostCommand c 0x0407 (wordsBytes words) s)

/-- TX_RE_READ (R57, R315). -/
def execTxReRead (c : Ctx) (first : Word) (count : BitVec 16) (s : State) : Host.Outcome State Fault Refusal :=
  commit s (hostCommand c 0x0408 (leBytes 4 first.toNat ++ leBytes 2 count.toNat) s)

/-- TX_LOCK (R57, R308). -/
def execTxLock (c : Ctx) (holdMs : BitVec 16) (s : State) : Host.Outcome State Fault Refusal :=
  commit s (hostCommand c 0x0409 (leBytes 2 holdMs.toNat) s)

/-- TX_UNLOCK (R57, R310). -/
def execTxUnlock (c : Ctx) (s : State) : Host.Outcome State Fault Refusal :=
  commit s (hostCommand c 0x040A [] s)

/-- LE_HALT (R57, R340). -/
def execLeHalt (c : Ctx) (s : State) : Host.Outcome State Fault Refusal :=
  commit s (hostCommand c 0x0500 [] s)

/-- LE_LOAD (R57, R341). -/
def execLeLoad (c : Ctx) (first count : BitVec 16) (entries : List Byte) (s : State) : Host.Outcome State Fault Refusal :=
  commit s (hostCommand c 0x0501 (leBytes 2 first.toNat ++ leBytes 2 count.toNat ++ entries) s)

/-- LE_RESTART (R57, R338). -/
def execLeRestart (c : Ctx) (flags : Byte) (s : State) : Host.Outcome State Fault Refusal :=
  commit s (hostCommand c 0x0502 [flags] s)

/-- LE_GROUP_START (R57, R339). -/
def execLeGroupStart (c : Ctx) (mask : Word) (startTick : DWord) (s : State) : Host.Outcome State Fault Refusal :=
  commit s (hostCommand c 0x0503 (leBytes 4 mask.toNat ++ leBytes 8 startTick.toNat) s)

/-- LE_STATUS (R57). -/
def execLeStatus (c : Ctx) (s : State) : Host.Outcome State Fault Refusal :=
  commit s (hostCommand c 0x0504 [] s)

/-- DL_WRITE (R57, R330). -/
def execDlWrite (c : Ctx) (value mask : BitVec 16) (s : State) : Host.Outcome State Fault Refusal :=
  commit s (hostCommand c 0x0505 (leBytes 2 value.toNat ++ leBytes 2 mask.toNat) s)

/-- DL_READ (R57, R329). -/
def execDlRead (c : Ctx) (s : State) : Host.Outcome State Fault Refusal :=
  commit s (hostCommand c 0x0506 [] s)

/-- OUT_SET (R57, R371). -/
def execOutSet (c : Ctx) (on : Byte) (s : State) : Host.Outcome State Fault Refusal :=
  commit s (hostCommand c 0x0600 [on] s)

/-- OUT_CLEAR (R57, R371). -/
def execOutClear (c : Ctx) (s : State) : Host.Outcome State Fault Refusal :=
  commit s (hostCommand c 0x0601 [] s)

/-- OUT_STATUS (R57). -/
def execOutStatus (c : Ctx) (s : State) : Host.Outcome State Fault Refusal :=
  commit s (hostCommand c 0x0602 [] s)

/-- PL_SET (R57, R375). -/
def execPlSet (c : Ctx) (level : Byte) (s : State) : Host.Outcome State Fault Refusal :=
  commit s (hostCommand c 0x0603 [level] s)

/-- SLEEP_ENTER (R57, R376). -/
def execSleepEnter (c : Ctx) (level : Byte) (s : State) : Host.Outcome State Fault Refusal :=
  commit s (hostCommand c 0x0604 [level] s)

/-- PWR_STATUS (R57). -/
def execPwrStatus (c : Ctx) (s : State) : Host.Outcome State Fault Refusal :=
  commit s (hostCommand c 0x0605 [] s)

end Sys2Proof.Machine
end

