-- ==== Sys2Proof/Machine/HostSystem.lean ====
section
/-! DEFINITION. The meanings of the host commands of groups 0x00 and 0x01 (system, session, configuration): each is one whole packet of
its opcode, with the parameters in the order of R57, that reaches the interpreter. -/

namespace Sys2Proof.Machine

open Sys2Proof

/-- NOP (R57). -/
def execNop (c : Ctx) (s : State) : Host.Outcome State Fault Refusal :=
  commit s (hostCommand c 0x0000 [] s)

/-- SESSION_OPEN (R57, R48). -/
def execSessionOpen (c : Ctx) (nonce : DWord) (revMin revMax window resv1 : Byte) (lease resv2 : BitVec 16) (s : State) : Host.Outcome State Fault Refusal :=
  commit s (hostCommand c 0x0001 (leBytes 8 nonce.toNat ++ [revMin, revMax, window, resv1] ++ leBytes 2 lease.toNat ++ leBytes 2 resv2.toNat) s)

/-- SESSION_CLOSE (R57, R51). -/
def execSessionClose (c : Ctx) (s : State) : Host.Outcome State Fault Refusal :=
  commit s (hostCommand c 0x0002 [] s)

/-- ECHO (R57). -/
def execEcho (c : Ctx) (data : List Byte) (s : State) : Host.Outcome State Fault Refusal :=
  commit s (hostCommand c 0x0003 data s)

/-- GET_REPLY (R57). -/
def execGetReply (c : Ctx) (tag : Tag) (s : State) : Host.Outcome State Fault Refusal :=
  commit s (hostCommand c 0x0004 (leBytes 2 tag.toNat) s)

/-- GET_STATE (R57). -/
def execGetState (c : Ctx) (s : State) : Host.Outcome State Fault Refusal :=
  commit s (hostCommand c 0x0005 [] s)

/-- SET_EVENTS (R57, R54). -/
def execSetEvents (c : Ctx) (mask : Word) (s : State) : Host.Outcome State Fault Refusal :=
  commit s (hostCommand c 0x0006 (leBytes 4 mask.toNat) s)

/-- MEM_READ (R57). -/
def execMemRead (c : Ctx) (addr : DWord) (length : Word) (s : State) : Host.Outcome State Fault Refusal :=
  commit s (hostCommand c 0x0007 (leBytes 8 addr.toNat ++ leBytes 4 length.toNat) s)

/-- MEM_WRITE (R57). -/
def execMemWrite (c : Ctx) (addr : DWord) (group : Byte) (resv : BitVec 24) (data : List Byte) (s : State) : Host.Outcome State Fault Refusal :=
  commit s (hostCommand c 0x0008 (leBytes 8 addr.toNat ++ [group] ++ leBytes 3 resv.toNat ++ data) s)

/-- CFG_STAGE (R57, R429). -/
def execCfgStage (c : Ctx) (offset : Word) (data : List Byte) (s : State) : Host.Outcome State Fault Refusal :=
  commit s (hostCommand c 0x0100 (leBytes 4 offset.toNat ++ data) s)

/-- CFG_VALIDATE (R57, R398). -/
def execCfgValidate (c : Ctx) (s : State) : Host.Outcome State Fault Refusal :=
  commit s (hostCommand c 0x0101 [] s)

/-- CFG_ACTIVATE (R57, R400). -/
def execCfgActivate (c : Ctx) (s : State) : Host.Outcome State Fault Refusal :=
  commit s (hostCommand c 0x0102 [] s)

/-- CFG_STATUS (R57). -/
def execCfgStatus (c : Ctx) (s : State) : Host.Outcome State Fault Refusal :=
  commit s (hostCommand c 0x0103 [] s)

/-- CFG_READ (R57, R465). -/
def execCfgRead (c : Ctx) (slot sect : Byte) (resv : BitVec 16) (offset length : Word) (s : State) : Host.Outcome State Fault Refusal :=
  commit s (hostCommand c 0x0104 ([slot, sect] ++ leBytes 2 resv.toNat ++ leBytes 4 offset.toNat ++ leBytes 4 length.toNat) s)

end Sys2Proof.Machine
end

