-- ==== Sys2Proof/Machine/HostUpkeep.lean ====
section
/-! DEFINITION. The meanings of the host commands of groups 0x07 to 0x0B (time, faults, update, identity, ring): each is one whole
packet of its opcode, with the parameters in the order of R57, that reaches the interpreter. -/

namespace Sys2Proof.Machine

open Sys2Proof

/-- TIME_GET (R57). -/
def execTimeGet (c : Ctx) (s : State) : Host.Outcome State Fault Refusal :=
  commit s (hostCommand c 0x0700 [] s)

/-- SYNC_OUT_SET (R57, R168). -/
def execSyncOutSet (c : Ctx) (first : DWord) (period width : Word) (s : State) : Host.Outcome State Fault Refusal :=
  commit s (hostCommand c 0x0701 (leBytes 8 first.toNat ++ leBytes 4 period.toNat ++ leBytes 4 width.toNat) s)

/-- STAMP_READ (R57, R165). -/
def execStampRead (c : Ctx) (maxEntries : Byte) (s : State) : Host.Outcome State Fault Refusal :=
  commit s (hostCommand c 0x0702 [maxEntries] s)

/-- PEER_DELAY_GET (R57, R161). -/
def execPeerDelayGet (c : Ctx) (s : State) : Host.Outcome State Fault Refusal :=
  commit s (hostCommand c 0x0703 [] s)

/-- FLT_READ (R57, R414). -/
def execFltRead (c : Ctx) (first count : BitVec 16) (s : State) : Host.Outcome State Fault Refusal :=
  commit s (hostCommand c 0x0800 (leBytes 2 first.toNat ++ leBytes 2 count.toNat) s)

/-- FLT_CLEAR (R57, R419). -/
def execFltClear (c : Ctx) (source : BitVec 16) (s : State) : Host.Outcome State Fault Refusal :=
  commit s (hostCommand c 0x0801 (leBytes 2 source.toNat) s)

/-- FLT_INJECT (R57, R420). -/
def execFltInject (c : Ctx) (source : BitVec 16) (s : State) : Host.Outcome State Fault Refusal :=
  commit s (hostCommand c 0x0802 (leBytes 2 source.toNat) s)

/-- FLT_REACT_SET (R57, R410). -/
def execFltReactSet (c : Ctx) (source : BitVec 16) (mask : Byte) (s : State) : Host.Outcome State Fault Refusal :=
  commit s (hostCommand c 0x0803 (leBytes 2 source.toNat ++ [mask]) s)

/-- UPD_BLOCK (R57, R429). -/
def execUpdBlock (c : Ctx) (component resv1 : Byte) (resv2 : BitVec 16) (offset : Word) (data : List Byte) (s : State) : Host.Outcome State Fault Refusal :=
  commit s (hostCommand c 0x0900 ([component, resv1] ++ leBytes 2 resv2.toNat ++ leBytes 4 offset.toNat ++ data) s)

/-- UPD_COMMIT (R57, R431). -/
def execUpdCommit (c : Ctx) (component : Byte) (s : State) : Host.Outcome State Fault Refusal :=
  commit s (hostCommand c 0x0901 [component] s)

/-- UPD_CONFIRM (R57, R433). -/
def execUpdConfirm (c : Ctx) (component : Byte) (s : State) : Host.Outcome State Fault Refusal :=
  commit s (hostCommand c 0x0902 [component] s)

/-- UPD_ABORT (R57, R428). -/
def execUpdAbort (c : Ctx) (s : State) : Host.Outcome State Fault Refusal :=
  commit s (hostCommand c 0x0903 [] s)

/-- UPD_STATUS (R57). -/
def execUpdStatus (c : Ctx) (s : State) : Host.Outcome State Fault Refusal :=
  commit s (hostCommand c 0x0904 [] s)

/-- ID_READ (R57, R443). -/
def execIdRead (c : Ctx) (s : State) : Host.Outcome State Fault Refusal :=
  commit s (hostCommand c 0x0A00 [] s)

/-- TAG_READ (R57, R442). -/
def execTagRead (c : Ctx) (record : Byte) (s : State) : Host.Outcome State Fault Refusal :=
  commit s (hostCommand c 0x0A01 [record] s)

/-- TAG_WRITE (R57, R441). -/
def execTagWrite (c : Ctx) (record : Byte) (resv : BitVec 24) (content : List Byte) (s : State) : Host.Outcome State Fault Refusal :=
  commit s (hostCommand c 0x0A02 ([record] ++ leBytes 3 resv.toNat ++ content) s)

/-- TAG_LOCK (R57, R442). -/
def execTagLock (c : Ctx) (record : Byte) (s : State) : Host.Outcome State Fault Refusal :=
  commit s (hostCommand c 0x0A03 [record] s)

/-- RING_STATUS (R57, R58). -/
def execRingStatus (c : Ctx) (s : State) : Host.Outcome State Fault Refusal :=
  commit s (hostCommand c 0x0B00 [] s)

/-- LIGHT_LIST_READ (R57, R90). -/
def execLightListRead (c : Ctx) (s : State) : Host.Outcome State Fault Refusal :=
  commit s (hostCommand c 0x0B01 [] s)

/-- SPAN_ADMIN (R57, R74). -/
def execSpanAdmin (c : Ctx) (up : Byte) (s : State) : Host.Outcome State Fault Refusal :=
  commit s (hostCommand c 0x0B02 [up] s)

/-- RING_BACKUP_SET (R57). -/
def execRingBackupSet (c : Ctx) (node : Byte) (s : State) : Host.Outcome State Fault Refusal :=
  commit s (hostCommand c 0x0B03 [node] s)

/-- PROOF_TAKEOVER (R57, R146). -/
def execProofTakeover (c : Ctx) (cycles : Word) (s : State) : Host.Outcome State Fault Refusal :=
  commit s (hostCommand c 0x0B04 (leBytes 4 cycles.toNat) s)

/-- UNWRAP_HOLDOFF_SET (R57, R149). -/
def execUnwrapHoldoffSet (c : Ctx) (ms : Word) (s : State) : Host.Outcome State Fault Refusal :=
  commit s (hostCommand c 0x0B05 (leBytes 4 ms.toNat) s)

end Sys2Proof.Machine
end

