-- ==== Sys2Proof/Machine/HubEvents.lean ====
section
/-! DEFINITION. The meanings of what happens to the hub as a whole: command transport, registers and windows, reset and start-up,
power, faults and update. -/

namespace Sys2Proof.Machine

open Sys2Proof

/-- EFFECTIVE_CYCLE_APPLY (R44). -/
def execEffectiveCycleApply (s : State) : Host.Outcome State Fault Refusal :=
  commit s (effectiveApply s)

/-- MULTIPART_TIMEOUT (R45). -/
def execMultipartTimeout (session : Fin 256) (s : State) : Host.Outcome State Fault Refusal :=
  commit s (Sys2Proof.Machine.multipartTimeout session.val s)

/-- SESSION_LEASE_LAPSE (R52). -/
def execSessionLeaseLapse (session : Fin 256) (s : State) : Host.Outcome State Fault Refusal :=
  commit s (ownerGone (leaseLapse session.val s))

/-- SUSPENDED_SESSION_FREE (R53). -/
def execSuspendedSessionFree (session : Fin 256) (s : State) : Host.Outcome State Fault Refusal :=
  commit s (ownerGone (suspendedFree session.val s))

/-- CMDQ_SQ_TAIL_WRITE (R60). -/
def execCmdqSqTailWrite (value : Word) (s : State) : Host.Outcome State Fault Refusal :=
  commit s (hostWrite 0x14004C value.toNat s)

/-- CMDQ_CQ_HEAD_WRITE (R60). -/
def execCmdqCqHeadWrite (value : Word) (s : State) : Host.Outcome State Fault Refusal :=
  commit s (hostWrite 0x140058 value.toNat s)

/-- CMDQ_RING_CFG_WRITE (R60). -/
def execCmdqRingCfgWrite (value : Word) (s : State) : Host.Outcome State Fault Refusal :=
  commit s (hostWrite 0x140048 value.toNat s)

/-- SUBMISSION_FETCH (R60). -/
def execSubmissionFetch (bytes : List Byte) (s : State) : Host.Outcome State Fault Refusal :=
  commit s (Sys2Proof.Machine.submissionFetch bytes s)

/-- COMPLETION_WRITE (R60). -/
def execCompletionWrite (s : State) : Host.Outcome State Fault Refusal :=
  commit s (Sys2Proof.Machine.completionWrite s)

/-- MNT_POINTER_WRITE (R62). -/
def execMntPointerWrite (pointer : Byte) (s : State) : Host.Outcome State Fault Refusal :=
  commit s (Sys2Proof.Machine.mntPointerWrite pointer s)

/-- PACKET_IN (R63). -/
def execPacketIn (bytes : List Byte) (repeatedStart : Bool) (s : State) : Host.Outcome State Fault Refusal :=
  commit s (Sys2Proof.Machine.packetIn bytes repeatedStart s)

/-- OUT_ACK (R64). -/
def execOutAck (seq : BitVec 16) (s : State) : Host.Outcome State Fault Refusal :=
  commit s (Sys2Proof.Machine.outAck seq s)

/-- IN_CLEAR (R62). -/
def execInClear (value : Byte) (s : State) : Host.Outcome State Fault Refusal :=
  commit s (Sys2Proof.Machine.inClear value s)

/-- I2C_ADDRESS_MATCH (R378). -/
def execI2cAddressMatch (addr : BitVec 7) (s : State) : Host.Outcome State Fault Refusal :=
  commit s (i2cMatch addr.toNat s)

/-- CSR_WRITE (R5). -/
def execCsrWrite (requester : BitVec 16) (bar : Bar) (offset size : Nat) (value : DWord) (s : State) : Host.Outcome State Fault Refusal :=
  commit s (barWrite requester.toNat bar offset size value s)

/-- RC_REGISTER_READ (R5). -/
def execRcRegisterRead (requester : BitVec 16) (bar : Bar) (offset size : Nat) (s : State) : Host.Outcome State Fault Refusal :=
  commit s (barReadAt requester.toNat bar offset size s)

/-- RX_POP (R314). -/
def execRxPop (ch : Fin 128) (size : Nat) (s : State) : Host.Outcome State Fault Refusal :=
  commit s (barRead ch.val 0 size s)

/-- WINDOW_TX_PUSH (R316). -/
def execWindowTxPush (ch : Fin 128) (word : DWord) (s : State) : Host.Outcome State Fault Refusal :=
  commit s (barPush ch.val word s)

/-- ENGINE_POP (R313). -/
def execEnginePop (eng : Fin 32) (size : Nat) (s : State) : Host.Outcome State Fault Refusal :=
  commit s (barRead (0x100 + eng.val) 0 size s)

/-- ENGINE_PUSH (R313). -/
def execEnginePush (eng : Fin 32) (word : Word) (s : State) : Host.Outcome State Fault Refusal :=
  commit s (barPush (0x100 + eng.val) (BitVec.ofNat 64 word.toNat) s)

/-- CAN_OBJECT_HEAD_READ (R217). -/
def execCanObjectHeadRead (ch : Fin 128) (obj : Fin 64) (s : State) : Host.Outcome State Fault Refusal :=
  commit s (barRead ch.val (0x8000 + obj.val * 0x80) 8 s)

/-- CAN_OBJECT_END_READ (R217). -/
def execCanObjectEndRead (ch : Fin 128) (obj : Fin 64) (s : State) : Host.Outcome State Fault Refusal :=
  commit s (barRead ch.val (0x8050 + obj.val * 0x80) 8 s)

/-- CAN_LOCK_TIMEOUT (R217). -/
def execCanLockTimeout (ch : Fin 128) (obj : Fin 64) (s : State) : Host.Outcome State Fault Refusal :=
  commit s (Sys2Proof.Machine.canLockTimeout ch.val obj.val s)

/-- PCIE_PUSH_DROP (R319). -/
def execPciePushDrop (s : State) : Host.Outcome State Fault Refusal :=
  commit s (Sys2Proof.Machine.pciePushDrop s)

/-- WINDOW_PUSH_TIMEOUT (R316). -/
def execWindowPushTimeout (session : Fin 256) (s : State) : Host.Outcome State Fault Refusal :=
  commit s (Sys2Proof.Machine.windowPushTimeout session.val s)

/-- LOCK_EXPIRY (R310). -/
def execLockExpiry (ch : Fin 128) (s : State) : Host.Outcome State Fault Refusal :=
  commit s (Sys2Proof.Machine.lockExpiry ch.val s)

/-- LOCK_WAIT_TIMEOUT (R309). -/
def execLockWaitTimeout (ch : Fin 128) (s : State) : Host.Outcome State Fault Refusal :=
  commit s (Sys2Proof.Machine.lockWaitTimeout ch.val s)

/-- RST_CTL_COLD (R390). -/
def execRstCtlCold (key : Byte) (kind : Fin 4) (index : BitVec 7) (s : State) : Host.Outcome State Fault Refusal :=
  commit s (hostReset 0 key.toNat kind.val index.toNat s)

/-- RST_CTL_WARM (R390). -/
def execRstCtlWarm (key : Byte) (kind : Fin 4) (index : BitVec 7) (s : State) : Host.Outcome State Fault Refusal :=
  commit s (hostReset 1 key.toNat kind.val index.toNat s)

/-- RST_CTL_SERVICE (R390). -/
def execRstCtlService (key : Byte) (kind : Fin 4) (index : BitVec 7) (s : State) : Host.Outcome State Fault Refusal :=
  commit s (hostReset 2 key.toNat kind.val index.toNat s)

/-- RST_CTL_BLOCK (R390). -/
def execRstCtlBlock (key : Byte) (kind : Fin 4) (index : BitVec 7) (s : State) : Host.Outcome State Fault Refusal :=
  commit s (hostReset 3 key.toNat kind.val index.toNat s)

/-- COMMAND_RESET_ASSERT (R390). -/
def execCommandResetAssert (s : State) : Host.Outcome State Fault Refusal :=
  commit s (Sys2Proof.Machine.commandResetAssert s)

/-- RST_REC_CLR (R402). The write keeps the mode it reads. -/
def execRstRecClr (s : State) : Host.Outcome State Fault Refusal :=
  commit s (hostWrite 0x10008 (0x80000000 + b2n s.reset_.countMode) s)

/-- RST_REC_MODE_WRITE (R401). -/
def execRstRecModeWrite (mode : Bool) (s : State) : Host.Outcome State Fault Refusal :=
  commit s (hostWrite 0x10008 (b2n mode) s)

/-- POWER_ON (R386). -/
def execPowerOn (backupEmpty : Bool) (s : State) : Host.Outcome State Fault Refusal :=
  commit s (Sys2Proof.Machine.powerOn backupEmpty s)

/-- BROWN_OUT (R360). -/
def execBrownOut (mv us : Nat) (s : State) : Host.Outcome State Fault Refusal :=
  commit s (Sys2Proof.Machine.brownOut mv us s)

/-- VIN_OVERVOLTAGE (R360). -/
def execVinOvervoltage (mv us : Nat) (s : State) : Host.Outcome State Fault Refusal :=
  commit s (Sys2Proof.Machine.vinOvervoltage mv us s)

/-- VIN_STAGE_ON (R362). -/
def execVinStageOn (mv : Nat) (fetDeciC : Int) (s : State) : Host.Outcome State Fault Refusal :=
  commit s (Sys2Proof.Machine.vinStageOn mv fetDeciC s)

/-- VIN_STAGE_LIMIT (R361). -/
def execVinStageLimit (entering : Bool) (s : State) : Host.Outcome State Fault Refusal :=
  commit s (Sys2Proof.Machine.vinStageLimit entering s)

/-- VIN_TRIP (R361). -/
def execVinTrip (fetDeciC : Int) (s : State) : Host.Outcome State Fault Refusal :=
  commit s (Sys2Proof.Machine.vinTrip fetDeciC s)

/-- PWRGD_RISE (R364). -/
def execPwrgdRise (s : State) : Host.Outcome State Fault Refusal :=
  commit s (Sys2Proof.Machine.pwrgdRise s)

/-- PWRGD_FALL (R364). -/
def execPwrgdFall (rails : Byte) (s : State) : Host.Outcome State Fault Refusal :=
  commit s (Sys2Proof.Machine.pwrgdFall rails s)

/-- THERMAL (R386). -/
def execThermal (junctionDeciC : Int) (us : Nat) (s : State) : Host.Outcome State Fault Refusal :=
  commit s (Sys2Proof.Machine.thermal junctionDeciC us s)

/-- PORST_N (R386). -/
def execPorstN (lowNs : Nat) (s : State) : Host.Outcome State Fault Refusal :=
  commit s (ballReset 4 lowNs s)

/-- WRST_N (R386). -/
def execWrstN (lowNs : Nat) (s : State) : Host.Outcome State Fault Refusal :=
  commit s (ballReset 5 lowNs s)

/-- WATCHDOG (R386). -/
def execWatchdog (unservicedUs : Nat) (s : State) : Host.Outcome State Fault Refusal :=
  commit s (Sys2Proof.Machine.watchdog unservicedUs s)

/-- CRITICAL (R392). -/
def execCritical (source : BitVec 16) (s : State) : Host.Outcome State Fault Refusal :=
  commit s (Sys2Proof.Machine.critical source.toNat s)

/-- RESET_RELEASE (R388). -/
def execResetRelease (cause : Fin 16) (s : State) : Host.Outcome State Fault Refusal :=
  commit s (Sys2Proof.Machine.resetRelease cause.val s)

/-- RESET_END (R388). -/
def execResetEnd (s : State) : Host.Outcome State Fault Refusal :=
  commit s (Sys2Proof.Machine.resetEnd s)

/-- BOOT_STEP (R395). -/
def execBootStep (verified : BitVec 4) (s : State) : Host.Outcome State Fault Refusal :=
  commit s (bootNext verified s)

/-- SPAN_ALLOWANCE_EXPIRY (R396). -/
def execSpanAllowanceExpiry (p : Port) (s : State) : Host.Outcome State Fault Refusal :=
  commit s (spanAllowance p s)

/-- BOOT_BEACON_TIMEOUT (R396). -/
def execBootBeaconTimeout (s : State) : Host.Outcome State Fault Refusal :=
  commit s (Sys2Proof.Machine.bootBeaconTimeout s)

/-- SCRUB_STEP (R356). -/
def execScrubStep (contentGood : Bool) (s : State) : Host.Outcome State Fault Refusal :=
  commit s (onField (Sys2Proof.Machine.scrubStep contentGood) s)

/-- IMAGE_VERIFY (R356). -/
def execImageVerify (image : Fin 9) (contentGood : Bool) (s : State) : Host.Outcome State Fault Refusal :=
  commit s (Sys2Proof.Machine.imageVerify image.val contentGood s)

/-- OUTLET_START_OK (R368). -/
def execOutletStartOk (o : Fin 32) (s : State) : Host.Outcome State Fault Refusal :=
  commit s (Sys2Proof.Machine.outletStartOk o.val s)

/-- OUTLET_OVERCURRENT (R368). -/
def execOutletOvercurrent (o : Fin 32) (ma : Nat) (s : State) : Host.Outcome State Fault Refusal :=
  commit s (Sys2Proof.Machine.outletOvercurrent o.val ma s)

/-- T_FLT_EXPIRY (R368). -/
def execTFltExpiry (o : Fin 32) (s : State) : Host.Outcome State Fault Refusal :=
  commit s (Sys2Proof.Machine.tFltExpiry o.val s)

/-- T_START_EXPIRY (R368). -/
def execTStartExpiry (o : Fin 32) (s : State) : Host.Outcome State Fault Refusal :=
  commit s (Sys2Proof.Machine.tStartExpiry o.val s)

/-- OUTLET_TEMP_TRIP (R368). -/
def execOutletTempTrip (o : Fin 32) (deciC : Int) (s : State) : Host.Outcome State Fault Refusal :=
  commit s (Sys2Proof.Machine.outletTempTrip o.val deciC s)

/-- COOLDOWN_END (R369). -/
def execCooldownEnd (o : Fin 32) (s : State) : Host.Outcome State Fault Refusal :=
  commit s (Sys2Proof.Machine.cooldownEnd o.val s)

/-- T_FORGIVE_EXPIRY (R370). -/
def execTForgiveExpiry (o : Fin 32) (s : State) : Host.Outcome State Fault Refusal :=
  commit s (Sys2Proof.Machine.tForgiveExpiry o.val s)

/-- VFB_UV (R365). -/
def execVfbUv (bank : Fin 4) (mv : Nat) (s : State) : Host.Outcome State Fault Refusal :=
  commit s (Sys2Proof.Machine.vfbUv bank.val mv s)

/-- JUNCTION_TEMP_HIGH (R375). -/
def execJunctionTempHigh (deciC : Int) (s : State) : Host.Outcome State Fault Refusal :=
  commit s (Sys2Proof.Machine.junctionTempHigh deciC s)

/-- PL_TRANSITION_STEP (R374). -/
def execPlTransitionStep (step : PlStep) (s : State) : Host.Outcome State Fault Refusal :=
  commit s (Sys2Proof.Machine.plTransitionStep step s)

/-- SLEEP_ENTRY (R376). -/
def execSleepEntry (s : State) : Host.Outcome State Fault Refusal :=
  commit s (Sys2Proof.Machine.sleepEntry s)

/-- SLEEP_PORTS_DOWN (R376). -/
def execSleepPortsDown (s : State) : Host.Outcome State Fault Refusal :=
  commit s (Sys2Proof.Machine.sleepPortsDown s)

/-- WAKE_SEQUENCE_END (R379). -/
def execWakeSequenceEnd (spanUp verifyOk : Bool) (s : State) : Host.Outcome State Fault Refusal :=
  commit s (Sys2Proof.Machine.wakeSequenceEnd spanUp verifyOk s)

/-- PWR_VIN_STAT_CLR (R382). -/
def execPwrVinStatClr (s : State) : Host.Outcome State Fault Refusal :=
  commit s (hostWrite 0x20000 0x1000000 s)

/-- INJECTED_DETECTION (R420). -/
def execInjectedDetection (source : BitVec 16) (s : State) : Host.Outcome State Fault Refusal :=
  commit s (Sys2Proof.Machine.injectedDetection source.toNat s)

/-- FAULT_LOG_COMMIT (R409). -/
def execFaultLogCommit (s : State) : Host.Outcome State Fault Refusal :=
  commit s (faultCommit s)

/-- FLT_FF_CLEAR (R417). -/
def execFltFfClear (group : Fin 11) (s : State) : Host.Outcome State Fault Refusal :=
  commit s (hostWrite (0x110100 + group.val * 8) 0x10000 s)

/-- MAP_CF_CLEAR (R301). -/
def execMapCfClear (s : State) : Host.Outcome State Fault Refusal :=
  commit s (hostWrite 0xF0080 0x80000000 s)

/-- TRIAL_EXPIRY (R434). -/
def execTrialExpiry (s : State) : Host.Outcome State Fault Refusal :=
  commit s (Sys2Proof.Machine.trialExpiry s)

/-- OWNER_LAPSE (R428). -/
def execOwnerLapse (s : State) : Host.Outcome State Fault Refusal :=
  commit s (Sys2Proof.Machine.ownerLapse s)

/-- COMPONENT_START (R424). -/
def execComponentStart (s : State) : Host.Outcome State Fault Refusal :=
  commit s (Sys2Proof.Machine.componentStart s)

/-- TAG_WORD_WRITE (R441). -/
def execTagWordWrite (offset : Nat) (value : Word) (s : State) : Host.Outcome State Fault Refusal :=
  commit s (if serves s .pcie then (spaceWrite 0 4 offset (leBytes 4 value.toNat) s).2 else s)

end Sys2Proof.Machine
end

