-- ==== Sys2Proof/Machine/RingEvents.lean ====
section
/-! DEFINITION. The meanings of what happens on the ring and at the cycle: the stages of a cycle, frames, training, ring time,
recovery, SYNC and snapshots. -/

namespace Sys2Proof.Machine

open Sys2Proof

/-- FIRST_CYCLE (R397). -/
def execFirstCycle (s : State) : Host.Outcome State Fault Refusal :=
  commit s (let r := Sys2Proof.Machine.firstCycle s; deliverAll r.1 r.2)

/-- CYCLE_BOUNDARY (R275). -/
def execCycleBoundary (s : State) : Host.Outcome State Fault Refusal :=
  commit s (let r := Sys2Proof.Machine.cycleBoundary s; deliverAll r.1 r.2)

/-- PUBLISH (R280). -/
def execPublish (s : State) : Host.Outcome State Fault Refusal :=
  commit s (Sys2Proof.Machine.publish s)

/-- REMOTE_GATHER (R281). -/
def execRemoteGather (s : State) : Host.Outcome State Fault Refusal :=
  commit s (Sys2Proof.Machine.remoteGather s)

/-- PACK_AND_CLOSE (R274). -/
def execPackAndClose (s : State) : Host.Outcome State Fault Refusal :=
  commit s (Sys2Proof.Machine.packAndClose s)

/-- MAP_OVERRUN (R278). -/
def execMapOverrun (stage : Fin 3) (firstUnfinished : Nat) (s : State) : Host.Outcome State Fault Refusal :=
  commit s (Sys2Proof.Machine.mapOverrun stage.val firstUnfinished s)

/-- HISTORY_COPY_DONE (R282). -/
def execHistoryCopyDone (s : State) : Host.Outcome State Fault Refusal :=
  commit s (copyDone s)

/-- OUTPUT_RELEASE (R174). -/
def execOutputRelease (s : State) : Host.Outcome State Fault Refusal :=
  commit s (Sys2Proof.Machine.outputRelease s)

/-- MB_ROUND_OPEN (R244). -/
def execMbRoundOpen (ch : Fin 128) (s : State) : Host.Outcome State Fault Refusal :=
  commit s (onField (Sys2Proof.Machine.mbRoundOpen ch.val) s)

/-- RING_FRAME_RX (R80). -/
def execRingFrameRx (p : Port) (bytes : List Byte) (rxTime : Nat) (part : RxPart) (s : State) : Host.Outcome State Fault Refusal :=
  commit s (Sys2Proof.Machine.ringFrameRx p bytes rxTime part s)

/-- OUTPUT_FRAME_SEND (R110). -/
def execOutputFrameSend (o : Output) (txTime : Nat) (s : State) : Host.Outcome State Fault Refusal :=
  commit s (Sys2Proof.Machine.outputFrameSend o txTime s)

/-- CYC_FRAME_RX (R120). -/
def execCycFrameRx (s : State) : Host.Outcome State Fault Refusal :=
  commit s (Sys2Proof.Machine.cycFrameRx s)

/-- STREAM_FRAME_RX (R135). -/
def execStreamFrameRx (cls : Fin 5) (s : State) : Host.Outcome State Fault Refusal :=
  commit s (Sys2Proof.Machine.streamFrameRx cls.val s)

/-- MULTICAST_REQ_RX (R118). -/
def execMulticastReqRx (s : State) : Host.Outcome State Fault Refusal :=
  commit s (Sys2Proof.Machine.multicastReqRx s)

/-- DELIVERY_REPORT_RX (R119). -/
def execDeliveryReportRx (s : State) : Host.Outcome State Fault Refusal :=
  commit s (Sys2Proof.Machine.deliveryReportRx s)

/-- MULTICAST_ROUND_END (R119). -/
def execMulticastRoundEnd (item : Word) (s : State) : Host.Outcome State Fault Refusal :=
  commit s (Sys2Proof.Machine.multicastRoundEnd item s)

/-- TRAIN_RX (R73). -/
def execTrainRx (s : State) : Host.Outcome State Fault Refusal :=
  commit s (Sys2Proof.Machine.trainRx s)

/-- TRAIN_SEND (R73). -/
def execTrainSend (p : Port) (s : State) : Host.Outcome State Fault Refusal :=
  commit s (Sys2Proof.Machine.trainSend p s)

/-- TRAINING_TIMEOUT (R75). -/
def execTrainingTimeout (p : Port) (s : State) : Host.Outcome State Fault Refusal :=
  commit s (Sys2Proof.Machine.trainingTimeout p s)

/-- FEC_LOCK_TIMEOUT (R70). -/
def execFecLockTimeout (p : Port) (s : State) : Host.Outcome State Fault Refusal :=
  commit s (Sys2Proof.Machine.fecLockTimeout p s)

/-- LOS_RISE (R125). -/
def execLosRise (p : Port) (s : State) : Host.Outcome State Fault Refusal :=
  commit s (Sys2Proof.Machine.losRise p s)

/-- LOS_FALL (R75). -/
def execLosFall (p : Port) (s : State) : Host.Outcome State Fault Refusal :=
  commit s (Sys2Proof.Machine.losFall p s)

/-- MODULE_INSERT (R67). -/
def execModuleInsert (p : Port) (page : Option (List Byte)) (s : State) : Host.Outcome State Fault Refusal :=
  commit s (Sys2Proof.Machine.moduleInsert p page s)

/-- MODULE_REMOVE (R72). -/
def execModuleRemove (p : Port) (s : State) : Host.Outcome State Fault Refusal :=
  commit s (Sys2Proof.Machine.moduleRemove p s)

/-- TXFLT_RISE (R68). -/
def execTxfltRise (p : Port) (s : State) : Host.Outcome State Fault Refusal :=
  commit s (Sys2Proof.Machine.txfltRise p s)

/-- TXFLT_HOLD_END (R68). -/
def execTxfltHoldEnd (p : Port) (s : State) : Host.Outcome State Fault Refusal :=
  commit s (Sys2Proof.Machine.txfltHoldEnd p s)

/-- CAGE_SUPPLY_TRIP (R457). -/
def execCageSupplyTrip (p : Port) (s : State) : Host.Outcome State Fault Refusal :=
  commit s (Sys2Proof.Machine.cageSupplyTrip p s)

/-- LIVENESS_LOSS (R125). -/
def execLivenessLoss (p : Port) (s : State) : Host.Outcome State Fault Refusal :=
  commit s (Sys2Proof.Machine.livenessLoss p s)

/-- KEEP_MARKER_SEND (R71). -/
def execKeepMarkerSend (p : Port) (s : State) : Host.Outcome State Fault Refusal :=
  commit s (Sys2Proof.Machine.keepMarkerSend p s)

/-- KEEP_MARKER_RX (R125). The revision that the marker shows changes nothing here (R71). -/
def execKeepMarkerRx (p : Port) (node : Byte) (spanState : BitVec 4) (_rev : BitVec 4) (missed : Nat) (s : State) : Host.Outcome State Fault Refusal :=
  commit s (Sys2Proof.Machine.keepMarkerRx p node.toNat spanState.toNat missed s)

/-- BLOCK_LOCK (R75). -/
def execBlockLock (p : Port) (peerFec : Bool) (s : State) : Host.Outcome State Fault Refusal :=
  commit s (Sys2Proof.Machine.blockLock p peerFec s)

/-- RING_PCFG_WRITE (R74). -/
def execRingPcfgWrite (p : Port) (value : Word) (s : State) : Host.Outcome State Fault Refusal :=
  commit s (hostWrite (portAddr p 0) value.toNat s)

/-- BEACON_RX (R159). -/
def execBeaconRx (s : State) : Host.Outcome State Fault Refusal :=
  commit s (Sys2Proof.Machine.beaconRx s)

/-- HOLDOVER_ENTRY (R154). -/
def execHoldoverEntry (s : State) : Host.Outcome State Fault Refusal :=
  commit s (Sys2Proof.Machine.holdoverEntry s)

/-- PDELAY_REQ_SEND (R160). -/
def execPdelayReqSend (p : Port) (t1 : Nat) (s : State) : Host.Outcome State Fault Refusal :=
  commit s (Sys2Proof.Machine.pdelayReqSend p t1 s)

/-- PDELAY_REQ_RX (R160). -/
def execPdelayReqRx (t3 : Nat) (s : State) : Host.Outcome State Fault Refusal :=
  commit s (Sys2Proof.Machine.pdelayReqRx t3 s)

/-- PDELAY_RSP_RX (R161). -/
def execPdelayRspRx (s : State) : Host.Outcome State Fault Refusal :=
  commit s (Sys2Proof.Machine.pdelayRspRx s)

/-- PDELAY_RSP_TIMEOUT (R160). -/
def execPdelayRspTimeout (p : Port) (s : State) : Host.Outcome State Fault Refusal :=
  commit s (Sys2Proof.Machine.pdelayRspTimeout p s)

/-- ACK_RX (R132). -/
def execAckRx (s : State) : Host.Outcome State Fault Refusal :=
  commit s (Sys2Proof.Machine.ackRx s)

/-- ACK_TIMER (R132). -/
def execAckTimer (src : Fin 256) (cls : Fin 5) (s : State) : Host.Outcome State Fault Refusal :=
  commit s (Sys2Proof.Machine.ackTimer src.val cls.val s)

/-- REPLAY_NO_ADVANCE (R133). -/
def execReplayNoAdvance (dst : Fin 256) (cls : Fin 5) (s : State) : Host.Outcome State Fault Refusal :=
  commit s (Sys2Proof.Machine.replayNoAdvance dst.val cls.val s)

/-- GAP_TIMEOUT (R136). -/
def execGapTimeout (src : Fin 256) (cls : Fin 5) (group : Option (Fin 256)) (s : State) : Host.Outcome State Fault Refusal :=
  commit s (Sys2Proof.Machine.gapTimeout src.val cls.val (group.map (·.val)) s)

/-- WRAP_NOTICE_RX (R133). -/
def execWrapNoticeRx (s : State) : Host.Outcome State Fault Refusal :=
  commit s (Sys2Proof.Machine.wrapNoticeRx s)

/-- SPAN_REPORT_RX (R92). -/
def execSpanReportRx (s : State) : Host.Outcome State Fault Refusal :=
  commit s (Sys2Proof.Machine.spanReportRx s)

/-- LIGHT_RX (R90). -/
def execLightRx (s : State) : Host.Outcome State Fault Refusal :=
  commit s (Sys2Proof.Machine.lightRx s)

/-- LIGHT_SEND (R90). -/
def execLightSend (s : State) : Host.Outcome State Fault Refusal :=
  commit s (Sys2Proof.Machine.lightSend s)

/-- JOIN_SEND (R85). -/
def execJoinSend (s : State) : Host.Outcome State Fault Refusal :=
  commit s (Sys2Proof.Machine.joinSend s)

/-- JOIN_RX (R86). -/
def execJoinRx (s : State) : Host.Outcome State Fault Refusal :=
  commit s (Sys2Proof.Machine.joinRx s)

/-- ASSIGN_RX (R87). -/
def execAssignRx (s : State) : Host.Outcome State Fault Refusal :=
  commit s (Sys2Proof.Machine.assignRx s)

/-- ASSIGN_WAIT_TIMEOUT (R96). -/
def execAssignWaitTimeout (s : State) : Host.Outcome State Fault Refusal :=
  commit s (Sys2Proof.Machine.assignWaitTimeout s)

/-- UNPLANNED_REMOVAL (R92). -/
def execUnplannedRemoval (node : Fin 256) (s : State) : Host.Outcome State Fault Refusal :=
  commit s (Sys2Proof.Machine.unplannedRemoval node.val s)

/-- UNWRAP_HOLDOFF_ELAPSE (R138). -/
def execUnwrapHoldoffElapse (p : Port) (s : State) : Host.Outcome State Fault Refusal :=
  commit s (Sys2Proof.Machine.unwrapHoldoffElapse p s)

/-- UNWRAP_START (R139). -/
def execUnwrapStart (p : Port) (s : State) : Host.Outcome State Fault Refusal :=
  commit s (Sys2Proof.Machine.unwrapStart p s)

/-- DRAIN_RX (R139). -/
def execDrainRx (s : State) : Host.Outcome State Fault Refusal :=
  commit s (Sys2Proof.Machine.drainRx s)

/-- DRAIN_TIMEOUT (R140). -/
def execDrainTimeout (p : Port) (cls : Fin 5) (s : State) : Host.Outcome State Fault Refusal :=
  commit s (Sys2Proof.Machine.drainTimeout p cls.val s)

/-- MASTER_LOST (R143). -/
def execMasterLost (s : State) : Host.Outcome State Fault Refusal :=
  commit s (Sys2Proof.Machine.masterLost s)

/-- MASTER_TAKEOVER (R143). -/
def execMasterTakeover (s : State) : Host.Outcome State Fault Refusal :=
  commit s (Sys2Proof.Machine.masterTakeover s)

/-- MASTER_HAND_BACK (R145). -/
def execMasterHandBack (ready : Bool) (s : State) : Host.Outcome State Fault Refusal :=
  commit s (Sys2Proof.Machine.masterHandBack ready s)

/-- PROOF_FAIL (R146). -/
def execProofFail (s : State) : Host.Outcome State Fault Refusal :=
  commit s (Sys2Proof.Machine.proofFail s)

/-- BEACON_LOST (R147). -/
def execBeaconLost (s : State) : Host.Outcome State Fault Refusal :=
  commit s (Sys2Proof.Machine.beaconLost s)

/-- WAKE_RX (R378). -/
def execWakeRx (s : State) : Host.Outcome State Fault Refusal :=
  commit s (Sys2Proof.Machine.wakeRx s)

/-- PWR_WAKE_TX (R378). -/
def execPwrWakeTx (node : Byte) (s : State) : Host.Outcome State Fault Refusal :=
  commit s (hostWrite 0x20018 node.toNat s)

/-- SYNC_IN_EDGE (R166). -/
def execSyncInEdge (ringNs : Nat) (s : State) : Host.Outcome State Fault Refusal :=
  commit s (Sys2Proof.Machine.syncInEdge ringNs s)

/-- PPS_LOST (R166). -/
def execPpsLost (s : State) : Host.Outcome State Fault Refusal :=
  commit s (Sys2Proof.Machine.ppsLost s)

/-- SYNC_OUT_PULSE (R168). -/
def execSyncOutPulse (s : State) : Host.Outcome State Fault Refusal :=
  commit s (Sys2Proof.Machine.syncOutPulse s)

/-- TIME_SNAP_TAKE (R175). -/
def execTimeSnapTake (s : State) : Host.Outcome State Fault Refusal :=
  commit s (if barFree s then Sys2Proof.Machine.timeSnapTake s else s)

end Sys2Proof.Machine
end

