-- ==== Sys2Proof/Machine/Dispatch.lean ====
section
/-! DEFINITION. Which meaning each command has: one arm per command. -/

namespace Sys2Proof.Machine

open Sys2Proof

/-- The effect of one command on the hub, its queue of waiting commands apart. -/
def exec (i : Instr) (s : State) : Host.Outcome State Fault Refusal :=
  match i with
  | .nop c => Sys2Proof.Machine.execNop c s
  | .sessionOpen c nonce revMin revMax window resv1 lease resv2 => Sys2Proof.Machine.execSessionOpen c nonce revMin revMax window resv1 lease resv2 s
  | .sessionClose c => Sys2Proof.Machine.execSessionClose c s
  | .echo c data => Sys2Proof.Machine.execEcho c data s
  | .getReply c tag => Sys2Proof.Machine.execGetReply c tag s
  | .getState c => Sys2Proof.Machine.execGetState c s
  | .setEvents c mask => Sys2Proof.Machine.execSetEvents c mask s
  | .memRead c addr length => Sys2Proof.Machine.execMemRead c addr length s
  | .memWrite c addr group resv data => Sys2Proof.Machine.execMemWrite c addr group resv data s
  | .cfgStage c offset data => Sys2Proof.Machine.execCfgStage c offset data s
  | .cfgValidate c => Sys2Proof.Machine.execCfgValidate c s
  | .cfgActivate c => Sys2Proof.Machine.execCfgActivate c s
  | .cfgStatus c => Sys2Proof.Machine.execCfgStatus c s
  | .cfgRead c slot sect resv offset length => Sys2Proof.Machine.execCfgRead c slot sect resv offset length s
  | .chEnable c => Sys2Proof.Machine.execChEnable c s
  | .chDisable c mode => Sys2Proof.Machine.execChDisable c mode s
  | .chReset c => Sys2Proof.Machine.execChReset c s
  | .chRateDetect c timeoutMs => Sys2Proof.Machine.execChRateDetect c timeoutMs s
  | .chSend c release length data => Sys2Proof.Machine.execChSend c release length data s
  | .chReceive c maxItems => Sys2Proof.Machine.execChReceive c maxItems s
  | .chRelease c => Sys2Proof.Machine.execChRelease c s
  | .chStatus c => Sys2Proof.Machine.execChStatus c s
  | .sigWrite c first count resv entries => Sys2Proof.Machine.execSigWrite c first count resv entries s
  | .sigRead c first count resv cycle => Sys2Proof.Machine.execSigRead c first count resv cycle s
  | .mapChange c first count resv rules => Sys2Proof.Machine.execMapChange c first count resv rules s
  | .mapStatus c => Sys2Proof.Machine.execMapStatus c s
  | .subAdd c node resv count remote loc => Sys2Proof.Machine.execSubAdd c node resv count remote loc s
  | .subRemove c node resv1 resv2 loc => Sys2Proof.Machine.execSubRemove c node resv1 resv2 loc s
  | .txMbRead c slave func addr qty => Sys2Proof.Machine.execTxMbRead c slave func addr qty s
  | .txMbWrite c slave func addr qty data => Sys2Proof.Machine.execTxMbWrite c slave func addr qty data s
  | .txMbRw c slave resv rAddr rQty wAddr wQty data => Sys2Proof.Machine.execTxMbRw c slave resv rAddr rQty wAddr wQty data s
  | .txIolRead c index subindex resv => Sys2Proof.Machine.execTxIolRead c index subindex resv s
  | .txIolWrite c index subindex resv data => Sys2Proof.Machine.execTxIolWrite c index subindex resv data s
  | .txCanReq c timeoutMs resv respId respMask frame => Sys2Proof.Machine.execTxCanReq c timeoutMs resv respId respMask frame s
  | .txPop c count => Sys2Proof.Machine.execTxPop c count s
  | .txPush c words => Sys2Proof.Machine.execTxPush c words s
  | .txReRead c first count => Sys2Proof.Machine.execTxReRead c first count s
  | .txLock c holdMs => Sys2Proof.Machine.execTxLock c holdMs s
  | .txUnlock c => Sys2Proof.Machine.execTxUnlock c s
  | .leHalt c => Sys2Proof.Machine.execLeHalt c s
  | .leLoad c first count entries => Sys2Proof.Machine.execLeLoad c first count entries s
  | .leRestart c flags => Sys2Proof.Machine.execLeRestart c flags s
  | .leGroupStart c mask startTick => Sys2Proof.Machine.execLeGroupStart c mask startTick s
  | .leStatus c => Sys2Proof.Machine.execLeStatus c s
  | .dlWrite c value mask => Sys2Proof.Machine.execDlWrite c value mask s
  | .dlRead c => Sys2Proof.Machine.execDlRead c s
  | .outSet c on => Sys2Proof.Machine.execOutSet c on s
  | .outClear c => Sys2Proof.Machine.execOutClear c s
  | .outStatus c => Sys2Proof.Machine.execOutStatus c s
  | .plSet c level => Sys2Proof.Machine.execPlSet c level s
  | .sleepEnter c level => Sys2Proof.Machine.execSleepEnter c level s
  | .pwrStatus c => Sys2Proof.Machine.execPwrStatus c s
  | .timeGet c => Sys2Proof.Machine.execTimeGet c s
  | .syncOutSet c first period width => Sys2Proof.Machine.execSyncOutSet c first period width s
  | .stampRead c maxEntries => Sys2Proof.Machine.execStampRead c maxEntries s
  | .peerDelayGet c => Sys2Proof.Machine.execPeerDelayGet c s
  | .fltRead c first count => Sys2Proof.Machine.execFltRead c first count s
  | .fltClear c source => Sys2Proof.Machine.execFltClear c source s
  | .fltInject c source => Sys2Proof.Machine.execFltInject c source s
  | .fltReactSet c source mask => Sys2Proof.Machine.execFltReactSet c source mask s
  | .updBlock c component resv1 resv2 offset data => Sys2Proof.Machine.execUpdBlock c component resv1 resv2 offset data s
  | .updCommit c component => Sys2Proof.Machine.execUpdCommit c component s
  | .updConfirm c component => Sys2Proof.Machine.execUpdConfirm c component s
  | .updAbort c => Sys2Proof.Machine.execUpdAbort c s
  | .updStatus c => Sys2Proof.Machine.execUpdStatus c s
  | .idRead c => Sys2Proof.Machine.execIdRead c s
  | .tagRead c record => Sys2Proof.Machine.execTagRead c record s
  | .tagWrite c record resv content => Sys2Proof.Machine.execTagWrite c record resv content s
  | .tagLock c record => Sys2Proof.Machine.execTagLock c record s
  | .ringStatus c => Sys2Proof.Machine.execRingStatus c s
  | .lightListRead c => Sys2Proof.Machine.execLightListRead c s
  | .spanAdmin c up => Sys2Proof.Machine.execSpanAdmin c up s
  | .ringBackupSet c node => Sys2Proof.Machine.execRingBackupSet c node s
  | .proofTakeover c cycles => Sys2Proof.Machine.execProofTakeover c cycles s
  | .unwrapHoldoffSet c ms => Sys2Proof.Machine.execUnwrapHoldoffSet c ms s
  | .effectiveCycleApply => Sys2Proof.Machine.execEffectiveCycleApply s
  | .multipartTimeout session => Sys2Proof.Machine.execMultipartTimeout session s
  | .sessionLeaseLapse session => Sys2Proof.Machine.execSessionLeaseLapse session s
  | .suspendedSessionFree session => Sys2Proof.Machine.execSuspendedSessionFree session s
  | .cmdqSqTailWrite value => Sys2Proof.Machine.execCmdqSqTailWrite value s
  | .cmdqCqHeadWrite value => Sys2Proof.Machine.execCmdqCqHeadWrite value s
  | .cmdqRingCfgWrite value => Sys2Proof.Machine.execCmdqRingCfgWrite value s
  | .submissionFetch bytes => Sys2Proof.Machine.execSubmissionFetch bytes s
  | .completionWrite => Sys2Proof.Machine.execCompletionWrite s
  | .mntPointerWrite pointer => Sys2Proof.Machine.execMntPointerWrite pointer s
  | .packetIn bytes repeatedStart => Sys2Proof.Machine.execPacketIn bytes repeatedStart s
  | .outAck seq => Sys2Proof.Machine.execOutAck seq s
  | .inClear value => Sys2Proof.Machine.execInClear value s
  | .i2cAddressMatch addr => Sys2Proof.Machine.execI2cAddressMatch addr s
  | .csrWrite requester bar offset size value => Sys2Proof.Machine.execCsrWrite requester bar offset size value s
  | .rxPop ch size => Sys2Proof.Machine.execRxPop ch size s
  | .windowTxPush ch word => Sys2Proof.Machine.execWindowTxPush ch word s
  | .enginePop eng size => Sys2Proof.Machine.execEnginePop eng size s
  | .enginePush eng word => Sys2Proof.Machine.execEnginePush eng word s
  | .canObjectHeadRead ch obj => Sys2Proof.Machine.execCanObjectHeadRead ch obj s
  | .canObjectEndRead ch obj => Sys2Proof.Machine.execCanObjectEndRead ch obj s
  | .canLockTimeout ch obj => Sys2Proof.Machine.execCanLockTimeout ch obj s
  | .pciePushDrop => Sys2Proof.Machine.execPciePushDrop s
  | .windowPushTimeout session => Sys2Proof.Machine.execWindowPushTimeout session s
  | .lockExpiry ch => Sys2Proof.Machine.execLockExpiry ch s
  | .lockWaitTimeout ch => Sys2Proof.Machine.execLockWaitTimeout ch s
  | .rstCtlCold key kind index => Sys2Proof.Machine.execRstCtlCold key kind index s
  | .rstCtlWarm key kind index => Sys2Proof.Machine.execRstCtlWarm key kind index s
  | .rstCtlService key kind index => Sys2Proof.Machine.execRstCtlService key kind index s
  | .rstCtlBlock key kind index => Sys2Proof.Machine.execRstCtlBlock key kind index s
  | .commandResetAssert => Sys2Proof.Machine.execCommandResetAssert s
  | .rstRecClr => Sys2Proof.Machine.execRstRecClr s
  | .rstRecModeWrite mode => Sys2Proof.Machine.execRstRecModeWrite mode s
  | .powerOn backupEmpty => Sys2Proof.Machine.execPowerOn backupEmpty s
  | .brownOut mv us => Sys2Proof.Machine.execBrownOut mv us s
  | .vinOvervoltage mv us => Sys2Proof.Machine.execVinOvervoltage mv us s
  | .vinStageOn mv fetDeciC => Sys2Proof.Machine.execVinStageOn mv fetDeciC s
  | .vinStageLimit entering => Sys2Proof.Machine.execVinStageLimit entering s
  | .vinTrip fetDeciC => Sys2Proof.Machine.execVinTrip fetDeciC s
  | .pwrgdRise => Sys2Proof.Machine.execPwrgdRise s
  | .pwrgdFall rails => Sys2Proof.Machine.execPwrgdFall rails s
  | .thermal junctionDeciC us => Sys2Proof.Machine.execThermal junctionDeciC us s
  | .porstN lowNs => Sys2Proof.Machine.execPorstN lowNs s
  | .wrstN lowNs => Sys2Proof.Machine.execWrstN lowNs s
  | .watchdog unservicedUs => Sys2Proof.Machine.execWatchdog unservicedUs s
  | .critical source => Sys2Proof.Machine.execCritical source s
  | .resetRelease cause => Sys2Proof.Machine.execResetRelease cause s
  | .resetEnd => Sys2Proof.Machine.execResetEnd s
  | .bootStep verified => Sys2Proof.Machine.execBootStep verified s
  | .spanAllowanceExpiry p => Sys2Proof.Machine.execSpanAllowanceExpiry p s
  | .bootBeaconTimeout => Sys2Proof.Machine.execBootBeaconTimeout s
  | .firstCycle => Sys2Proof.Machine.execFirstCycle s
  | .cycleBoundary => Sys2Proof.Machine.execCycleBoundary s
  | .publish => Sys2Proof.Machine.execPublish s
  | .remoteGather => Sys2Proof.Machine.execRemoteGather s
  | .packAndClose => Sys2Proof.Machine.execPackAndClose s
  | .mapOverrun stage firstUnfinished => Sys2Proof.Machine.execMapOverrun stage firstUnfinished s
  | .historyCopyDone => Sys2Proof.Machine.execHistoryCopyDone s
  | .outputRelease => Sys2Proof.Machine.execOutputRelease s
  | .mbRoundOpen ch => Sys2Proof.Machine.execMbRoundOpen ch s
  | .ringFrameRx p bytes rxTime part => Sys2Proof.Machine.execRingFrameRx p bytes rxTime part s
  | .outputFrameSend o txTime => Sys2Proof.Machine.execOutputFrameSend o txTime s
  | .cycFrameRx => Sys2Proof.Machine.execCycFrameRx s
  | .streamFrameRx cls => Sys2Proof.Machine.execStreamFrameRx cls s
  | .multicastReqRx => Sys2Proof.Machine.execMulticastReqRx s
  | .deliveryReportRx => Sys2Proof.Machine.execDeliveryReportRx s
  | .multicastRoundEnd item => Sys2Proof.Machine.execMulticastRoundEnd item s
  | .trainRx => Sys2Proof.Machine.execTrainRx s
  | .trainSend p => Sys2Proof.Machine.execTrainSend p s
  | .trainingTimeout p => Sys2Proof.Machine.execTrainingTimeout p s
  | .fecLockTimeout p => Sys2Proof.Machine.execFecLockTimeout p s
  | .losRise p => Sys2Proof.Machine.execLosRise p s
  | .losFall p => Sys2Proof.Machine.execLosFall p s
  | .moduleInsert p page => Sys2Proof.Machine.execModuleInsert p page s
  | .txfltRise p => Sys2Proof.Machine.execTxfltRise p s
  | .txfltHoldEnd p => Sys2Proof.Machine.execTxfltHoldEnd p s
  | .cageSupplyTrip p => Sys2Proof.Machine.execCageSupplyTrip p s
  | .livenessLoss p => Sys2Proof.Machine.execLivenessLoss p s
  | .keepMarkerSend p => Sys2Proof.Machine.execKeepMarkerSend p s
  | .ringPcfgWrite p value => Sys2Proof.Machine.execRingPcfgWrite p value s
  | .beaconRx => Sys2Proof.Machine.execBeaconRx s
  | .holdoverEntry => Sys2Proof.Machine.execHoldoverEntry s
  | .pdelayReqSend p t1 => Sys2Proof.Machine.execPdelayReqSend p t1 s
  | .pdelayReqRx t3 => Sys2Proof.Machine.execPdelayReqRx t3 s
  | .pdelayRspRx => Sys2Proof.Machine.execPdelayRspRx s
  | .pdelayRspTimeout p => Sys2Proof.Machine.execPdelayRspTimeout p s
  | .ackRx => Sys2Proof.Machine.execAckRx s
  | .ackTimer src cls => Sys2Proof.Machine.execAckTimer src cls s
  | .replayNoAdvance dst cls => Sys2Proof.Machine.execReplayNoAdvance dst cls s
  | .gapTimeout src cls group => Sys2Proof.Machine.execGapTimeout src cls group s
  | .wrapNoticeRx => Sys2Proof.Machine.execWrapNoticeRx s
  | .spanReportRx => Sys2Proof.Machine.execSpanReportRx s
  | .lightRx => Sys2Proof.Machine.execLightRx s
  | .lightSend => Sys2Proof.Machine.execLightSend s
  | .joinSend => Sys2Proof.Machine.execJoinSend s
  | .joinRx => Sys2Proof.Machine.execJoinRx s
  | .assignRx => Sys2Proof.Machine.execAssignRx s
  | .assignWaitTimeout => Sys2Proof.Machine.execAssignWaitTimeout s
  | .unplannedRemoval node => Sys2Proof.Machine.execUnplannedRemoval node s
  | .unwrapHoldoffElapse p => Sys2Proof.Machine.execUnwrapHoldoffElapse p s
  | .unwrapStart p => Sys2Proof.Machine.execUnwrapStart p s
  | .drainRx => Sys2Proof.Machine.execDrainRx s
  | .drainTimeout p cls => Sys2Proof.Machine.execDrainTimeout p cls s
  | .masterLost => Sys2Proof.Machine.execMasterLost s
  | .masterTakeover => Sys2Proof.Machine.execMasterTakeover s
  | .masterHandBack ready => Sys2Proof.Machine.execMasterHandBack ready s
  | .proofFail => Sys2Proof.Machine.execProofFail s
  | .beaconLost => Sys2Proof.Machine.execBeaconLost s
  | .wakeRx => Sys2Proof.Machine.execWakeRx s
  | .pwrWakeTx node => Sys2Proof.Machine.execPwrWakeTx node s
  | .syncInEdge ringNs => Sys2Proof.Machine.execSyncInEdge ringNs s
  | .ppsLost => Sys2Proof.Machine.execPpsLost s
  | .syncOutPulse => Sys2Proof.Machine.execSyncOutPulse s
  | .timeSnapTake => Sys2Proof.Machine.execTimeSnapTake s
  | .chnCtlEnable ch value => Sys2Proof.Machine.execChnCtlEnable ch value s
  | .chnCtlDrain ch value => Sys2Proof.Machine.execChnCtlDrain ch value s
  | .chnCtlAbort ch value => Sys2Proof.Machine.execChnCtlAbort ch value s
  | .chnCtlReset ch value => Sys2Proof.Machine.execChnCtlReset ch value s
  | .channelJoin ch => Sys2Proof.Machine.execChannelJoin ch s
  | .channelResetEnd ch => Sys2Proof.Machine.execChannelResetEnd ch s
  | .drainComplete ch => Sys2Proof.Machine.execDrainComplete ch s
  | .txItemComplete ch leaveNs => Sys2Proof.Machine.execTxItemComplete ch leaveNs s
  | .tatRelease ch => Sys2Proof.Machine.execTatRelease ch s
  | .statusReportWrite ch => Sys2Proof.Machine.execStatusReportWrite ch s
  | .producerWriteResume ch => Sys2Proof.Machine.execProducerWriteResume ch s
  | .serialRateConfirm ch rate => Sys2Proof.Machine.execSerialRateConfirm ch rate s
  | .rateDetectTimeout ch => Sys2Proof.Machine.execRateDetectTimeout ch s
  | .canRateConfirm ch nominal dataRate => Sys2Proof.Machine.execCanRateConfirm ch nominal dataRate s
  | .serialFrameRx ch bytes ticks idle fault => Sys2Proof.Machine.execSerialFrameRx ch bytes ticks idle fault s
  | .canFrameRx ch record stamp => Sys2Proof.Machine.execCanFrameRx ch record stamp s
  | .canAttemptEnd ch how => Sys2Proof.Machine.execCanAttemptEnd ch how s
  | .busOffRecovery ch => Sys2Proof.Machine.execBusOffRecovery ch s
  | .onceWindowEnd ch => Sys2Proof.Machine.execOnceWindowEnd ch s
  | .canReqTimeout ch => Sys2Proof.Machine.execCanReqTimeout ch s
  | .mbRequestStart ch => Sys2Proof.Machine.execMbRequestStart ch s
  | .mbReplyRx ch bytes gapOver15 stamp => Sys2Proof.Machine.execMbReplyRx ch bytes gapOver15 stamp s
  | .mbResponseTimeout ch => Sys2Proof.Machine.execMbResponseTimeout ch s
  | .mbBroadcastEnd ch => Sys2Proof.Machine.execMbBroadcastEnd ch s
  | .iolPowerGood ch => Sys2Proof.Machine.execIolPowerGood ch s
  | .iolPowerLost ch => Sys2Proof.Machine.execIolPowerLost ch s
  | .iolWakeUp ch => Sys2Proof.Machine.execIolWakeUp ch s
  | .iolComTryEnd ch replied => Sys2Proof.Machine.execIolComTryEnd ch replied s
  | .iolStartupDone ch page => Sys2Proof.Machine.execIolStartupDone ch page s
  | .iolMSequence ch how => Sys2Proof.Machine.execIolMSequence ch how s
  | .isduComplete ch how => Sys2Proof.Machine.execIsduComplete ch how s
  | .isduTimeout ch => Sys2Proof.Machine.execIsduTimeout ch s
  | .iolDeviceEvent ch events stamp => Sys2Proof.Machine.execIolDeviceEvent ch events stamp s
  | .iolDiEdge ch ballB level stamp => Sys2Proof.Machine.execIolDiEdge ch ballB level stamp s
  | .iolDqOverload ch => Sys2Proof.Machine.execIolDqOverload ch s
  | .discreteEdge line level stampTick heldNs => Sys2Proof.Machine.execDiscreteEdge line level stampTick heldNs s
  | .dlLineTrip line loadMa us fetC => Sys2Proof.Machine.execDlLineTrip line loadMa us fetC s
  | .dlLineTripClear bank mask => Sys2Proof.Machine.execDlLineTripClear bank mask s
  | .dlBankTrip bank sumMa us => Sys2Proof.Machine.execDlBankTrip bank sumMa us s
  | .dlBankTripClear bank => Sys2Proof.Machine.execDlBankTripClear bank s
  | .dlBankUv bank low => Sys2Proof.Machine.execDlBankUv bank low s
  | .engineStart eng => Sys2Proof.Machine.execEngineStart eng s
  | .engineStep eng ns => Sys2Proof.Machine.execEngineStep eng ns s
  | .leCtlHalt eng value => Sys2Proof.Machine.execLeCtlHalt eng value s
  | .leCtlRestart eng value => Sys2Proof.Machine.execLeCtlRestart eng value s
  | .leCtlReset eng value => Sys2Proof.Machine.execLeCtlReset eng value s
  | .scrubStep contentGood => Sys2Proof.Machine.execScrubStep contentGood s
  | .imageVerify image contentGood => Sys2Proof.Machine.execImageVerify image contentGood s
  | .outletStartOk o => Sys2Proof.Machine.execOutletStartOk o s
  | .outletOvercurrent o ma => Sys2Proof.Machine.execOutletOvercurrent o ma s
  | .tFltExpiry o => Sys2Proof.Machine.execTFltExpiry o s
  | .tStartExpiry o => Sys2Proof.Machine.execTStartExpiry o s
  | .outletTempTrip o deciC => Sys2Proof.Machine.execOutletTempTrip o deciC s
  | .cooldownEnd o => Sys2Proof.Machine.execCooldownEnd o s
  | .tForgiveExpiry o => Sys2Proof.Machine.execTForgiveExpiry o s
  | .vfbUv bank mv => Sys2Proof.Machine.execVfbUv bank mv s
  | .junctionTempHigh deciC => Sys2Proof.Machine.execJunctionTempHigh deciC s
  | .plTransitionStep step => Sys2Proof.Machine.execPlTransitionStep step s
  | .sleepEntry => Sys2Proof.Machine.execSleepEntry s
  | .sleepPortsDown => Sys2Proof.Machine.execSleepPortsDown s
  | .wakeSequenceEnd spanUp verifyOk => Sys2Proof.Machine.execWakeSequenceEnd spanUp verifyOk s
  | .pwrVinStatClr => Sys2Proof.Machine.execPwrVinStatClr s
  | .injectedDetection source => Sys2Proof.Machine.execInjectedDetection source s
  | .faultLogCommit => Sys2Proof.Machine.execFaultLogCommit s
  | .fltFfClear group => Sys2Proof.Machine.execFltFfClear group s
  | .mapCfClear => Sys2Proof.Machine.execMapCfClear s
  | .trialExpiry => Sys2Proof.Machine.execTrialExpiry s
  | .ownerLapse => Sys2Proof.Machine.execOwnerLapse s
  | .componentStart => Sys2Proof.Machine.execComponentStart s
  | .tagWordWrite offset value => Sys2Proof.Machine.execTagWordWrite offset value s
  | .blockLock p peerFec => Sys2Proof.Machine.execBlockLock p peerFec s
  | .moduleRemove p => Sys2Proof.Machine.execModuleRemove p s
  | .keepMarkerRx p node spanState rev missed => Sys2Proof.Machine.execKeepMarkerRx p node spanState rev missed s
  | .clampEvent ch ns => Sys2Proof.Machine.execClampEvent ch ns s
  | .lineGlitch line heldNs => Sys2Proof.Machine.execLineGlitch line heldNs s
  | .canReceiveError ch kind dataPhase eights => Sys2Proof.Machine.execCanReceiveError ch kind dataPhase eights s
  | .rcRegisterRead requester bar offset size => Sys2Proof.Machine.execRcRegisterRead requester bar offset size s
  | .brsWaitExpiry ch => Sys2Proof.Machine.execBrsWaitExpiry ch s

end Sys2Proof.Machine
end

