-- ==== Sys2Proof/Machine/Tick.lean ====
section
/-! DEFINITION. The passing of one tick: the clocks, what the spec times without a row of the table, and the memory errors that are
corrected unseen. -/

namespace Sys2Proof.Machine

open Sys2Proof

/-- One own tick of 500 ns passes: the hub's own counter rises (R364), and ring time runs on where the hub holds it (R151, R466). -/
def clockTick (s : State) : State :=
  modTime (fun t => let t := { t with up := t.up + 1 }; if t.holds || t.shadow then ringTick t else t) s

/-- The BLOCK reset of a port has lasted 1 ms (R387): an enabled port is DOWN again. -/
def portBlockEnd (p : Port) (s : State) : State :=
  match (portSt s p).blockUntil with
  | some t =>
    if t ≤ s.time.up then
      let s := modPort p (fun q => { q with blockUntil := none }) s
      if (portSt s p).span = .adminDown ∧ bit (pcfg s p) 0 then setSpan p .down s else s
    else s
  | none => s

/-- A port that is DOWN with a signal seeks lock (R72, R74). -/
def portTick (p : Port) (s : State) : State := startLock p (portBlockEnd p s)

/-- A CH_ENABLE whose channel has not joined within 1 ms is answered with join tick 0 (R187). -/
def enableWaitEnd (ch : Nat) (s : State) : State :=
  match (chan s ch).enabling with
  | some (se, tag, up) =>
    if since up s ≥ 2000 then complete se tag .ok (leBytes 8 0) (modChan ch (fun c => { c with enabling := none }) s) else s
  | none => s

/-- Errors that a memory or a decoder corrected in this tick are counted: how many is no matter of the commands, a free value (log
entry 63). -/
def corrected (addr : Nat) (s : State) : State := let d := draw s; bumpBy addr d.1 d.2

/-- Corrected link words (R102, R191), table words (R342) and, with RS-FEC, codewords (R99). -/
def correctedAll (s : State) : State :=
  let s := corrected 0x60438 s
  let s := forEach (s.chans.map (·.1)) (fun ch s => corrected (chnAddr ch 0xB0) s) s
  let s := forEach (s.engines.map (·.1)) (fun e s => corrected (leAddr e 0x90) s) s
  [Port.east, Port.west].foldl (fun s p =>
    if (portSt s p).fecOn && ((portSt s p).span == .up || trains (portSt s p).span) then
      corrected (portAddr p 0x44) (corrected (portAddr p 0x40) s) else s) s

/-- A tick passes. -/
def tickPasses (s : State) : State :=
  let t := portTick .west (portTick .east (railsTick (clockTick s)))
  let t := forEach (s.chans.map (·.1)) (fun ch s => onField (lineTick ch) (enableWaitEnd ch s)) t
  let t := forEach (t.engines.map (·.1)) stallTicks t
  { settle (correctedAll t) with pending := s.pending }

end Sys2Proof.Machine
end

