-- ==== Sys2Proof/Machine/Order.lean ====
section
/-! DEFINITION. The order of the events of one tick (R170): which class a row belongs to, and its place within the class. -/

namespace Sys2Proof.Machine

open Sys2Proof

/-- EAST comes before WEST (R170). -/
def portRank : Port → Nat
  | .east => 0
  | .west => 1

/-- Place of a host command (R170, class 7): its session, then its tag from the session's expected tag on. -/
def commandKey (s : State) (c : Ctx) : List Nat :=
  let next : Tag := match sess s c.session.val with | some x => x.expected | none => 0
  [7, c.session.val, (c.tag - next).toNat]

/-- Class and place of a row among the events of one tick (R170): the class first, then what the class orders by. A register write of the
local host stands behind the sessions (R306). None: a row of no class, which follows from another or acts on nothing that the order
decides (log entry 1). -/
def eventKey (s : State) : Instr → Option (List Nat)
  -- ahead of every event of the tick (R339)
  | .engineStart _ => some [0]
  -- class 1: power and reset, assertions by reach, then releases, outlets, lines, banks
  | .powerOn .. | .brownOut .. | .vinOvervoltage .. | .vinStageOn .. | .vinStageLimit .. | .vinTrip .. | .pwrgdRise | .pwrgdFall .. | .porstN ..
    => some [1, 0]
  | .wrstN .. | .watchdog .. | .critical .. => some [1, 1]
  | .commandResetAssert => some [1, 2]
  | .resetRelease .. | .resetEnd | .channelResetEnd .. => some [1, 4]
  | .outletStartOk o | .outletOvercurrent o _ | .tFltExpiry o | .tStartExpiry o | .outletTempTrip o _ | .cooldownEnd o | .tForgiveExpiry o
    => some [1, 5, o.val]
  | .dlLineTrip l .. => some [1, 6, l.val]
  | .dlBankTrip b .. | .dlBankUv b _ => some [1, 7, b.val]
  | .vfbUv b _ => some [1, 7, 2 * b.val]
  | .junctionTempHigh .. | .thermal .. | .plTransitionStep .. => some [1, 8]
  -- class 2: fault detections, real before injected
  | .mapOverrun .. | .scrubStep .. | .imageVerify .. | .clampEvent .. => some [2, 0]
  | .injectedDetection src => some [2, 1, src.toNat]
  -- class 3: ring control and time, per port state changes before frames
  | .losRise p | .losFall p | .moduleInsert p _ | .moduleRemove p | .txfltRise p | .cageSupplyTrip p | .livenessLoss p | .blockLock p _
    | .keepMarkerRx p .. | .unwrapStart p => some [3, portRank p, 0]
  | .ringFrameRx p .. => some [3, portRank p, 1]
  | .trainRx | .beaconRx | .pdelayReqRx .. | .pdelayRspRx | .ackRx | .wrapNoticeRx | .spanReportRx | .lightRx | .joinRx | .assignRx | .wakeRx
    | .drainRx | .multicastReqRx | .deliveryReportRx | .firstCycle | .cycleBoundary | .syncInEdge .. => some [3, 2]
  -- class 4: discrete lines
  | .discreteEdge l .. => some [4, l.val]
  -- class 5: channel receive completions
  | .serialFrameRx ch .. | .canFrameRx ch .. | .canReceiveError ch .. | .mbReplyRx ch .. | .iolMSequence ch _ | .isduComplete ch _
    | .iolDeviceEvent ch .. | .iolDiEdge ch .. | .iolStartupDone ch _ | .iolComTryEnd ch _ => some [5, ch.val]
  -- class 6: remote CYC arrivals
  | .cycFrameRx | .remoteGather => some [6]
  -- class 7: host commands, and at T_k those held for it
  | .effectiveCycleApply => some [7, 0]
  | .nop c | .sessionOpen c .. | .sessionClose c | .echo c _ | .getReply c _ | .getState c | .setEvents c _ | .memRead c .. | .memWrite c ..
    | .cfgStage c .. | .cfgValidate c | .cfgActivate c | .cfgStatus c | .cfgRead c .. | .chEnable c | .chDisable c _ | .chReset c
    | .chRateDetect c _ | .chSend c .. | .chReceive c _ | .chRelease c | .chStatus c | .sigWrite c .. | .sigRead c .. | .mapChange c ..
    | .mapStatus c | .subAdd c .. | .subRemove c .. | .txMbRead c .. | .txMbWrite c .. | .txMbRw c .. | .txIolRead c .. | .txIolWrite c ..
    | .txCanReq c .. | .txPop c _ | .txPush c _ | .txReRead c .. | .txLock c _ | .txUnlock c | .leHalt c | .leLoad c .. | .leRestart c _
    | .leGroupStart c .. | .leStatus c | .dlWrite c .. | .dlRead c | .outSet c _ | .outClear c | .outStatus c | .plSet c _ | .sleepEnter c _
    | .pwrStatus c | .timeGet c | .syncOutSet c .. | .stampRead c _ | .peerDelayGet c | .fltRead c .. | .fltClear c _ | .fltInject c _
    | .fltReactSet c .. | .updBlock c .. | .updCommit c _ | .updConfirm c _ | .updAbort c | .updStatus c | .idRead c | .tagRead c _
    | .tagWrite c .. | .tagLock c _ | .ringStatus c | .lightListRead c | .spanAdmin c _ | .ringBackupSet c _ | .proofTakeover c _
    | .unwrapHoldoffSet c _ => some (commandKey s c)
  | .csrWrite .. | .rcRegisterRead .. | .rxPop .. | .windowTxPush .. | .enginePop .. | .enginePush .. | .canObjectHeadRead ..
    | .canObjectEndRead .. | .chnCtlEnable .. | .chnCtlDrain .. | .chnCtlAbort .. | .chnCtlReset .. | .leCtlHalt .. | .leCtlRestart ..
    | .leCtlReset .. | .dlLineTripClear .. | .dlBankTripClear .. | .rstCtlCold .. | .rstCtlWarm .. | .rstCtlService .. | .rstCtlBlock ..
    | .rstRecClr | .rstRecModeWrite .. | .cmdqSqTailWrite .. | .cmdqCqHeadWrite .. | .cmdqRingCfgWrite .. | .ringPcfgWrite .. | .pwrWakeTx ..
    | .timeSnapTake | .pwrVinStatClr | .fltFfClear .. | .mapCfClear | .tagWordWrite .. => some [7, 256]
  -- class 8: timers of channels, of transactions, of the ring, and leases
  | .canLockTimeout ch _ | .rateDetectTimeout ch | .brsWaitExpiry ch | .busOffRecovery ch | .onceWindowEnd ch | .mbResponseTimeout ch
    | .mbBroadcastEnd ch | .isduTimeout ch | .iolPowerGood ch | .channelJoin ch | .tatRelease ch => some [8, 0, ch.val]
  | .canReqTimeout ch | .lockExpiry ch | .lockWaitTimeout ch => some [8, 1, ch.val]
  | .multipartTimeout n | .windowPushTimeout n => some [8, 1, n.val]
  | .pciePushDrop => some [8, 1, 256]
  | .trainingTimeout .. | .fecLockTimeout .. | .txfltHoldEnd .. | .pdelayRspTimeout .. | .ackTimer .. | .replayNoAdvance .. | .gapTimeout ..
    | .assignWaitTimeout | .unplannedRemoval .. | .unwrapHoldoffElapse .. | .drainTimeout .. | .masterLost | .masterTakeover | .masterHandBack ..
    | .proofFail | .beaconLost | .bootBeaconTimeout | .spanAllowanceExpiry .. | .ppsLost | .holdoverEntry | .joinSend | .lightSend
    | .trainSend .. | .keepMarkerSend .. | .pdelayReqSend .. | .multicastRoundEnd .. => some [8, 2]
  | .sessionLeaseLapse n | .suspendedSessionFree n => some [8, 3, n.val]
  -- no class
  | .submissionFetch .. | .completionWrite | .mntPointerWrite .. | .packetIn .. | .outAck .. | .inClear .. | .i2cAddressMatch .. | .bootStep ..
    | .publish | .packAndClose | .historyCopyDone | .outputRelease | .mbRoundOpen .. | .outputFrameSend .. | .streamFrameRx .. | .syncOutPulse
    | .drainComplete .. | .txItemComplete .. | .statusReportWrite .. | .producerWriteResume .. | .serialRateConfirm .. | .canRateConfirm ..
    | .canAttemptEnd .. | .mbRequestStart .. | .iolPowerLost .. | .iolWakeUp .. | .iolDqOverload .. | .engineStep ..
    | .sleepEntry | .sleepPortsDown | .wakeSequenceEnd .. | .faultLogCommit | .trialExpiry | .ownerLapse | .componentStart | .lineGlitch .. => none

/-- Keys in lexicographic order; of equal ones either may come first. -/
def keyLe : List Nat → List Nat → Bool
  | [], _ => true
  | _ :: _, [] => false
  | a :: x, b :: y => decide (a < b) || (a == b && keyLe x y)

/-- Whether the rows of one tick stand in the order of R170. A sender's queue does; the model takes it as it stands (log entry 1). -/
def tickOrdered (s : State) (q : List Instr) : Bool :=
  let ks := q.filterMap (eventKey s)
  (ks.zip (ks.drop 1)).all (fun p => keyLe p.1 p.2)

end Sys2Proof.Machine
end

