-- ==== Sys2Proof/Safety.lean ====
section
/-! DEFINITION. The terms in which claims speak: how a command's own effect is followed by what waited, what a host command needs to
be accepted (R38), how it is answered (R41), what the command transport leaves alone, and what holds after every step. -/

namespace Sys2Proof.Machine

open Sys2Proof

/-! ## The outcome of a command -/

/-- The command itself took `s` to `u`; then what waited went on (held pushes, commands that may start, replies and events), and the
queue of waiting commands stayed as it was. -/
def goOn (s u : State) : State := { settle u with pending := s.pending }

/-- The command answers a next state, and its own effect leaves `u` with `p u`. -/
def EffectIs (o : Host.Outcome State Fault Refusal) (s : State) (p : State → Prop) : Prop := ∃ u, o = .next (goOn s u) ∧ p u

/-! ## What the command transport leaves alone -/

/-- A register address outside the blocks RING and SWITCH, whose counters an outgoing frame moves (R26). -/
def offSwitch (a : Nat) : Bool := decide (a < 0x50000) || decide (0x70000 ≤ a)

/-- What of the command transport stays as it is when replies and events leave: sessions but for the events that wait, locks, and
multi-part commands being received. -/
def cmdView (c : CmdState) : CmdState :=
  { sessions := c.sessions.map (fun x => { x with events := [] }), locks := c.locks, partials := c.partials }

/-- The hub without the lists of its command transport, its switch core with the counters of RING and SWITCH, the queue of waiting
commands and the model's counter of free values: what a command acts on, and the sending of its reply leaves alone. -/
def hubView (s : State) : State :=
  { s with pending := [], cmd := cmdView s.cmd, sw := {}, fresh := 0
           csr := s.csr.filter (fun e => offSwitch e.1), totals := s.totals.filter (fun e => offSwitch e.1) }

/-! ## Host commands (R38 to R46) -/

/-- Nothing waits: no command in flight, no held write, no reset due. -/
def Idle (s : State) : Prop := s.cmd.inflight = [] ∧ s.cmd.heldPushes = [] ∧ s.cmd.pendingReset = none

/-- A single-part command passes the checks of R38: its path is served, its session is open on the path and has room, its tag is
the expected one, and the catalogue admits it. -/
def accepts (c : Ctx) (op : Nat) (params : List Byte) (s : State) : Bool :=
  serves s c.path && c.session.val != 0 &&
  match sess s c.session.val with
  | some se =>
    !se.suspended && se.path == c.path && c.tag == se.expected && !(s.cmd.partials.any (fun p => p.cmd.session == c.session.val))
      && decide (inFlightOf s c.session.val < se.window) && decide (inFlight s < 256) && decide (params.length ≤ maxParams)
      && c.part.toNat == 0 && !bit c.flags.toNat 4
      && (catalogueRefusal s.hub s.upd.recovery se.rev op c.flags.toNat c.target.toNat (c.effc.map (·.toNat)) params).isNone
  | none => false

/-- Revision of the command's session. -/
def revOf (c : Ctx) (s : State) : Nat := match sess s c.session.val with | some se => se.rev | none => 0

/-- The accepted command, waiting to start. -/
def taken (c : Ctx) (op : Nat) (params : List Byte) (s : State) : Cmd :=
  { path := c.path, session := c.session.val, tag := c.tag, opcode := op, flags := c.flags, target := c.target.toNat, effc := c.effc,
    params := params, tick := tickNow s, up := s.time.up, rev := revOf c s, phase := .waiting, repeats := 0, effected := false }

/-- The hub with the accepted command in flight: its tag is consumed (R38) and its session's lease begins anew (R52). -/
def takenIn (c : Ctx) (op : Nat) (params : List Byte) (s : State) : State :=
  modSession c.session.val (fun x => { x with lastUp := s.time.up, expected := x.expected + 1 })
    (modCmd (fun q => { q with inflight := q.inflight ++ [taken c op params s] }) s)

/-- LOCKED is not set, or the session holds the lock of its target (R47). -/
def lockFits (c : Ctx) (s : State) : Bool :=
  !bit c.flags.toNat 3 || (match lockedBy s c.target.toNat with | some l => l.session == c.session.val | none => false)

/-- No lock of another session stands at the target of the command (R309), and nothing waits there on one. -/
def noLock (c : Ctx) (s : State) : Prop :=
  (match lockedBy s c.target.toNat with | some l => l.session = c.session.val | none => True) ∧ (chan s c.target.toNat).lockWaits = []

/-- The command is complete: its reply is the newest of those retained (R41), and nothing of it is in flight. -/
def Answered (c : Ctx) (op : Nat) (st : Status) (results : List Byte) (t : State) : Prop :=
  t.cmd.inflight = [] ∧ ∃ r, t.cmd.retained.getLast? = some r
    ∧ r.session = c.session.val ∧ r.tag = c.tag ∧ r.opcode = op ∧ r.status = st ∧ r.results = results ∧ r.opening = false

/-- A host command completes with a status and results, and leaves the hub `u` but for the transport. -/
def Completes (o : Host.Outcome State Fault Refusal) (c : Ctx) (op : Nat) (st : Status) (results : List Byte) (u : State) : Prop :=
  ∃ t, o = .next t ∧ Answered c op st results t ∧ hubView t = hubView u

/-- Each host command of a kind, sent while nothing waits and accepted, with `good` of the hub that took it in, completes with the
status and results given, and leaves the hub as `eff` says. -/
def HostCompletes (i : Ctx → Instr) (op : Nat) (params : List Byte) (good : Ctx → State → Prop) (st : Status)
    (res : Ctx → State → List Byte) (eff : Ctx → State → State) : Prop :=
  ∀ c s, Idle s → c.effc = none → accepts c op params s = true → good c (takenIn c op params s) →
    Completes (exec (i c) s) c op st (res c (takenIn c op params s)) (eff c (takenIn c op params s))

/-- Each host command of a kind, sent while nothing waits and accepted, with `good` of the hub that took it in, completes with the
status and results given, in a hub of which `q` holds: `q` is told the hub that took the command in, and the hub after. -/
def HostLeads (i : Ctx → Instr) (op : Nat) (params : List Byte) (good : Ctx → State → Prop) (st : Status)
    (res : Ctx → State → List Byte) (q : Ctx → State → State → Prop) : Prop :=
  ∀ c s, Idle s → c.effc = none → accepts c op params s = true → good c (takenIn c op params s) →
    ∃ t, exec (i c) s = .next t ∧ Answered c op st (res c (takenIn c op params s)) t ∧ q c (takenIn c op params s) t

/-- The command itself does not travel the ring: no replay copy bears its session and tag, and no frame of this hub is coming back to be
removed. What is lost there is then another's. -/
def NotOnTheRing (c : Ctx) (u : State) : Prop :=
  (∀ x ∈ u.sw.replayCw ++ u.sw.replayCcw, ∀ op, packetOf x.frame.head ≠ some (c.session.val, c.tag, op))
  ∧ ∀ p a, (portSt u p).rx = some a → a.removed = false

/-- A host command has acted, or is on its way: it stands in flight, and the hub is `u` but for the transport. -/
def Stands (o : Host.Outcome State Fault Refusal) (c : Ctx) (op : Nat) (ph : Phase) (u : State) : Prop :=
  ∃ t x, o = .next t ∧ t.cmd.inflight = [x] ∧ x.session = c.session.val ∧ x.tag = c.tag ∧ x.opcode = op ∧ x.phase = ph
    ∧ hubView t = hubView u

/-- Each host command of a kind, sent while nothing waits and accepted, with `good` of the hub that took it in, goes as far as phase
`ph`, and leaves the hub as `eff` says. -/
def HostStands (i : Ctx → Instr) (op : Nat) (params : List Byte) (good : Ctx → State → Prop) (ph : Ctx → State → Phase)
    (eff : Ctx → State → State) : Prop :=
  ∀ c s, Idle s → c.effc = none → accepts c op params s = true → good c (takenIn c op params s) →
    Stands (exec (i c) s) c op (ph c (takenIn c op params s)) (eff c (takenIn c op params s))

/-- Every PENDING source of the table is cleared, one after another (R419). -/
def clearPending (s : State) : State :=
  sourceTable.foldl (fun s r => if (faultSrc s r.1).st = .pending then clearSource1 r.1 s else s) s

/-! ## Resets and trips -/

/-- What the assertion of reset source `c` does to the hub (R386 to R388, R53): the source holds the hub in reset, with the widest
reach; a reset that is wider than the one that runs resets channels and engines, and, but for SERVICE, the ring side, the fault
sources and the sessions, which stand suspended. The tag area stays, and the hub's own counter runs on. -/
def AssertedBy (c : Nat) (s u : State) : Prop :=
  u.reset_.asserted = s.reset_.asserted ++ [(c, s.time.up)] ∧ u.reset_.inReset = true
  ∧ u.hub = (if c = 1 ∨ c = 2 ∨ s.hub = .off then .off else .boot)
  ∧ u.time.up = s.time.up ∧ u.upd.tags = s.upd.tags ∧ u.upd.tagLocks = s.upd.tagLocks ∧ u.upd.ident = s.upd.ident
  ∧ (s.reset_.inReset = false ∨ reachNo (causeReach c) < reachNo s.reset_.reach →
      u.reset_.reach = causeReach c ∧ u.chans = [] ∧ u.engines = []
      ∧ (causeReach c ≠ .service → u.sw = {} ∧ u.master = { saved := s.master.saved } ∧ u.ring.light = none ∧ u.ring.node = 0 ∧ u.faults.sources = []
          ∧ u.cmd.inflight = [] ∧ ∀ se ∈ u.cmd.sessions, se.suspended = true)
      ∧ (causeReach c = .service → u.ring.light = s.ring.light ∧ u.ring.node = s.ring.node
          ∧ u.cmd.sessions.map (·.num) = s.cmd.sessions.map (·.num)))
  ∧ (s.reset_.inReset = true ∧ reachNo s.reset_.reach ≤ reachNo (causeReach c) → u.reset_.reach = s.reset_.reach ∧ u.chans = s.chans
      ∧ u.engines = s.engines ∧ u.sw = s.sw ∧ u.maps = s.maps)

/-- What a trip does to outlet `o` (R369): it is off, in COOLDOWN while retries are left, else LATCHED; USED stays, the trip is
counted, and no other outlet is touched. -/
def TripOf (o : Nat) (s u : State) : Prop :=
  (outlet u o).st = (if (outlet s o).used < outRetries s o then .cooldown else .latched) ∧ (outlet u o).used = (outlet s o).used
  ∧ (outlet u o).cmd = (outlet s o).cmd ∧ (outlet u o).sinceUp = s.time.up
  ∧ (outRetries s o ≤ (outlet s o).used → (outlet u o).latched = true)
  ∧ (∀ k, k ≠ o → outlet u k = outlet s k) ∧ u.chans = s.chans ∧ u.cmd.inflight = s.cmd.inflight

/-! ## What a sender keeps to -/

/-- The rows that wait stand in the order of R170, as rows of one tick do (log entry 1). -/
def Presented (s : State) : Prop := tickOrdered s s.pending = true

/-! ## After every step -/

/-- No reply whose turn has come waits (R42): a completed command in flight stands behind an unanswered one of its session. -/
def RepliesGone (s : State) : Prop := (splitReady [] s.cmd.inflight).1 = []

/-- No event of an open session on the ring waits (R54, R109). -/
def RingEventsGone (s : State) : Prop := ∀ se ∈ s.cmd.sessions, isRing se.path = true → se.suspended = false → se.events = []

end Sys2Proof.Machine
end

