-- ==== Sys2Proof/Certificates/Slice0/Obligations.lean ====
section
/-! DEFINITION. The statements for the provers. A host command's statement has the form HostCompletes or HostStands of Safety.lean;
another command's has the form EffectIs: the command answers a next state, and its own effect leaves a state of which the clause
says what holds. -/

open Sys2Proof Sys2Proof.Machine

/-! ## Packets -/

/-- R35, R36: the header CRC-16 and the packet CRC-32C: their polynomials, initial values, reflection and final XOR, what they cover, where
they stand in a packet, and the values that they give over the nine ASCII bytes 123456789. -/
def Obligations.PacketCheckValues : Prop :=
  (∀ bs, crc16 bs = crcCompute { width := 16, poly := 0x1021, init := 0xFFFF, refin := false, refout := false, xorout := 0 } bs)
  ∧ (∀ bs, crc32c bs = crcCompute
      { width := 32, poly := 0x1EDC6F41, init := 0xFFFFFFFF, refin := true, refout := true, xorout := 0xFFFFFFFF } bs)
  ∧ (∀ h effc params, slice (packetBytes h effc params) 14 2 = leBytes 2 (crc16 ((packetBytes h effc params).take 14)))
  ∧ (∀ h params, (packetBytes h none params).drop (16 + params.length) = leBytes 4 (crc32c params)
      ∧ slice (packetBytes h none params) 16 params.length = params)
  ∧ (∀ h k params, (packetBytes h (some k) params).drop (24 + params.length) = leBytes 4 (crc32c (leBytes 8 k ++ params))
      ∧ slice (packetBytes h (some k) params) 16 (8 + params.length) = leBytes 8 k ++ params)
  ∧ crc16 [0x31, 0x32, 0x33, 0x34, 0x35, 0x36, 0x37, 0x38, 0x39] = 0x29B1
  ∧ crc32c [0x31, 0x32, 0x33, 0x34, 0x35, 0x36, 0x37, 0x38, 0x39] = 0xE3069283

/-! ## Host commands: reading the hub -/

/-- From R57, R464: commands that read the hub's own records complete with OK and the results of the catalogue, and change nothing. -/
def Obligations.QueriesOfTheHub : Prop :=
  HostCompletes .nop 0x0000 [] (fun _ _ => True) .ok (fun _ _ => []) (fun _ u => u)
  ∧ (∀ data, HostCompletes (.echo · data) 0x0003 data (fun _ _ => True) .ok (fun _ _ => data) (fun _ u => u))
  ∧ HostCompletes .getState 0x0005 [] (fun _ _ => True) .ok (fun _ u => leBytes 4 (csrPeek u 0x004) ++ leBytes 4 (csrPeek u 0x00C)
      ++ leBytes 8 (u.maps.lastClosed.getD (2 ^ 64 - 1)) ++ leBytes 8 (tickNow u)) (fun _ u => u)
  ∧ HostCompletes .timeGet 0x0700 [] (fun _ _ => True) .ok (fun _ u => leBytes 8 u.time.seconds ++ leBytes 4 u.time.ns
      ++ leBytes 2 u.time.frac ++ [0, 0] ++ leBytes 8 (tickNow u) ++ leBytes 8 (cycleNow u)) (fun _ u => u)
  ∧ HostCompletes .cfgStatus 0x0103 [] (fun _ _ => True) .ok (fun _ u => leBytes 1 (imgFormat u.upd.active)
      ++ leBytes 1 (lehrNo u.upd.lehrSt) ++ leBytes 1 u.reset_.heldSection ++ [0] ++ leBytes 4 u.reset_.heldOffset
      ++ leBytes 4 (imgCrc u.upd.active) ++ leBytes 4 (imgCrc u.upd.lehr)) (fun _ u => u)
  ∧ HostCompletes .updStatus 0x0904 [] (fun _ _ => True) .ok (fun _ u => leBytes 1 (ownerNo u) ++ leBytes 1 (ownerNode u)
      ++ leBytes 2 (min 0xFFFF (trialLeft u)) ++ [0, 1, 2, 3].flatMap (fun k => leBytes 4 (slotVersion (actSlot (comp u k))))
      ++ [0, 1, 2, 3].flatMap (fun k => leBytes 4 (slotVersion (othSlot (comp u k))))) (fun _ u => u)
  ∧ HostCompletes .idRead 0x0A00 [] (fun _ _ => True) .ok (fun _ u => identBytes u) (fun _ u => u)
  ∧ (∀ r : Byte, r.toNat ≤ 15 → HostCompletes (.tagRead · r) 0x0A01 [r] (fun _ _ => True) .ok
      (fun _ u => (List.range 256).map (fun i => tagByte u (256 * r.toNat + i))) (fun _ u => u))
  ∧ HostCompletes .ringStatus 0x0B00 [] (fun _ _ => True) .ok (fun _ u => ringStatusBytes u) (fun _ u => u)
  ∧ (∀ l, HostCompletes .lightListRead 0x0B01 [] (fun _ u => u.ring.light = some l) .ok (fun _ _ => lightBytes l) (fun _ u => u))
  ∧ (∀ (slot sect : Byte) (off len : Word) (at_ size : Nat) (b : List Byte), slot.toNat ≤ 1 → off.toNat + len.toNat ≤ size →
      at_ + off.toNat + len.toNat ≤ b.length →
      HostCompletes (.cfgRead · slot sect 0 off len) 0x0104 ([slot, sect, 0, 0] ++ leBytes 4 off.toNat ++ leBytes 4 len.toNat)
        (fun _ u => (if slot.toNat = 0 then u.upd.active else u.upd.lehr) = b ∧ cfgPart b sect.toNat = some (at_, size)) .ok
        (fun _ _ => slice b (at_ + off.toNat) len.toNat) (fun _ u => u))

/-- R414: FLT_READ returns count log entries from index first on, ascending and wrapping from 511 to 0, as they stand; one never written
reads all zero. A first above 511 or a count of 0 is DENIED, a count above 510 BAD_LENGTH, and nothing changes. -/
def Obligations.FaultLogReads : Prop :=
  (∀ first count : BitVec 16,
    (first.toNat ≤ 511 → 1 ≤ count.toNat → count.toNat ≤ 510 →
      HostCompletes (.fltRead · first count) 0x0800 (leBytes 2 first.toNat ++ leBytes 2 count.toNat) (fun _ _ => True) .ok
        (fun _ u => leBytes 2 count.toNat ++ [0, 0]
          ++ (List.range count.toNat).flatMap (fun i => logBytes u ((first.toNat + i) % 512))) (fun _ u => u))
    ∧ (511 < first.toNat ∨ count.toNat = 0 →
      HostCompletes (.fltRead · first count) 0x0800 (leBytes 2 first.toNat ++ leBytes 2 count.toNat) (fun _ _ => True) .denied
        (fun _ _ => []) (fun _ u => u))
    ∧ (first.toNat ≤ 511 → 510 < count.toNat →
      HostCompletes (.fltRead · first count) 0x0800 (leBytes 2 first.toNat ++ leBytes 2 count.toNat) (fun _ _ => True) .badLength
        (fun _ _ => []) (fun _ u => u)))
  ∧ (∀ (u : State) (i : Nat) (e : LogEntry), slook u.faults.log i = some e → logBytes u i = entryBytes e)
  ∧ (∀ (u : State) (i : Nat), slook u.faults.log i = none → logBytes u i = List.replicate 32 0)

/-- From R57, R58, R161, R464: commands that read the field side complete with OK and the results of the catalogue, and change nothing;
the package power is a free value (log entry 5). -/
def Obligations.QueriesOfTheField : Prop :=
  HostCompletes .chStatus 0x0207 [] (fun c u => (chan u c.target.toNat).st ≠ .partner) .ok
      (fun c u => chStatusBytes u c.target.toNat) (fun _ u => u)
  ∧ HostCompletes .mapStatus 0x0303 [] (fun _ _ => True) .ok
      (fun _ u => leBytes 4 (ruleList u.maps.rules).length
        ++ leBytes 4 ((evals (nowView u)).1 + (evals (nowView u)).2.1 + (evals (nowView u)).2.2.1)
        ++ leBytes 4 (perTick u.power.level * u.maps.n) ++ leBytes 8 u.maps.effLast) (fun _ u => u)
  ∧ HostCompletes .leStatus 0x0504 [] (fun c u => leState u c.target.toNat ≠ .off) .ok
      (fun c u => leBytes 1 (leNo (leState u c.target.toNat)) ++ leBytes 1 (engine u c.target.toNat).count
        ++ leBytes 1 (engine u c.target.toNat).push.length ++ leBytes 1 (engine u c.target.toNat).pull.length
        ++ leBytes 4 (engine u c.target.toNat).shift) (fun _ u => u)
  ∧ HostCompletes .dlRead 0x0506 [] (fun _ _ => True) .ok
      (fun c u => leBytes 2 (bankBits c.target.toNat (fun l => levelBefore u l (tickNow u))) ++ [0, 0] ++ leBytes 8 (tickNow u - 1))
      (fun _ u => u)
  ∧ HostCompletes .outStatus 0x0602 [] (fun _ _ => True) .ok
      (fun c u => leBytes 1 (outStNo (outlet u c.target.toNat).st) ++ leBytes 1 (outlet u c.target.toNat).used
        ++ leBytes 2 (min 0xFFFF (outlet u c.target.toNat).ma) ++ leBytes 2 (ofSigned 16 (outlet u c.target.toNat).deciC))
      (fun _ u => u)
  ∧ HostCompletes .pwrStatus 0x0605 [] (fun _ _ => True) .ok
      (fun _ u => leBytes 2 (min 0xFFFF u.power.vinMv) ++ leBytes 1 u.power.level ++ [u.power.rails]
        ++ leBytes 4 (Config.freeValue u.fresh)) (fun _ u => u)
  ∧ HostCompletes .peerDelayGet 0x0703 [] (fun c u => pdValid u (portOf c.target.toNat) = true) .ok
      (fun c u => leBytes 4 (pdMean (portSt u (portOf c.target.toNat)).pd / 65536)
        ++ leBytes 2 (pdMean (portSt u (portOf c.target.toNat)).pd % 65536)) (fun _ u => u)
  ∧ (∀ (first : Word) (count : BitVec 16) (cycle : DWord) (l : Nat),
      HostCompletes (.sigRead · first count 0 cycle) 0x0301 (leBytes 4 first.toNat ++ leBytes 2 count.toNat ++ [0, 0] ++ leBytes 8 cycle.toNat)
        (fun _ u => u.maps.lastClosed = some l ∧ cycle.toNat ≤ l ∧ l ≤ cycle.toNat + 15 ∧ (closedImage u cycle.toNat).isSome = true
          ∧ u.maps.copying ≠ some cycle.toNat ∧ l < 2 ^ 48) .ok
        (fun _ u => sigResults u cycle.toNat first.toNat count.toNat) (fun _ u => u))

/-! ## Host commands: sessions, memory, configuration -/

/-- From R48 to R50: SESSION_OPEN with a nonce that no session has opens the lowest free session, with expected tag 0, under the highest
common revision, and answers with it; the reply is retained under the nonce. -/
def Obligations.SessionOpens : Prop :=
  ∀ (c : Ctx) (nonce : DWord) (revMin revMax window : Byte) (lease : BitVec 16) (s : State) (n : Nat), Idle s →
    serves s c.path = true → c.session.val = 0 → c.tag = 0 → c.effc = none → c.target = 0xFFFF → c.flags = 0 → s.hub ≠ .boot →
    s.hub ≠ .off → inFlight s < 256 → nonce ≠ 0 → window.toNat ≤ 64 → max revMin.toNat 1 ≤ min revMax.toNat 4 →
    (∀ x ∈ s.cmd.sessions, x.nonce ≠ nonce) → freeNumber s = some n →
    ∃ t r, exec (.sessionOpen c nonce revMin revMax window 0 lease 0) s = .next t
      ∧ hubView t = hubView (modCmd (fun q => { q with sessions := q.sessions ++ [
          { num := n, nonce := nonce, path := c.path, rev := min revMax.toNat 4
            window := if window.toNat = 0 then fld s 0x140000 0 8 else window.toNat
            lease := if lease.toNat = 0 then fld s 0x140000 16 16 else if lease.toNat = 0xFFFF then 0 else lease.toNat
            expected := 0, lastUp := s.time.up, mask := 0, evSeq := 0, events := [], lossPend := false, suspended := false
            abortedCount := 0, firstAborted := 0 }] }) s)
      ∧ t.cmd.retained.getLast? = some r ∧ r.opening = true ∧ r.nonce = nonce ∧ r.status = .ok
      ∧ rd r.results 0 1 = n % 256 ∧ rd r.results 1 1 = min revMax.toNat 4 ∧ rd r.results 3 1 = 0 ∧ rd r.results 4 2 = 0

/-- From R51, R54, R41, R464: SESSION_CLOSE ends its session and answers with the next tag; SET_EVENTS keeps the mask as written and
returns it; GET_REPLY returns the stored reply of an earlier tag, whole.
From R20 to R22, R5: MEM_READ of one register of this hub returns its word and has the effect of the read; MEM_WRITE of one register
(RST_CTL apart) writes it. -/
def Obligations.SessionAndMemoryCommands : Prop :=
 ((∀ se, HostCompletes .sessionClose 0x0002 [] (fun c u => u.upd.owner = none ∧ sess u c.session.val = some se) .ok
      (fun _ _ => leBytes 2 se.expected.toNat) (fun c u => closeSession c.session.val u))
  ∧ (∀ mask, HostCompletes (.setEvents · mask) 0x0006 (leBytes 4 mask.toNat) (fun _ _ => True) .ok (fun _ _ => leBytes 4 mask.toNat)
      (fun c u => modSession c.session.val (fun x => { x with mask := mask }) u))
  ∧ (∀ tag se r, HostCompletes (.getReply · tag) 0x0004 (leBytes 2 tag.toNat)
      (fun c u => sess u c.session.val = some se ∧ 0x8000 ≤ (tag - se.expected).toNat ∧ retainedOf u se tag = some r) .ok
      (fun _ _ => (replyPackets 0 r.session r.tag.toNat r.opcode r.status r.results).flatten) (fun _ u => u))) ∧
 ((∀ addr : DWord, addr.toNat < 0x1000000 → addr.toNat % 4 = 0 → inBlock addr.toNat = true →
    HostCompletes (.memRead · addr 4) 0x0007 (leBytes 8 addr.toNat ++ leBytes 4 4) (fun _ _ => True) .ok
      (fun _ u => leBytes 4 (csrPeek u addr.toNat)) (fun _ u => csrReadEffect addr.toNat u))
  ∧ (∀ (addr : DWord) (v : Word), addr.toNat < 0x1000000 → addr.toNat % 4 = 0 → inBlock addr.toNat = true → addr.toNat ≠ 0x10000 →
    HostCompletes (.memWrite · addr 0 0 (leBytes 4 v.toNat)) 0x0008 (leBytes 8 addr.toNat ++ [0] ++ leBytes 3 0 ++ leBytes 4 v.toNat)
      (fun _ u => (csrWrite addr.toNat v.toNat u).cmd.inflight = u.cmd.inflight) .ok
      (fun _ _ => []) (fun _ u => csrWrite addr.toNat v.toNat u)))

/-- From R429, R430, R440, R398, R279: CFG_STAGE of a first block with a good header makes the session the owner and stands in the lehr
slot; CFG_VALIDATE of a good image makes it VALID; CFG_ACTIVATE of a good image, which asks no other hub for new
subscriptions, copies it into the active slot and holds the change for the next cycle boundary. -/
def Obligations.ConfigCommands : Prop :=
  (∀ data : List Byte, HostCompletes (.cfgStage · 0 data) 0x0100 (leBytes 4 0 ++ data)
      (fun _ u => u.upd.owner = none ∧ 64 ≤ data.length ∧ rd data 0 4 = 0x4643594C ∧ rd data 8 4 ≤ 7340032
        ∧ (rd data 4 1 = 5 ∨ rd data 4 1 = 6) ∧ u.upd.lehrSt ≠ .kept ∧ data.length ≤ rd data 8 4) .ok
      (fun _ _ => leBytes 4 data.length)
      (fun c u => bump 0x120100 (modUpd (fun x => { x with
        owner := some (c.session.val, c.path), recv := some (4, rd data 8 4), recvCount := data.length, lastBlockUp := u.time.up
        lehr := data, lehrSt := if rd data 8 4 ≤ data.length then .complete else .receiving }) u)))
  ∧ HostCompletes .cfgValidate 0x0101 [] (fun _ u => (validate u u.upd.lehr).cause = 0 ∧ u.upd.lehrSt ≠ .kept) .ok
      (fun _ u => leBytes 1 (validate u u.upd.lehr).sect ++ zeros 3 ++ leBytes 4 (validate u u.upd.lehr).off
        ++ leBytes 4 ((evals (imgView (lehrValidate u).2 (lehrValidate u).2.upd.lehr)).1
          + (evals (imgView (lehrValidate u).2 (lehrValidate u).2.upd.lehr)).2.1
          + (evals (imgView (lehrValidate u).2 (lehrValidate u).2.upd.lehr)).2.2.1)
        ++ leBytes 4 (perTick (imgView (lehrValidate u).2 (lehrValidate u).2.upd.lehr).level
          * (imgView (lehrValidate u).2 (lehrValidate u).2.upd.lehr).n))
      (fun _ u => modUpd (fun x => { x with lehrSt := .valid }) (cvNoteImage u.upd.lehr (validate u u.upd.lehr) u))
  ∧ HostStands .cfgActivate 0x0102 [] (fun _ u => (validate u u.upd.lehr).cause = 0 ∧ u.upd.lehrSt ≠ .kept ∧ u.hub ≠ .held
        ∧ readsFormat (actSlot (comp (lehrValidate u).2 2)) (imgFormat (lehrValidate u).2.upd.lehr) = true
        ∧ newSubs u.upd.lehr (lehrValidate u).2 = [])
      (fun _ u => .heldUntil (cycleNow u + 1) (leBytes 4 (imgCrc u.upd.lehr)))
      (fun c u => activateCopy c.session.val u.upd.lehr
        (noteChange (.config c.session.val c.tag (cycleNow u + 1) u.upd.lehr) (lehrValidate u).2))

/-! ## Host commands: channels -/

/-- From R187 to R189: CH_ENABLE takes a channel from DISABLED to JOINING, in a block reset once that ends, and waits for the join; it answers
at once where the channel joins or has joined already; CH_DISABLE mode 0 with items queued stops new items and waits, and answers at
once where the channel is disabled. -/
def Obligations.ChannelEnables : Prop :=
  HostStands .chEnable 0x0200 [] (fun c u => (chan u c.target.toNat).st = .disabled ∧ (chan u c.target.toNat).resetting = false)
      (fun _ _ => .issued)
      (fun c u => modChan c.target.toNat (fun x => { x with enabling := some (c.session.val, c.tag, u.time.up) })
        (modChan c.target.toNat (fun x => { x with st := .joining, enabled := true, busIdle := false }) u))
  ∧ HostCompletes .chEnable 0x0200 [] (fun c u => (chan u c.target.toNat).st = .active ∨ (chan u c.target.toNat).st = .alone) .ok
      (fun c u => leBytes 8 (chan u c.target.toNat).joinTick) (fun _ u => u)
  ∧ HostCompletes .chEnable 0x0200 [] (fun c u => (chan u c.target.toNat).st = .joining) .ok (fun _ _ => leBytes 8 0) (fun _ u => u)
  ∧ HostStands (.chDisable · 0) 0x0201 [0]
      (fun c u => ((chan u c.target.toNat).st = .active ∨ (chan u c.target.toNat).st = .joining) ∧ (chan u c.target.toNat).txq ≠ [])
      (fun _ _ => .issued)
      (fun c u => modChan c.target.toNat (fun x => { x with draining := x.draining ++ [(c.session.val, c.tag)] })
        (modChan c.target.toNat (fun x => { x with st := .draining }) u))
  ∧ HostCompletes (.chDisable · 0) 0x0201 [0] (fun c u => (chan u c.target.toNat).st = .disabled) .ok (fun _ _ => leBytes 4 0)
      (fun c u => modChan c.target.toNat (fun x => { x with enabled := false }) u)
  ∧ HostStands .chEnable 0x0200 [] (fun c u => (chan u c.target.toNat).st = .disabled ∧ (chan u c.target.toNat).resetting = true)
      (fun _ _ => .issued)
      (fun c u => modChan c.target.toNat (fun x => { x with enabling := some (c.session.val, c.tag, u.time.up) })
        (modChan c.target.toNat (fun x => { x with enabled := true, busIdle := false }) u))

/-- From R188, R190: CH_RESET (of a channel that does not drain) and CH_DISABLE mode 1 of a channel with nothing queued and nothing
waiting answer with no item aborted; the channel stands in DISABLED (after CH_RESET until the reset ends), its RX queue and its counters
but CHN_RX_CUT kept, and no other channel is touched. -/
def Obligations.ChannelResets : Prop :=
  HostLeads .chReset 0x0202 []
    (fun c u => (chan u c.target.toNat).st ≠ .off ∧ (chan u c.target.toNat).st ≠ .partner ∧ (chan u c.target.toNat).st ≠ .draining
      ∧ (chan u c.target.toNat).txq = [] ∧ (chan u c.target.toNat).partPush = []
      ∧ (chan u c.target.toNat).detect = none ∧ (chan u c.target.toNat).enabling = none ∧ (chan u c.target.toNat).stalled = []
      ∧ (chan u c.target.toNat).can.reqs = [] ∧ (chan u c.target.toNat).mb.exchange = none ∧ (chan u c.target.toNat).mb.waiting = []
      ∧ (chan u c.target.toNat).iol.isdu = [] ∧ (chan u c.target.toNat).draining = [])
    .ok (fun _ _ => leBytes 4 0)
    (fun c u t => (chan t c.target.toNat).st = .disabled ∧ (chan t c.target.toNat).resetting = true
      ∧ (chan t c.target.toNat).enabled = (chan u c.target.toNat).enabled ∧ (chan t c.target.toNat).rxq = (chan u c.target.toNat).rxq
      ∧ (chan t c.target.toNat).can = {} ∧ (∀ k, k ≠ c.target.toNat → chan t k = chan u k) ∧ t.cfgRegs = u.cfgRegs
      ∧ (∀ a, a ≠ chnAddr c.target.toNat 0x8C → offSwitch a = true → sget 0 t.csr a = sget 0 u.csr a))
  ∧ HostLeads (.chDisable · 1) 0x0201 [1]
    (fun c u => ((chan u c.target.toNat).st = .active ∨ (chan u c.target.toNat).st = .joining) ∧ (chan u c.target.toNat).txq = []
      ∧ (chan u c.target.toNat).detect = none ∧ (chan u c.target.toNat).enabling = none ∧ (chan u c.target.toNat).stalled = []
      ∧ (chan u c.target.toNat).can.reqs = [] ∧ (chan u c.target.toNat).mb.exchange = none ∧ (chan u c.target.toNat).mb.waiting = []
      ∧ (chan u c.target.toNat).iol.isdu = [] ∧ (chan u c.target.toNat).draining = [] ∧ (chan u c.target.toNat).can.onBus = none)
    .ok (fun _ _ => leBytes 4 0)
    (fun c u t => (chan t c.target.toNat).st = .disabled ∧ (chan t c.target.toNat).enabled = false
      ∧ (chan t c.target.toNat).rxq = (chan u c.target.toNat).rxq
      ∧ (∀ k, k ≠ c.target.toNat → chan t k = chan u k) ∧ t.cfgRegs = u.cfgRegs
      ∧ (∀ a, a ≠ chnAddr c.target.toNat 0x8C → offSwitch a = true → sget 0 t.csr a = sget 0 u.csr a))

/-- From R173, R188, R195, R198, R221, R225, R314: CH_SEND of an item that has room queues it, timed or not, under the channel's next
sequence and waits; CH_RECEIVE of one packet that begins with a STAMP word returns its tick, length and bytes and takes its words; of an
empty queue it returns none; CH_RELEASE takes a channel from ALONE to ACTIVE, where ONCE items whose window has passed end first, and
answers with the items held. -/
def Obligations.ChannelData : Prop :=
  (∀ (rel : DWord) (len : BitVec 16) (data : List Byte),
      HostStands (.chSend · rel len data) 0x0204 (leBytes 8 rel.toNat ++ leBytes 2 len.toNat ++ data)
      (fun c u => lockFits c u = true ∧ mbOn u c.target.toNat = false ∧ pers u c.target.toNat ≠ 4
        ∧ ((chan u c.target.toNat).st = .active ∨ (chan u c.target.toNat).st = .joining ∨ (chan u c.target.toNat).st = .alone)
        ∧ (pers u c.target.toNat = 3 → recordFault (fdEn u c.target.toNat) (decide (rel.toNat ≠ 0)) data = none)
        ∧ (rel.toNat ≠ 0 → releaseStatus (tickNow u) rel.toNat = none)
        ∧ txFits u c.target.toNat ⟨0, if rel.toNat = 0 then none else some (onGrid rel.toNat), data, .send c.session.val c.tag, none, 0⟩ = true)
      (fun _ _ => .issued)
      (fun c u => queueItem c.target.toNat
        ⟨0, if rel.toNat = 0 then none else some (onGrid rel.toNat), data, .send c.session.val c.tag, none, 0⟩ u))
  ∧ (∀ n : BitVec 16, HostCompletes (.chReceive · n) 0x0205 (leBytes 2 n.toNat)
      (fun c u => (chan u c.target.toNat).st ≠ .partner ∧ (chan u c.target.toNat).pendRpt = none ∧ (chan u c.target.toNat).rxq = []) .ok
      (fun _ _ => leBytes 2 0) (fun _ u => u))
  ∧ (∀ (w : DWord) (ws : List DWord), HostCompletes (.chReceive · 1) 0x0205 (leBytes 2 1)
      (fun c u => (chan u c.target.toNat).st ≠ .partner ∧ (chan u c.target.toNat).pendRpt = none ∧ claimedRead u c.target.toNat = false
        ∧ firstPacket (chan u c.target.toNat).rxq = some (w :: ws) ∧ wordKind w = 1 ∧ (wordsData ws).length ≤ 4096) .ok
      (fun _ u => leBytes 2 1 ++ (leBytes 8 (restoreTick u (wordBody w)) ++ leBytes 2 (wordsData ws).length ++ wordsData ws))
      (fun c u => (popWords c.target.toNat (ws.length + 1) u).2))
  ∧ HostCompletes .chRelease 0x0206 [] (fun c u => (chan u c.target.toNat).st = .alone ∧ ∀ i ∈ (chan u c.target.toNat).txq,
        i.producer ≠ .send c.session.val c.tag ∧ i.producer ≠ .txn c.session.val c.tag) .ok
      (fun c u => leBytes 4 (chan u c.target.toNat).txq.length)
      (fun c u => backToBus c.target.toNat
        (modChan c.target.toNat (fun x => { x with st := .active, can := { x.can with ackRun := 0 } }) u))

/-! ## Host commands: signals -/

/-- From R266, R279, R281: SIG_WRITE takes all its entries as host inputs of this tick, or is DENIED and takes none; MAP_CHANGE and
SUB_REMOVE note the change, and stand until the next cycle boundary (a MAP_CHANGE that the checks fail changes nothing); SUB_ADD of
a range that fits asks the publisher and waits for it. -/
def Obligations.SignalCommands : Prop :=
  (∀ (first : Word) (count : BitVec 16) (es : List DWord),
    HostCompletes (.sigWrite · first count 0 es) 0x0300 (leBytes 4 first.toNat ++ leBytes 2 count.toNat ++ leBytes 2 0 ++ wordsBytes es)
      (fun _ u => (slotEntries first.toNat es).all (fun x => hostEntryOk u first.toNat es.length x.1 x.2) = true) .ok (fun _ _ => [])
      (fun c u => modMaps (fun m => { m with
        hostWrites := (slotEntries first.toNat es).foldl (fun l x => insWrite ⟨x.1, x.2, tickNow u, c.session.val⟩ l) m.hostWrites }) u)
    ∧ HostCompletes (.sigWrite · first count 0 es) 0x0300 (leBytes 4 first.toNat ++ leBytes 2 count.toNat ++ leBytes 2 0 ++ wordsBytes es)
      (fun _ u => (slotEntries first.toNat es).all (fun x => hostEntryOk u first.toNat es.length x.1 x.2) = false) .denied (fun _ _ => [])
      (fun _ u => u))
  ∧ (∀ (first : Word) (count : BitVec 16) (rules : List Byte), rules.length = 32 * count.toNat →
    HostStands (.mapChange · first count 0 rules) 0x0302 (leBytes 4 first.toNat ++ leBytes 2 count.toNat ++ leBytes 2 0 ++ rules)
      (fun c u => mapVerdict (changeView u (viewAt (cycleNow u + 1) u) (.rules c.session.val c.tag (cycleNow u + 1) first.toNat rules)) = none)
      (fun _ u => .heldUntil (cycleNow u + 1) [])
      (fun c u => noteChange (.rules c.session.val c.tag (cycleNow u + 1) first.toNat rules) u)
    ∧ ∀ c s st, Idle s → c.effc = none →
        accepts c 0x0302 (leBytes 4 first.toNat ++ leBytes 2 count.toNat ++ leBytes 2 0 ++ rules) s = true →
        (let u := takenIn c 0x0302 (leBytes 4 first.toNat ++ leBytes 2 count.toNat ++ leBytes 2 0 ++ rules) s
         mapVerdict (changeView u (viewAt (cycleNow u + 1) u) (.rules c.session.val c.tag (cycleNow u + 1) first.toNat rules)) = some st) →
        Completes (exec (.mapChange c first count 0 rules) s) c 0x0302 st []
          (takenIn c 0x0302 (leBytes 4 first.toNat ++ leBytes 2 count.toNat ++ leBytes 2 0 ++ rules) s))
  ∧ (∀ (node : Byte) (loc : Word), HostStands (.subRemove · node 0 0 loc) 0x0305 ([node, 0] ++ leBytes 2 0 ++ leBytes 4 loc.toNat)
      (fun _ u => numbered u = true ∧ ∃ x ∈ (viewAt (cycleNow u + 1) u).subs, x.node = node.toNat ∧ x.local_ = loc.toNat)
      (fun _ u => .heldUntil (cycleNow u + 1) [])
      (fun c u => noteChange (.subRemove c.session.val c.tag (cycleNow u + 1) node.toNat loc.toNat) u))
  ∧ (∀ (node : Byte) (count : BitVec 16) (remote loc : Word),
      HostStands (.subAdd · node 0 count remote loc) 0x0304 ([node, 0] ++ leBytes 2 count.toNat ++ leBytes 4 remote.toNat ++ leBytes 4 loc.toNat)
      (fun _ u => node.toNat ≠ u.ring.node ∧ ringSends u = true
        ∧ subVerdict (cycleNow u + 1) { node := node.toNat, remote := remote.toNat, local_ := loc.toNat, count := count.toNat } u = none)
      (fun _ _ => .issued) (fun _ u => u))

/-! ## Host commands: transactions -/

/-- From R238, R239, R304: a transaction of the Modbus service, within the limits of its function, is issued and waits for its turn at
the channel. From R254, R304: TX_IOL_READ and TX_IOL_WRITE at a port in PREOPERATE or OPERATE join the port's ISDUs, and in another
port state complete at once with NOT_READY; TX_CAN_REQ of a good record queues its frame and waits. -/
def Obligations.FieldTransactions : Prop :=
 ((∀ (slave func : Byte) (addr qty : BitVec 16), 1 ≤ slave.toNat → slave.toNat ≤ 247 →
    ((func = 1 ∨ func = 2) ∧ qty.toNat ≤ 2000 ∨ (func = 3 ∨ func = 4) ∧ qty.toNat ≤ 125) → 1 ≤ qty.toNat → addr.toNat + qty.toNat ≤ 65536 →
    HostStands (.txMbRead · slave func addr qty) 0x0400 ([slave, func] ++ leBytes 2 addr.toNat ++ leBytes 2 qty.toNat)
      (fun c u => lockFits c u = true ∧ noLock c u ∧ mbOn u c.target.toNat = true ∧ isPartner (pers u) c.target.toNat = false
        ∧ (chan u c.target.toNat).st = .active)
      (fun _ _ => .issued) (fun c u => modMb c.target.toNat (fun m => { m with waiting := m.waiting ++ [(c.session.val, c.tag)] }) u))
  ∧ (∀ (slave func : Byte) (addr qty : BitVec 16) (data : List Byte), slave.toNat ≤ 247 →
    (func = 5 ∧ qty = 1 ∧ (data = [0] ∨ data = [1]) ∨ func = 6 ∧ qty = 1 ∧ data.length = 2
      ∨ func = 15 ∧ qty.toNat ≤ 1968 ∧ data.length = (qty.toNat + 7) / 8 ∧ leVal data < 2 ^ qty.toNat
      ∨ func = 16 ∧ qty.toNat ≤ 123 ∧ data.length = 2 * qty.toNat) → 1 ≤ qty.toNat → addr.toNat + qty.toNat ≤ 65536 →
    HostStands (.txMbWrite · slave func addr qty data) 0x0401 ([slave, func] ++ leBytes 2 addr.toNat ++ leBytes 2 qty.toNat ++ data)
      (fun c u => lockFits c u = true ∧ noLock c u ∧ mbOn u c.target.toNat = true ∧ isPartner (pers u) c.target.toNat = false
        ∧ (chan u c.target.toNat).st = .active)
      (fun _ _ => .issued) (fun c u => modMb c.target.toNat (fun m => { m with waiting := m.waiting ++ [(c.session.val, c.tag)] }) u))
  ∧ (∀ (slave : Byte) (rAddr rQty wAddr wQty : BitVec 16) (data : List Byte), 1 ≤ slave.toNat → slave.toNat ≤ 247 →
    1 ≤ rQty.toNat → rQty.toNat ≤ 125 → 1 ≤ wQty.toNat → wQty.toNat ≤ 121 → data.length = 2 * wQty.toNat →
    rAddr.toNat + rQty.toNat ≤ 65536 → wAddr.toNat + wQty.toNat ≤ 65536 →
    HostStands (.txMbRw · slave 0 rAddr rQty wAddr wQty data) 0x0402 ([slave, 0] ++ leBytes 2 rAddr.toNat ++ leBytes 2 rQty.toNat
        ++ leBytes 2 wAddr.toNat ++ leBytes 2 wQty.toNat ++ data)
      (fun c u => lockFits c u = true ∧ noLock c u ∧ mbOn u c.target.toNat = true ∧ isPartner (pers u) c.target.toNat = false
        ∧ (chan u c.target.toNat).st = .active)
      (fun _ _ => .issued) (fun c u => modMb c.target.toNat (fun m => { m with waiting := m.waiting ++ [(c.session.val, c.tag)] }) u))) ∧
 ((∀ (index : BitVec 16) (sub : Byte), HostStands (.txIolRead · index sub 0) 0x0403 (leBytes 2 index.toNat ++ [sub, 0])
      (fun c u => lockFits c u = true ∧ noLock c u ∧ iolLive u c.target.toNat = true
        ∧ ((chan u c.target.toNat).iol.st = .preoperate ∨ (chan u c.target.toNat).iol.st = .operate))
      (fun _ _ => .issued)
      (fun c u => bump (chnAddr c.target.toNat 0x390) (modIol c.target.toNat (fun x => { x with
        isdu := x.isdu ++ [(c.session.val, c.tag)], isduRuns := true, isduUp := u.time.up }) u))
    ∧ HostCompletes (.txIolRead · index sub 0) 0x0403 (leBytes 2 index.toNat ++ [sub, 0])
      (fun c u => lockFits c u = true ∧ noLock c u ∧ pers u c.target.toNat = 4
        ∧ (chan u c.target.toNat).iol.st ≠ .preoperate ∧ (chan u c.target.toNat).iol.st ≠ .operate)
      .notReady (fun _ _ => []) (fun _ u => u))
  ∧ (∀ (index : BitVec 16) (sub : Byte) (data : List Byte),
      HostStands (.txIolWrite · index sub 0 data) 0x0404 (leBytes 2 index.toNat ++ [sub, 0] ++ data)
      (fun c u => lockFits c u = true ∧ noLock c u ∧ iolLive u c.target.toNat = true
        ∧ ((chan u c.target.toNat).iol.st = .preoperate ∨ (chan u c.target.toNat).iol.st = .operate))
      (fun _ _ => .issued)
      (fun c u => bump (chnAddr c.target.toNat 0x390) (modIol c.target.toNat (fun x => { x with
        isdu := x.isdu ++ [(c.session.val, c.tag)], isduRuns := true, isduUp := u.time.up }) u)))
  ∧ (∀ (ms : BitVec 16) (respId respMask : Word) (frame : List Byte), ms ≠ 0 →
      HostStands (.txCanReq · ms 0 respId respMask frame) 0x0405 (leBytes 2 ms.toNat ++ leBytes 2 0 ++ leBytes 4 respId.toNat
          ++ leBytes 4 respMask.toNat ++ frame)
      (fun c u => lockFits c u = true ∧ noLock c u ∧ pers u c.target.toNat = 3 ∧ recordFault (fdEn u c.target.toNat) false frame = none
        ∧ (chan u c.target.toNat).st = .active ∧ (chan u c.target.toNat).stalled = []
        ∧ txFits (modCan c.target.toNat (fun x => { x with reqs := x.reqs ++ [
            ⟨c.session.val, c.tag, respId.toNat, respMask.toNat, ms.toNat, 2 ^ 32, false, u.time.up⟩] }) u) c.target.toNat
            { seq := 0, release := none, data := frame, producer := .txn c.session.val c.tag, bad := none, attempts := 0 } = true)
      (fun _ _ => .issued)
      (fun c u => queueItem c.target.toNat
        { seq := 0, release := none, data := frame, producer := .txn c.session.val c.tag, bad := none, attempts := 0 }
        (modCan c.target.toNat (fun x => { x with reqs := x.reqs ++ [
            ⟨c.session.val, c.tag, respId.toNat, respMask.toNat, ms.toNat, 2 ^ 32, false, u.time.up⟩] }) u))))

/-- From R304, R308, R310, R314 to R316: TX_POP returns the first sequence, the count and the words taken; TX_PUSH of one whole item
that has room queues it; TX_RE_READ returns words still in the history; TX_LOCK gives the session the target's lock, never beyond
100 ms of its first grant, and TX_UNLOCK of the holder ends it, of another session is DENIED. -/
def Obligations.WindowTransactions : Prop :=
  (∀ n : BitVec 16, HostCompletes (.txPop · n) 0x0406 (leBytes 2 n.toNat)
      (fun c u => lockFits c u = true ∧ noLock c u ∧ engineOff u c.target.toNat = false ∧ partnerAt u c.target.toNat = false
        ∧ claimedRead u c.target.toNat = false) .ok
      (fun c u => leBytes 4 (popSeqOf u c.target.toNat) ++ leBytes 2 (popWords c.target.toNat n.toNat u).1.length ++ [0, 0]
        ++ wordsBytes (popWords c.target.toNat n.toNat u).1)
      (fun c u => (popWords c.target.toNat n.toNat u).2))
  ∧ (∀ ws : List DWord, (∀ w ∈ ws.dropLast, wordEnd w = false) → (∃ w, ws.getLast? = some w ∧ wordEnd w = true) →
      HostCompletes (.txPush · ws) 0x0407 (wordsBytes ws)
      (fun c u => lockFits c u = true ∧ noLock c u ∧ c.target.toNat < 0x100 ∧ partnerAt u c.target.toNat = false
        ∧ pushDenied u c.target.toNat = false ∧ (chan u c.target.toNat).st = .active ∧ wordRoom u c.target.toNat ws.length = true) .ok
      (fun _ _ => leBytes 4 ws.length) (fun c u => queueItem c.target.toNat (itemOf u c.target.toNat ws) u))
  ∧ (∀ (first : Word) (n : BitVec 16) (ws : List (Nat × DWord)), ws.length = n.toNat →
      (∀ i, i < n.toNat → (ws.map (·.1))[i]? = some ((first.toNat + i) % 2 ^ 32)) →
      HostCompletes (.txReRead · first n) 0x0408 (leBytes 4 first.toNat ++ leBytes 2 n.toNat)
      (fun c u => engineOff u c.target.toNat = false ∧ partnerAt u c.target.toNat = false
        ∧ (∀ e ∈ ws, (historyOf u c.target.toNat).find? (fun x => x.1 == e.1) = some e
          ∧ 2 ^ 31 ≤ (e.1 + 2 ^ 32 - popSeqOf u c.target.toNat) % 2 ^ 32)) .ok
      (fun _ _ => leBytes 2 n.toNat ++ [0, 0] ++ ws.flatMap (fun e => leBytes 4 e.1 ++ leBytes 8 e.2.toNat))
      (fun _ u => bumpBy 0x140094 n.toNat u))
  ∧ (∀ hold : BitVec 16, 1 ≤ hold.toNat → hold.toNat ≤ 100 → HostCompletes (.txLock · hold) 0x0409 (leBytes 2 hold.toNat)
      (fun c u => lockFits c u = true ∧ noLock c u ∧ partnerAt u c.target.toNat = false
        ∧ (mbOn u c.target.toNat = true ∨ pers u c.target.toNat = 4 ∨ pers u c.target.toNat = 3)) .ok
      (fun c u => leBytes 8 (min (tickNow u + hold.toNat * 2000)
        ((match lockedBy u c.target.toNat with | some l => l.first | none => tickNow u) + 200000)))
      (fun c u => setLock c.target.toNat
        { session := c.session.val, path := c.path
          expiry := min (tickNow u + hold.toNat * 2000) ((match lockedBy u c.target.toNat with | some l => l.first | none => tickNow u) + 200000)
          first := match lockedBy u c.target.toNat with | some l => l.first | none => tickNow u } u))
  ∧ HostCompletes .txUnlock 0x040A [] (fun c u => ∃ l, lockedBy u c.target.toNat = some l ∧ l.session = c.session.val) .ok
      (fun _ _ => []) (fun c u => modCmd (fun x => { x with locks := sdel x.locks c.target.toNat }) u)
  ∧ HostCompletes .txUnlock 0x040A [] (fun c u => ∀ l, lockedBy u c.target.toNat = some l → l.session ≠ c.session.val) .denied
      (fun _ _ => []) (fun _ u => u)

/-! ## Host commands: engines and discrete lines -/

/-- From R330: DL_WRITE whose mask names host-owned outputs only is due at tick t + 40; any other mask is DENIED and changes nothing.
From R338 to R341: LE_RESTART and LE_GROUP_START arm engines that are not active for their start tick, and refuse active ones; LE_LOAD
of good entries writes them, all of them, in IDLE and HALTED, and a scrub of the table begins anew (R357); LE_HALT answers at once for
an engine that is not active, halts one in ARMED or WAIT at once, and otherwise waits for the next edge. -/
def Obligations.LineAndEngineCommands : Prop :=
 (∀ value mask : BitVec 16,
    HostCompletes (.dlWrite · value mask) 0x0505 (leBytes 2 value.toNat ++ leBytes 2 mask.toNat)
      (fun c u => ∀ i, i < 16 → bit mask.toNat i = true →
        isOutput u (16 * c.target.toNat + i) = true ∧ dlOwn u (16 * c.target.toNat + i) = 0) .ok (fun _ _ => [])
      (fun c u => { u with dl := { u.dl with
        pend := u.dl.pend ++ [⟨tickNow u + 40, c.target.toNat, value.toNat, mask.toNat⟩] } })
    ∧ HostCompletes (.dlWrite · value mask) 0x0505 (leBytes 2 value.toNat ++ leBytes 2 mask.toNat)
      (fun c u => ∃ i, i < 16 ∧ bit mask.toNat i = true ∧
        (isOutput u (16 * c.target.toNat + i) = false ∨ dlOwn u (16 * c.target.toNat + i) ≠ 0)) .denied (fun _ _ => []) (fun _ u => u)) ∧
 (HostCompletes (.leRestart · 0) 0x0502 [0] (fun c u => leState u c.target.toNat = .idle ∨ leState u c.target.toNat = .halted) .ok
      (fun _ _ => [])
      (fun c u => modEngine c.target.toNat (fun x => { x with
        st := .armed, startTick := tickNow u + 40, keepShift := false, haltPend := false }) u)
  ∧ HostCompletes (.leRestart · 1) 0x0502 [1] (fun c u => (leState u c.target.toNat = .idle ∨ leState u c.target.toNat = .halted)
        ∧ leWidth u c.target.toNat = (engine u c.target.toNat).hwidth) .ok (fun _ _ => [])
      (fun c u => modEngine c.target.toNat (fun x => { x with
        st := .armed, startTick := tickNow u + 40, keepShift := true, haltPend := false }) u)
  ∧ HostCompletes (.leRestart · 0) 0x0502 [0] (fun c u => leActive (leState u c.target.toNat) = true) .engineActive (fun _ _ => [])
      (fun _ u => u)
  ∧ (∀ (mask : Word) (tick : DWord), HostCompletes (.leGroupStart · mask tick) 0x0503 (leBytes 4 mask.toNat ++ leBytes 8 tick.toNat)
      (fun _ u => (∀ e, e < 32 → bit mask.toNat e = true → leState u e = .idle ∨ leState u e = .halted)
        ∧ tickNow u + 40 ≤ tick.toNat ∧ tick.toNat ≤ tickNow u + 120000000) .ok (fun _ _ => [])
      (fun _ u => forEach ((List.range 32).filter (fun e => bit mask.toNat e)) (fun e => modEngine e (fun x => { x with
        st := .armed, startTick := tick.toNat, keepShift := false, haltPend := false })) u))
  ∧ (∀ (first count : BitVec 16) (bs : List Byte), bs.length = 3 * count.toNat →
      (∀ i, i < count.toNat → entryOk (rd bs (3 * i) 3) = true) →
      HostCompletes (.leLoad · first count bs) 0x0501 (leBytes 2 first.toNat ++ leBytes 2 count.toNat ++ bs)
      (fun c u => leState u c.target.toNat = .idle ∨ leState u c.target.toNat = .halted) .ok (fun _ _ => [])
      (fun c u => scrubTouch [256 + c.target.toNat] (modEngine c.target.toNat (fun x => { x with
        table := (List.range count.toNat).foldl (fun t i => sput 0 t (first.toNat + i) (BitVec.ofNat 24 (rd bs (3 * i) 3))) x.table }) u)))
  ∧ HostCompletes .leHalt 0x0500 [] (fun c u => leState u c.target.toNat = .idle ∨ leState u c.target.toNat = .halted) .ok
      (fun c u => haltResults (engine u c.target.toNat) (engine u c.target.toNat).abandoned true) (fun _ u => u)
  ∧ (∀ (first count : BitVec 16) (bs : List Byte),
      HostCompletes (.leLoad · first count bs) 0x0501 (leBytes 2 first.toNat ++ leBytes 2 count.toNat ++ bs)
      (fun c u => leActive (leState u c.target.toNat) = true) .engineActive (fun _ _ => []) (fun _ u => u))
  ∧ HostLeads .leHalt 0x0500 [] (fun c u => (leState u c.target.toNat = .armed ∨ leState u c.target.toNat = .wait)
        ∧ (engine u c.target.toNat).halting = [] ∧ (engine u c.target.toNat).stalled = none) .ok
      (fun c u => haltResults (engine u c.target.toNat) false false)
      (fun c u t => (engine t c.target.toNat).st = .halted ∧ (engine t c.target.toNat).hwidth = leWidth u c.target.toNat
        ∧ (engine t c.target.toNat).shift = (engine u c.target.toNat).shift
        ∧ (engine t c.target.toNat).push = (engine u c.target.toNat).push
        ∧ (engine t c.target.toNat).pull = (engine u c.target.toNat).pull ∧ ∀ k, k ≠ c.target.toNat → engine t k = engine u k)
  ∧ HostStands .leHalt 0x0500 [] (fun c u => leState u c.target.toNat = .run ∨ leState u c.target.toNat = .stallPush
        ∨ leState u c.target.toNat = .stallPull) (fun _ _ => .issued)
      (fun c u => modEngine c.target.toNat (fun x => { x with haltPend := true, halting := x.halting ++ [(c.session.val, c.tag)] }) u))

/-! ## Host commands: power, time, faults -/

/-- From R279, R375, R376: PL_SET stands until the next cycle boundary; SLEEP_ENTER of a level 1 to 3, while no update session owns the
hub, no other sleep entry waits, and for SL2 and SL3 the hub is neither ring master nor designated backup, waits for the boundary;
otherwise it is DENIED.
From R368, R371: OUT_SET 0 takes an outlet with supply to OFF, its retries kept; OUT_SET 1 starts one from OFF, changes nothing of
one that is started, and is DENIED where the outlet is latched or not configured; OUT_CLEAR of an outlet that is not latched sets
USED to 0 and returns it. No command touches another outlet. -/
def Obligations.PowerCommands : Prop :=
 ((∀ level : Byte, HostStands (.plSet · level) 0x0603 [level] (fun _ _ => True) (fun _ u => .heldUntil (cycleNow u + 1) []) (fun _ u => u))
  ∧ (∀ level : Byte, 1 ≤ level.toNat → level.toNat ≤ 3 → HostStands (.sleepEnter · level) 0x0604 [level]
      (fun _ u => u.upd.owner = none ∧ u.power.sleepAt = none ∧ (2 ≤ level.toNat → u.master.role = 0)) (fun _ _ => .issued)
      (fun c u => modPower (fun p => { p with sleepAt := some (level.toNat, cycleNow u + 1, c.session.val, c.tag) }) u))
  ∧ (∀ level : Byte, HostCompletes (.sleepEnter · level) 0x0604 [level]
      (fun _ u => level.toNat = 0 ∨ 3 < level.toNat ∨ u.upd.owner.isSome = true ∨ (2 ≤ level.toNat ∧ u.master.role ≠ 0))
      .denied (fun _ _ => []) (fun _ u => u))) ∧
 (HostLeads (.outSet · 0) 0x0600 [0] (fun c u => (outlet u c.target.toNat).st ≠ .supplyOff) .ok (fun _ _ => [])
      (fun c u t => (outlet t c.target.toNat).st = .off ∧ (outlet t c.target.toNat).cmd = false
        ∧ (outlet t c.target.toNat).latched = false ∧ (outlet t c.target.toNat).used = (outlet u c.target.toNat).used
        ∧ ∀ k, k ≠ c.target.toNat → outlet t k = outlet u k)
  ∧ HostLeads (.outSet · 1) 0x0600 [1] (fun c u => outEn u c.target.toNat = true ∧ (outlet u c.target.toNat).st = .off
        ∧ (outlet u c.target.toNat).deciC < 1000) .ok (fun _ _ => [])
      (fun c u t => (outlet t c.target.toNat).st = .starting ∧ (outlet t c.target.toNat).cmd = true
        ∧ (outlet t c.target.toNat).used = (outlet u c.target.toNat).used ∧ ∀ k, k ≠ c.target.toNat → outlet t k = outlet u k)
  ∧ HostCompletes (.outSet · 1) 0x0600 [1] (fun c u => outEn u c.target.toNat = false ∨ (outlet u c.target.toNat).st = .latched
        ∨ (outlet u c.target.toNat).st = .supplyOff ∧ (outlet u c.target.toNat).latched = true) .denied (fun _ _ => []) (fun _ u => u)
  ∧ HostCompletes .outClear 0x0601 [] (fun c u => (outlet u c.target.toNat).st ≠ .latched
        ∧ ((outlet u c.target.toNat).st = .supplyOff → (outlet u c.target.toNat).latched = false)) .ok
      (fun c u => leBytes 1 (outlet u c.target.toNat).used) (fun c u => modOutlet c.target.toNat (fun x => { x with used := 0 }) u)
  ∧ HostLeads .outClear 0x0601 [] (fun c u => (outlet u c.target.toNat).st = .latched ∧ (outlet u c.target.toNat).cmd = true
        ∧ (outlet u c.target.toNat).deciC < 1000) .ok (fun c u => leBytes 1 (outlet u c.target.toNat).used)
      (fun c u t => (outlet t c.target.toNat).st = .starting ∧ (outlet t c.target.toNat).used = 0
        ∧ ∀ k, k ≠ c.target.toNat → outlet t k = outlet u k))

/-- From R165, R168: SYNC_OUT_SET of settings that R168 allows writes the SYNC_OUT registers, and loads the first edge where SYNC_OUT is
enabled; other settings are DENIED and change nothing; STAMP_READ removes the oldest stamps of a port and returns them with the
stamps lost. -/
def Obligations.TimeCommands : Prop :=
  (∀ (first : DWord) (period width : Word),
    HostCompletes (.syncOutSet · first period width) 0x0701 (leBytes 8 first.toNat ++ leBytes 4 period.toNat ++ leBytes 4 width.toNat)
      (fun _ u => (period.toNat = 0 ∧ nsNow u ≤ ceilDiv first.toNat 5 * 5 ∨ 1000 ≤ period.toNat ∧ width.toNat + 20 ≤ period.toNat)
        ∧ 20 ≤ width.toNat ∧ period.toNat % 5 = 0 ∧ width.toNat % 5 = 0) .ok (fun _ _ => [])
      (fun _ u => (fun v => onlyIf (fld v 0x40000 2 1 == 1) loadSync v) (csrPut 0x40040 (first.toNat % 2 ^ 32)
        (csrPut 0x40044 (first.toNat / 2 ^ 32) (csrPut 0x40048 period.toNat (csrPut 0x4004C width.toNat u)))))
    ∧ HostCompletes (.syncOutSet · first period width) 0x0701 (leBytes 8 first.toNat ++ leBytes 4 period.toNat ++ leBytes 4 width.toNat)
      (fun _ _ => width.toNat < 20 ∨ 0 < period.toNat ∧ (period.toNat < 1000 ∨ period.toNat < width.toNat + 20)
        ∨ period.toNat % 5 ≠ 0 ∨ width.toNat % 5 ≠ 0) .denied (fun _ _ => []) (fun _ u => u))
  ∧ (∀ n : Byte, HostCompletes (.stampRead · n) 0x0702 [n] (fun c _ => c.target = 0) .ok
      (fun _ u => leBytes 1 (u.time.stampsEast.take n.toNat).length ++ leBytes 1 (min 255 u.time.lostEast)
        ++ (u.time.stampsEast.take n.toNat).flatMap (fun e => leBytes 2 e.1.toNat ++ leBytes 8 e.2))
      (fun _ u => modTime (fun t => { t with stampsEast := t.stampsEast.drop n.toNat, lostEast := 0 }) (setFld 0x40060 16 1 0 u)))
  ∧ (∀ n : Byte, HostCompletes (.stampRead · n) 0x0702 [n] (fun c _ => c.target = 1) .ok
      (fun _ u => leBytes 1 (u.time.stampsWest.take n.toNat).length ++ leBytes 1 (min 255 u.time.lostWest)
        ++ (u.time.stampsWest.take n.toNat).flatMap (fun e => leBytes 2 e.1.toNat ++ leBytes 8 e.2))
      (fun _ u => modTime (fun t => { t with stampsWest := t.stampsWest.drop n.toNat, lostWest := 0 }) (setFld 0x40060 17 1 0 u)))

/-- From R410, R419, R420: FLT_CLEAR returns a PENDING source to IDLE, releases its PIN and marks its log entries; it leaves an IDLE one
as it is and is DENIED for an ACTIVE one; with code 0xFFFF it clears every PENDING source, and is DENIED if one is ACTIVE; FLT_INJECT
arms one detection of a source, and is DENIED without INJ_EN or while one is pending; FLT_REACT_SET writes a mask that the source may
take. -/
def Obligations.FaultCommands : Prop :=
  (∀ code : BitVec 16, code.toNat ≠ 0xFFFF → (sourceRow code.toNat).isSome = true →
    HostCompletes (.fltClear · code) 0x0801 (leBytes 2 code.toNat) (fun _ u => (faultSrc u code.toNat).st = .pending) .ok (fun _ _ => [])
      (fun _ u => modFaults (fun f => { f with
          log := f.log.map (fun e => if e.2.source = code.toNat then (e.1, { e.2 with flags := setBits e.2.flags 3 1 1 }) else e) })
        (modSrc code.toNat (fun x => { x with st := .idle, pinHeld := false }) u))
    ∧ HostCompletes (.fltClear · code) 0x0801 (leBytes 2 code.toNat) (fun _ u => (faultSrc u code.toNat).st = .idle) .ok (fun _ _ => [])
      (fun _ u => u)
    ∧ HostCompletes (.fltClear · code) 0x0801 (leBytes 2 code.toNat) (fun _ u => (faultSrc u code.toNat).st = .active) .denied
      (fun _ _ => []) (fun _ u => u))
  ∧ (∀ code : BitVec 16, (sourceRow code.toNat).isSome = true → codedSource code.toNat = false →
    HostCompletes (.fltInject · code) 0x0802 (leBytes 2 code.toNat)
      (fun _ u => fld u 0x110000 0 1 = 1 ∧ (faultSrc u code.toNat).injPend = false) .ok (fun _ _ => [])
      (fun c u => bump 0x110208 (modSrc code.toNat (fun x => { x with
        injPend := true, injBy := c.session.val, injTick := u.time.up }) u)))
  ∧ (∀ code : BitVec 16, (sourceRow code.toNat).isSome = true →
    (codedSource code.toNat = true → HostCompletes (.fltInject · code) 0x0802 (leBytes 2 code.toNat)
      (fun _ u => fld u 0x110000 0 1 = 1 ∧ (faultSrc u code.toNat).injPend = false ∧ u.maps.phase ≠ .stageA) .ok (fun _ _ => [])
      (fun c u => modMaps (fun m => { m with codedInject := m.codedInject ++ [(code.toNat, c.session.val)] })
        (bump 0x110208 (modSrc code.toNat (fun x => { x with
          injPend := true, injBy := c.session.val, injTick := u.time.up }) u))))
    ∧ HostCompletes (.fltInject · code) 0x0802 (leBytes 2 code.toNat)
      (fun _ u => fld u 0x110000 0 1 = 0 ∨ (faultSrc u code.toNat).injPend = true) .denied (fun _ _ => []) (fun _ u => u))
  ∧ (∀ st, HostCompletes (.fltClear · 0xFFFF) 0x0801 (leBytes 2 0xFFFF)
      (fun _ u => st = if sourceTable.any (fun r => (faultSrc (clearPending u) r.1).st == .active) then .denied else .ok) st (fun _ _ => [])
      (fun _ u => clearPending u))
  ∧ (∀ (code : BitVec 16) (mask : Byte),
    HostCompletes (.fltReactSet · code mask) 0x0803 (leBytes 2 code.toNat ++ [mask])
      (fun _ _ => reactOk code.toNat mask.toNat = true) .ok (fun _ _ => []) (fun _ u => setFld (srcAddr code.toNat) 0 5 mask.toNat u)
    ∧ HostCompletes (.fltReactSet · code mask) 0x0803 (leBytes 2 code.toNat ++ [mask])
      (fun _ _ => reactOk code.toNat mask.toNat = false) .denied (fun _ _ => []) (fun _ u => u))

/-! ## Host commands: update, identity and tags -/

/-- From R441, R442: TAG_WRITE of an unlocked record stores its content with its CRC; TAG_LOCK of a record whose CRC is good locks it for
good, and of a locked one changes nothing; a locked record is not written.
From R428 to R434: UPD_BLOCK of the owner at offset R appends its bytes; UPD_COMMIT of a whole, signed and compatible image starts its
trial, and of one whose signature fails makes the slot BAD; UPD_CONFIRM ends the trial with the new image active; UPD_ABORT of the
owner ends its ownership, and during a trial falls back and restarts the component. Whether a signature verifies is open (log entry 4). -/
def Obligations.UpdateCommands : Prop :=
 ((∀ (r : Byte) (content : List Byte), r.toNat ≤ 15 →
    HostCompletes (.tagWrite · r 0 content) 0x0A02 ([r] ++ leBytes 3 0 ++ content) (fun _ u => bit u.upd.tagLocks r.toNat = false) .ok
      (fun _ _ => []) (fun _ u => tagStore (256 * r.toNat) content u)
    ∧ HostCompletes (.tagWrite · r 0 content) 0x0A02 ([r] ++ leBytes 3 0 ++ content) (fun _ u => bit u.upd.tagLocks r.toNat = true)
      .denied (fun _ _ => []) (fun _ u => u))
  ∧ (∀ r : Byte, r.toNat ≤ 15 →
    HostCompletes (.tagLock · r) 0x0A03 [r] (fun _ u => bit u.upd.tagLocks r.toNat = false ∧ tagCrcBad u r.toNat = false) .ok
      (fun _ _ => []) (fun _ u => modUpd (fun x => { x with tagLocks := x.tagLocks + 2 ^ r.toNat }) u)
    ∧ HostCompletes (.tagLock · r) 0x0A03 [r] (fun _ u => bit u.upd.tagLocks r.toNat = true) .ok (fun _ _ => []) (fun _ u => u))) ∧
 ((∀ (k : Byte) (off : Word) (data : List Byte) (len : Nat), k.toNat ≤ 3 → off ≠ 0 →
      HostCompletes (.updBlock · k 0 0 off data) 0x0900 ([k, 0] ++ leBytes 2 0 ++ leBytes 4 off.toNat ++ data)
      (fun c u => (∃ p, u.upd.owner = some (c.session.val, p)) ∧ u.upd.recv = some (k.toNat, len)
        ∧ u.upd.recvCount = off.toNat ∧ off.toNat + data.length ≤ len) .ok
      (fun _ u => leBytes 4 ((heldBytes u k.toNat).length + data.length))
      (fun _ u => putBytes k.toNat len (heldBytes u k.toNat ++ data) (modUpd (fun x => { x with lastBlockUp := u.time.up }) u)))
  ∧ (∀ (k : Byte) (key : List Byte), k.toNat ≤ 3 →
      HostLeads (.updCommit · k) 0x0901 [k]
      (fun c u => (∃ p, u.upd.owner = some (c.session.val, p)) ∧ (othSlot (comp u k.toNat)).st = .complete ∧ u.upd.comps.length = 4 ∧ u.upd.idBad = false
        ∧ u.upd.trial = none ∧ signKey u (rd (othSlot (comp u k.toNat)).bytes 6 1) = some key
        ∧ Config.signatureGood key ((othSlot (comp u k.toNat)).bytes.take 64
            ++ slice (othSlot (comp u k.toNat)).bytes 128 (rd (othSlot (comp u k.toNat)).bytes 12 4 - 128))
            (slice (othSlot (comp u k.toNat)).bytes 64 64) = false) .denied (fun _ _ => [])
      (fun _ u t => (othSlot (comp t k.toNat)).st = .bad ∧ actSlot (comp t k.toNat) = actSlot (comp u k.toNat) ∧ t.upd.trial = none
        ∧ t.upd.owner = u.upd.owner))
  ∧ (∀ (k : Byte) (key : List Byte), k.toNat ≤ 3 →
      HostLeads (.updCommit · k) 0x0901 [k]
      (fun c u => (∃ p, u.upd.owner = some (c.session.val, p)) ∧ (othSlot (comp u k.toNat)).st = .complete ∧ u.upd.comps.length = 4 ∧ u.upd.idBad = false
        ∧ u.upd.trial = none ∧ signKey u (rd (othSlot (comp u k.toNat)).bytes 6 1) = some key
        ∧ Config.signatureGood key ((othSlot (comp u k.toNat)).bytes.take 64
            ++ slice (othSlot (comp u k.toNat)).bytes 128 (rd (othSlot (comp u k.toNat)).bytes 12 4 - 128))
            (slice (othSlot (comp u k.toNat)).bytes 64 64) = true
        ∧ compatible u k.toNat (othSlot (comp u k.toNat)).bytes = true
        ∧ (k.toNat = 2 → readsFormat (othSlot (comp u k.toNat)) (imgFormat u.upd.active) = true)) .ok (fun _ _ => [])
      (fun _ u t => (othSlot (comp t k.toNat)).st = .trial ∧ (othSlot (comp t k.toNat)).bytes = (othSlot (comp u k.toNat)).bytes
        ∧ actSlot (comp t k.toNat) = actSlot (comp u k.toNat)
        ∧ t.upd.trial = some (k.toNat, u.time.up + bits (csr u 0x120000) 0 17 * 2000000)))
  ∧ (∀ (k : Byte) (due : Nat), k.toNat ≤ 3 → HostLeads (.updConfirm · k) 0x0902 [k]
      (fun _ u => u.upd.trial = some (k.toNat, due) ∧ u.upd.comps.length = 4 ∧ (othSlot (comp u k.toNat)).st = .trial
        ∧ u.upd.recv = none) .ok (fun _ _ => [])
      (fun _ u t => t.upd.trial = none ∧ t.upd.owner = none ∧ (actSlot (comp t k.toNat)).st = .valid
        ∧ (actSlot (comp t k.toNat)).bytes = (othSlot (comp u k.toNat)).bytes
        ∧ othSlot (comp t k.toNat) = actSlot (comp u k.toNat)
        ∧ (u.upd.lehrSt = .kept → t.upd.lehrSt = .empty) ∧ (u.upd.lehrSt ≠ .kept → t.upd.lehrSt = u.upd.lehrSt)))
  ∧ HostCompletes (.updConfirm · 0) 0x0902 [0] (fun _ u => u.upd.trial = none) .notReady (fun _ _ => []) (fun _ u => u)
  ∧ HostCompletes .updAbort 0x0903 [] (fun c u => (∃ p, u.upd.owner = some (c.session.val, p)) ∧ u.upd.trial = none ∧ u.upd.recv = none) .ok (fun _ _ => [])
      (fun _ u => modUpd (fun x => { x with owner := none, recv := none, recvCount := 0 }) u)
  ∧ HostCompletes .updAbort 0x0903 [] (fun c u => (∃ p, u.upd.owner = some (c.session.val, p)) ∧ u.upd.trial.isSome = true) .ok
      (fun _ _ => []) (fun _ u => fallAndRestart u))

/-! ## Host commands: ring -/

/-- From R74, R142, R146, R149: SPAN_ADMIN 0 takes a span to ADMIN_DOWN at once, and SPAN_ADMIN 1 starts it again from DOWN;
RING_BACKUP_SET at the master names another present node that can be master; PROOF_TAKEOVER stops the master's duties;
UNWRAP_HOLDOFF_SET writes a hold-off of 10 to 3,600,000 ms. -/
def Obligations.RingCommands : Prop :=
  HostCompletes (.spanAdmin · 0) 0x0B02 [0] NotOnTheRing .ok (fun _ _ => [])
      (fun c u => setSpan (portOf c.target.toNat) .adminDown (setFld (portAddr (portOf c.target.toNat) 0) 0 1 0 u))
  ∧ HostCompletes (.spanAdmin · 1) 0x0B02 [1] (fun c u => (portSt u (portOf c.target.toNat)).span = .adminDown) .ok (fun _ _ => [])
      (fun c u => startLock (portOf c.target.toNat)
        (setSpan (portOf c.target.toNat) .down (setFld (portAddr (portOf c.target.toNat) 0) 0 1 1 u)))
  ∧ (∀ (n : Byte) (l : LightList), HostLeads (.ringBackupSet · n) 0x0B03 [n]
      (fun _ u => isMaster u = true ∧ newestLight u = some l ∧ l.master ≠ n
        ∧ ∃ e ∈ l.entries, e.node = n.toNat ∧ entryPresent e = true ∧ bit e.flags.toNat 4 = true) .ok (fun _ _ => [])
      (fun _ u t => ∃ m, t.ring.nextLight = some m ∧ m.backup = n ∧ m.master = l.master ∧ m.effective.toNat = (cycleNow u + 1) % 2 ^ 64
        ∧ m.entries.map (·.node) = l.entries.map (·.node) ∧ t.ring.light = u.ring.light))
  ∧ (∀ k : Word, HostCompletes (.proofTakeover · k) 0x0B04 (leBytes 4 k.toNat)
      (fun _ u => u.master.role = 1 ∧ u.master.stopped = false ∧ backupNode u ≠ 0) .ok (fun _ _ => [])
      (fun _ u => modMaster (fun m => { m with
        proof := true, stopped := true, proofCycles := k.toNat, proofStartCycle := cycleNow u, proofUp := u.time.up }) u))
  ∧ (∀ ms : Word,
    HostCompletes (.unwrapHoldoffSet · ms) 0x0B05 (leBytes 4 ms.toNat) (fun _ _ => 10 ≤ ms.toNat ∧ ms.toNat ≤ 3600000) .ok
      (fun _ _ => []) (fun c u => csrPut (0x50604 + 4 * c.target.toNat) ms.toNat u)
    ∧ HostCompletes (.unwrapHoldoffSet · ms) 0x0B05 (leBytes 4 ms.toNat) (fun _ _ => ms.toNat < 10 ∨ 3600000 < ms.toNat) .denied
      (fun _ _ => []) (fun _ u => u))

/-! ## Command transport -/

/-- From R44, R174, R279, R374, R375: EFFECTIVE_CYCLE_APPLY with one command held to a cycle that has begun: a DL_WRITE sets its lines and
completes; a SUB_ADD or SUB_REMOVE, whose change took effect with the boundary, completes with its results; a PL_SET to another
level that the map fits begins the transition, and waits for its end.
From R45, R51 to R53: 100 ms without the next part end a multi-part command with ABORTED, its tag consumed; a session whose lease time
has passed without a command is closed, with its locks and its number, and the others learn of it; a suspended session that is not
resumed within 60 s of leaving BOOT is freed. -/
def Obligations.SessionEvents : Prop :=
 (∀ (s : State) (x : Cmd) (k : Nat) (res : List Byte), s.cmd.pendingReset = none → s.reset_.inReset = false → s.cmd.inflight = [x] →
    x.phase = .heldUntil k res → k * s.maps.n ≤ tickNow s → s.power.plCmds = [] → bit x.flags.toNat 3 = false →
    (x.opcode = 0x0505 → x.effc.isSome = true → dlMaskOk s x.target (rd x.params 2 2) = true →
      EffectIs (exec .effectiveCycleApply s) s (· = modCmd (fun q => { q with inflight :=
        [{ x with phase := .ready .ok [], effected := true }] }) (setLines x.target (rd x.params 0 2) (rd x.params 2 2) s)))
    ∧ (x.opcode = 0x0304 ∨ x.opcode = 0x0305 → EffectIs (exec .effectiveCycleApply s) s (· = modCmd (fun q => { q with inflight :=
        [{ x with phase := .ready .ok res, effected := true }] }) s))
    ∧ (∀ lv, x.opcode = 0x0603 → rd x.params 0 1 = lv → lv ≤ 3 → lv ≠ s.power.level → fitsAt (nowView s) lv = true →
      s.power.plTarget = none → EffectIs (exec .effectiveCycleApply s) s (· = modCmd (fun q => { q with inflight :=
        [{ x with phase := .issued, effected := true }] }) (modPower (fun p => { p with
          plCmds := [(x.session, x.tag, lv)], plTarget := some lv, plClocks := false, plVcore := false, plUp := s.time.up }) s)))) ∧
 ((∀ (n : Fin 256) (s : State) (a : Assembly), s.cmd.partials.find? (fun a => a.cmd.session == n.val) = some a →
    a.lastUp + 200000 ≤ s.time.up → EffectIs (exec (.multipartTimeout n) s) s (· =
      modSession n.val (fun x => { x with expected := x.expected + 1 }) (modCmd (fun c => { c with
        partials := c.partials.filter (fun a => a.cmd.session != n.val)
        inflight := c.inflight ++ [{ a.cmd with phase := .ready .aborted [], effected := true }] }) s)))
  ∧ (∀ (n : Fin 256) (s : State) (se : Session), sess s n.val = some se → se.suspended = false → se.lease ≠ 0 →
    se.lastUp + se.lease * 2000000 ≤ s.time.up → s.upd.owner = none → EffectIs (exec (.sessionLeaseLapse n) s) s (· =
      emit 1 (leBytes 1 (hubNo s.hub) ++ leBytes 1 (hubNo s.hub) ++ [0x10]) (modCmd (fun c => { c with
        sessions := c.sessions.filter (fun x => x.num != n.val)
        partials := c.partials.filter (fun a => a.cmd.session != n.val)
        locks := c.locks.filter (fun l => l.2.session != n.val) }) s)))
  ∧ (∀ (n : Fin 256) (s : State) (se : Session), sess s n.val = some se → se.suspended = true → s.hub ≠ .boot → s.hub ≠ .off →
    s.reset_.inReset = false → s.cmd.leftBootUp + 120000000 ≤ s.time.up → s.upd.owner = none →
    EffectIs (exec (.suspendedSessionFree n) s) s (· = modCmd (fun c => { c with
        sessions := c.sessions.filter (fun x => x.num != n.val)
        partials := c.partials.filter (fun a => a.cmd.session != n.val)
        locks := c.locks.filter (fun l => l.2.session != n.val) }) s)))

/-- From R8, R60: while the PCIe endpoint serves, writes of CMDQ_SQ_TAIL, CMDQ_CQ_HEAD and CMDQ_RING_CFG take their fields, indices modulo
the ring's size, and a reserved LOG2 sets BAD_ENC and is not taken; a submission that waits is fetched in slot order and goes to the
interpreter, its slot freed; the packet that the PCIE output chooses is written to the slot at the tail, with MSI-X vector 0, none while
the completion ring is full, and once the rings are disabled only packets of this hub. -/
def Obligations.QueueRegisters : Prop :=
  (∀ (v : Word) (s : State), barFree s = true →
    EffectIs (exec (.cmdqSqTailWrite v) s) s (· = setFld 0x14004C 0 8 (v.toNat % 256 % ringSlots s) s)
    ∧ EffectIs (exec (.cmdqCqHeadWrite v) s) s (· = setFld 0x140058 0 8 (v.toNat % 256 % ringSlots s) s)
    ∧ (4 ≤ v.toNat % 16 → v.toNat % 16 ≤ 8 → EffectIs (exec (.cmdqRingCfgWrite v) s) s (· =
        setFld 0x140048 4 1 (v.toNat / 16 % 2) (setFld 0x140048 0 4 (v.toNat % 16) s)))
    ∧ (v.toNat % 16 < 4 ∨ 8 < v.toNat % 16 → EffectIs (exec (.cmdqRingCfgWrite v) s) s (· =
        setFld 0x140048 4 1 (v.toNat / 16 % 2) (setFld 0x008 0 1 1 s))))
  ∧ (∀ (bs : List Byte) (s : State), ringsOn s = true → sqWaits s = true → cqFull s = false → serves s .pcie = true → fetchHeld s = false →
    EffectIs (exec (.submissionFetch bs) s) s (· = arrive .pcie bs (setFld 0x140050 0 8 ((fld s 0x140050 0 8 + 1) % ringSlots s) s)))
  ∧ (∀ (c : Nat) (f : Frame) (q : List Frame) (s t : State), cqFull s = false → barServes s = true → swf [] s.sw.queues = true →
    swf [] s.cmd.cqSlots = true → pickClass .pcie s = some (c, t) → queueOf s .pcie c = f :: q →
    (ringsOn s = true ∨ f.src = 0 → EffectIs (exec .completionWrite s) s (fun u =>
      queueOf u .pcie c = q ∧ sget [] u.cmd.cqSlots (fld s 0x140054 0 8) = f.payload
      ∧ u.cmd.msix = sput 0 s.cmd.msix 0 (sget 0 s.cmd.msix 0 + 1) ∧ u.cmd.inflight = s.cmd.inflight ∧ u.chans = s.chans
      ∧ fld u 0x140054 0 8 = (fld s 0x140054 0 8 + 1) % ringSlots s % 256))
    ∧ (ringsOn s = false → f.src ≠ 0 → EffectIs (exec .completionWrite s) s (· = s)))
  ∧ (∀ s : State, cqFull s = true ∨ barServes s = false ∨ pickClass .pcie s = none → EffectIs (exec .completionWrite s) s (· = s))

/-- From R62 to R64, R378: on the maintenance port a listed pointer is kept; a packet whose length is not the one its header announces is
discarded, counted, and sets IN_BAD, and a good one goes to the interpreter; the head packet leaves the outbound queue when its
number is written, and any other number is counted; 0xA5 clears IN_BAD; the hub's own address wakes it from SL1. -/
def Obligations.MaintenancePort : Prop :=
  (∀ (p : Byte) (s : State), mntServes s = true → p.toNat ∈ [0x00, 0x01, 0x03, 0x10, 0x20, 0x30, 0x31] →
    EffectIs (exec (.mntPointerWrite p) s) s (· = modCmd (fun c => { c with mntPtr := p }) s))
  ∧ (∀ (bs : List Byte) (rs : Bool) (s : State), mntServes s = true →
    (rs = true ∨ bs.length < 16 ∨ bs.length ≠ announced bs → EffectIs (exec (.packetIn bs rs) s) s (· =
      bump 0x140028 (modCmd (fun c => { c with mntPtr := 0x10, mntInBad := true }) s)))
    ∧ (rs = false → 16 ≤ bs.length → bs.length = announced bs → EffectIs (exec (.packetIn bs rs) s) s (· =
      arrive .maint bs (modCmd (fun c => { c with mntPtr := 0x10, mntInBad := false }) s))))
  ∧ (∀ (seq : BitVec 16) (h : BitVec 16 × List Byte) (t : List (BitVec 16 × List Byte)) (s : State), mntServes s = true →
    s.cmd.mntOut = h :: t →
    (h.1 = seq → EffectIs (exec (.outAck seq) s) s (· = modCmd (fun c => { c with mntPtr := 0x30, mntOut := t }) s))
    ∧ (h.1 ≠ seq → EffectIs (exec (.outAck seq) s) s (· = bump 0x140028 (modCmd (fun c => { c with mntPtr := 0x30 }) s))))
  ∧ (∀ s : State, mntServes s = true → EffectIs (exec (.inClear 0xA5) s) s (· = modCmd (fun c => { c with mntPtr := 0x31, mntInBad := false }) s))
  ∧ (∀ (a : BitVec 7) (s : State), a.toNat = s.power.i2cAddr → s.hub = .sleep → s.power.wakeDone = false → s.power.waking = false →
    s.power.sleepLevel = 1 → EffectIs (exec (.i2cAddressMatch a) s) s (· =
      modPower (fun p => { p with waking := true, wakeSource := 2, wakeUp := s.time.up }) s))
  ∧ (∀ (a : BitVec 7) (s : State), a.toNat ≠ s.power.i2cAddr → EffectIs (exec (.i2cAddressMatch a) s) s (· = s))

/-! ## Windows and locks -/

/-- From R4, R5, R22, R25, R317: a BAR0 write or read of an aligned word of a block, while the endpoint serves, writes the register, or
returns it and has the effect of the read; an unaligned one changes no register but SYS_ERR, raises PCIE_ACCESS, and reads all ones.
A BAR4 read returns the bytes of the history and has no side effect; one past its end, and any BAR4 write, is refused likewise.
A UNWRAP_HOLDOFF write shows a field taken (R149), a read of SW_POOL_MIN its reload (R123). -/
def Obligations.RegisterAccess : Prop :=
  (∀ (rq : BitVec 16) (off : Nat) (v : DWord) (s : State), barFree s = true → off % 4 = 0 → off < 0x1000000 → inBlock off = true →
    EffectIs (exec (.csrWrite rq .bar0 off 4 v) s) s (· = csrWrite off (v.toNat % 2 ^ 32) s)
    ∧ EffectIs (exec (.rcRegisterRead rq .bar0 off 4) s) s (· = barAnswer (leBytes 4 (csrPeek s off)) (csrReadEffect off s)))
  ∧ (∀ (rq : BitVec 16) (v : DWord) (s : State), barFree s = true → 10 ≤ v.toNat → v.toNat ≤ 3600000 →
    EffectIs (exec (.csrWrite rq .bar0 0x50604 4 v) s) s (· = setFld 0x50604 0 32 v.toNat s))
  ∧ (∀ (rq : BitVec 16) (s : State), barFree s = true → EffectIs (exec (.rcRegisterRead rq .bar0 0x60010 4) s) s (· =
      barAnswer (leBytes 4 (csrPeek s 0x60010)) (csrPut 0x60010 (sharedFree s) s)))
  ∧ (∀ (rq : BitVec 16) (off : Nat) (v : DWord) (s : State), barFree s = true → off % 4 ≠ 0 → off + 4 < 0x50000 →
    EffectIs (exec (.csrWrite rq .bar0 off 4 v) s) s (· = pcieBad rq.toNat off true (setFld 0x008 1 1 1 s))
    ∧ EffectIs (exec (.rcRegisterRead rq .bar0 off 4) s) s (· =
        barAnswer [0xFF, 0xFF, 0xFF, 0xFF] (pcieBad rq.toNat off false (setFld 0x008 1 1 1 s))))
  ∧ (∀ (rq : BitVec 16) (off size : Nat) (v : DWord) (s : State), barFree s = true →
    EffectIs (exec (.csrWrite rq .bar4 off size v) s) s (· = pcieBad rq.toNat off true (setFld 0x008 2 1 1 s))
    ∧ (off + size ≤ 0x2000000 → EffectIs (exec (.rcRegisterRead rq .bar4 off size) s) s (fun u =>
        u.cmd = { s.cmd with barData := (upFrom off size).map (historyByte s) } ∧ { u with cmd := s.cmd, fresh := s.fresh } = s))
    ∧ (0x2000000 < off + size → EffectIs (exec (.rcRegisterRead rq .bar4 off size) s) s (· =
        barAnswer (List.replicate size 0xFF) (pcieBad rq.toNat off false (setFld 0x008 2 1 1 s)))))

/-- From R217: reading HEAD of a buffer object locks it and clears NEW, at most four times; reading END clears its counts and releases
one lock; a lock held for 100 µs is released and counted.
From R192, R313, R314, R316, R319: a 16-byte read of RX_POP or POP, of a unit that the maps do not claim, takes the oldest word, notes it
under the next pop sequence, and takes nothing of an empty queue; a push of one word with room is placed, and without room it is
held and counted. -/
def Obligations.WindowAccess : Prop :=
 (∀ (ch : Fin 128) (m : Fin 64) (s : State), isBuffer s ch.val m.val = true →
    (barFree s = true → barBehind s ch.val false s.time.up = false → (moBuf (chan s ch.val) m.val).locks.length < 4 →
      EffectIs (exec (.canObjectHeadRead ch m) s) s (fun u => ∃ bs, bs.length = 8 ∧ u = barAnswer bs
        (modMo ch.val m.val (fun o => { o with locks := o.locks ++ [s.time.up], new_ := false }) (draw s).2)))
    ∧ (barFree s = true → barBehind s ch.val false s.time.up = false →
      EffectIs (exec (.canObjectEndRead ch m) s) s (fun u => ∃ bs, bs.length = 8 ∧ u = barAnswer bs
        (unlockMo ch.val m.val (modMo ch.val m.val (fun o => { o with replaced := 0, overruns := 0 }) (draw s).2))))
    ∧ (∀ t l, (moBuf (chan s ch.val) m.val).locks = t :: l → t + 200 ≤ s.time.up → EffectIs (exec (.canLockTimeout ch m) s) s (· =
        bump (chnAddr ch.val 0x1B0) (unlockMo ch.val m.val s)))) ∧
 ((∀ (ch : Fin 128) (s : State), barFree s = true → claimedRead s ch.val = false → barBehind s ch.val false s.time.up = false →
    (∀ w t, (chan s ch.val).rxq = w :: t → EffectIs (exec (.rxPop ch 16) s) s (· = barAnswer (popBytes w (chan s ch.val).popSeq)
      (modChan ch.val (fun c => { c with
        rxq := t, popSeq := (c.popSeq + 1) % 2 ^ 32
        history := (c.history ++ [(c.popSeq, w)]).drop (c.history.length + 1 - 64) }) (draw s).2)))
    ∧ ((chan s ch.val).rxq = [] → EffectIs (exec (.rxPop ch 16) s) s (· =
      barAnswer (popBytes 0 (chan s ch.val).popSeq) (bump (chnAddr ch.val 0xA4) (draw s).2))))
  ∧ (∀ (e : Fin 32) (s : State), barFree s = true → claimedRead s (0x100 + e.val) = false →
    barBehind s (0x100 + e.val) false s.time.up = false →
    (∀ w k t, (engine s e.val).push = (w, k) :: t → EffectIs (exec (.enginePop e 16) s) s (· =
      barAnswer (popBytes (BitVec.ofNat 64 (w + 2 ^ 63)) (engine s e.val).popSeq) (modEngine e.val (fun x => { x with
        push := t, popSeq := (x.popSeq + 1) % 2 ^ 32
        history := (x.history ++ [(x.popSeq, BitVec.ofNat 64 (w + 2 ^ 63))]).drop (x.history.length + 1 - 64) }) (draw s).2)))
    ∧ ((engine s e.val).push = [] → EffectIs (exec (.enginePop e 16) s) s (· =
      barAnswer (popBytes 0 (engine s e.val).popSeq) (draw s).2)))
  ∧ (∀ (ch : Fin 128) (w : DWord) (s : State), barFree s = true → pushDenied s ch.val = false →
    (∀ t, barBehind s ch.val true s.time.up = false → pushOne ch.val w (draw s).2 = some t →
      EffectIs (exec (.windowTxPush ch w) s) s (· = t))
    ∧ (barBehind s ch.val true s.time.up = true ∨ pushOne ch.val w (draw s).2 = none → EffectIs (exec (.windowTxPush ch w) s) s (fun u =>
      ∃ h, u.cmd.heldPushes = s.cmd.heldPushes ++ [h] ∧ h.engine = false ∧ h.unit = ch.val ∧ h.word = w ∧ h.up = s.time.up
        ∧ u.chans = s.chans ∧ { u.cmd with heldPushes := s.cmd.heldPushes } = s.cmd)))
  ∧ (∀ (e : Fin 32) (w : Word) (s : State), barFree s = true → pushDenied s (0x100 + e.val) = false →
    (∀ t, barBehind s (0x100 + e.val) true s.time.up = false → pushOne (0x100 + e.val) (BitVec.ofNat 64 w.toNat) (draw s).2 = some t →
      EffectIs (exec (.enginePush e w) s) s (· = t))
    ∧ (barBehind s (0x100 + e.val) true s.time.up = true ∨ pushOne (0x100 + e.val) (BitVec.ofNat 64 w.toNat) (draw s).2 = none →
      EffectIs (exec (.enginePush e w) s) s (fun u =>
      ∃ h, u.cmd.heldPushes = s.cmd.heldPushes ++ [h] ∧ h.engine = true ∧ h.unit = e.val ∧ h.up = s.time.up
        ∧ u.engines = s.engines ∧ { u.cmd with heldPushes := s.cmd.heldPushes } = s.cmd))))

/-- From R309, R310, R316, R319: 1 ms after its arrival a held PCIe push is dropped, counted, and raises PCIE_WIN_DROP; 1 ms after its
processing tick a TX_PUSH without room completes with QUEUE_FULL and the words accepted; a lock past its expiry ends, and its holder
alone learns of it; an item that a lock has blocked for 100 ms completes with LOCKED. -/
def Obligations.WindowTimeouts : Prop :=
  (∀ (h : HeldPush) (t : List HeldPush) (s : State), s.cmd.heldPushes = h :: t → h.up + 2000 ≤ s.time.up →
    EffectIs (exec .pciePushDrop s) s (· =
      (let target := if h.engine then 0x100 + h.unit else h.unit
       detect 0x0002 { detail := unitDetail (if h.engine then 1 else 0) h.unit, address := barAddr target 0x10,
                       initiator := h.requester, initKind := 2, access := 2 }
         (bump 0x140084 (giveUpWord target h.word (modCmd (fun x => { x with heldPushes := t }) s))))))
  ∧ (∀ (n : Fin 256) (x : Cmd) (k : Nat) (s : State), s.cmd.inflight = [x] → x.phase = .pushing k → x.session = n.val →
    x.up + 2000 ≤ s.time.up → x.opcode = 0x0407 → EffectIs (exec (.windowPushTimeout n) s) s (· = bump 0x140098 (modCmd (fun q => { q with
      inflight := [{ x with phase := .ready .queueFull (leBytes 4 k), effected := true }] }) s)))
  ∧ (∀ (ch : Fin 128) (l : Lock) (s : State), lockedBy s ch.val = some l → l.expiry ≤ tickNow s →
    EffectIs (exec (.lockExpiry ch) s) s (fun u => u.cmd.locks = sdel s.cmd.locks ch.val ∧ u.cmd.inflight = s.cmd.inflight
      ∧ u.chans = s.chans ∧ ∀ se ∈ s.cmd.sessions, se.num ≠ l.session → se ∈ u.cmd.sessions))
  ∧ (∀ (ch : Fin 128) (x : Cmd) (s : State), s.cmd.inflight = [x] → x.phase = .waiting → (chan s ch.val).lockWaits = [(x.session, x.tag)] →
    x.up + 200000 ≤ s.time.up → (chan s ch.val).st ≠ .off → EffectIs (exec (.lockWaitTimeout ch) s) s (fun u =>
      u.cmd.inflight = [{ x with phase := .ready .locked [], effected := true }] ∧ (chan u ch.val).rxq = (chan s ch.val).rxq
      ∧ { u.cmd with inflight := s.cmd.inflight } = s.cmd ∧ ∀ k, k ≠ ch.val → chan u k = chan s k))

/-! ## Reset and start-up -/

/-- From R386 to R388, R390, R392, R401, R415: each reset source asserts its cause on its condition; a low pulse of a ball below 2 µs, a
watchdog that is served, and a junction below its limit, or above it for less than 10 µs, assert nothing. -/
def Obligations.ResetSources : Prop :=
  ∀ s : State,
    (s.power.pwrgd = false → s.reset_.asserted.any (fun a => a.1 == 0) = false →
      EffectIs (exec (.powerOn false) s) s (AssertedBy 0 s)
      ∧ EffectIs (exec (.powerOn true) s) s (fun u => AssertedBy 0 s u ∧ u.reset_.recLoss = true ∧ u.reset_.countMode = false))
    ∧ (∀ ns, 2000 ≤ ns → s.reset_.asserted.any (fun a => a.1 == 4) = false → EffectIs (exec (.porstN ns) s) s (AssertedBy 4 s))
    ∧ (∀ ns, 2000 ≤ ns → s.reset_.asserted.any (fun a => a.1 == 5) = false → EffectIs (exec (.wrstN ns) s) s (AssertedBy 5 s))
    ∧ (∀ ns, ns < 2000 → EffectIs (exec (.porstN ns) s) s (· = s) ∧ EffectIs (exec (.wrstN ns) s) s (· = s))
    ∧ (∀ us, 50000 ≤ us → s.reset_.asserted.any (fun a => a.1 == 6) = false → EffectIs (exec (.watchdog us) s) s (AssertedBy 6 s))
    ∧ (∀ us, us < 50000 → EffectIs (exec (.watchdog us) s) s (· = s))
    ∧ (∀ (t : Int) us, (if orderCode s = 2 then 1450 else 1350) ≤ t → 10 ≤ us → s.reset_.asserted.any (fun a => a.1 == 3) = false →
      EffectIs (exec (.thermal t us) s) s (AssertedBy 3 s))
    ∧ (∀ (t : Int) us, t < (if orderCode s = 2 then 1450 else 1350) ∨ us < 10 →
      EffectIs (exec (.thermal t us) s) s (· = modPower (fun p => { p with junctionDeciC := t }) s))
    ∧ (∀ src : BitVec 16, src.toNat / 256 = 2 → (sourceRow src.toNat).isSome = true → s.faults.frozen = false →
      s.reset_.asserted.any (fun a => a.1 == 0xB) = false → EffectIs (exec (.critical src) s) s (fun u => AssertedBy 0xB s u
        ∧ u.faults.frozen = true ∧ ∃ e, u.faults.backup = some e ∧ e.source = src.toNat))
    ∧ (∀ r t c, s.cmd.pendingReset = some (r, t) → t + 2000 ≤ s.time.up → c = (match r with | .cold => 7 | .warm => 8 | _ => 9) →
      s.reset_.asserted.any (fun a => a.1 == c) = false → EffectIs (exec .commandResetAssert s) s (fun u => AssertedBy c s u
        ∧ u.cmd.pendingReset = none))

/-- From R390, R391, R401 to R403: RST_CTL with its key asks for a COLD, WARM or SERVICE reset, due 1 ms later, or resets one unit at once;
with another key, or an index that its kind does not have, it is a reserved encoding and resets nothing; RST_REC.CLR empties the
record and the counters, and so does a change of MODE. -/
def Obligations.ResetRequests : Prop :=
  ∀ s : State, barFree s = true →
    (∀ kind index, EffectIs (exec (.rstCtlCold 0xC3 kind index) s) s (· = modCmd (fun c => { c with pendingReset := some (.cold, s.time.up) }) s)
      ∧ EffectIs (exec (.rstCtlWarm 0xC3 kind index) s) s (· = modCmd (fun c => { c with pendingReset := some (.warm, s.time.up) }) s)
      ∧ EffectIs (exec (.rstCtlService 0xC3 kind index) s) s (· = modCmd (fun c => { c with pendingReset := some (.service, s.time.up) }) s))
    ∧ (∀ p : Port, EffectIs (exec (.rstCtlBlock 0xC3 3 (if p = .east then 0 else 1)) s) s (· =
        modPort p (fun q => { q with blockUntil := some (s.time.up + 2000) }) (setSpan p .adminDown s)))
    ∧ (∀ e : BitVec 7, e.toNat < 32 → leActive (leState s e.toNat) = false → EffectIs (exec (.rstCtlBlock 0xC3 1 e) s) s (· =
        bumpBy (leAddr e.toNat 0x08C) ((engine s e.toNat).push.length + (engine s e.toNat).pull.length) (modEngine e.toNat (fun x => { x with
          lstate := 0, shift := 0, count := 0, counter := 0, push := [], pull := [], tickPend := false, lastTick := tickNow s
          evtCode := 0, evtPend := false, stalled := none, haltPend := false, abandoned := false }) s)))
    ∧ (∀ (key : Byte) (kind : Fin 4) (index : BitVec 7), key ≠ 0xC3 →
      EffectIs (exec (.rstCtlCold key kind index) s) s (· = setFld 0x008 0 1 1 s)
      ∧ EffectIs (exec (.rstCtlWarm key kind index) s) s (· = setFld 0x008 0 1 1 s)
      ∧ EffectIs (exec (.rstCtlService key kind index) s) s (· = setFld 0x008 0 1 1 s)
      ∧ EffectIs (exec (.rstCtlBlock key kind index) s) s (· = setFld 0x008 0 1 1 s))
    ∧ (∀ (kind : Fin 4) (index : BitVec 7), unitOk kind.val index.toNat = false →
      EffectIs (exec (.rstCtlBlock 0xC3 kind index) s) s (· = setFld 0x008 0 1 1 s))
    ∧ EffectIs (exec .rstRecClr s) s (· = modReset (fun r => { r with
        recValid := false, recTv := false, recCause := 0, recReach := 0, recSec := 0, recNs := 0, counts := [] }) s)
    ∧ (∀ mode, mode ≠ s.reset_.countMode → EffectIs (exec (.rstRecModeWrite mode) s) s (· = modReset (fun r => { r with
        countMode := mode, recValid := false, recTv := false, recCause := 0, recReach := 0, recSec := 0, recNs := 0, counts := [] }) s))
    ∧ EffectIs (exec (.rstRecModeWrite s.reset_.countMode) s) s (· = s)

/-- From R386, R388, R395, R396, R399, R466: a fixed source is released 100 µs after its assertion, a supply source with PWRGD, and
THERMAL 20 K below its figure; 200 ticks after the last release BOOT begins, at step 1 without ring time or, after SERVICE, at step 5;
the steps follow each other where their firmware verifies, and a bad active configuration leads to HELD; a port that has not come up
100,000 ticks after step 4 has spent its allowance; and 2 s without a beacon after the first span raise RING_BEACON_LOST. -/
def Obligations.StartUp : Prop :=
  ∀ s : State,
    (∀ (c : Fin 16) (t : Nat), s.reset_.asserted.find? (fun a => a.1 == c.val) = some (c.val, t) → s.hub ≠ .off →
      (c.val ≤ 2 ∧ s.power.pwrgd = true ∨ c.val = 3 ∧ s.power.junctionDeciC ≤ (if orderCode s = 2 then 1250 else 1150)
        ∨ c.val = 4 ∨ c.val = 5 ∨ 6 ≤ c.val ∧ t + 200 ≤ s.time.up) →
      EffectIs (exec (.resetRelease c) s) s (· = modReset (fun r => { r with
        asserted := r.asserted.filter (fun a => a.1 != c.val), lastReleaseUp := s.time.up }) s))
    ∧ (s.reset_.inReset = true → s.reset_.asserted = [] → s.reset_.lastReleaseUp + 200 ≤ s.time.up →
      EffectIs (exec .resetEnd s) s (fun u => u.reset_.inReset = false ∧ u.reset_.bootStep = (if s.reset_.reach = .service then 5 else 1)
        ∧ u.reset_.bootUp = s.time.up ∧ u.hub = s.hub ∧ u.time.up = s.time.up ∧ (s.reset_.reach ≠ .service → u.time.holds = false)
        ∧ u.chans = s.chans ∧ u.cmd.mntOut.map (·.2) = s.cmd.mntOut.map (·.2)))
    ∧ (∀ v : BitVec 4, s.hub = .boot → s.reset_.inReset = false → s.reset_.bootFail = 0 →
      (s.reset_.bootStep = 1 → v.getLsbD 3 = true → s.faults.backup = none → EffectIs (exec (.bootStep v) s) s (fun u =>
        u.reset_ = { s.reset_ with bootStep := 2 } ∧ u.upd.recovery = false ∧ u.hub = .boot))
      ∧ (s.reset_.bootStep = 2 ∨ s.reset_.bootStep = 6 → EffectIs (exec (.bootStep v) s) s (· =
        modReset (fun r => { r with bootStep := s.reset_.bootStep + 1 }) s))
      ∧ (s.reset_.bootStep = 3 → v.getLsbD 0 = false → s.upd.trial = none → (othSlot (comp s 0)).st ≠ .valid →
        EffectIs (exec (.bootStep v) s) s (· = modReset (fun r => { r with bootStep := 4, bootFail := 4 }) s))
      ∧ (s.reset_.bootStep = 5 → (validate s s.upd.active).cause ≠ 0 → EffectIs (exec (.bootStep v) s) s (fun u => u.hub = .held
        ∧ u.reset_.heldCause = (validate s s.upd.active).cause ∧ u.reset_.bootStep = 6)))
    ∧ (∀ p : Port, 4 ≤ s.reset_.bootStep → isUp s p = false → s.reset_.step4Up + 100000 ≤ s.time.up →
      EffectIs (exec (.spanAllowanceExpiry p) s) s (· = modPort p (fun q => { q with allowanceOver := true }) s))
    ∧ (∀ t, s.time.firstUpUp = some t → s.hub = .boot → s.time.lastBeacon = none → t + 4000000 ≤ s.time.up →
      (faultSrc s 0x0303).st ≠ .active → EffectIs (exec .bootBeaconTimeout s) s (· = detect 0x0303 {} s))

/-! ## Power, outlets and sleep -/

/-- From R360 to R362, R364: VIN below 15.5 V for 10 µs or above 34.0 V for 1 µs, 40 ms of the limit, or a hot FET switch the stage off
and assert their causes; a start below 100 °C switches it on, a hot one is gated; the limit runs its timer; PWRGD rises after 10 ms of
good rails and falls, as a brown-out, with the first that is not. -/
def Obligations.SupplyEvents : Prop :=
  ∀ s : State,
    (∀ mv us, mv < 15500 → 10 ≤ us → s.power.stageOn = true → s.reset_.asserted.any (fun a => a.1 == 1) = false →
      EffectIs (exec (.brownOut mv us) s) s (fun u => AssertedBy 1 s u ∧ u.power.stageOn = false ∧ u.power.pwrgd = false))
    ∧ (∀ mv us, 34000 < mv → 1 ≤ us → s.power.stageOn = true → s.reset_.asserted.any (fun a => a.1 == 2) = false →
      EffectIs (exec (.vinOvervoltage mv us) s) s (fun u => AssertedBy 2 s u ∧ u.power.stageOn = false ∧ u.power.ovLock = true
        ∧ u.power.ov = min 255 (s.power.ov + 1)))
    ∧ (∀ fet : Int, s.power.stageOn = true → (s.power.limit = true ∧ s.power.limitUp + 80000 ≤ s.time.up ∨ 1500 < fet) →
      s.reset_.asserted.any (fun a => a.1 == 2) = false →
      EffectIs (exec (.vinTrip fet) s) s (fun u => AssertedBy 2 s u ∧ u.power.stageOn = false ∧ u.power.trips = min 255 (s.power.trips + 1)
        ∧ u.power.tripUp = some s.time.up))
    ∧ (∀ mv (fet : Int), s.power.stageOn = false → 17000 ≤ mv → mv < 33000 → (∀ t, s.power.tripUp = some t → t + 2000000 ≤ s.time.up) →
      (fet < 1000 → EffectIs (exec (.vinStageOn mv fet) s) s (fun u => u.power.stageOn = true ∧ u.power.gated = s.power.gateWait
        ∧ u.power.stepUp = s.time.up ∧ u.power.railsUp = s.time.up ∧ { u with power := s.power } = s))
      ∧ (1000 ≤ fet → EffectIs (exec (.vinStageOn mv fet) s) s (fun u => u.power.stageOn = false ∧ u.power.gated = true
        ∧ { u with power := s.power } = s)))
    ∧ (s.power.stageOn = true → s.power.limit = false → EffectIs (exec (.vinStageLimit true) s) s (· =
        bump 0x2010C (modPower (fun p => { p with limit := true, limitUp := s.time.up }) s)))
    ∧ (s.power.stageOn = true → s.power.limit = true → EffectIs (exec (.vinStageLimit false) s) s (· =
        modPower (fun p => { p with limit := false, stepUp := s.time.up, railsUp := s.time.up }) s))
    ∧ (s.power.stageOn = true → s.power.pwrgd = false → s.power.limit = false → s.power.rails = 0xFF → s.power.railsUp + 20000 ≤ s.time.up →
      EffectIs (exec .pwrgdRise s) s (· = modPower (fun p => { p with pwrgd := true }) s))
    ∧ (s.power.rails ≠ 0xFF ∨ s.power.limit = true ∨ s.time.up < s.power.railsUp + 20000 → EffectIs (exec .pwrgdRise s) s (· = s))
    ∧ (∀ rails : Byte, s.power.pwrgd = true → rails ≠ 0xFF → s.hub ≠ .sleep → s.reset_.asserted.any (fun a => a.1 == 1) = false →
      EffectIs (exec (.pwrgdFall rails) s) s (fun u => AssertedBy 1 s u ∧ u.power.pwrgd = false ∧ u.power.rails = rails))

/-- From R368 to R370: what outlets do: STARTING ends in ON after 1 ms at or below I_TRIP, and in a trip when t_START is over; ON above
I_TRIP enters LIMIT, which ends in ON below it and in a trip when t_FLT is over; a FET above 150 °C trips; the cool-down ends in a
retry that uses one; and t_FORGIVE of unbroken ON returns USED to 0. -/
def Obligations.OutletEvents : Prop :=
  ∀ (o : Fin 32) (s : State),
    ((outlet s o.val).st = .starting → (outlet s o.val).okUp + 2000 ≤ s.time.up → EffectIs (exec (.outletStartOk o) s) s (fun u =>
      (outlet u o.val).st = .on ∧ (outlet u o.val).used = (outlet s o.val).used ∧ (∀ k, k ≠ o.val → outlet u k = outlet s k)
      ∧ { u with power := s.power } = s))
    ∧ (∀ ma, (outlet s o.val).st = .on → outTrip s o.val < ma → EffectIs (exec (.outletOvercurrent o ma) s) s (fun u =>
      (outlet u o.val).st = .limit ∧ (outlet u o.val).sinceUp = s.time.up ∧ (outlet u o.val).ma ≤ outLimit s o.val
      ∧ (∀ k, k ≠ o.val → outlet u k = outlet s k) ∧ { u with power := s.power, csr := s.csr, totals := s.totals } = s))
    ∧ (∀ ma, (outlet s o.val).st = .limit → ma ≤ outTrip s o.val → EffectIs (exec (.outletOvercurrent o ma) s) s (fun u =>
      (outlet u o.val).st = .on ∧ (∀ k, k ≠ o.val → outlet u k = outlet s k) ∧ { u with power := s.power } = s))
    ∧ ((outlet s o.val).st = .limit → (outlet s o.val).sinceUp + outTflt s o.val ≤ s.time.up →
      EffectIs (exec (.tFltExpiry o) s) s (TripOf o.val s))
    ∧ ((outlet s o.val).st = .starting → (outlet s o.val).sinceUp + outTstart s o.val ≤ s.time.up →
      EffectIs (exec (.tStartExpiry o) s) s (TripOf o.val s))
    ∧ (∀ t : Int, 1500 < t → (outlet s o.val).st = .starting ∨ (outlet s o.val).st = .on ∨ (outlet s o.val).st = .limit →
      EffectIs (exec (.outletTempTrip o t) s) s (TripOf o.val s))
    ∧ ((outlet s o.val).st = .cooldown → (outlet s o.val).sinceUp + outCool s o.val ≤ s.time.up → (outlet s o.val).deciC < 1000 →
      EffectIs (exec (.cooldownEnd o) s) s (fun u => (outlet u o.val).st = .starting ∧ (outlet u o.val).used = (outlet s o.val).used + 1
        ∧ (∀ k, k ≠ o.val → outlet u k = outlet s k) ∧ u.chans = s.chans ∧ u.cmd.inflight = s.cmd.inflight))
    ∧ ((outlet s o.val).st = .on → (outlet s o.val).sinceUp + outForgive s o.val ≤ s.time.up → 0 < (outlet s o.val).used →
      EffectIs (exec (.tForgiveExpiry o) s) s (fun u => (outlet u o.val).st = .on ∧ (outlet u o.val).used = 0
        ∧ (∀ k, k ≠ o.val → outlet u k = outlet s k) ∧ u.chans = s.chans ∧ u.cmd.inflight = s.cmd.inflight))

/-- From R365, R374, R375, R382: a bank below 16 V stands in SUPPLY_OFF whole, no other with it, its latches kept; the warning temperature
raises its condition; the clocks of a step down switch first and set the level, the core voltage of a step up arrives first; and
PWR_VIN_STAT.CLR clears its counts. -/
def Obligations.PowerEvents : Prop :=
  ∀ s : State,
    (∀ (b : Fin 4) mv, mv < 16000 → s.power.vfbLow.contains b.val = false → EffectIs (exec (.vfbUv b mv) s) s (· =
      forEach (upFrom (8 * b.val) 8) (fun o => modOutlet o (fun x => { x with
          latched := x.latched || x.st == .latched, cooling := x.cooling || x.st == .cooldown
          sinceUp := if x.st = .cooldown ∨ x.cooling then x.sinceUp else s.time.up
          waitCool := false, ma := 0, st := .supplyOff }))
        (unitFault 0x0102 4 b.val (modPower (fun p => { p with vfbMv := sput 24000 p.vfbMv b.val mv, vfbLow := b.val :: p.vfbLow }) s))))
    ∧ (∀ t : Int, (if orderCode s = 2 then 1200 else 1100) ≤ t → s.power.tjHigh = false → EffectIs (exec (.junctionTempHigh t) s) s (· =
        detect 0x0103 {} (modPower (fun p => { p with junctionDeciC := t, tjHigh := true }) s)))
    ∧ (∀ t : Int, t ≤ (if orderCode s = 2 then 1200 else 1100) - 50 → s.power.tjHigh = true → EffectIs (exec (.junctionTempHigh t) s) s (· =
        condEnd 0x0103 false (modPower (fun p => { p with junctionDeciC := t, tjHigh := false }) s)))
    ∧ (∀ t, s.power.plTarget = some t → s.power.level < t → s.power.plClocks = false → s.power.plVcore = false →
      EffectIs (exec (.plTransitionStep .clocks) s) s (· = bump 0x20100 (modPower (fun p => { p with level := t, plClocks := true }) s))
      ∧ EffectIs (exec (.plTransitionStep .vcore) s) s (· = s))
    ∧ (∀ t, s.power.plTarget = some t → t < s.power.level → s.power.plClocks = false → s.power.plVcore = false →
      EffectIs (exec (.plTransitionStep .vcore) s) s (· = bump 0x20100 (modPower (fun p => { p with plVcore := true }) s))
      ∧ EffectIs (exec (.plTransitionStep .clocks) s) s (· = s))
    ∧ (barFree s = true → EffectIs (exec .pwrVinStatClr s) s (· = modPower (fun p => { p with trips := 0, ov := 0, gated := false }) s))

/-- From R376 to R379: SLEEP_ENTRY at its boundary takes the hub to SLEEP at the level asked, starts no further cycle, and answers the
command; 1 ms after the last release the ports of SL2 go to ADMIN_DOWN, channels stand as in
reset, outlets have no supply, and the halted engines keep their state;
a WAKE frame that names this hub wakes it from SL1, another does not; the end of the wake sequence is recorded; PWR_WAKE_TX
sends a WAKE frame to a node of the light list. -/
def Obligations.SleepEvents : Prop :=
  ∀ s : State,
    (∀ level k x, s.power.sleepAt = some (level, k, x.session, x.tag) → fieldLive s = true → k ≤ cycleNow s → sleepDenied level s = false →
      s.cmd.inflight = [x] → EffectIs (exec .sleepEntry s) s (fun u => u.hub = .sleep ∧ u.power.sleepLevel = level
        ∧ u.power.sleepAt = none ∧ u.maps.boundary = some (cycleNow s) ∧ u.maps.changes = []
        ∧ ∃ y, u.cmd.inflight = [y] ∧ y.session = x.session ∧ y.tag = x.tag ∧ isReady y = true))
    ∧ (s.hub = .sleep → s.power.sleepLevel = 2 → s.power.portsDown = false → swf {} s.power.outlets = true → s.power.sleepUp + mapDout s + 2000 ≤ s.time.up →
      EffectIs (exec .sleepPortsDown s) s (fun u => u.hub = .sleep ∧ u.ring.east.span = .adminDown ∧ u.ring.west.span = .adminDown
        ∧ u.power.portsDown = true ∧ u.dl.pend = [] ∧ u.power.sleepLevel = 2 ∧ u.engines = s.engines
        ∧ (∀ o, o < 32 → (outlet u o).st = .supplyOff) ∧ ∀ ch, (chan u ch).st = .off))
    ∧ (∀ v, s.hub = .sleep → s.power.waking = true → s.power.sleepLevel = 1 → noSpanUp s = false →
      EffectIs (exec (.wakeSequenceEnd true v) s) s (fun u => u.power.wakeDone = true ∧ u.power.waking = false
        ∧ u.power.lastSl = 1 ∧ u.power.lastSource = s.power.wakeSource
        ∧ u.power.lastMs = min 0xFFFF ((s.time.up - s.power.wakeUp) / 2000) ∧ u.hub = .sleep))
    ∧ (∀ f, ctlHead s 0x0B 16 = some f → s.hub = .sleep → s.power.sleepLevel = 1 →
      fld s 0x20014 7 1 = 1 → s.power.wakeDone = false → s.power.waking = false →
      (f.dst = s.ring.node → rd f.payload 4 4 = ringId s → rd f.payload 8 8 = (myUid s).toNat →
        EffectIs (exec .wakeRx s) s (fun u => u.power.waking = true ∧ u.power.wakeSource = 1 ∧ u.chans = s.chans))
      ∧ (rd f.payload 8 8 ≠ (myUid s).toNat → EffectIs (exec .wakeRx s) s (fun u => u.power = s.power ∧ u.chans = s.chans)))
    ∧ (∀ (n : Byte) (l : LightList) (e : LightEntry), barFree s = true → n ≠ 0 → n ≠ 255 → s.ring.light = some l →
      l.entries.find? (fun x => x.node == n.toNat) = some e → numbered s = true → EffectIs (exec (.pwrWakeTx n) s) s (· =
        sendCtl n.toNat 0 0 false ([0x0B, 0, 0, 0] ++ leBytes 4 (ringId s) ++ leBytes 8 e.uid.toNat) s))
    ∧ (∀ n : Byte, barFree s = true → s.ring.light = none → EffectIs (exec (.pwrWakeTx n) s) s (· = setFld 0x008 0 1 1 s))

/-! ## Faults, check values and update -/

/-- From R406, R411 to R413, R416, R417, R420: an armed injection of a source writes one record with the next SEQ at index SEQ mod 512, in
the name of its session, takes the source to PENDING unless it is ACTIVE, fills an empty first-fault latch, and marks the overflow
of a full one; inside the handling interval of an earlier record it merges into that; while frozen nothing is logged.
From R409, R410, R417, R301: the commit of a record is followed by the reactions of its mask: TRAP takes a snapshot and counts it, IRQ
tells the sessions, sets the pending bit of the group and sends MSI-X when that rises, CHIP asserts FAULT_CHIP; a clear of a
first-fault latch empties it and its overflow; that of group 7 and the map latch clear each other. -/
def Obligations.FaultEvents : Prop :=
 (∀ (code : BitVec 16) (row : Nat × Bool × Nat × Option Nat) (s : State), sourceRow code.toNat = some row → codedSource code.toNat = false →
    swf {} s.faults.sources = true → (faultSrc s code.toNat).injPend = true → (faultSrc s code.toNat).injTick + 1 ≤ s.time.up →
    (s.faults.frozen = false → (faultSrc s code.toNat).handling = none → EffectIs (exec (.injectedDetection code) s) s (fun u =>
      (∃ e, slook u.faults.log (s.faults.head % 512) = some e ∧ e.seq = s.faults.head ∧ e.source = code.toNat
        ∧ e.flags = 2 + (if s.time.holds = true then 16 else 0) ∧ e.time = (if s.time.holds = true then tickNow s * 500 else s.time.up)
        ∧ e.reaction = Nat.land (bits (csr s (srcAddr code.toNat)) 0 5) (fld s 0x110000 8 5)
        ∧ e.initiator = (faultSrc s code.toNat).injBy ∧ e.initKind = 1 ∧ e.access = 4 ∧ e.merges = 0 ∧ e.detail = 0xFFFF
        ∧ (faultSrc u code.toNat).pinHeld = ((faultSrc s code.toNat).pinHeld || bit e.reaction 4))
      ∧ u.faults.head = (if 0xFFFFFFFF ≤ s.faults.head then 1 else s.faults.head + 1)
      ∧ (∀ k, k ≠ s.faults.head % 512 → slook u.faults.log k = slook s.faults.log k)
      ∧ (faultSrc u code.toNat).injPend = false
      ∧ (faultSrc u code.toNat).st = (if row.2.1 = true ∧ (faultSrc s code.toNat).st = .active then .active else .pending)
      ∧ (slook s.faults.latches (code.toNat / 256) = none →
          slook u.faults.latches (code.toNat / 256) = some (code.toNat, s.faults.head, true) ∧ u.faults.ovf = s.faults.ovf)
      ∧ ((slook s.faults.latches (code.toNat / 256)).isSome = true →
          u.faults.latches = s.faults.latches ∧ u.faults.ovf.contains (code.toNat / 256) = true)
      ∧ u.faults.commits = s.faults.commits ++ [(s.faults.head % 512, s.time.up)]
      ∧ { u with faults := s.faults, csr := s.csr, totals := s.totals } = s))
    ∧ (∀ idx t0 e, s.faults.frozen = false → (faultSrc s code.toNat).handling = some (idx, t0) →
      since t0 s < mergeTicks s → slook s.faults.log idx = some e → bit e.flags 0 = false →
      EffectIs (exec (.injectedDetection code) s) s (fun u =>
        slook u.faults.log idx = some { e with merges := min 0xFFFF (e.merges + 1) } ∧ u.faults.head = s.faults.head
        ∧ u.faults.commits = s.faults.commits ∧ u.faults.latches = s.faults.latches
        ∧ { u with faults := s.faults, csr := s.csr, totals := s.totals } = s))
    ∧ (s.faults.frozen = true → EffectIs (exec (.injectedDetection code) s) s (fun u =>
        u.faults.frozenCount = s.faults.frozenCount + 1 ∧ u.faults.log = s.faults.log ∧ u.faults.head = s.faults.head
        ∧ { u with faults := s.faults, csr := s.csr, totals := s.totals } = s))) ∧
 ((∀ idx t rest e s, s.faults.commits = (idx, t) :: rest → slook s.faults.log idx = some e → bit e.reaction 2 = false →
    (bit e.reaction 0 = false → bit e.reaction 1 = false → bit e.reaction 3 = false →
      EffectIs (exec .faultLogCommit s) s (· = modFaults (fun f => { f with commits := rest }) s))
    ∧ (bit e.reaction 0 = false → bit e.reaction 1 = true → bit e.reaction 3 = false → EffectIs (exec .faultLogCommit s) s (· =
        bump 0x110210 (modFaults (fun f => { f with commits := rest, snaps := sins f.snaps (e.seq % 8) e.seq }) s)))
    ∧ (bit e.reaction 0 = true → bit e.reaction 1 = false → bit e.reaction 3 = false → EffectIs (exec .faultLogCommit s) s (fun u =>
        bit u.faults.pend (e.source / 256) = true
        ∧ sget 0 u.cmd.msix (1 + e.source / 256)
          = sget 0 s.cmd.msix (1 + e.source / 256) + (if bit s.faults.pend (e.source / 256) = true then 0 else 1)
        ∧ (∀ se ∈ s.cmd.sessions, takesEvent 2 se = true → se.events.length + outEvents s se.num < 64 →
            ∃ x ∈ u.cmd.sessions, x.num = se.num ∧ x.evSeq = se.evSeq + 1 ∧ x.events = se.events ++ [⟨2, se.evSeq, se.lossPend,
              leBytes 8 (tickNow s) ++ (leBytes 2 e.source ++ leBytes 2 idx ++ leBytes 1 e.reaction), s.cmd.made⟩])
        ∧ (∀ se ∈ s.cmd.sessions, takesEvent 2 se = false → se ∈ u.cmd.sessions)
        ∧ u.faults.commits = rest ∧ u.faults.log = s.faults.log ∧ u.cmd.inflight = s.cmd.inflight ∧ u.chans = s.chans))
    ∧ (bit e.reaction 0 = false → bit e.reaction 1 = false → bit e.reaction 3 = true →
      s.reset_.asserted.any (fun a => a.1 == 0xA) = false → EffectIs (exec .faultLogCommit s) s (AssertedBy 0xA s)))
  ∧ (∀ (g : Fin 11) s, barFree s = true → g.val ≠ 7 → EffectIs (exec (.fltFfClear g) s) s (· = modFaults (fun f => { f with
      latches := sdel f.latches g.val, ovf := f.ovf.filter (fun x => x != g.val) }) s))
  ∧ (∀ i s, barFree s = true → i = .fltFfClear 7 ∨ i = .mapCfClear → EffectIs (exec i s) s (fun u =>
      u.faults.latches = sdel s.faults.latches 7 ∧ u.faults.ovf = s.faults.ovf.filter (fun x => x != 7) ∧ u.maps.cf = none
      ∧ u.maps.cfOvf = false ∧ { u with faults := { s.faults with latches := u.faults.latches, ovf := u.faults.ovf }, maps := s.maps }
        = { s with faults := { s.faults with latches := u.faults.latches, ovf := u.faults.ovf } })))

/-- From R355 to R357, R436: the scrub of the step in turn notes the value that it computed, and moves on; a wrong rule block raises
SCRUB_FAIL and holds its slots FAULT from the next cycle on, a wrong engine table resets the engine; an abandoned scrub computes
nothing. A stored image is verified once in 60 s; a wrong one raises MRAM_FAIL and is BAD. -/
def Obligations.Scrubs : Prop :=
  (∀ (good : Bool) (s v w : State), fieldAwake s = true → fieldLive s = true → fld s 0x103000 10 1 = 1 →
    s.cv.lastScrubUp + fld s 0x103000 0 10 * 2000 ≤ s.time.up → s.cv.abandoned = false →
    v = { s with cv := { s.cv with next := (s.cv.next + 1) % 288, lastScrubUp := s.time.up } } →
    w = (if s.cv.next = 287 then bump 0x103010 v else v) →
    (good = true → EffectIs (exec (.scrubStep good) s) s (· = cvNote (scrubUnit w s.cv.next)
        (crcCompute (cvSet w (scrubUnit w s.cv.next)) (scrubBytes w s.cv.next))
        (crcCompute (cvSet w (scrubUnit w s.cv.next)) (scrubBytes w s.cv.next)) w))
    ∧ (good = false → EffectIs (exec (.scrubStep good) s) s (fun u => ∃ x, x = detect 0x0903 {} (bump 0x103014
          (cvNote (scrubUnit w s.cv.next) (Config.freeValue s.fresh)
            (crcCompute (cvSet w (scrubUnit w s.cv.next)) (scrubBytes w s.cv.next)) { w with fresh := s.fresh + 1 }))
        ∧ (s.cv.next < 256 → u = modMaps (fun m => { m with badBlocks := m.badBlocks ++ [(s.cv.next, m.cycle + 1)] }) x)
        ∧ (256 ≤ s.cv.next → u = engineReset (s.cv.next - 256) x))))
  ∧ (∀ (good : Bool) (s : State), fieldAwake s = true → fieldLive s = true → fld s 0x103000 10 1 = 1 →
    s.cv.lastScrubUp + fld s 0x103000 0 10 * 2000 ≤ s.time.up → s.cv.abandoned = true →
    EffectIs (exec (.scrubStep good) s) s (fun u => u.cv = { s.cv with next := (s.cv.next + 1) % 288, lastScrubUp := s.time.up, abandoned := false }
      ∧ { u with cv := s.cv, csr := s.csr, totals := s.totals } = s))
  ∧ (∀ (image : Fin 9) (want : Nat) (s : State), fieldLive s = true → s.cv.lastImageUp + 120000000 ≤ s.time.up →
    storedCrc s image.val = some want →
    EffectIs (exec (.imageVerify image true) s) s (· = cvNote 0 want want (modCv (fun c => { c with lastImageUp := s.time.up }) s))
    ∧ EffectIs (exec (.imageVerify image false) s) s (· = slotBad image.val (detect 0x0902 {} (bump 0x103018
        (cvNote 0 (Config.freeValue s.fresh) want { modCv (fun c => { c with lastImageUp := s.time.up }) s with fresh := s.fresh + 1 })))))

/-- From R424, R428, R432 to R434, R441, R442: a trial that is not confirmed in time falls back to the older slot, gives its owner up and
starts the component again; an owner idle for 60 s owns no more, and its partial image is discarded; a component starts as its kind
says, P by resets of EAST, E at its cycle, S by a SERVICE and K by a WARM reset, none while the reply of its commit waits; and a word of
the tag area is written with the CRC
of its record unless the record is locked. -/
def Obligations.UpdateEvents : Prop :=
  (∀ c e s, s.upd.trial = some (c, e) → s.hub ≠ .off → e ≤ s.time.up → c < s.upd.comps.length → c ≤ 3 → EffectIs (exec .trialExpiry s) s (fun u =>
      u.upd.trial = none ∧ u.upd.owner = none ∧ u.upd.recv = none ∧ u.upd.fellBack = some c ∧ u.upd.start = some (c, startDue c s)
      ∧ (comp u c).active = (if (actSlot (comp s c)).st = .trial then !(comp s c).active else (comp s c).active)
      ∧ (s.upd.lehrSt = .kept → u.upd.active = s.upd.lehr ∧ u.upd.lehr = s.upd.active ∧ u.upd.lehrSt = .valid)
      ∧ u.upd.tags = s.upd.tags ∧ { u with upd := s.upd, csr := s.csr, totals := s.totals } = s))
  ∧ (∀ c e s, s.upd.trial = some (c, e) → s.time.up < e → EffectIs (exec .trialExpiry s) s (· = s))
  ∧ (∀ s, s.upd.owner.isSome = true → s.upd.trial = none → s.upd.lastBlockUp + 120000000 ≤ s.time.up → EffectIs (exec .ownerLapse s) s (fun u =>
      u.upd.owner = none ∧ u.upd.recv = none ∧ u.upd.recvCount = 0
      ∧ (∀ n, s.upd.recv = some (4, n) → s.upd.lehrSt = .receiving → u.upd.lehr = [] ∧ u.upd.lehrSt = .empty)
      ∧ (∀ n, s.upd.recv = some (4, n) → s.upd.lehrSt = .complete → u.upd.lehr = s.upd.lehr ∧ u.upd.lehrSt = .complete)
      ∧ u.upd.active = s.upd.active ∧ u.cmd.inflight = s.cmd.inflight ∧ u.chans = s.chans))
  ∧ (∀ s, commitOwed s = true → EffectIs (exec .componentStart s) s (· = s))
  ∧ (∀ due s, commitOwed s = false → s.upd.start = some (0, due) → s.upd.startPort = 0 → EffectIs (exec .componentStart s) s (fun u => ∃ v,
      v.upd.startPort = 1 ∧ v.upd.start = s.upd.start ∧ { v with upd := s.upd } = s
      ∧ u = modPort .east (fun q => { q with blockUntil := some (s.time.up + 2000) }) (setSpan .east .adminDown v)))
  ∧ (∀ due s, commitOwed s = false → s.upd.start = some (1, due) → s.upd.fellBack = none → 1 < s.upd.comps.length → due ≤ cycleNow s →
    EffectIs (exec .componentStart s) s (fun u => u.upd.start = none
      ∧ (comp u 1).active = (if (othSlot (comp s 1)).st = .trial then !(comp s 1).active else (comp s 1).active)
      ∧ { u with upd := s.upd } = s))
  ∧ (∀ due s, commitOwed s = false → due ≤ s.time.up → (s.upd.start = some (2, due) → s.reset_.asserted.any (fun a => a.1 == 9) = false →
        EffectIs (exec .componentStart s) s (AssertedBy 9 s))
      ∧ (s.upd.start = some (3, due) → s.reset_.asserted.any (fun a => a.1 == 8) = false →
        EffectIs (exec .componentStart s) s (AssertedBy 8 s)))
  ∧ (∀ off (v : Word) s, serves s .pcie = true → off < 4096 → off % 4 = 0 → off % 256 < 252 →
      (bit s.upd.tagLocks (off / 256) = false → EffectIs (exec (.tagWordWrite off v) s) s (· = tagStore off (leBytes 4 v.toNat) s))
      ∧ (bit s.upd.tagLocks (off / 256) = true → EffectIs (exec (.tagWordWrite off v) s) s (fun u => u.upd = s.upd ∧ u.chans = s.chans)))

/-! ## The cycle -/

/-- From R171, R275, R279, R282, R397: the boundary of a cycle is taken once; what the boundary brings to the ring comes first; the cycle
before closes with its image in the history and its copy begun; accepted changes take effect; and the cycle begins with its gather,
where the hub is in RUN with a configuration, or at the first cycle of a hub that leaves BOOT for RUN, or, without a span, for
ISOLATED, where ring time is not locked. -/
def Obligations.CycleBoundaries : Prop :=
  ∀ (k : Nat) (s w x : State), k = cycleNow s → s.reset_.inReset = false → s.ring.nextLight = none →
    w = (if s.maps.boundary = some k then s else (ringBoundary k (modMaps (fun m => { m with boundary := some k }) s)).2) →
    (s.hub = .run → s.maps.boundary = some k → EffectIs (exec .cycleBoundary s) s (· = s))
    ∧ (s.maps.boundary ≠ some k → w.hub = .run → noSpanUp w = false → x = closeCycle w → x.maps.active = true → sleepDue k x = false →
      (∀ l, (takeChanges k x).maps.lastClosed = some l → l < k) → (takeChanges k x).hub = .run →
      EffectIs (exec .cycleBoundary s) s (fun u => u = beginCycle k (takeChanges k x) ∧ u.maps.cycle = k ∧ u.maps.phase = .stageA
        ∧ u.hub = .run
        ∧ (w.maps.phase = .packed → x.maps.lastClosed = some w.maps.cycle ∧ x.maps.copying = some w.maps.cycle
          ∧ slook x.maps.history (w.maps.cycle % 16) = some ⟨w.maps.cycle, x.maps.slots, x.maps.descs⟩)))
    ∧ (s.hub = .boot → s.reset_.bootStep = 7 → fieldState s = some .run → EffectIs (exec .firstCycle s) s (fun u =>
        u = beginCycle k (toHub .run none (modReset (fun r => { r with bootStep := 8 }) (takeEffect s.upd.inForce w)))
        ∧ u.hub = .run ∧ u.reset_.bootStep = 8 ∧ u.maps.cycle = k ∧ u.maps.phase = .stageA))
    ∧ (s.hub = .boot → s.reset_.bootStep = 7 → fieldState s = some .isolated → w.sw.holdBack = [] →
      EffectIs (exec .firstCycle s) s (fun u => u.hub = .isolated ∧ u.reset_.bootStep = 8 ∧ u.maps.cycle = k ∧ u.maps.phase = .stageA
        ∧ u.time.locked = false))
    ∧ (s.hub = .boot → fieldState s = none → EffectIs (exec .firstCycle s) s (· = s))

/-- From R275, R278, R280 to R282: stage A ends with the publications, and a hub without a number publishes nothing; the remote gather
comes at T_k + H and not before; stage C ends with the instances; a stage that overruns its bound leaves FAULT in every slot that a
rule from its first unfinished one on writes, and raises MAP_OVERRUN once in a cycle; a finished copy answers the SIG_READ that
waits for its cycle. What the rules before the first unfinished one give is in force then. -/
def Obligations.CycleStages : Prop :=
  ∀ s v : State,
    (v = stageRun 0 0 (splitPub s) s → s.maps.phase = .stageA →
      EffectIs (exec .publish s) s (· = publishAll v.maps.cycle (modMaps (fun m => { m with phase := .stageB }) v))
      ∧ (numbered v = false → EffectIs (exec .publish s) s (· = modMaps (fun m => { m with phase := .stageB }) v)))
    ∧ (s.maps.phase ≠ .stageA → EffectIs (exec .publish s) s (· = s))
    ∧ (s.maps.phase = .stageB → s.maps.cycle * s.maps.n + mapH s ≤ tickNow s → EffectIs (exec .remoteGather s) s (fun u =>
        u = remoteTake (stageRun 1 (splitPub s) (splitSub s) s) ∧ u.maps.phase = .stageC))
    ∧ (tickNow s < s.maps.cycle * s.maps.n + mapH s → EffectIs (exec .remoteGather s) s (· = s))
    ∧ (v = stageRun 2 (splitSub s) rulesEnd s → s.maps.phase = .stageC → (ruleList v.maps.rules).any (fun x => x.2.coded) = false →
      EffectIs (exec .packAndClose s) s (fun u => u.maps.phase = .packed
        ∧ u = modMaps (fun m => { m with phase := .packed })
          ((dueTargets s.maps.cycle v).foldl (fun y t => packTarget s.maps.cycle (nowView v) t y) v)))
    ∧ (s.maps.phase = .idle → EffectIs (exec .packAndClose s) s (· = s))
    ∧ (∀ (stage : Fin 3) (f : Nat), s.maps.overrun = none → v = firstPass (stageFrom stage.val s) f s →
      (stage = 0 ∧ s.maps.phase = .stageA ∧ f < splitPub s ∨ stage = 1 ∧ s.maps.phase = .stageB ∧ splitPub s ≤ f ∧ f < splitSub s
        ∨ stage = 2 ∧ s.maps.phase = .stageC ∧ splitSub s ≤ f) →
      EffectIs (exec (.mapOverrun stage f) s) s (fun u => u.maps.overrun = some f
        ∧ u.maps.phase = (if stage = 0 then .stageB else v.maps.phase)
        ∧ (∀ ir ∈ ruleList v.maps.rules, f ≤ ir.1 → ∀ y ∈ ruleSlots v ir.2, eStat (nowEntry u y) = stFault)
        ∧ ∃ t, u = detect 0x0701 { address := f } (bump 0xF0120 t)))
    ∧ (∀ (stage : Fin 3) (f : Nat), s.maps.overrun.isSome = true → EffectIs (exec (.mapOverrun stage f) s) s (· = s))
    ∧ (∀ c x, s.maps.copying = some c → s.cmd.inflight = [x] → x.opcode = 0x0301 → x.phase = .issued → rd x.params 8 8 = c →
      EffectIs (exec .historyCopyDone s) s (fun u => u.maps = { s.maps with copied := some c, copying := none, replaced := none }
        ∧ u.cmd = { s.cmd with inflight := [{ x with
            phase := .ready .ok (sigResults s c (rd x.params 0 4) (rd x.params 4 2)), effected := true }] }))

/-- From R174, R244, R272, R311, R330: at its release instant an instance sets the lines that its mask names, or gives its word to the
engine's pull FIFO, or becomes the PD out of its port, and one not yet due waits; a poll round takes the entries due in its cycle,
counts those of the round before that were not sent, and takes none while a lock holds the channel. -/
def Obligations.ReleasesAndRounds : Prop :=
  (∀ (i : Instance_) (s : State), s.maps.instances = [i] → s.dl.pend = [] → swf {} s.dl.lines = true →
    (i.release ≤ nsNow s → descKind i.target = 3 → EffectIs (exec .outputRelease s) s (fun u => u.maps.instances = []
      ∧ (∀ l, (line u l).commanded = (if l / 16 = descUnit i.target ∧ bit i.mask (l % 16) = true then bit (leVal i.bytes) (l % 16)
          else (line s l).commanded))
      ∧ u.chans = s.chans ∧ u.engines = s.engines))
    ∧ (i.release ≤ nsNow s → descKind i.target = 2 → i.valid = true → i.bytes ≠ [] → EffectIs (exec .outputRelease s) s (fun u =>
        u.maps.instances = [] ∧ (chan u (descUnit i.target)).iol.pdOut = i.bytes ∧ u.dl = s.dl ∧ u.engines = s.engines
        ∧ ∀ k, k ≠ descUnit i.target → chan u k = chan s k))
    ∧ (i.release ≤ nsNow s → descKind i.target = 4 → (engine s (descUnit i.target)).pull.length < 16 →
        EffectIs (exec .outputRelease s) s (fun u => u.maps.instances = []
          ∧ (engine u (descUnit i.target)).pull = (engine s (descUnit i.target)).pull ++ [(leVal i.bytes, s.time.up)]
          ∧ u.dl = s.dl ∧ u.chans = s.chans ∧ ∀ k, k ≠ descUnit i.target → engine u k = engine s k))
    ∧ (nsNow s < i.release → EffectIs (exec .outputRelease s) s (· = s)))
  ∧ (∀ (p : DlPend) (s : State), s.maps.instances = [] → s.dl.pend = [p] →
    (p.tick ≤ tickNow s → EffectIs (exec .outputRelease s) s (· = setLines p.bank p.value p.mask { s with dl := { s.dl with pend := [] } }))
    ∧ (tickNow s < p.tick → EffectIs (exec .outputRelease s) s (· = s)))
  ∧ (∀ (ch : Fin 128) (k : Nat) (s v : State), fieldAwake s = true → mbOn s ch.val = true → s.maps.active = true →
    serialHears s ch.val = true → mapDout s ≤ tickNow s → k = (tickNow s - mapDout s) / s.maps.n → (chan s ch.val).mb.roundCycle < k →
    v = bumpBy (chnAddr ch.val 0x2A0) (chan s ch.val).mb.round.length s →
    (lockedBy s ch.val = none → EffectIs (exec (.mbRoundOpen ch) s) s (fun u => (chan u ch.val).mb.roundCycle = k
      ∧ (∀ i, i ∈ (chan u ch.val).mb.round.map (·.entry) ↔ ∃ p, (polls v ch.val)[i]? = some p ∧ p.period ≠ 0 ∧ (k + p.period - p.phase) % p.period = 0)
      ∧ (∀ j, j ≠ ch.val → chan u j = chan s j) ∧ u.csr = v.csr))
    ∧ ((lockedBy s ch.val).isSome = true → EffectIs (exec (.mbRoundOpen ch) s) s (fun u => (chan u ch.val).mb.roundCycle = k
      ∧ (chan u ch.val).mb.round = [] ∧ ∀ j, j ≠ ch.val → chan u j = chan s j)))

/-! ## Ring frames -/

/-- From R78, R79: a frame whose fields fit their widths comes back from its bytes as it was, with its payload whole; what the receiving
switch notes of it is its own. -/
def Obligations.FrameRoundTrip : Prop :=
  ∀ (f : Frame) (ing : Output) (rx tick : Nat), f.cls ≤ 4 → f.dst < 256 → f.src < 256 → f.mgroup < 256 → f.hops < 65536 →
    f.frag < 65536 → f.cycle < 2 ^ 48 → f.payload.length ≤ 9564 →
    parseHead (frameBytes f) ing rx tick = some ({ f with
      ingress := ing, rxTime := rx, rxTick := tick, bankPrev := false, bankNode := 0, member := false, cells := [], cut := false
      poison := false, eligible := true, arriving := none, head := [], frees := none }, f.payload.length)

/-- From R72, R80 to R82, R104, R105, R108, R110, R113, R115: a port that is UP counts a frame with a broken header, and one with a poison
end, of which nothing stays queued; a good frame of the present generation is queued whole here where it names this node, and onward
with one more hop where it names another, or counted where its queue is at its limit, and one that this node sent ends; its header
alone already holds its place; ports that do not lock take nothing. An output sends CTL first, then CYC within its budget, charged. -/
def Obligations.FramesOnTheWire : Prop :=
  (∀ (p : Port) (rx : Nat) (f g : Frame) (s : State), (portSt s p).span = .up → (portSt s p).rx = none → draining s p = false →
    swf [] s.sw.queues = true → (∀ o c, ∀ h ∈ queueOf s o c, h.arriving ≠ some p) →
    1 ≤ f.cls → f.cls ≤ 3 → f.dst < 256 → f.src < 256 → f.mgroup < 256 → f.hops < 65536 → f.frag < 65536 → f.cycle < 2 ^ 48 →
    f.payload.length ≤ 9564 → f.dst ≠ 0 → f.gen = s.sw.current.gen → f.wrapped = false → s.sw.current.node ≠ 0 →
    g = { f with
      ingress := outOf p, rxTime := rxStamp s p rx, rxTick := tickNow s, bankPrev := false, bankNode := s.sw.current.node
      member := s.sw.current.members.contains f.mgroup, cells := [], cut := false, poison := false, eligible := true, arriving := none
      head := [], frees := none } →
    (f.src ≠ s.sw.current.node → f.dst = s.sw.current.node → f.poison = false →
      (judge s .local g = .yes → EffectIs (exec (.ringFrameRx p (frameBytes f) rx .whole) s) s (fun u =>
        (∃ cs, queueOf u .local f.cls = queueOf s .local f.cls ++ [{ g with cells := cs }])
        ∧ (∀ o c, qKey o c ≠ qKey .local f.cls → queueOf u o c = queueOf s o c)))
      ∧ (judge s .local g = .tail → EffectIs (exec (.ringFrameRx p (frameBytes f) rx .whole) s) s (fun u =>
        (∀ o c, queueOf u o c = queueOf s o c)
        ∧ csr u (0x60340 + f.cls * 4) = csr (bump (0x60340 + f.cls * 4) s) (0x60340 + f.cls * 4)))
      ∧ (judge s .local g = .yes → EffectIs (exec (.ringFrameRx p ((frameBytes f).take 32) rx .header) s) s (fun u =>
        ∃ h, queueOf u .local f.cls = queueOf s .local f.cls ++ [h] ∧ h.eligible = false ∧ h.arriving = some p ∧ h.dst = f.dst
          ∧ h.payload.length = f.payload.length)))
    ∧ (f.src ≠ s.sw.current.node → f.dst ≠ s.sw.current.node → f.dst ≠ 255 → f.poison = false → f.hops < 511 →
      turns s (otherPort p) = false → judge s (outOf (otherPort p)) g = .yes →
      EffectIs (exec (.ringFrameRx p (frameBytes f) rx .whole) s) s (fun u =>
        (∃ cs, queueOf u (outOf (otherPort p)) f.cls = queueOf s (outOf (otherPort p)) f.cls
          ++ [{ g with hops := f.hops + 1, cells := cs, cut := cutAt s (outOf (otherPort p)) f.cls }])
        ∧ (∀ o c, qKey o c ≠ qKey (outOf (otherPort p)) f.cls → queueOf u o c = queueOf s o c)))
    ∧ (f.src = s.sw.current.node → f.dst = 255 → f.poison = false → EffectIs (exec (.ringFrameRx p (frameBytes f) rx .whole) s) s (fun u =>
        (∀ o c, queueOf u o c = queueOf s o c) ∧ u.csr = s.csr ∧ (portSt u p).rx = none))
    ∧ (f.poison = true → f.src ≠ s.sw.current.node → f.dst = s.sw.current.node → s.sw.wire = [] →
      EffectIs (exec (.ringFrameRx p (frameBytes f) rx .whole) s) s (fun u =>
        (∀ o c, queueOf u o c = queueOf s o c) ∧ (portSt u p).rx = none
        ∧ csr u (portAddr p 0x30) = csr (bump (portAddr p 0x30) s) (portAddr p 0x30))))
  ∧ (∀ (p : Port) (bytes : List Byte) rx part s, (portSt s p).span = .up → (portSt s p).rx = none → part ≠ .rest →
    bytes.length < 32 ∨ rd bytes 30 2 ≠ crc16 (bytes.take 30) ∨ bits (rd bytes 0 1) 4 4 ≠ 1 →
    EffectIs (exec (.ringFrameRx p bytes rx part) s) s (· = bump (portAddr p 0x20) s))
  ∧ (∀ (p : Port) (bytes : List Byte) rx part s, (portSt s p).span = .down ∨ (portSt s p).span = .locking ∨ (portSt s p).span = .adminDown →
    EffectIs (exec (.ringFrameRx p bytes rx part) s) s (· = s))
  ∧ (∀ (p : Port) (mac : Nat) (f : Frame) (t : List Frame) (s : State), (portSt s p).span = .up → busyOut p s = false →
    swf [] s.sw.queues = true → f.eligible = true → f.stampId = 0 →
    (queueOf s (outOf p) 4 = f :: t → rd f.payload 0 1 ≠ 2 → EffectIs (exec (.outputFrameSend (outOf p) mac) s) s (fun u =>
      slook u.sw.wire (portNo p) = some f ∧ queueOf u (outOf p) 4 = t ∧ (∀ o c, qKey o c ≠ qKey (outOf p) 4 → queueOf u o c = queueOf s o c)
      ∧ u.sw.cycBytes = s.sw.cycBytes ∧ { u with sw := s.sw } = s))
    ∧ (queueOf s (outOf p) 4 = [] → queueOf s (outOf p) 0 = f :: t → f.cls = 0 →
      sget 0 s.sw.cycBytes (portNo p) + frameCharge f ≤ cycLimit s → EffectIs (exec (.outputFrameSend (outOf p) mac) s) s (fun u =>
      slook u.sw.wire (portNo p) = some f ∧ queueOf u (outOf p) 0 = t
      ∧ sget 0 u.sw.cycBytes (portNo p) = sget 0 s.sw.cycBytes (portNo p) + frameCharge f ∧ { u with sw := s.sw } = s)))
  ∧ (∀ (o : Output) mac s, o = .local ∨ o = .pcie ∨ (∀ p, outOf p = o → (portSt s p).span = .adminDown) →
    EffectIs (exec (.outputFrameSend o mac) s) s (· = s))

/-- From R16, R79, R110, R120, R132, R135, R280, R281: the first CYC copy of a SEQ is queued, within its budget at LOCAL taken, and in
time for its remote gather used; the second is counted; where LOCAL chooses a class, a frame of a stream that comes in order is
delivered and covered, one behind a gap is held and acknowledged with the gap, a repeated one is acknowledged, one far ahead is
counted; a command waits in its queue until the interpreter starts. -/
def Obligations.StreamFrames : Prop :=
  (∀ (f : Frame) (s v : State), s.sw.cycIn = [f] → (∀ c, queueOf s .local c = []) → swf [] s.sw.queues = true → f.cls = 0 → isDrain f = false →
    f.eligible = true → v = modSw (fun w => { w with cycIn := [] }) s → comparing s = false →
    (twinCase (twinOf s f.src (cycGroup f)) f.seq = .old → EffectIs (exec .cycFrameRx s) s (· = bump 0x60424 v))
    ∧ (twinCase (twinOf s f.src (cycGroup f)) f.seq = .second → EffectIs (exec .cycFrameRx s) s (· = bump 0x60420 v))
    ∧ (twinCase (twinOf s f.src (cycGroup f)) f.seq = .ahead ∨ twinCase (twinOf s f.src (cycGroup f)) f.seq = .fresh →
        EffectIs (exec .cycFrameRx s) s (fun u =>
          u.sw.twins = (putTwin (twinAfter (twinOf s f.src (cycGroup f)) f.src (cycGroup f) f.seq) v).sw.twins ∧ u.sw.cycIn = []
          ∧ (cycUsed f s = false → u.maps = s.maps)
          ∧ (judge s .local f = .yes → sget 0 s.sw.cycBytes 2 + frameCharge f ≤ cycLimit s → cycUsed f s = true →
              (f.rxTick < cycleOf f s * s.maps.n + mapH s → u.maps = { s.maps with
                cycRx := s.maps.cycRx ++ [⟨f.src, cycGroup f, cycleOf f s, pubFirst f, pubEntries f, f.rxTick⟩] })
              ∧ (cycleOf f s * s.maps.n + mapH s ≤ f.rxTick → u.maps = s.maps))
          ∧ (judge s .local f ≠ .yes → u.maps = s.maps))))
  ∧ (∀ (cls : Fin 5) (f : Frame) (t : List Frame) (h : HoldBack) (s x v : State), cls = 1 ∨ cls = 2 ∨ cls = 3 →
    queueOf s .local cls.val = f :: t → f.cls = cls.val → f.dst ≠ 255 →
    pickWhere (fun g => !headWaits s g) .local s = some (cls.val, x) → v = popQueue .local cls.val x →
    h = holdOf v f.src f.dst none f.cls →
    (f.seq = h.expected → h.held = [] → f.first = true → f.last = true → isDrain f = false → isReport f = false → isItemFrame f = false →
      EffectIs (exec (.streamFrameRx cls) s) s (· =
        (let w := freeCells f (cover 1 { h with expected := h.expected + 1 } v)
         if cls = 1 then ringPacket f.src f.payload w else if cls = 2 then ringReply f.src f.payload w else w)))
    ∧ (f.seq ≠ h.expected → (f.seq - h.expected).toNat < 1024 → h.held = [] → EffectIs (exec (.streamFrameRx cls) s) s (· =
        ackNow { h with held := [{ f with rxTick := tickNow v }], gapUp := v.time.up } 0 0 v))
    ∧ (1024 ≤ (f.seq - h.expected).toNat → seqBefore f.seq h.expected = true → EffectIs (exec (.streamFrameRx cls) s) s (· =
        ackNow h 0 0 (bump 0x5063C (freeCells f v))))
    ∧ (1024 ≤ (f.seq - h.expected).toNat → seqBefore f.seq h.expected = false → EffectIs (exec (.streamFrameRx cls) s) s (· =
        bump 0x50640 (freeCells f v))))
  ∧ (∀ (f : Frame) (t : List Frame) s, queueOf s .local 1 = f :: t → f.cls = 1 → isDrain f = false → serves s (.ring 0) = false →
      EffectIs (exec (.streamFrameRx 1) s) s (· = s))

/-- From R117 to R119: an item runs once: the first frame of its ID stands in flight, and a repeated one is answered from the report kept
of it; the first report of each destination counts; after MC_TIMEOUT the write completes with every destination's outcome, or the
silent ones get the item again. -/
def Obligations.MulticastItems : Prop :=
  (∀ (f : Frame) (s v : State), s.sw.delivered = [f] → isItemFrame f = true → serves s (.ring 0) = true →
    v = modSw (fun w => { w with delivered := [] }) s →
    (∀ x, (sget [] s.sw.mcDone f.src).find? (fun x => x.1.toNat == rd f.payload 0 4) = some x →
      EffectIs (exec .multicastReqRx s) s (· = sendReport f.src (rd f.payload 0 4) x.2 (bump 0x60434 v)))
    ∧ (sget [] s.sw.mcDone f.src = [] → s.cmd.inflight = [] → headGood (f.payload.drop 8) = true → formatGood (f.payload.drop 8) = true →
      rd (f.payload.drop 8) 2 2 = 8 → EffectIs (exec .multicastReqRx s) s (fun u => ∃ x, u.cmd = { s.cmd with inflight := [x] }
        ∧ x.opcode = 8 ∧ x.target = rd f.payload 0 4 ∧ isItem x = true ∧ u.sw = v.sw ∧ u.csr = s.csr)))
  ∧ (∀ (f : Frame) (m : McItem) (s : State), s.sw.delivered = [f] → isReport f = true → s.sw.mcItems = [m] →
    m.id = BitVec.ofNat 32 (rd f.payload 4 4) → EffectIs (exec .deliveryReportRx s) s (fun u => u.sw.delivered = []
      ∧ u.sw.mcItems = [if m.expected.contains f.src = true ∧ m.reports.any (fun r => r.1 == f.src) = false
          then { m with reports := m.reports ++ [(f.src, rd f.payload 2 2)] } else m]
      ∧ { u with sw := s.sw } = s))
  ∧ (∀ (m : McItem) (x : Cmd) (s : State), s.sw.mcItems = [m] →
    (m.sentUp + fld s 0x60000 8 8 * 2000 ≤ s.time.up → mcMissing m = [] ∨ fld s 0x60000 16 3 ≤ m.rounds → s.cmd.inflight = [x] →
      x.session = m.session → x.tag = m.tag → x.phase = .issued → EffectIs (exec (.multicastRoundEnd m.id) s) s (fun u =>
        u.sw = { s.sw with mcItems := [] }
        ∧ u.cmd = { s.cmd with inflight := [{ x with phase := .ready .ok (mcResults m), effected := true }] }))
    ∧ (∀ n, m.sentUp + fld s 0x60000 8 8 * 2000 ≤ s.time.up → mcMissing m = [n] → m.rounds < fld s 0x60000 16 3 →
      EffectIs (exec (.multicastRoundEnd m.id) s) s (· = sendPacket 1 n m.payload
        (bump 0x60430 (modSw (fun w => { w with mcItems := [{ m with rounds := m.rounds + 1, sentUp := s.time.up }] }) s))))
    ∧ (since m.sentUp s < fld s 0x60000 8 8 * 2000 → EffectIs (exec (.multicastRoundEnd m.id) s) s (· = s)))

/-- From R132 to R134, R136: an ACK frees the copies before its NEXT and no copy of another stream, and a place that it reports lost
completes with LOST; delivered frames that no ACK has covered for 100 ticks are acknowledged; 400 ticks without an advance resend
the stream, or give it up once a copy was sent three times; a gap that has stood for 1,000 ticks is reported lost, and what follows
it is delivered. None of the timers acts early. -/
def Obligations.ReplayEvents : Prop :=
  (∀ (f : Frame) (s : State), ctlHead s 5 16 = some f → s.sw.heldOut = [] → rd f.payload 2 1 = 0 → EffectIs (exec .ackRx s) s (fun u =>
      (∀ c ∈ u.sw.replayCw ++ u.sw.replayCcw, copyKey c = seqKey (rd f.payload 1 1) f.src 0 →
        seqBefore c.frame.seq (BitVec.ofNat 32 (rd f.payload 4 4)) = false)
      ∧ (∀ c ∈ s.sw.replayCw, copyKey c ≠ seqKey (rd f.payload 1 1) f.src 0 → c ∈ u.sw.replayCw)
      ∧ (∀ c ∈ s.sw.replayCcw, copyKey c ≠ seqKey (rd f.payload 1 1) f.src 0 → c ∈ u.sw.replayCcw)
      ∧ (∀ c ∈ s.sw.replayCw, seqBefore c.frame.seq (BitVec.ofNat 32 (rd f.payload 4 4)) = false →
          ∃ d ∈ u.sw.replayCw, d.frame = c.frame ∧ d.sentUp = c.sentUp)
      ∧ u.cmd = s.cmd ∧ u.ring = s.ring))
  ∧ (∀ (f : Frame) (c : Copy) (x : Cmd) (s : State), ctlHead s 5 16 = some f → s.sw.heldOut = [] → rd f.payload 2 1 = 2 →
      s.sw.replayCw = [c] → s.sw.replayCcw = [] → copyKey c = seqKey 1 f.src 0 → c.frame.cls = 1 → rd f.payload 1 1 = 1 →
      c.frame.seq = BitVec.ofNat 32 (rd f.payload 8 4) → 0 < rd f.payload 12 2 → s.cmd.inflight = [x] → x.phase = .issued →
      packetOf c.frame.head = some (x.session, x.tag, x.opcode) → EffectIs (exec .ackRx s) s (fun u => u.sw.replayCw = []
        ∧ u.cmd = { s.cmd with inflight := [{ x with phase := .ready .lost [], effected := true }] }))
  ∧ (∀ (src : Fin 256) (cls : Fin 5) (h : HoldBack) (s : State), s.sw.holdBack = [h] → h.src = src.val → h.group = none → h.cls = cls.val →
      (h.uncovered ≠ 0 → h.timerUp + 100 ≤ s.time.up → EffectIs (exec (.ackTimer src cls) s) s (· = ackNow h 0 0 s))
      ∧ (h.uncovered = 0 ∨ s.time.up < h.timerUp + 100 → EffectIs (exec (.ackTimer src cls) s) s (· = s)))
  ∧ (∀ (dst : Fin 256) (cls : Fin 5) (k : Nat) (s v : State), k = seqKey cls.val dst.val 0 →
      v = modSw (fun w => { w with advanceUp := sput 0 w.advanceUp k s.time.up }) s →
      (copiesOf s k ≠ [] → sget 0 s.sw.advanceUp k + 400 ≤ s.time.up →
        ((copiesOf s k).all (fun c => decide (c.sends < 3)) = true → EffectIs (exec (.replayNoAdvance dst cls) s) s (· = resend (copiesOf s k) v))
        ∧ ((copiesOf s k).any (fun c => decide (3 ≤ c.sends)) = true →
            EffectIs (exec (.replayNoAdvance dst cls) s) s (· = giveUp k true v)))
      ∧ (copiesOf s k = [] ∨ s.time.up < sget 0 s.sw.advanceUp k + 400 → EffectIs (exec (.replayNoAdvance dst cls) s) s (· = s)))
  ∧ (∀ (src : Fin 256) (cls : Fin 5) (group : Option (Fin 256)) (h : HoldBack) (g : Frame) (n : Nat) (s : State),
      s.sw.holdBack = [h] → h.src = src.val → h.group = group.map (·.val) → h.cls = cls.val → h.held = [g] →
      n = (g.seq - h.expected).toNat → 0 < n →
      (h.gapUp + 1000 ≤ s.time.up → EffectIs (exec (.gapTimeout src cls group) s) s (· =
        deliverAll ((List.range n).map (fun i => Handed.lost h.src h.dst h.group h.cls (h.expected + BitVec.ofNat 32 i)) ++ [.frame g])
          (ackNow { h with expected := g.seq + 1, held := [] } h.expected n (bumpBy 0x50644 n s))))
      ∧ (s.time.up < h.gapUp + 1000 → EffectIs (exec (.gapTimeout src cls group) s) s (· = s)))

/-- From R133, R138 to R140: a WRAP_NOTICE of kind 0 replays what crosses its span, one of kind 1 for this span plans the unwrap or is
declined before the hold-off has elapsed, one of kind 3 withdraws the plan; the EAST end plans the unwrap two cycles ahead; at its
cycle the port drains; a DRAIN, or 1,000 ticks without one, releases its class, and the wrap ends with the last class. -/
def Obligations.UnwrapEvents : Prop :=
  (∀ (f : Frame) (p : Port) (s v : State), ctlHead s 0x0A 24 = some f → v = dequeue .local 4 s →
    p = portOf (1 - min 1 (rd f.payload 2 1)) →
    (rd f.payload 1 1 = 0 → EffectIs (exec .wrapNoticeRx s) s (· = replaySpan f.src (rd f.payload 3 1) v))
    ∧ (rd f.payload 1 1 = 1 → rd f.payload 3 1 = s.ring.node ∨ rd f.payload 3 1 = 0 → neighbour s p = f.src →
      (holdElapsed s p = true → EffectIs (exec .wrapNoticeRx s) s (· = modPort p (fun q => { q with unwrapAt := some (rd f.payload 16 8) }) v))
      ∧ (holdElapsed s p = false → EffectIs (exec .wrapNoticeRx s) s (· = bump 0x5064C (wrapNotice p 3 0 v))))
    ∧ (rd f.payload 1 1 = 3 → rd f.payload 3 1 = s.ring.node → neighbour s p = f.src → EffectIs (exec .wrapNoticeRx s) s (fun u =>
        (portSt u p).unwrapAt = none ∧ portSt u (otherPort p) = portSt s (otherPort p) ∧ u.sw = v.sw))
    ∧ (rd f.payload 1 1 ≠ 0 → rd f.payload 3 1 ≠ s.ring.node → rd f.payload 3 1 ≠ 0 → EffectIs (exec .wrapNoticeRx s) s (· = v)))
  ∧ (∀ s : State, (s.ring.east.unwrapDone = false → holdElapsed s .east = true → s.ring.east.unwrapAt = none →
        EffectIs (exec (.unwrapHoldoffElapse .east) s) s (· =
          wrapNotice .east 1 (cycleNow s + 2) (modPort .east (fun q => { q with unwrapAt := some (cycleNow s + 2) }) s)))
      ∧ (holdElapsed s .east = false → EffectIs (exec (.unwrapHoldoffElapse .east) s) s (· = s))
      ∧ EffectIs (exec (.unwrapHoldoffElapse .west) s) s (· = s))
  ∧ (∀ (p : Port) (k : Nat) (s : State), (portSt s p).unwrapAt = some k →
      (k ≤ cycleNow s → isUp s p = true → EffectIs (exec (.unwrapStart p) s) s (fun u => draining u p = true
        ∧ wrapped u p = wrapped s p ∧ draining u (otherPort p) = draining s (otherPort p)
        ∧ portSt u p = { portSt s p with
            unwrapAt := none, holdUp := none, unwrapDone := true, drainDone := [], drainTick := tickNow s }
        ∧ portSt u (otherPort p) = portSt s (otherPort p)))
      ∧ (cycleNow s < k → EffectIs (exec (.unwrapStart p) s) s (· = s)))
  ∧ (∀ (f : Frame) (p : Port) (s : State), s.sw.delivered = [f] → isDrain f = true → p = otherPort (portOf (rd f.payload 1 1)) →
      draining s p = true → neighbour s p = f.src → (portSt s p).unwrapAt = none → (drainClasses s).contains f.cls = true →
      (portSt s p).drainDone.contains f.cls = false →
      EffectIs (exec .drainRx s) s (· = releaseDrain p f.cls (modSw (fun w => { w with delivered := [] }) s))
      ∧ ((drainClasses s).all (fun c => ((portSt s p).drainDone ++ [f.cls]).contains c) = false → (portSt s p).drainHeld = [] →
        EffectIs (exec .drainRx s) s (· = modPort p (fun q => { q with drainDone := q.drainDone ++ [f.cls] })
          (modSw (fun w => { w with delivered := [] }) s))))
  ∧ (∀ (p : Port) (c : Fin 5) (s : State), draining s p = true → (drainClasses s).contains c.val = true →
      (portSt s p).drainDone.contains c.val = false →
      ((portSt s p).drainTick + 1000 ≤ tickNow s → EffectIs (exec (.drainTimeout p c) s) s (· = releaseDrain p c.val (bump 0x50648 s)))
      ∧ (tickNow s < (portSt s p).drainTick + 1000 → EffectIs (exec (.drainTimeout p c) s) s (· = s)))

/-! ## Spans -/

/-- From R67, R68, R72, R125, R126, R457: a lost signal, a removed module, a transmitter fault and a tripped cage supply take the span
DOWN, but not out of ADMIN_DOWN; a span that leaves UP wraps the hub there where the other is UP, and where none is UP no wrap
stands; a signal with all else ready starts LOCKING; a module's page is kept, a silent module counted; the transmitter is held
for 10 ms, and a cage supply off for 1 s. -/
def Obligations.SpanLosses : Prop :=
  ∀ (p : Port) (s : State),
    (∀ i, i = .losRise p ∨ i = .moduleRemove p ∨ i = .txfltRise p ∨ i = .cageSupplyTrip p → (portSt s p).cageOff = false →
      ((portSt s p).span ≠ .adminDown → EffectIs (exec i s) s (fun u => (portSt u p).span = .down
        ∧ (portSt u (otherPort p)).span = (portSt s (otherPort p)).span
        ∧ (isUp s p = true → isUp s (otherPort p) = true → wrapped u p = true)
        ∧ (isUp s p = true → isUp s (otherPort p) = false → wrapped u .east = false ∧ wrapped u .west = false)))
      ∧ ((portSt s p).span = .adminDown → EffectIs (exec i s) s (fun u => (portSt u p).span = .adminDown ∧ u.sw = s.sw)))
    ∧ EffectIs (exec (.losRise p) s) s (fun u => (portSt u p).los = true)
    ∧ EffectIs (exec (.moduleRemove p) s) s (fun u => (portSt u p).modPresent = false ∧ (portSt u p).modId = [])
    ∧ EffectIs (exec (.txfltRise p) s) s (fun u => (portSt u p).txFault = true ∧ (portSt u p).txdisUntil = some (s.time.up + 20000))
    ∧ ((portSt s p).cageOff = false → EffectIs (exec (.cageSupplyTrip p) s) s (fun u => (portSt u p).cageOff = true
        ∧ (portSt u p).cageUp = s.time.up))
    ∧ ((portSt s p).cageOff = true → s.time.up < (portSt s p).cageUp + 2000000 → EffectIs (exec (.cageSupplyTrip p) s) s (· = s))
    ∧ ((portSt s p).span = .down → mayLock (modPort p (fun q => { q with los := false }) s) p = true →
        EffectIs (exec (.losFall p) s) s (fun u => (portSt u p).span = .locking ∧ (portSt u p).lockUp = s.time.up
          ∧ (portSt u p).los = false))
    ∧ ((portSt s p).span ≠ .down ∨ mayLock (modPort p (fun q => { q with los := false }) s) p = false →
        EffectIs (exec (.losFall p) s) s (· = modPort p (fun q => { q with los := false }) s))
    ∧ (∀ b, (portSt s p).cageOff = false → EffectIs (exec (.moduleInsert p (some b)) s) s (fun u => (portSt u p).modPresent = true
        ∧ (portSt u p).modId = b))
    ∧ ((portSt s p).cageOff = false → (portSt s p).span = .adminDown → EffectIs (exec (.moduleInsert p none) s) s (· =
        bump (portAddr p 0x38) (modPort p (fun q => { q with modPresent := true, modId := [] }) s)))
    ∧ (∀ t, (portSt s p).txdisUntil = some t →
        (t ≤ s.time.up → EffectIs (exec (.txfltHoldEnd p) s) s (fun u => (portSt u p).txdisUntil = none ∧ (portSt u p).txFault = false))
        ∧ (s.time.up < t → EffectIs (exec (.txfltHoldEnd p) s) s (· = s)))
    ∧ ((portSt s p).span = .up → EffectIs (exec (.livenessLoss p) s) s (· = setSpan p .down (bumpBy (portAddr p 0x34) 3 s)))
    ∧ ((portSt s p).span = .training → EffectIs (exec (.livenessLoss p) s) s (fun u => (portSt u p).span = .locking))
    ∧ ((portSt s p).span = .down ∨ (portSt s p).span = .adminDown → EffectIs (exec (.livenessLoss p) s) s (· = s))

/-- From R65, R70 to R75, R84, R125, R138: a span that locks in its FEC mode trains; a TRAIN that repeats what came before counts, and
three on both sides take the span UP under the highest common revision; a peer on the same port, of another ring, or without a common
revision shows as MISWIRED, FOREIGN or REFUSED; 50 ms without UP start over, each 100 ms of LOCKING count; a keep marker counts the
intervals missed before it, one of a peer that is UP starts the hold-off, another one takes the span down; RING_PCFG.EN 0 takes it to
ADMIN_DOWN. -/
def Obligations.Training : Prop :=
  ∀ (p : Port) (s : State),
    (∀ fec : Bool, (portSt s p).span = .locking →
      (bits (pcfg s p) 1 2 = 2 ∨ bits (pcfg s p) 1 2 = (if fec = true then 1 else 0) → EffectIs (exec (.blockLock p fec) s) s (fun u =>
        (portSt u p).span = .training ∧ (portSt u p).fecOn = fec ∧ (portSt u p).txFec = fec ∧ (portSt u p).consistent = 0))
      ∧ (bits (pcfg s p) 1 2 = (if fec = true then 0 else 1) → EffectIs (exec (.blockLock p fec) s) s (· = s)))
    ∧ ((portSt s p).span = .training → EffectIs (exec (.trainSend p) s) s (· = sendLocal p (trainPayload p s) s))
    ∧ ((portSt s p).span = .up → EffectIs (exec (.trainSend p) s) s (· = s))
    ∧ (∀ (f : Frame) (i : TrainInfo) (n : Nat), ctlHead s 1 24 = some f → ingressPort f = p → (portSt s p).span = .training →
      i = ⟨rd f.payload 1 1, rd f.payload 2 1, rd f.payload 3 1, rd f.payload 12 4⟩ →
      n = (if (portSt s p).train = some i then min 255 ((portSt s p).consistent + 1) else 0) →
      EffectIs (exec .trainRx s) s (fun u => (portSt u p).span = trainState p s i n (rd f.payload 19 1)
        ∧ (portSt u p).peerNode = rd f.payload 16 1 ∧ (portSt u p).peerUid = BitVec.ofNat 64 (rd f.payload 4 8)
        ∧ (portSt u p).consistent = n
        ∧ (trainState p s i n (rd f.payload 19 1) = .up → (portSt u p).rev = min (bits (pcfg s p) 8 4) i.revMax)))
    ∧ ((portSt s p).span = .training → (portSt s p).lockUp + 100000 ≤ s.time.up →
        EffectIs (exec (.trainingTimeout p) s) s (fun u => (portSt u p).span = .locking ∧ (portSt u p).lockUp = s.time.up
          ∧ (portSt u p).train = none ∧ (portSt u p).consistent = 0))
    ∧ (s.time.up < (portSt s p).lockUp + 100000 ∨ (portSt s p).span = .up ∨ (portSt s p).span = .locking → EffectIs (exec (.trainingTimeout p) s) s (· = s))
    ∧ ((portSt s p).span = .locking → (portSt s p).fecFailUp + 200000 ≤ s.time.up → EffectIs (exec (.fecLockTimeout p) s) s (· =
        modPort p (fun q => { q with fecFailUp := s.time.up }) (bump (portAddr p 0x38) s)))
    ∧ ((portSt s p).span ≠ .locking ∨ s.time.up < (portSt s p).fecFailUp + 200000 → EffectIs (exec (.fecLockTimeout p) s) s (· = s))
    ∧ ((portSt s p).span = .adminDown → EffectIs (exec (.keepMarkerSend p) s) s (· = s))
    ∧ ((portSt s p).span ≠ .adminDown → EffectIs (exec (.keepMarkerSend p) s) s (· = modPort p (fun q => { q with
        keepCount := q.keepCount + 1
        keepSent := some (BitVec.ofNat 8 s.ring.node, BitVec.ofNat 8 (spanNo q.span + 16 * bits (pcfg s p) 8 4), q.keepCount + 1) }) s))
    ∧ (∀ (node : Byte) (rev : BitVec 4), (portSt s p).span = .up →
      ∀ missed, EffectIs (exec (.keepMarkerRx p node 3 rev missed) s) s (· = modPort p (fun q => { q with
        peerUp := true, keepNode := node.toNat, holdUp := some (q.holdUp.getD s.time.up) }) (bumpBy (portAddr p 0x34) missed s))
      ∧ (∀ st : BitVec 4, st ≠ 3 → st ≠ 2 ∨ (portSt s p).peerUp = true → EffectIs (exec (.keepMarkerRx p node st rev missed) s) s (fun u =>
          (portSt u p).span = .down)))
    ∧ (∀ v : Word, barFree s = true → bit v.toNat 0 = false → EffectIs (exec (.ringPcfgWrite p v) s) s (fun u =>
        (portSt u p).span = .adminDown
        ∧ (portSt u (otherPort p)).span = (portSt s (otherPort p)).span))
    ∧ (∀ v : Word, barFree s = true → bit v.toNat 0 = true → EffectIs (exec (.ringPcfgWrite p v) s) s (fun u =>
        (portSt u p).span = .down ∨ (portSt u p).span = .locking))

/-! ## Membership, master and ring time -/

/-- From R85 to R87, R90 to R92, R96: an unnumbered hub that follows a beacon sends a JOIN every 10 ms; the master answers with a number
and a new generation that holds the node, and leaves the other entries; a JOIN is answered once its tick is over; the ASSIGN for this
hub waits for its cycle, and 100 ms without one end the wait; a light list whole in one fragment waits for its cycle unless its
generation is in force; span reports are kept by master and backup; a list is sent again after 1 s; and a node joined unplanned is
dropped after 60 s of absence. -/
def Obligations.RingMembership : Prop :=
  (∀ s : State, s.ring.node = 0 → s.time.lastBeacon.isSome = true → s.ring.answered = false → masterNode s ≠ 0 →
      (s.ring.joinSent = false ∨ s.ring.joinUp + 20000 ≤ s.time.up → EffectIs (exec .joinSend s) s (· =
        modRing (fun r => { r with joinUp := s.time.up, joinSent := true })
          (sendCtl (masterNode s) 0 0 (Config.unicastCcw (masterNode s) 4) (joinPayload s) s)))
      ∧ (s.ring.joinSent = true → s.time.up < s.ring.joinUp + 20000 → EffectIs (exec .joinSend s) s (· = s)))
  ∧ (∀ s : State, s.ring.node ≠ 0 ∨ s.ring.answered = true → EffectIs (exec .joinSend s) s (· = s))
  ∧ (∀ (f : Frame) (l : LightList) (j : JoinReq) (n : Nat) (unplanned : Bool) (s : State), queueOf s .local 4 = [f] → rd f.payload 0 1 = 8 →
      24 ≤ f.payload.length → f.rxTick < tickNow s → newestLight s = some l →
      j = ⟨rd f.payload 1 1, rd f.payload 2 1, rd f.payload 3 1, BitVec.ofNat 64 (rd f.payload 4 8), rd f.payload 12 4,
        BitVec.ofNat 32 (rd f.payload 16 4), BitVec.ofNat 8 (rd f.payload 20 1), BitVec.ofNat 8 (rd f.payload 21 1)⟩ →
      chooseNumber l (plans s.upd.inForce) j = (n, unplanned, 0) →
      (isMaster s = true → ((l.entries.filter (fun e => e.node != n)).map (fun e => e.grant.toNat)).sum + j.charge ≤ 1250 * l.n.toNat →
        EffectIs (exec .joinRx s) s (fun u => ∃ m e, u.ring.nextLight = some m ∧ e ∈ m.entries ∧ e.node = n ∧ e.uid = j.uid
          ∧ entryPresent e = true ∧ e.grant.toNat = j.charge ∧ m.effective = BitVec.ofNat 64 (cycleNow s + 1)
          ∧ (∀ x ∈ l.entries, x.node ≠ n → ∃ y ∈ m.entries, y.node = x.node ∧ y.uid = x.uid ∧ y.flags = x.flags ∧ y.grant = x.grant
              ∧ y.members = x.members) ∧ u.ring.light = s.ring.light))
      ∧ (isMaster s = true → 1250 * l.n.toNat < ((l.entries.filter (fun e => e.node != n)).map (fun e => e.grant.toNat)).sum + j.charge →
        EffectIs (exec .joinRx s) s (fun u => u.ring = s.ring))
      ∧ (isMaster s = false → EffectIs (exec .joinRx s) s (· = freeCells f (setQueue .local 4 [] s))))
  ∧ (∀ (f : Frame) (s : State), queueOf s .local 4 = [f] → tickNow s ≤ f.rxTick → EffectIs (exec .joinRx s) s (· = s))
  ∧ (∀ (f : Frame) (s : State), ctlHead s 9 28 = some f →
      (rd f.payload 4 8 = (myUid s).toNat → s.ring.pubWaits = [] → EffectIs (exec .assignRx s) s (fun u =>
        u.ring.assign = some ⟨rd f.payload 1 1, rd f.payload 2 1, rd f.payload 12 4, rd f.payload 20 8⟩ ∧ u.ring.node = s.ring.node
        ∧ u.ring.grant = s.ring.grant))
      ∧ (rd f.payload 4 8 ≠ (myUid s).toNat → EffectIs (exec .assignRx s) s (· = dequeue .local 4 s)))
  ∧ (∀ (w : PubWait) (x : Cmd) (s : State), s.ring.pubWaits = [w] → s.maps.acts = [] →
      (w.up + 200000 ≤ s.time.up → s.cmd.inflight = [x] → x.session = w.session → x.tag = w.tag → x.phase = .issued →
        EffectIs (exec .assignWaitTimeout s) s (fun u => u.ring = { s.ring with pubWaits := [], charge := pubCharge s.maps.published }
          ∧ u.cmd = { s.cmd with inflight := [{ x with phase := .ready .timeout [], effected := true }] }))
      ∧ (s.time.up < w.up + 200000 → EffectIs (exec .assignWaitTimeout s) s (· = s)))
  ∧ (∀ (f : Frame) (s : State), ctlHead s 6 16 = some f →
      (s.master.role = 0 → EffectIs (exec .spanReportRx s) s (· = dequeue .local 4 s))
      ∧ (s.master.role ≠ 0 → EffectIs (exec .spanReportRx s) s (fun u =>
          (rd f.payload 3 1 = 3 → u.ring.spanDown = s.ring.spanDown.filter (fun x => x != (f.src, rd f.payload 4 1)))
          ∧ (rd f.payload 3 1 ≠ 3 → u.ring.spanDown
              = s.ring.spanDown.filter (fun x => x != (f.src, rd f.payload 4 1)) ++ [(f.src, rd f.payload 4 1)])
          ∧ u.ring.light = s.ring.light ∧ (isMaster s = false → u.ring.nextLight = s.ring.nextLight))))
  ∧ (∀ (f : Frame) (s : State), ctlHead s 7 4 = some f → s.ring.fragments = [] → rd f.payload 1 1 = 0 → s.master.role ≠ 2 →
      (rd f.payload 2 2 + 4 ≤ f.payload.length → EffectIs (exec .lightRx s) s (fun u => u.ring.fragments = [] ∧ u.ring.light = s.ring.light
        ∧ u.ring.nextLight = (if s.ring.light.map (·.gen) = some (parseLight ((f.payload.drop 4).take (rd f.payload 2 2))).gen then s.ring.nextLight
            else some (parseLight ((f.payload.drop 4).take (rd f.payload 2 2))))))
      ∧ (f.payload.length < rd f.payload 2 2 + 4 → EffectIs (exec .lightRx s) s (fun u =>
          u.ring.fragments = [(rd f.payload 2 2 * 65536 + f.gen.toNat, 0, f.payload.drop 4)] ∧ u.ring.nextLight = s.ring.nextLight)))
  ∧ (∀ (l : LightList) (s : State), newestLight s = some l → isMaster s = true →
      (s.ring.lightSentUp + 2000000 ≤ s.time.up → EffectIs (exec .lightSend s) s (· = sendLight l s))
      ∧ (s.time.up < s.ring.lightSentUp + 2000000 → EffectIs (exec .lightSend s) s (· = s)))
  ∧ (∀ (n : Fin 256) (l : LightList) (t : Nat) (s : State), slook s.ring.absentSince n.val = some t → newestLight s = some l → isMaster s = true →
      (t + 120000000 ≤ s.time.up → (∃ e ∈ l.entries, e.node = n.val ∧ bit e.flags.toNat 2 = true ∧ entryPresent e = false) →
        EffectIs (exec (.unplannedRemoval n) s) s (fun u => ∃ m, u.ring.nextLight = some m
          ∧ m.entries.map (·.node) = (l.entries.filter (fun e => e.node != n.val)).map (·.node)
          ∧ m.effective = BitVec.ofNat 64 (cycleNow s + 1) ∧ u.ring.light = s.ring.light))
      ∧ (s.time.up < t + 120000000 → EffectIs (exec (.unplannedRemoval n) s) s (· = s)))

/-- From R142 to R147: three missed beacons and 1 ms, or both neighbours of the master that report their spans to it DOWN, make the
standing backup declare the master lost; it takes the master function over with the list in force and at the rate it keeps; once the
old master has joined again and is ready it hands back two cycles on (`ready` is the model's, log entry 97); a proof without a backup
beacon in time fails, and the master goes on; and a hub that is not master raises RING_BEACON_LOST. -/
def Obligations.MasterEvents : Prop :=
  ∀ s : State,
    (s.master.role = 2 → s.master.lostUp = none → 3 ≤ s.time.missed → s.time.lastBeaconUp + 2000 ≤ s.time.up →
      EffectIs (exec .masterLost s) s (· = detect 0x0301 {} (modMaster (fun m => { m with lostUp := some s.time.up }) s)))
    ∧ (∀ l e, s.master.role = 2 → s.master.lostUp = none → s.ring.light = some l →
      l.entries.find? (fun e => e.node == l.master.toNat) = some e → s.ring.spanDown.contains (e.eastPeer.toNat, e.node) = true →
      s.ring.spanDown.contains (e.westPeer.toNat, e.node) = true →
      EffectIs (exec .masterLost s) s (· = detect 0x0301 {} (modMaster (fun m => { m with lostUp := some s.time.up }) s)))
    ∧ (s.master.role = 1 ∨ s.master.role = 3 ∨ s.master.lostUp.isSome = true → EffectIs (exec .masterLost s) s (· = s))
    ∧ (∀ t l, s.master.role = 2 → s.master.lostUp = some t → s.ring.light = some l → s.ring.node ≠ 0 → s.time.holds = true →
      EffectIs (exec .masterTakeover s) s (fun u =>
        u.master = { s.master with role := 3, returned := false, saved := { s.master.saved with light := some l } } ∧ isMaster u = true
        ∧ u.time.holds = true ∧ u.time.rate = s.time.rate ∧ u.time.locked = true ∧ u.ring.light = some l
        ∧ ∃ m, u.ring.nextLight = some m ∧ m.master = BitVec.ofNat 8 s.ring.node ∧ m.effective = BitVec.ofNat 64 (cycleNow s + 1)))
    ∧ (s.master.lostUp = none → EffectIs (exec .masterTakeover s) s (· = s))
    ∧ (∀ k l ready, s.master.role = 3 → s.master.handBackAt = some k → s.ring.light = some l →
        (k ≤ cycleNow s → l.master.toNat ≠ s.ring.node → EffectIs (exec (.masterHandBack ready) s) s (fun u =>
          u.master = { s.master with role := 2, handBackAt := none, returned := false, firstBeacon := none } ∧ u.ring = s.ring))
        ∧ (cycleNow s < k → EffectIs (exec (.masterHandBack ready) s) s (· = s)))
    ∧ (∀ old l ready, s.master.role = 3 → s.master.handBackAt = none → s.master.saved.light = some old → newestLight s = some l →
        (ready = true → s.master.returned = true → l.entries.any (fun e => e.node == old.master.toNat && entryPresent e) = true →
          EffectIs (exec (.masterHandBack ready) s) s (fun u => u.master = { s.master with handBackAt := some (cycleNow s + 2) }
            ∧ ∃ m, u.ring.nextLight = some m ∧ m.master = old.master ∧ m.effective = BitVec.ofNat 64 (cycleNow s + 2)
              ∧ m.entries.map (·.node) = l.entries.map (·.node)))
        ∧ (ready = false ∨ s.master.returned = false → EffectIs (exec (.masterHandBack ready) s) s (· = s)))
    ∧ (∀ l ready, s.master.role = 0 → s.ring.light = some l → l.master.toNat = s.ring.node → numbered s = true → s.time.locked = true →
        EffectIs (exec (.masterHandBack ready) s) s (fun u => u.master = { s.master with
          role := 1, stopped := false, proof := false, firstBeacon := none } ∧ u.ring = s.ring))
    ∧ (s.master.proof = true → s.master.stopped = true →
        (s.master.proofStartCycle + 3 ≤ cycleNow s → s.master.proofUp + 40000 ≤ s.time.up → s.time.lastBeaconUp ≤ s.master.proofUp →
          EffectIs (exec .proofFail s) s (fun u => u.master = { s.master with stopped := false, proof := false, firstBeacon := none }
            ∧ u.ring = s.ring
            ∧ ∃ v w, u = sendBeacon (cycleNow s) w ∧ w = detect 0x0302 {} v))
        ∧ (cycleNow s < s.master.proofStartCycle + 3 → EffectIs (exec .proofFail s) s (· = s)))
    ∧ (3 ≤ s.time.missed → s.time.lastBeaconUp + 2000 ≤ s.time.up → isMaster s = false → (faultSrc s 0x0303).st ≠ .active →
        EffectIs (exec .beaconLost s) s (· = detect 0x0303 {} s))
    ∧ (isMaster s = true ∨ s.time.missed < 3 → EffectIs (exec .beaconLost s) s (· = s))

/-- From R144, R153 to R155, R159 to R161, R466: a beacon of a sender that is allowed sets the ring time of a hub that holds none, and
steers one that does, whose counter stays as it is and whose rate turns against the offset, by a free amount within 200 ppm; a second
beacon of a cycle, a foreign one and one that is out of place are counted. Three missed beacons lead to holdover at the mean rate. The
delay of a span is asked for each 1 ms, answered at once, and kept within 20 ns of the mean. From R166 to R168, R175: SYNC_IN edges one
second apart, within 100 µs, lock a master whose SYNC_IN is enabled at the third; an edge out of place is counted and starts anew; the
lock is lost 2 s and 100 µs after the last good edge; SYNC_OUT drives its next edge at its instant, and its return after WIDTH;
TIME_SNAP takes the ring time as it stands. -/
def Obligations.TimeEvents : Prop :=
 ((∀ (f : Frame) (ref : Int) (s v : State), ctlHead s 2 40 = some f → v = dequeue .local 4 s → s.master.role = 0 →
      ref = (((rd f.payload 8 6 * 1000000000 + rd f.payload 16 4) * 65536 + rd f.payload 14 2 : Nat) : Int)
        + toSigned 64 (rd f.payload 20 8) + pdIn s (ingressPort f) →
      (senderAllowed s f.src (rd f.payload 1 1) = false → s.ring.beaconSrc ≠ f.src → s.time.lastBeacon ≠ some f.cycle →
        EffectIs (exec .beaconRx s) s (· = bump 0x50654 v))
      ∧ (senderAllowed s f.src (rd f.payload 1 1) = true → s.time.accepted.contains f.cycle = true → s.ring.beaconSrc = f.src →
          EffectIs (exec .beaconRx s) s (· = bump 0x40110 v))
      ∧ (senderAllowed s f.src (rd f.payload 1 1) = true → s.time.accepted.contains f.cycle = false →
          pdValid s (ingressPort f) = false ∨ rd f.payload 8 6 * 1000000000 + rd f.payload 16 4 < f.cycle * rd f.payload 4 4 * 500 →
          EffectIs (exec .beaconRx s) s (· = bump 0x40114 v))
      ∧ (∀ l, senderAllowed s f.src (rd f.payload 1 1) = true → s.time.accepted.contains f.cycle = false → s.ring.light = some l →
          rd f.payload 4 4 = l.n.toNat → f.cycle * rd f.payload 4 4 * 500 ≤ rd f.payload 8 6 * 1000000000 + rd f.payload 16 4 →
          rd f.payload 8 6 * 1000000000 + rd f.payload 16 4 ≤ f.cycle * rd f.payload 4 4 * 500 + 4000 →
          pdValid s (ingressPort f) = true →
          (s.time.holds = false → EffectIs (exec .beaconRx s) s (fun u => u.time.holds = true ∧ u.time.locked = false
            ∧ u.time.seconds = ref.toNat / 65536 / 1000000000 % 2 ^ 48 ∧ u.time.ns = ref.toNat / 65536 % 1000000000
            ∧ u.time.frac = ref.toNat % 65536 ∧ u.time.lastBeacon = some f.cycle ∧ u.time.missed = 0 ∧ u.time.holdover = false
            ∧ u.ring.beaconSrc = f.src ∧ u.ring.node = s.ring.node))
          ∧ (s.time.holds = true → s.hub = .run → EffectIs (exec .beaconRx s) s (fun u => u.time.seconds = s.time.seconds
            ∧ u.time.ns = s.time.ns ∧ u.time.frac = s.time.frac ∧ u.time.offset = (f.rxTime : Int) - ref
            ∧ (-200000000 ≤ s.time.rate → s.time.rate ≤ 200000000 → -200000000 ≤ u.time.rate ∧ u.time.rate ≤ 200000000
              ∧ (ref < (f.rxTime : Int) → u.time.rate < s.time.rate ∨ u.time.rate = -200000000)
              ∧ ((f.rxTime : Int) < ref → s.time.rate < u.time.rate ∨ u.time.rate = 200000000))
            ∧ u.time.lastBeacon = some f.cycle ∧ u.time.missed = 0 ∧ u.time.holdover = false))))
  ∧ (∀ s : State, (3 ≤ s.time.missed → s.time.lastBeaconUp + 2000 ≤ s.time.up → isMaster s = false → s.time.holds = true →
        s.time.holdover = false → EffectIs (exec .holdoverEntry s) s (· = modTime (fun t => { t with
          holdover := true, rate := meanRate t }) s))
      ∧ (isMaster s = true ∨ s.time.missed < 3 ∨ s.time.holds = false → EffectIs (exec .holdoverEntry s) s (· = s)))
  ∧ (∀ (p : Port) (mac : Nat) (s : State),
      (isUp s p = true → (portSt s p).pd.sentUp = 0 ∨ (portSt s p).pd.sentUp + 2000 ≤ s.time.up → EffectIs (exec (.pdelayReqSend p mac) s) s (· =
        sendLocal p ([3, BitVec.ofNat 8 (portNo p)] ++ leBytes 2 ((portSt s p).pd.seq + 1).toNat ++ zeros 4)
          (modPort p (fun q => { q with pd := { q.pd with seq := q.pd.seq + 1, t1 := some (txStamp s p mac), sentUp := s.time.up } }) s)))
      ∧ (isUp s p = false → EffectIs (exec (.pdelayReqSend p mac) s) s (· = s))
      ∧ ((portSt s p).pd.t1.isSome = true → (portSt s p).pd.sentUp + 200 ≤ s.time.up → EffectIs (exec (.pdelayRspTimeout p) s) s (· =
          modPort p (fun q => { q with pd := { q.pd with t1 := none } }) s))
      ∧ ((portSt s p).pd.t1 = none ∨ s.time.up < (portSt s p).pd.sentUp + 200 → EffectIs (exec (.pdelayRspTimeout p) s) s (· = s)))
  ∧ (∀ (mac : Nat) (f : Frame) (s : State), ctlHead s 3 8 = some f → (portSt s (ingressPort f)).rev ≠ 2 → EffectIs (exec (.pdelayReqRx mac) s) s (· =
      sendLocal (ingressPort f) ([4, BitVec.ofNat 8 (portNo (ingressPort f))] ++ slice f.payload 2 2 ++ zeros 4 ++ leBytes 8 (txStamp s (ingressPort f) mac - f.rxTime))
        (dequeue .local 4 s)))
  ∧ (∀ (f : Frame) (p : Port) (t1 m : Nat) (s : State), ctlHead s 4 16 = some f → p = ingressPort f → (portSt s p).pd.t1 = some t1 →
      m = ((f.rxTime - t1) - rd f.payload 8 8) / 2 →
      (rd f.payload 2 2 = (portSt s p).pd.seq.toNat → s.time.up ≤ (portSt s p).pd.sentUp + 200 →
        ((portSt s p).pd.samples = [] ∨ m ≤ pdMean (portSt s p).pd + 20 * 65536 ∧ pdMean (portSt s p).pd ≤ m + 20 * 65536 →
          EffectIs (exec .pdelayRspRx s) s (fun u => (portSt u p).pd = { (portSt s p).pd with
            t1 := none, samples := ((portSt s p).pd.samples ++ [m]).drop ((portSt s p).pd.samples.length + 1 - 16)
            accepted := (portSt s p).pd.accepted + 1, outliers := 0 } ∧ portSt u (otherPort p) = portSt s (otherPort p) ∧ u.time = s.time))
        ∧ ((portSt s p).pd.samples ≠ [] → pdMean (portSt s p).pd + 20 * 65536 < m → (portSt s p).pd.outliers < 7 →
          EffectIs (exec .pdelayRspRx s) s (fun u => (portSt u p).pd = { (portSt s p).pd with
            t1 := none, outliers := (portSt s p).pd.outliers + 1 }))
        ∧ ((portSt s p).pd.samples ≠ [] → pdMean (portSt s p).pd + 20 * 65536 < m → 7 ≤ (portSt s p).pd.outliers →
          EffectIs (exec .pdelayRspRx s) s (fun u => (portSt u p).pd = { (portSt s p).pd with
            t1 := none, samples := [], accepted := 0, outliers := 0 })))
      ∧ (rd f.payload 2 2 ≠ (portSt s p).pd.seq.toNat → EffectIs (exec .pdelayRspRx s) s (· = dequeue .local 4 s)))) ∧
 (∀ s : State,
    (∀ ns, isMaster s = false ∨ fld s 0x40000 0 1 = 0 → EffectIs (exec (.syncInEdge ns) s) s (· = modTime (fun t => { t with syncIn := ns }) s))
    ∧ (∀ ns, isMaster s = true → fld s 0x40000 0 1 = 1 →
      (s.time.syncInAccepted = none → EffectIs (exec (.syncInEdge ns) s) s (· = modTime (fun t => { t with
        syncIn := ns, syncInAccepted := some ns, syncInGood := 1 }) s))
      ∧ (∀ prev, s.time.syncInAccepted = some prev → 999900000 ≤ ns - prev → ns - prev ≤ 1000100000 →
        (s.time.syncInGood < 2 → EffectIs (exec (.syncInEdge ns) s) s (· = modTime (fun t => { t with
          syncIn := ns, syncInAccepted := some ns, syncInGood := s.time.syncInGood + 1 }) s))
        ∧ (2 ≤ s.time.syncInGood → EffectIs (exec (.syncInEdge ns) s) s (fun u => u.time.ppsLock = true ∧ u.time.source = 4
          ∧ u.time.syncInAccepted = some ns ∧ u.time.ns = s.time.ns
          ∧ (-200000000 ≤ s.time.rate → s.time.rate ≤ 200000000 → -200000000 ≤ u.time.rate ∧ u.time.rate ≤ 200000000))))
      ∧ (∀ prev, s.time.syncInAccepted = some prev → ns - prev < 999900000 → EffectIs (exec (.syncInEdge ns) s) s (· =
        bump 0x40118 (modTime (fun t => { t with syncIn := ns, syncInGood := 0 }) s))))
    ∧ (∀ prev, s.time.syncInAccepted = some prev → s.time.ppsLock = true →
      (prev + 2000100000 ≤ ringNs s → EffectIs (exec .ppsLost s) s (· = detect 0x0402 {} (modTime (fun t => { t with
        ppsLock := false, syncInGood := 0, syncInAccepted := none, source := 3, holdover := true, rate := meanRate t }) s)))
      ∧ (ringNs s < prev + 2000100000 → EffectIs (exec .ppsLost s) s (· = s)))
    ∧ (∀ t pol, s.time.syncNext = some t → pol = (fld s 0x40000 3 1 == 1) → fld s 0x40000 2 1 = 1 → fieldLive s = true →
      (t ≤ nsNow s → s.time.syncBall ≠ some (!pol) → EffectIs (exec .syncOutPulse s) s (· =
        modTime (fun x => { x with syncBall := some (!pol), syncNext := some (t + csr s 0x4004C) }) s))
      ∧ (t ≤ nsNow s → s.time.syncBall = some (!pol) → EffectIs (exec .syncOutPulse s) s (· =
        modTime (fun x => { x with
          syncBall := some pol, syncNext := if csr s 0x40048 = 0 then none else some (t + csr s 0x40048 - csr s 0x4004C) }) s))
      ∧ (nsNow s < t → EffectIs (exec .syncOutPulse s) s (· = s)))
    ∧ (barFree s = true → EffectIs (exec .timeSnapTake s) s (· = modTime (fun t => { t with
        snapSec := t.seconds, snapNs := t.ns, snapFrac := t.frac }) s)))

/-! ## Channels -/

/-- R183: a clamp event longer than 1 µs is counted in CHN_CLAMP, in every state of the hub and the channel; a clamp event has no effect
on state or queues. -/
def Obligations.ClampEvents : Prop :=
  ∀ (ch : Fin 128) (ns : Nat) (s : State),
    (1000 < ns → EffectIs (exec (.clampEvent ch ns) s) s (· = bump (chnAddr ch.val 0xAC) s))
    ∧ (ns ≤ 1000 → EffectIs (exec (.clampEvent ch ns) s) s (· = s))

/-- From R173, R186 to R190: what CHN_CTL does: ENABLE starts a disabled channel, DRAIN stops new items, ABORT and RESET empty its queue
and disable it, the highest of several bits acts and BAD_ENC is set; a channel that joins answers its enable with the tick; a drained
one is disabled and answers; a reset ends in DISABLED, or in JOINING where the channel was enabled and did not drain. -/
def Obligations.ChannelControl : Prop :=
  ∀ (ch : Fin 128) (s : State),
    (barFree s = true →
      ((chan s ch.val).st = .disabled → EffectIs (exec (.chnCtlEnable ch 0) s) s (· = modChan ch.val (fun x => { x with
        st := if x.resetting = true then .disabled else .joining, enabled := true, busIdle := false }) s))
      ∧ ((chan s ch.val).st ≠ .disabled → EffectIs (exec (.chnCtlEnable ch 0) s) s (· = s))
      ∧ ((chan s ch.val).st = .active ∨ (chan s ch.val).st = .joining ∨ (chan s ch.val).st = .alone → (chan s ch.val).txq ≠ [] →
        EffectIs (exec (.chnCtlDrain ch 0) s) s (· = modChan ch.val (fun x => { x with st := .draining }) s))
      ∧ ((chan s ch.val).st = .disabled → EffectIs (exec (.chnCtlDrain ch 0) s) s (· = modChan ch.val (fun x => { x with enabled := false }) s))
      ∧ ((chan s ch.val).st = .active ∨ (chan s ch.val).st = .joining → (chan s ch.val).can.onBus = none →
        EffectIs (exec (.chnCtlAbort ch 0) s) s (fun u => (chan u ch.val).st = .disabled ∧ (chan u ch.val).enabled = false
          ∧ (chan u ch.val).txq = [] ∧ ((chan s ch.val).stalled = [] → (chan u ch.val).txSeq = (chan s ch.val).txSeq)
          ∧ ∀ k, k ≠ ch.val → chan u k = chan s k))
      ∧ ((chan s ch.val).st ≠ .off → (chan s ch.val).st ≠ .partner → EffectIs (exec (.chnCtlReset ch 0) s) s (fun u =>
          (chan u ch.val).st = .disabled ∧ (chan u ch.val).resetting = true
          ∧ (chan u ch.val).enabled = (if (chan s ch.val).st = .draining then false else (chan s ch.val).enabled)
          ∧ (chan u ch.val).txq = [] ∧ (chan u ch.val).can = {} ∧ ∀ k, k ≠ ch.val → chan u k = chan s k))
      ∧ ((chan s ch.val).st = .off ∨ (chan s ch.val).st = .partner → EffectIs (exec (.chnCtlReset ch 0) s) s (· = s))
      ∧ (∀ v : BitVec 4, v.getLsbD 3 = true → ∀ i, i = .chnCtlEnable ch v ∨ i = .chnCtlDrain ch v ∨ i = .chnCtlAbort ch v →
        EffectIs (exec i s) s (· = (chanReset ch.val (setFld 0x008 0 1 1 s)).2))
      ∧ (∀ v : BitVec 4, v.getLsbD 3 = false → v.getLsbD 2 = true → ∀ i, i = .chnCtlEnable ch v ∨ i = .chnCtlDrain ch v →
        EffectIs (exec i s) s (· = (chanAbort ch.val (setFld 0x008 0 1 1 s)).2)))
    ∧ (fieldAwake s = true →
      ((chan s ch.val).st = .joining → (chan s ch.val).resetting = false → pers s ch.val ≠ 4 → (chan s ch.val).enabling = none →
        (chan s ch.val).can.busOff = false →
        EffectIs (exec (.channelJoin ch) s) s (fun u => (chan u ch.val).st = .active ∧ (chan u ch.val).busIdle = true
          ∧ (chan u ch.val).joinTick = tickNow s ∧ (chan u ch.val).txq = (chan s ch.val).txq ∧ u.cmd.inflight = s.cmd.inflight
          ∧ ∀ k, k ≠ ch.val → chan u k = chan s k))
      ∧ (∀ x up, (chan s ch.val).st = .joining → (chan s ch.val).resetting = false → pers s ch.val ≠ 4 → s.cmd.inflight = [x] →
        x.phase = .issued → (chan s ch.val).enabling = some (x.session, x.tag, up) → (chan s ch.val).can.busOff = false →
        EffectIs (exec (.channelJoin ch) s) s (fun u =>
          (chan u ch.val).st = .active ∧ (chan u ch.val).enabling = none ∧ u.cmd.inflight = [{ x with
            phase := .ready .ok (leBytes 8 (if s.time.up ≤ up + 2000 then tickNow s else 0)), effected := true }]))
      ∧ ((chan s ch.val).st ≠ .joining → EffectIs (exec (.channelJoin ch) s) s (· = s))
      ∧ ((chan s ch.val).resetting = true → EffectIs (exec (.channelResetEnd ch) s) s (· = modChan ch.val (fun x => { x with
          resetting := false, st := if x.enabled = true then .joining else .disabled }) s))
      ∧ ((chan s ch.val).st = .draining → (chan s ch.val).txq = [] → (chan s ch.val).can.onBus = none →
        EffectIs (exec (.drainComplete ch) s) s (fun u => (chan u ch.val).st = .disabled ∧ (chan u ch.val).enabled = false
          ∧ (chan u ch.val).draining = [] ∧ ((chan s ch.val).stalled = [] → (chan u ch.val).rxq = (chan s ch.val).rxq)
          ∧ ∀ k, k ≠ ch.val → chan u k = chan s k))
      ∧ (∀ x, (chan s ch.val).st = .draining → (chan s ch.val).txq = [] → (chan s ch.val).can.onBus = none → s.cmd.inflight = [x] →
        x.phase = .issued → (chan s ch.val).draining = [(x.session, x.tag)] → (chan s ch.val).enabling = none →
        (chan s ch.val).detect = none → (chan s ch.val).stalled = [] → (chan s ch.val).can.reqs = [] → (chan s ch.val).mb.exchange = none →
        (chan s ch.val).mb.waiting = [] → (chan s ch.val).iol.isdu = [] → EffectIs (exec (.drainComplete ch) s) s (fun u =>
          u.cmd.inflight = [{ x with phase := .ready .ok (leBytes 4 (chan s ch.val).drainAborted), effected := true }]))
      ∧ ((chan s ch.val).txq ≠ [] → EffectIs (exec (.drainComplete ch) s) s (· = s)))

/-- From R169, R172, R173, R195 to R198, R230, R231, R233, R353: the item on a serial wire leaves and its command answers with the
sequence and the instant; one with a defect is reported in its place; a timed one starts in the tick of its instant where the line is
ready, and is late where it is not, or where that has passed; a report or a stalled write takes the room it waited for; in GAP mode a
received frame is placed whole with the tick of the end of its idle, or counted with the fault found. -/
def Obligations.ChannelItems : Prop :=
  ∀ (ch : Fin 128) (s : State), fieldAwake s = true →
    (∀ (i : TxItem) (t : List TxItem), pers s ch.val = 1 ∨ pers s ch.val = 2 → mbOn s ch.val = false → (chan s ch.val).txq = i :: t →
      (∀ j ∈ t, j.seq ≠ i.seq) → delimDefect s ch.val i = false → (chan s ch.val).rptWaits = [] →
      (∀ ns x, i.producer = .send x.session x.tag → s.cmd.inflight = [x] → x.phase = .issued → (chan s ch.val).onWire = some i.seq →
        (chan s ch.val).st ≠ .off →
        EffectIs (exec (.txItemComplete ch ns) s) s (fun u => (chan u ch.val).txq = t ∧ (chan u ch.val).onWire = none
          ∧ (chan u ch.val).rxq = (chan s ch.val).rxq ∧ (∀ k, k ≠ ch.val → chan u k = chan s k)
          ∧ u.cmd.inflight = [{ x with phase := .ready .ok (leBytes 4 i.seq ++ leBytes 8 ns), effected := true }]))
      ∧ (∀ ns st, i.bad = some st → i.producer = .push → (chan s ch.val).onWire = none → (chan s ch.val).pendRpt = none →
        sending (chan s ch.val) = true →
        EffectIs (exec (.txItemComplete ch ns) s) s (fun u => (chan u ch.val).txq = t ∧ (chan u ch.val).pendRpt = some ⟨st, i.seq, 1⟩
          ∧ (∀ k, k ≠ ch.val → chan u k = chan s k) ∧ u.cmd.inflight = s.cmd.inflight))
      ∧ (∀ r, i.bad = none → i.release = some r → nsNow s ≤ onGrid r → onGrid r < nextNs s →
        (lineReady s ch.val (onGrid r) = true →
          EffectIs (exec (.tatRelease ch) s) s (fun u => (chan u ch.val).onWire = some i.seq ∧ (chan u ch.val).txq = i :: t
            ∧ (chan u ch.val).lastSent = lineBytes s ch.val i.data ∧ ∀ k, k ≠ ch.val → chan u k = chan s k))
        ∧ (lineReady s ch.val (onGrid r) = false → (chan s ch.val).onWire = none → (chan s ch.val).st ≠ .off → i.producer = .push →
          (chan s ch.val).pendRpt = none →
          EffectIs (exec (.tatRelease ch) s) s (fun u => (chan u ch.val).txq = t ∧ (chan u ch.val).pendRpt = some ⟨.tooLate, i.seq, 1⟩
            ∧ ∀ k, k ≠ ch.val → chan u k = chan s k)))
      ∧ (∀ r, i.bad = none → i.release = some r → onGrid r < nsNow s → (chan s ch.val).onWire = none → (chan s ch.val).st ≠ .off →
        i.producer = .push → (chan s ch.val).pendRpt = none →
        EffectIs (exec (.tatRelease ch) s) s (fun u => (chan u ch.val).txq = t ∧ (chan u ch.val).pendRpt = some ⟨.tooLate, i.seq, 1⟩
          ∧ ∀ k, k ≠ ch.val → chan u k = chan s k))
      ∧ (∀ r, i.bad = none → i.release = some r → nsNow s ≤ onGrid r → nextNs s ≤ onGrid r →
        EffectIs (exec (.tatRelease ch) s) s (· = s)))
    ∧ (∀ w, (chan s ch.val).pendRpt = some w → rxFits s ch.val 1 = true → EffectIs (exec (.statusReportWrite ch) s) s (· =
        modChan ch.val (fun c => { c with
          rxq := c.rxq ++ [statusWord w], pendRpt := c.rptWaits.head?, rptWaits := c.rptWaits.drop 1 }) s))
    ∧ ((chan s ch.val).pendRpt = none ∨ rxFits s ch.val 1 = false → EffectIs (exec (.statusReportWrite ch) s) s (· = s))
    ∧ (∀ i n t, (chan s ch.val).stalled = (i, n) :: t →
      (txFits s ch.val i = true → EffectIs (exec (.producerWriteResume ch) s) s (· =
        queueItem ch.val i (modChan ch.val (fun c => { c with stalled := t }) s)))
      ∧ (txFits s ch.val i = false → EffectIs (exec (.producerWriteResume ch) s) s (· = s)))
    ∧ (serialHears s ch.val = true → mbOn s ch.val = false →
      (∀ bs ticks idle k, serMode s ch.val = 0 → k < bs.length →
        EffectIs (exec (.serialFrameRx ch bs ticks idle (some (k, .framing))) s) s (· =
          bump (chnAddr ch.val 0x90) (bump (chnAddr ch.val 0x180) s))
        ∧ EffectIs (exec (.serialFrameRx ch bs ticks idle (some (k, .parity))) s) s (· =
          bump (chnAddr ch.val 0x90) (bump (chnAddr ch.val 0x184) s))
        ∧ EffectIs (exec (.serialFrameRx ch bs ticks idle (some (k, .break_))) s) s (· =
          bump (chnAddr ch.val 0x90) (bump (chnAddr ch.val 0x188) s)))
      ∧ (∀ bs ticks idle, serMode s ch.val = 0 → cvEn s ch.val = false → bs ≠ [] → bs.length ≤ maxLen s ch.val →
        ((chan s ch.val).pendRpt = none → rxFits s ch.val (packetWords idle bs).length = true →
          EffectIs (exec (.serialFrameRx ch bs ticks idle none) s) s (fun u => (chan u ch.val).rxq = (chan s ch.val).rxq ++ packetWords idle bs
            ∧ (chan u ch.val).rxSeq = ((chan s ch.val).rxSeq + 1) % 2 ^ 32 ∧ ∀ k, k ≠ ch.val → chan u k = chan s k))
        ∧ ((chan s ch.val).pendRpt = none → (chan s ch.val).rptWaits = [] → rxFits s ch.val (packetWords idle bs).length = false →
          EffectIs (exec (.serialFrameRx ch bs ticks idle none) s) s (fun u => (chan u ch.val).rxq = (chan s ch.val).rxq
            ∧ (chan u ch.val).pendRpt = some ⟨.queueFull, (chan s ch.val).rxSeq, 1⟩ ∧ ∀ k, k ≠ ch.val → chan u k = chan s k)))
      ∧ (∀ bs ticks idle, serMode s ch.val = 0 → bs ≠ [] → maxLen s ch.val < bs.length →
          EffectIs (exec (.serialFrameRx ch bs ticks idle none) s) s (· =
            bump (chnAddr ch.val 0x90) (bump (chnAddr ch.val 0x18C) s))))
    ∧ (∀ bs ticks idle f, serialHears s ch.val = false → EffectIs (exec (.serialFrameRx ch bs ticks idle f) s) s (· = s))

/-- From R201, R226: CH_RATE_DETECT of a disabled channel that detects takes it to DETECT and waits. From R202, R203, R226: a rate that
is confirmed ends the detection, answers its command and leaves the channel disabled; on CAN the nominal rate waits up to 100 ms for a
frame with a data rate; a detection that runs out of time answers TIMEOUT, or OK with the nominal rate it has. -/
def Obligations.RateDetection : Prop :=
 (∀ ms : Word, 10 ≤ ms.toNat → ms.toNat ≤ 600000 →
    HostStands (.chRateDetect · ms) 0x0203 (leBytes 4 ms.toNat)
      (fun c u => (chan u c.target.toNat).st = .disabled ∧ (chan u c.target.toNat).resetting = false
        ∧ (pers u c.target.toNat = 1 ∨ pers u c.target.toNat = 2 ∨ pers u c.target.toNat = 3)
        ∧ isPartner (pers u) c.target.toNat = false)
      (fun _ _ => .issued)
      (fun c u => modChan c.target.toNat (fun x => { x with
        st := .detect, detect := some { session := c.session.val, tag := c.tag, startUp := u.time.up, timeoutMs := ms.toNat }
        can := { x.can with nominalFound := none, nominalUp := 0, brsSeen := false } }) u)) ∧
 (∀ (ch : Fin 128) (d : Detect) (x : Cmd) (s : State), fieldAwake s = true → (chan s ch.val).detect = some d → s.cmd.inflight = [x] →
    x.session = d.session → x.tag = d.tag → x.phase = .issued →
    (∀ rate, rate ∈ serialRates → pers s ch.val = 1 ∨ pers s ch.val = 2 → EffectIs (exec (.serialRateConfirm ch rate) s) s (fun u =>
        (chan u ch.val).st = .disabled ∧ (chan u ch.val).detect = none ∧ (chan u ch.val).rateFound = rate
        ∧ u.cmd.inflight = [{ x with phase := .ready .ok (leBytes 4 rate ++ leBytes 4 0), effected := true }]
        ∧ ∀ k, k ≠ ch.val → chan u k = chan s k))
    ∧ (∀ rate, rate ∉ serialRates → EffectIs (exec (.serialRateConfirm ch rate) s) s (· = s))
    ∧ (∀ nominal, pers s ch.val = 3 → (nomTiming nominal).isSome = true →
      ((chan s ch.val).can.nominalFound = none → EffectIs (exec (.canRateConfirm ch nominal none) s) s (· =
        modCan ch.val (fun c => { c with nominalFound := some nominal, nominalUp := s.time.up, brsSeen := false }) s))
      ∧ (∀ r, (dataTiming r).isSome = true → EffectIs (exec (.canRateConfirm ch nominal (some r)) s) s (fun u =>
        (chan u ch.val).st = .disabled ∧ (chan u ch.val).rateFound = nominal
        ∧ u.cmd.inflight = [{ x with phase := .ready .ok (leBytes 4 nominal ++ leBytes 4 r), effected := true }])))
    ∧ (∀ n, (chan s ch.val).can.nominalFound = some n → (chan s ch.val).can.brsSeen = false →
      ((chan s ch.val).can.nominalUp + 200000 ≤ s.time.up → EffectIs (exec (.brsWaitExpiry ch) s) s (fun u => (chan u ch.val).st = .disabled
        ∧ (chan u ch.val).rateFound = n
        ∧ u.cmd.inflight = [{ x with phase := .ready .ok (leBytes 4 n ++ leBytes 4 0), effected := true }]))
      ∧ (since (chan s ch.val).can.nominalUp s < 200000 → EffectIs (exec (.brsWaitExpiry ch) s) s (· = s)))
    ∧ (d.startUp + d.timeoutMs * 2000 ≤ s.time.up → (chan s ch.val).can.nominalFound = none →
      EffectIs (exec (.rateDetectTimeout ch) s) s (fun u => (chan u ch.val).st = .disabled ∧ (chan u ch.val).detect = none
        ∧ u.cmd.inflight = [{ x with phase := .ready .timeout [], effected := true }]))
    ∧ (since d.startUp s < d.timeoutMs * 2000 → EffectIs (exec (.rateDetectTimeout ch) s) s (· = s)))

/-- From R213 to R216, R219 to R225, R228, R304: a frame that no object takes is placed whole where ALL is set, and counted where it is not;
an ALONE channel that receives is ACTIVE; where the bus is idle the chosen item starts; an error in reception counts up REC, and one of
an attempt TEC, by 8 but for ISO 11898-1's exceptions (log entry 33), to bus-off above 255; a frame that left answers its command and
counts TEC down; recovery clears both counters; a ONCE item whose window is over is late, and in ALONE waits; a request whose time has
passed answers TIMEOUT. -/
def Obligations.CanEvents : Prop :=
  ∀ (ch : Fin 128) (s : State), fieldAwake s = true → pers s ch.val = 3 →
    (canHears (chan s ch.val) = true →
      (∀ record stamp, record.length = 8 + recLen record → (recFdf record = true → fdEn s ch.val = true) → (chan s ch.val).can.rec_ ≤ 127 →
        (chan s ch.val).can.reqs = [] → (chan s ch.val).pendRpt = none → (∀ m, m < 64 → moMatches s ch.val m record = false) →
        (∀ i ∈ (chan s ch.val).txq, isOnce i = false) →
        (fld s (canAddr ch.val 0x100) 2 1 = 1 → rxFits s ch.val (packetWords stamp (setAt record 5 0xFF)).length = true →
          EffectIs (exec (.canFrameRx ch record stamp) s) s (fun u => (chan u ch.val).rxq
              = (chan s ch.val).rxq ++ packetWords stamp (setAt record 5 0xFF)
            ∧ (chan u ch.val).can.rec_ = (chan s ch.val).can.rec_ - 1 ∧ (chan u ch.val).can.ackRun = 0
            ∧ (chan u ch.val).st = (if (chan s ch.val).st = .alone then .active else (chan s ch.val).st)
            ∧ ∀ k, k ≠ ch.val → chan u k = chan s k))
        ∧ (fld s (canAddr ch.val 0x100) 2 1 = 0 → EffectIs (exec (.canFrameRx ch record stamp) s) s (fun u =>
            (chan u ch.val).rxq = (chan s ch.val).rxq ∧ (chan u ch.val).can.rec_ = (chan s ch.val).can.rec_ - 1
            ∧ ∀ k, k ≠ ch.val → chan u k = chan s k)))
      ∧ (∀ k dp n, EffectIs (exec (.canReceiveError ch k dp n) s) s (fun u =>
          (chan u ch.val).can.rec_ = min 255 ((chan s ch.val).can.rec_ + 1 + 8 * n) ∧ (chan u ch.val).can.tec = (chan s ch.val).can.tec
          ∧ (chan u ch.val).can.dlec = (if dp = true then errCode k else (chan s ch.val).can.dlec)
          ∧ (chan u ch.val).can.lec = (if dp = true then (chan s ch.val).can.lec else errCode k)
          ∧ (chan u ch.val).txq = (chan s ch.val).txq ∧ (chan u ch.val).rxq = (chan s ch.val).rxq ∧ ∀ k, k ≠ ch.val → chan u k = chan s k)))
    ∧ (canHears (chan s ch.val) = false → ∀ record stamp k dp n, EffectIs (exec (.canFrameRx ch record stamp) s) s (· = s)
        ∧ EffectIs (exec (.canReceiveError ch k dp n) s) s (· = s))
    ∧ (∀ i h, canChoose s ch.val = some i → (chan s ch.val).txq.head? = some h → canDefect s ch.val h = none → canDefect s ch.val i = none →
        (chan s ch.val).busIdle = true → (chan s ch.val).can.onBus = none → (chan s ch.val).can.busOff = false → (chan s ch.val).pendRpt = none →
        sending (chan s ch.val) = true → EffectIs (exec (.tatRelease ch) s) s (fun u => (chan u ch.val).can.onBus = some i.seq
          ∧ (chan u ch.val).busIdle = false ∧ (chan u ch.val).lastSent = wireRecord (chan s ch.val) i.data
          ∧ (chan u ch.val).txq = (chan s ch.val).txq.map (fun j => if j.seq = i.seq then { j with attempts := j.attempts + 1 } else j)
          ∧ ∀ k, k ≠ ch.val → chan u k = chan s k))
    ∧ ((chan s ch.val).can.onBus.isSome = true ∨ (chan s ch.val).can.busOff = true → EffectIs (exec (.tatRelease ch) s) s (· = s))
    ∧ (∀ i t, (chan s ch.val).txq = i :: t → (chan s ch.val).can.onBus = some i.seq → (∀ j ∈ t, j.seq ≠ i.seq) →
        (chan s ch.val).st = .active → (chan s ch.val).aborting = false →
      (∀ ns x, i.producer = .send x.session x.tag → s.cmd.inflight = [x] → x.phase = .issued →
        EffectIs (exec (.canAttemptEnd ch (.left ns)) s) s (fun u => (chan u ch.val).txq = t
          ∧ (chan u ch.val).can.tec = (chan s ch.val).can.tec - 1 ∧ (chan u ch.val).can.ackRun = 0 ∧ (chan u ch.val).can.onBus = none
          ∧ u.cmd.inflight = [{ x with phase := .ready .ok (leBytes 4 i.seq ++ leBytes 8 ns), effected := true }]
          ∧ ∀ k, k ≠ ch.val → chan u k = chan s k))
      ∧ (isOnce i = false → EffectIs (exec (.canAttemptEnd ch .arbLost) s) s (fun u =>
          (chan u ch.val).txq = i :: t ∧ (chan u ch.val).can.onBus = none
          ∧ (chan u ch.val).can.tec = (chan s ch.val).can.tec ∧ ∀ k, k ≠ ch.val → chan u k = chan s k))
      ∧ (∀ k place dom n step,
        step = tecStep (decide ((chan s ch.val).can.tec > 127) || decide ((chan s ch.val).can.rec_ > 127)) k place dom n →
        (k ≠ .ack → (chan s ch.val).can.tec + step ≤ 255 → isOnce i = false →
          EffectIs (exec (.canAttemptEnd ch (.error k place dom n)) s) s (fun u =>
            (chan u ch.val).txq = i :: t ∧ (chan u ch.val).can.tec = (chan s ch.val).can.tec + step
            ∧ (chan u ch.val).can.busOff = (chan s ch.val).can.busOff ∧ (chan u ch.val).st = .active ∧ (chan u ch.val).can.onBus = none))
        ∧ (255 < (chan s ch.val).can.tec + step → EffectIs (exec (.canAttemptEnd ch (.error k place dom n)) s) s (fun u =>
            (chan u ch.val).can.busOff = true ∧ (chan u ch.val).can.tec = 255 ∧ (chan u ch.val).txq = i :: t
            ∧ (fld s (canAddr ch.val 0x100) 1 1 = 0 → (chan u ch.val).st = .disabled)
            ∧ (fld s (canAddr ch.val 0x100) 1 1 = 1 → (chan u ch.val).st = .active)))))
    ∧ (∀ k dom, tecStep false k .nominal dom 0 = 8 ∧ tecStep true .ack .nominal false 0 = 0 ∧ tecStep true .ack .nominal true 0 = 8
        ∧ ∀ passive, tecStep passive .stuff .arbitration dom 0 = 0)
    ∧ ((chan s ch.val).can.busOff = true → fld s (canAddr ch.val 0x100) 1 1 = 1 → (chan s ch.val).st ≠ .off →
        (∀ i ∈ (chan s ch.val).txq, isOnce i = false) → EffectIs (exec (.busOffRecovery ch) s) s (fun u =>
        (chan u ch.val).can.busOff = false ∧ (chan u ch.val).can.tec = 0 ∧ (chan u ch.val).can.rec_ = 0 ∧ (chan u ch.val).txq = (chan s ch.val).txq
        ∧ ∀ k, k ≠ ch.val → chan u k = chan s k))
    ∧ ((chan s ch.val).can.busOff = false → EffectIs (exec (.busOffRecovery ch) s) s (· = s))
    ∧ (∀ i t r, (chan s ch.val).txq = i :: t → (∀ j ∈ t, j.seq ≠ i.seq) → isOnce i = true → i.release = some r → i.producer = .push →
      onGrid r + onceWin s ch.val * 1000 < nsNow s → (chan s ch.val).can.onBus = none → (chan s ch.val).pendRpt = none →
      (chan s ch.val).rptWaits = [] → (chan s ch.val).can.busOff = false → (chan s ch.val).st ≠ .off →
      ((chan s ch.val).st ≠ .alone → EffectIs (exec (.onceWindowEnd ch) s) s (fun u => (chan u ch.val).txq = t
        ∧ (chan u ch.val).pendRpt = some ⟨.tooLate, i.seq, 1⟩ ∧ ∀ k, k ≠ ch.val → chan u k = chan s k))
      ∧ ((chan s ch.val).st = .alone → EffectIs (exec (.onceWindowEnd ch) s) s (· = s)))
    ∧ ((chan s ch.val).txq = [] → EffectIs (exec (.onceWindowEnd ch) s) s (· = s))
    ∧ (∀ r x, (chan s ch.val).st ≠ .off → (chan s ch.val).can.reqs = [r] → r.left = true →
      r.startUp + r.timeoutMs * 2000 ≤ s.time.up → (chan s ch.val).txq = [] →
      (chan s ch.val).stalled = [] → s.cmd.inflight = [x] → x.session = r.session → x.tag = r.tag → x.phase = .issued →
      EffectIs (exec (.canReqTimeout ch) s) s (fun u => (chan u ch.val).can.reqs = []
        ∧ u.cmd.inflight = [{ x with phase := .ready .timeout [], effected := true }]))
    ∧ (∀ r, (chan s ch.val).can.reqs = [r] → since r.startUp s < r.timeoutMs * 2000 → EffectIs (exec (.canReqTimeout ch) s) s (· = s))

/-- From R237, R240 to R242, R246: the master starts the transaction that waited longest, or the next round entry that is not held; a good
reply completes the exchange with its data, an exception with its code; a failed attempt is retried while retries remain, and
completes with TIMEOUT after them; a broadcast completes once its delay has passed. -/
def Obligations.ModbusEvents : Prop :=
  ∀ (ch : Fin 128) (s : State), fieldAwake s = true → mbOn s ch.val = true → serialHears s ch.val = true →
    (∀ x t, (chan s ch.val).mb.exchange = none → (chan s ch.val).mb.round = [] → lockedBy s ch.val = none → s.cmd.inflight = [x] →
      (chan s ch.val).mb.waiting = (x.session, x.tag) :: t → EffectIs (exec (.mbRequestStart ch) s) s (fun u =>
        (chan u ch.val).mb.waiting = t ∧ (chan u ch.val).mb.pollLast = false ∧ u.cmd.inflight = [x]
        ∧ (chan u ch.val).mb.exchange = some (
          { user := .txn x.session x.tag, slave := (mbReqOf x.opcode x.params).slave, func := (mbReqOf x.opcode x.params).func
            request := mbBytes (mbReqOf x.opcode x.params), addr := (mbReqOf x.opcode x.params).addr
            qty := (mbReqOf x.opcode x.params).qty, timeoutMs := (mbTimes s ch.val (mbReqOf x.opcode x.params).slave).1
            retries := if (mbReqOf x.opcode x.params).slave = 0 then 0 else (mbTimes s ch.val (mbReqOf x.opcode x.params).slave).2
            startUp := s.time.up, broadcast := (mbReqOf x.opcode x.params).slave == 0, sent := true } : MbExchange)
        ∧ ∀ k, k ≠ ch.val → chan u k = chan s k))
    ∧ (∀ e t p, (chan s ch.val).mb.exchange = none → (chan s ch.val).mb.round = e :: t → (chan s ch.val).mb.waiting = [] →
      lockedBy s ch.val = none → (polls s ch.val)[e.entry]? = some p → e.held = false → EffectIs (exec (.mbRequestStart ch) s) s (fun u =>
        (chan u ch.val).mb.round = t ∧ (chan u ch.val).mb.pollLast = true
        ∧ (∃ y, (chan u ch.val).mb.exchange = some y ∧ y.user = .poll e.entry ∧ y.request = mbBytes (pollReq p e.data) ∧ y.sent = true)
        ∧ ∀ k, k ≠ ch.val → chan u k = chan s k))
    ∧ ((chan s ch.val).mb.exchange = none → (chan s ch.val).mb.round = [] → (chan s ch.val).mb.waiting = [] → lockedBy s ch.val = none →
      EffectIs (exec (.mbRequestStart ch) s) s (· = s))
    ∧ (∀ e, (chan s ch.val).mb.exchange = some e → e.sent = false → EffectIs (exec (.mbRequestStart ch) s) s (fun u =>
        (chan u ch.val).mb.exchange = some { e with sent := true, startUp := s.time.up } ∧ (chan u ch.val).mb.round = (chan s ch.val).mb.round
        ∧ (chan u ch.val).mb.waiting = (chan s ch.val).mb.waiting ∧ u.cmd = s.cmd ∧ ∀ k, k ≠ ch.val → chan u k = chan s k))
    ∧ (∀ e, (chan s ch.val).mb.exchange = some e → e.sent = true → EffectIs (exec (.mbRequestStart ch) s) s (· = s))
    ∧ (∀ bs gap stamp, (chan s ch.val).mb.exchange = none → EffectIs (exec (.mbReplyRx ch bs gap stamp) s) s (· = bump (chnAddr ch.val 0x298) s))
    ∧ (∀ e x, (chan s ch.val).mb.exchange = some e → e.sent = true → e.broadcast = false → e.user = .txn x.session x.tag →
        s.cmd.inflight = [x] → x.phase = .issued → ∀ stamp,
      (∀ d, e.func = 3 ∨ e.func = 4 ∨ e.func = 23 → d.length = 2 * e.qty → e.qty < 128 → e.slave < 256 →
        ∀ head, head = [BitVec.ofNat 8 e.slave, BitVec.ofNat 8 e.func, BitVec.ofNat 8 (2 * e.qty)] ++ d →
        EffectIs (exec (.mbReplyRx ch (head ++ leBytes 2 (crcModbus head)) false stamp) s) s (fun u => (chan u ch.val).mb.exchange = none
          ∧ u.cmd.inflight = [{ x with phase := .ready .ok (swapPairs d), effected := true }] ∧ ∀ k, k ≠ ch.val → chan u k = chan s k))
      ∧ (∀ code : Byte, 1 ≤ e.func → e.func ≤ 23 → code ≠ 6 → e.slave < 256 →
        ∀ head, head = [BitVec.ofNat 8 e.slave, BitVec.ofNat 8 (e.func + 0x80), code] →
        EffectIs (exec (.mbReplyRx ch (head ++ leBytes 2 (crcModbus head)) false stamp) s) s (fun u => (chan u ch.val).mb.exchange = none
          ∧ u.cmd.inflight = [{ x with phase := .ready .farError [code], effected := true }] ∧ ∀ k, k ≠ ch.val → chan u k = chan s k))
      ∧ (∀ bs, bs.length < 4 ∨ rd bs (bs.length - 2) 2 ≠ crcModbus (bs.take (bs.length - 2)) →
        (0 < e.retries → EffectIs (exec (.mbReplyRx ch bs false stamp) s) s (fun u => u.cmd = s.cmd
          ∧ (chan u ch.val).mb.exchange = some { e with retries := e.retries - 1, sent := false } ∧ ∀ k, k ≠ ch.val → chan u k = chan s k))
        ∧ (e.retries = 0 → EffectIs (exec (.mbReplyRx ch bs false stamp) s) s (fun u => (chan u ch.val).mb.exchange = none
          ∧ u.cmd.inflight = [{ x with phase := .ready .timeout [], effected := true }] ∧ ∀ k, k ≠ ch.val → chan u k = chan s k)))
      ∧ (afterRequest s ch.val e (e.timeoutMs * 2000) ≤ s.time.up → e.retries = 0 → EffectIs (exec (.mbResponseTimeout ch) s) s (fun u =>
          (chan u ch.val).mb.exchange = none ∧ u.cmd.inflight = [{ x with phase := .ready .timeout [], effected := true }]
          ∧ ∀ k, k ≠ ch.val → chan u k = chan s k))
      ∧ (s.time.up < afterRequest s ch.val e (e.timeoutMs * 2000) → EffectIs (exec (.mbResponseTimeout ch) s) s (· = s)))
    ∧ (∀ e x, (chan s ch.val).mb.exchange = some e → e.broadcast = true → e.user = .txn x.session x.tag → s.cmd.inflight = [x] →
        x.phase = .issued →
      (afterRequest s ch.val e (fld s (chnAddr ch.val 0x200) 16 10 * 2000) ≤ s.time.up → EffectIs (exec (.mbBroadcastEnd ch) s) s (fun u =>
          (chan u ch.val).mb.exchange = none ∧ u.cmd.inflight = [{ x with phase := .ready .ok [], effected := true }]
          ∧ ∀ k, k ≠ ch.val → chan u k = chan s k))
      ∧ (s.time.up < afterRequest s ch.val e (fld s (chnAddr ch.val 0x200) 16 10 * 2000) → EffectIs (exec (.mbBroadcastEnd ch) s) s (· = s)))

/-- From R248 to R256: an IO-Link port leaves NO_POWER once its outlet has been on long enough and returns there when it goes off; it
wakes the device, tries COM3, COM2 and COM1, reads its parameters, and joins where they match; good M-sequences bring process data,
three failed cycles lose the communication; an ISDU completes with the device's answer; device events stand whole in the RX queue;
inputs follow their balls; an overload switches C/Q off. -/
def Obligations.IoLinkEvents : Prop :=
  ∀ (ch : Fin 128) (s : State), fieldAwake s = true → iolLive s ch.val = true →
    (iolSt s ch.val = .noPower → (outlet s (iolOutlet s ch.val)).st = .on →
      ((outlet s (iolOutlet s ch.val)).sinceUp + iolPwrDelay s ch.val * 2000 ≤ s.time.up →
        (iolMode s ch.val = 1 ∨ iolMode s ch.val = 2 → EffectIs (exec (.iolPowerGood ch) s) s (· =
          modIol ch.val (fun x => { x with st := .wake, wakes := 0, tryCom := 0 }) s))
        ∧ (iolMode s ch.val = 3 → (chan s ch.val).st = .joining → EffectIs (exec (.iolPowerGood ch) s) s (fun u =>
          (chan u ch.val).st = .active ∧ (chan u ch.val).iol.st = .sioDi ∧ ∀ k, k ≠ ch.val → chan u k = chan s k))
        ∧ (iolMode s ch.val = 4 → (chan s ch.val).st = .joining → EffectIs (exec (.iolPowerGood ch) s) s (fun u =>
          (chan u ch.val).st = .active ∧ (chan u ch.val).iol.st = .sioDq ∧ ∀ k, k ≠ ch.val → chan u k = chan s k)))
      ∧ (since (outlet s (iolOutlet s ch.val)).sinceUp s < iolPwrDelay s ch.val * 2000 →
        EffectIs (exec (.iolPowerGood ch) s) s (· = s)))
    ∧ (iolSt s ch.val ≠ .noPower → iolSt s ch.val ≠ .compFault → iolSt s ch.val ≠ .dqOverload → (outlet s (iolOutlet s ch.val)).st ≠ .on →
      EffectIs (exec (.iolPowerLost ch) s) s (fun u =>
        (chan u ch.val).iol.st = .noPower ∧ (chan u ch.val).iol.isdu = [] ∧ (chan u ch.val).iol.pdInOk = false
        ∧ (chan u ch.val).st = (if (chan s ch.val).st = .draining then .draining else .joining)
        ∧ (∀ k, k ≠ ch.val → chan u k = chan s k)
        ∧ ∀ x, s.cmd.inflight = [x] → x.phase = .issued → (chan s ch.val).iol.isdu = [(x.session, x.tag)] →
          u.cmd.inflight = [{ x with phase := .ready .aborted [], effected := true }]))
    ∧ ((outlet s (iolOutlet s ch.val)).st = .on → EffectIs (exec (.iolPowerLost ch) s) s (· = s))
    ∧ (wakeDue s ch.val = true → EffectIs (exec (.iolWakeUp ch) s) s (· =
        bump (chnAddr ch.val 0x380) (modIol ch.val (fun x => { x with wakes := x.wakes + 1, tryCom := 3 }) s)))
    ∧ (wakeDue s ch.val = false → EffectIs (exec (.iolWakeUp ch) s) s (· = s))
    ∧ ((chan s ch.val).iol.tryCom ≠ 0 → EffectIs (exec (.iolComTryEnd ch true) s) s (· =
        modIol ch.val (fun x => { x with st := .startup, com := x.tryCom, tryCom := 0, wakes := 0 }) s))
    ∧ (2 ≤ (chan s ch.val).iol.tryCom → EffectIs (exec (.iolComTryEnd ch false) s) s (· =
        modIol ch.val (fun x => { x with tryCom := x.tryCom - 1 }) s))
    ∧ ((chan s ch.val).iol.tryCom = 1 → 3 ≤ (chan s ch.val).iol.wakes → (chan s ch.val).iol.st = .wake →
      EffectIs (exec (.iolComTryEnd ch false) s) s (fun u => (chan u ch.val).iol.st = .noDevice ∧ (chan u ch.val).iol.tryCom = 0
        ∧ (chan u ch.val).st = (chan s ch.val).st ∧ ∀ k, k ≠ ch.val → chan u k = chan s k))
    ∧ ((chan s ch.val).iol.tryCom = 0 → ∀ r, EffectIs (exec (.iolComTryEnd ch r) s) s (· = s))
    ∧ ((chan s ch.val).iol.st = .startup → ∀ page,
      (pdLen (rd page 3 1) ≠ pdInLen s ch.val → EffectIs (exec (.iolStartupDone ch page) s) s (fun u =>
          (chan u ch.val).iol.st = .compFault ∧ (chan u ch.val).st = (chan s ch.val).st ∧ ∀ k, k ≠ ch.val → chan u k = chan s k))
      ∧ (iolMode s ch.val = 2 → pdLen (rd page 3 1) = pdInLen s ch.val → pdLen (rd page 4 1) = pdOutLen s ch.val →
        (chan s ch.val).st = .joining → EffectIs (exec (.iolStartupDone ch page) s) s (fun u => (chan u ch.val).iol.st = .preoperate
          ∧ (chan u ch.val).iol.rev = rd page 2 1 ∧ (chan u ch.val).iol.vidRead = rd page 5 1 * 256 + rd page 6 1
          ∧ (chan u ch.val).st = .active ∧ ∀ k, k ≠ ch.val → chan u k = chan s k)))
    ∧ ((chan s ch.val).iol.st = .operate → ∀ pd stamp, pd.length = pdInLen s ch.val → EffectIs (exec (.iolMSequence ch (.ok pd true stamp)) s) s (· =
        modIol ch.val (fun x => { x with
          repeats := 0, failed := 0, pdIn := pd, pdInTick := some stamp, pdInOk := true
          pdBefore := x.pdInTick.map (fun t => (t, x.pdIn, x.pdInOk)) }) s))
    ∧ ((chan s ch.val).iol.st = .operate → (chan s ch.val).iol.repeats < 2 → EffectIs (exec (.iolMSequence ch .repeat_) s) s (· =
        bump (chnAddr ch.val 0x384) (modIol ch.val (fun x => { x with repeats := x.repeats + 1 }) s)))
    ∧ ((chan s ch.val).iol.st = .operate → (chan s ch.val).iol.failed < 2 → EffectIs (exec (.iolMSequence ch .failed) s) s (fun u =>
        (chan u ch.val).iol.failed = (chan s ch.val).iol.failed + 1 ∧ (chan u ch.val).iol.st = .operate
        ∧ (chan u ch.val).st = (chan s ch.val).st ∧ ∀ k, k ≠ ch.val → chan u k = chan s k))
    ∧ ((chan s ch.val).iol.st = .operate → (chan s ch.val).iol.failed = 2 → EffectIs (exec (.iolMSequence ch .failed) s) s (fun u =>
        (chan u ch.val).iol.st = .wake ∧ (chan u ch.val).iol.isdu = []
        ∧ (chan u ch.val).st = (if (chan s ch.val).st = .draining then .draining else .joining) ∧ ∀ k, k ≠ ch.val → chan u k = chan s k))
    ∧ (∀ x t, (chan s ch.val).iol.isduRuns = true → (chan s ch.val).iol.isdu = (x.session, x.tag) :: t → s.cmd.inflight = [x] →
        x.phase = .issued →
      (∀ data, x.opcode = 0x0403 → data.length ≤ 232 → EffectIs (exec (.isduComplete ch (.ok data)) s) s (fun u =>
          (chan u ch.val).iol.isdu = t ∧ (chan u ch.val).iol.isduRuns = false
          ∧ u.cmd.inflight = [{ x with phase := .ready .ok data, effected := true }] ∧ ∀ k, k ≠ ch.val → chan u k = chan s k))
      ∧ (∀ c a, EffectIs (exec (.isduComplete ch (.deviceError c a)) s) s (fun u => (chan u ch.val).iol.isdu = t
          ∧ u.cmd.inflight = [{ x with phase := .ready .farError [c, a], effected := true }] ∧ ∀ k, k ≠ ch.val → chan u k = chan s k))
      ∧ ((chan s ch.val).iol.isduUp + 10000000 ≤ s.time.up → EffectIs (exec (.isduTimeout ch) s) s (fun u =>
          (chan u ch.val).iol.isdu = t ∧ u.cmd.inflight = [{ x with phase := .ready .timeout [], effected := true }]
          ∧ ∀ k, k ≠ ch.val → chan u k = chan s k))
      ∧ (since (chan s ch.val).iol.isduUp s < 10000000 → EffectIs (exec (.isduTimeout ch) s) s (· = s)))
    ∧ ((chan s ch.val).iol.isduRuns = false → ∀ how, EffectIs (exec (.isduComplete ch how) s) s (· = s))
    ∧ (∀ e stamp, (chan s ch.val).iol.st = .operate → (chan s ch.val).iol.isduRuns = false → (chan s ch.val).pendRpt = none →
        rxFits s ch.val 2 = true → EffectIs (exec (.iolDeviceEvent ch [e] stamp) s) s (fun u =>
          (chan u ch.val).rxq = (chan s ch.val).rxq ++ packetWords stamp
            [0, BitVec.ofNat 8 e.1.toNat, BitVec.ofNat 8 e.2.toNat, BitVec.ofNat 8 (e.2.toNat / 256)]
          ∧ (chan u ch.val).iol.unconfirmed = 0 ∧ ∀ k, k ≠ ch.val → chan u k = chan s k))
    ∧ (∀ lv stamp, EffectIs (exec (.iolDiEdge ch true lv stamp) s) s (· = modIol ch.val (fun x => { x with
        diB := lv, diBTick := stamp, diBWas := if x.diBTick = stamp then x.diBWas else x.diB }) s))
    ∧ (∀ lv stamp, iolMode s ch.val = 3 → EffectIs (exec (.iolDiEdge ch false lv stamp) s) s (· = modIol ch.val (fun x => { x with
        di := lv, diTick := stamp, diWas := if x.diTick = stamp then x.diWas else x.di }) s))
    ∧ (∀ lv stamp, iolMode s ch.val ≠ 3 → EffectIs (exec (.iolDiEdge ch false lv stamp) s) s (· = s))
    ∧ ((chan s ch.val).iol.st = .sioDq → EffectIs (exec (.iolDqOverload ch) s) s (· = detect 0x0607 { detail := unitDetail 0 ch.val, initiator := ch.val }
        (modIol ch.val (fun x => { x with st := .dqOverload, dq := false }) s)))
    ∧ ((chan s ch.val).iol.st ≠ .sioDq → EffectIs (exec (.iolDqOverload ch) s) s (· = s))

/-! ## Lines and engines -/

/-- From R1, R2, R323 to R328: an edge that held for the filter time gives a line its level, and a rise is remembered for CATCH; one
that did not is counted as a glitch; a line 1 ms in its limit or above 150 °C stops driving until a one is written for it, a bank 5 ms
above its rating until its trip is cleared, and one without supply until it recovers. From R331 to R346: an armed engine starts at its
tick with its first state; at an edge of its grid a step looks up the entry of its state and inputs and applies it whole: state, levels,
enables and the action; a PUSH on a full FIFO and a PULL without a word stall; a halt is taken at the next edge, at once where the
engine is armed; the control bits halt, restart and reset, and the highest of several acts. -/
def Obligations.LineAndEngineEvents : Prop :=
 (∀ (s : State),
    (∀ (l : Fin 128) lv t held, fieldAwake s = true →
      ((line s l.val).level = lv → EffectIs (exec (.discreteEdge l lv t held) s) s (· = s))
      ∧ ((line s l.val).level ≠ lv → dlMode s l.val ≠ 0 → s.reset_.inReset = false →
        (filterNs s l.val ≤ held → EffectIs (exec (.discreteEdge l lv t held) s) s (· = modLine l.val (fun x => { x with
          level := lv, before := if x.edgeTick = t then x.before else x.level, edgeTick := t
          rises := if lv then x.rises ++ [t] else x.rises }) s))
        ∧ (held < filterNs s l.val → EffectIs (exec (.discreteEdge l lv t held) s) s (· = bump 0xE0300 s)))
      ∧ ((line s l.val).level ≠ lv → dlMode s l.val = 0 ∨ s.reset_.inReset = true →
        EffectIs (exec (.discreteEdge l lv t held) s) s (· = modLine l.val (fun x => { x with level := lv, before := lv }) s)))
    ∧ (∀ (l : Fin 128) held, fieldAwake s = true →
      (dlMode s l.val ≠ 0 → s.reset_.inReset = false → held < filterNs s l.val → EffectIs (exec (.lineGlitch l held) s) s (· = bump 0xE0300 s))
      ∧ (dlMode s l.val = 0 ∨ s.reset_.inReset = true ∨ filterNs s l.val ≤ held → EffectIs (exec (.lineGlitch l held) s) s (· = s)))
    ∧ (∀ (l : Fin 128) ma us fetC, isOutput s l.val = true → (line s l.val).tripped = false →
      (150 < fetC ∨ (lineDrive s l.val).isSome = true ∧ (if orderCode s = 2 then 600 else 750) ≤ ma ∧ 1000 ≤ us →
        EffectIs (exec (.dlLineTrip l ma us fetC) s) s (fun u =>
          lineDrive u l.val = none ∧ (line u l.val).tripped = true ∧ (line u l.val).commanded = (line s l.val).commanded
          ∧ (∀ k, k ≠ l.val → line u k = line s k) ∧ u.dl.banks = s.dl.banks))
      ∧ (fetC ≤ 150 → lineDrive s l.val = none ∨ ma < (if orderCode s = 2 then 600 else 750) ∨ us < 1000 →
        EffectIs (exec (.dlLineTrip l ma us fetC) s) s (· = s)))
    ∧ (∀ (b : Fin 8) (mask : BitVec 16), barFree s = true → swf {} s.dl.lines = true → EffectIs (exec (.dlLineTripClear b mask) s) s (fun u =>
        (∀ i, i < 16 → mask.getLsbD i = true → line u (16 * b.val + i) = { line s (16 * b.val + i) with tripped := false })
        ∧ (∀ k, (∀ i, i < 16 → mask.getLsbD i = true → k ≠ 16 * b.val + i) → line u k = line s k) ∧ u.dl.banks = s.dl.banks))
    ∧ (∀ (b : Fin 8) sum us, (dlBank s b.val).trip = false →
      ((∃ l ∈ bankLines b.val, (lineDrive s l).isSome = true) → (if orderCode s = 2 then 1600 else 2000) < sum → 5000 ≤ us →
        EffectIs (exec (.dlBankTrip b sum us) s) s (fun u =>
        (dlBank u b.val).trip = true ∧ (∀ l ∈ bankLines b.val, lineDrive u l = none) ∧ u.dl.lines = s.dl.lines
        ∧ ∀ k, k ≠ b.val → dlBank u k = dlBank s k))
      ∧ ((∀ l ∈ bankLines b.val, lineDrive s l = none) ∨ sum ≤ (if orderCode s = 2 then 1600 else 2000) ∨ us < 5000 →
        EffectIs (exec (.dlBankTrip b sum us) s) s (· = s)))
    ∧ (∀ b : Fin 8, barFree s = true → swf {} s.dl.banks = true → EffectIs (exec (.dlBankTripClear b) s) s (fun u =>
        dlBank u b.val = { dlBank s b.val with trip := false } ∧ u.dl.lines = s.dl.lines ∧ ∀ k, k ≠ b.val → dlBank u k = dlBank s k))
    ∧ (∀ b : Fin 8, (dlBank s b.val).uv = false → EffectIs (exec (.dlBankUv b true) s) s (fun u => (dlBank u b.val).uv = true
        ∧ (∀ l ∈ bankLines b.val, lineDrive u l = none) ∧ u.dl.lines = s.dl.lines ∧ ∀ k, k ≠ b.val → dlBank u k = dlBank s k))
    ∧ (∀ b : Fin 8, (dlBank s b.val).uv = true → swf {} s.dl.banks = true → EffectIs (exec (.dlBankUv b false) s) s (fun u =>
        dlBank u b.val = { dlBank s b.val with uv := false } ∧ u.dl.lines = s.dl.lines ∧ ∀ k, k ≠ b.val → dlBank u k = dlBank s k))
    ∧ (∀ (b : Fin 8) low, (dlBank s b.val).uv = low → EffectIs (exec (.dlBankUv b low) s) s (· = s))) ∧
 (∀ (e : Fin 32) (s : State), fieldAwake s = true →
    (leState s e.val = .armed → fieldLive s = true →
      ((engine s e.val).startTick ≤ tickNow s → EffectIs (exec (.engineStart e) s) s (· = modEngine e.val (fun x => { x with
        st := .run, lstate := leInit s e.val, counter := 0, tickPend := false, lastTick := tickNow s, stalled := none
        nextEdge := x.startTick * 500
        shift := if x.keepShift = true then x.shift else 0, count := if x.keepShift = true then x.count else 0, keepShift := false }) s))
      ∧ (tickNow s < (engine s e.val).startTick → EffectIs (exec (.engineStart e) s) s (· = s)))
    ∧ (leState s e.val ≠ .armed → EffectIs (exec (.engineStart e) s) s (· = s))
    ∧ (∀ ns, leActive (leState s e.val) = false ∨ leState s e.val = .armed ∨ atEdge s e.val ns = false →
      EffectIs (exec (.engineStep e ns) s) s (· = s))
    ∧ (∀ ns, atEdge s e.val ns = true ↔ (engine s e.val).nextEdge ≤ ns
      ∧ (ns - (engine s e.val).nextEdge) % (5 * (leFld s e.val 0x004 0 16 + 1)) = 0 ∧ ns / 500 = tickNow s)
    ∧ (∀ ns, leState s e.val = .run → fieldLive s = true → atEdge s e.val ns = true → (engine s e.val).haltPend = true →
      (engine s e.val).halting = [] →
      EffectIs (exec (.engineStep e ns) s) s (fun u => (engine u e.val).st = .halted ∧ (engine u e.val).haltPend = false
        ∧ (engine u e.val).shift = (engine s e.val).shift ∧ (engine u e.val).push = (engine s e.val).push
        ∧ (engine u e.val).hwidth = leWidth s e.val ∧ ∀ k, k ≠ e.val → engine u k = engine s k))
    ∧ (∀ x ent ns, engine s e.val = x → leState s e.val = .run → fieldLive s = true → atEdge s e.val ns = true → x.haltPend = false →
        x.stalled = none → ent = (sget 0 x.table (x.lstate * 256 + leInputs s e.val)).toNat →
      (bits ent 5 3 = 3 → 16 ≤ x.push.length → EffectIs (exec (.engineStep e ns) s) s (fun u =>
          engine u e.val = { x with
            st := .stallPush, stalled := some (BitVec.ofNat 24 ent), tickPend := tickPendNow s e.val, lastTick := tickNow s
            nextEdge := ns + edgeNs s e.val }
          ∧ csr u (leAddr e.val 0x080) = csr (bump (leAddr e.val 0x080) s) (leAddr e.val 0x080)
          ∧ csr u (leAddr e.val 0x084) = csr (bump (leAddr e.val 0x084) s) (leAddr e.val 0x084)
          ∧ u.dl = s.dl ∧ ∀ k, k ≠ e.val → engine u k = engine s k))
      ∧ (bits ent 5 3 = 4 → (∀ w ∈ x.pull, s.time.up < w.2) → EffectIs (exec (.engineStep e ns) s) s (fun u =>
          (engine u e.val).st = .stallPull ∧ (engine u e.val).stalled = some (BitVec.ofNat 24 ent)
          ∧ (engine u e.val).lstate = x.lstate ∧ (engine u e.val).outs = x.outs ∧ u.dl = s.dl))
      ∧ ((bits ent 5 3 = 3 → x.push.length < 16) → (bits ent 5 3 = 4 → ∃ v q t, x.pull = (v, q) :: t ∧ q ≤ s.time.up) →
        EffectIs (exec (.engineStep e ns) s) s (fun u =>
          (engine u e.val).nextEdge = ns + edgeNs s e.val ∧
          (engine u e.val).st = (if bits ent 5 3 = 6 then .wait else .run) ∧ (engine u e.val).lstate = bits ent 18 6
          ∧ (engine u e.val).enables = leFld s e.val 0x018 (8 * bits ent 8 2) 8
          ∧ (bits ent 5 3 ≠ 2 → (engine u e.val).outs = bits ent 10 8)
          ∧ (bits ent 5 3 = 0 → (engine u e.val).shift = x.shift ∧ (engine u e.val).count = x.count ∧ (engine u e.val).counter = x.counter
            ∧ (engine u e.val).push = x.push ∧ (engine u e.val).pull = x.pull)
          ∧ (bits ent 5 3 = 1 → (engine u e.val).shift
              = shiftIn (leMsb s e.val) (leWidth s e.val) x.shift (bit (leInputs s e.val) (bits ent 0 5 % 8))
            ∧ (engine u e.val).count = min (leWidth s e.val) (x.count + 1))
          ∧ (bits ent 5 3 = 2 → (engine u e.val).shift = (shiftOut (leMsb s e.val) (leWidth s e.val) x.shift).2
            ∧ (engine u e.val).count = min (leWidth s e.val) (x.count + 1))
          ∧ (bits ent 5 3 = 3 → bits ent 0 5 % 2 = 0 → (engine u e.val).push = x.push ++ [(x.shift, tickNow s)]
            ∧ (engine u e.val).shift = 0 ∧ (engine u e.val).count = 0)
          ∧ (bits ent 5 3 = 3 → bits ent 0 5 % 2 = 1 → (engine u e.val).push = x.push ++ [(x.counter, tickNow s)]
            ∧ (engine u e.val).shift = x.shift)
          ∧ (∀ v q t, bits ent 5 3 = 4 → x.pull = (v, q) :: t → (engine u e.val).pull = t
            ∧ (engine u e.val).shift = v % 2 ^ leWidth s e.val ∧ (engine u e.val).count = 0)
          ∧ (bits ent 5 3 = 5 → bits ent 0 5 % 4 = 0 → (engine u e.val).counter = (x.counter + 1) % 2 ^ 32)
          ∧ (bits ent 5 3 = 5 → bits ent 0 5 % 4 = 2 → (engine u e.val).counter = csr s (leAddr e.val 0x020))
          ∧ (bits ent 5 3 = 6 → (engine u e.val).waitTick = tickNow s + bits ent 0 5 + 1)
          ∧ (bits ent 5 3 = 7 → (engine u e.val).evtPend = true ∧ (engine u e.val).evtCode = bits ent 0 5)
          ∧ (∀ k, k ≠ e.val → engine u k = engine s k) ∧ u.chans = s.chans ∧ u.maps = s.maps ∧ u.cmd = s.cmd)))
    ∧ (barFree s = true →
      (leActive (leState s e.val) = false → EffectIs (exec (.leCtlHalt e 0) s) s (· = s))
      ∧ (leState s e.val = .run → EffectIs (exec (.leCtlHalt e 0) s) s (· = modEngine e.val (fun x => { x with haltPend := true }) s))
      ∧ (leState s e.val = .idle ∨ leState s e.val = .halted → EffectIs (exec (.leCtlRestart e 0) s) s (· =
          modEngine e.val (fun x => { x with st := .armed, startTick := tickNow s + 40, keepShift := false, haltPend := false }) s))
      ∧ (leActive (leState s e.val) = true → EffectIs (exec (.leCtlRestart e 0) s) s (· = s))
      ∧ ((engine s e.val).st = .halted → leActive (leState s e.val) = false → EffectIs (exec (.leCtlReset e 0) s) s (fun u =>
          (engine u e.val).st = .halted ∧ (engine u e.val).lstate = 0 ∧ (engine u e.val).shift = 0 ∧ (engine u e.val).count = 0
          ∧ (engine u e.val).push = [] ∧ (engine u e.val).pull = [] ∧ (engine u e.val).table = (engine s e.val).table
          ∧ ∀ k, k ≠ e.val → engine u k = engine s k))
      ∧ (∀ v : BitVec 4, v.getLsbD 3 = true → ∀ i, i = .leCtlHalt e v ∨ i = .leCtlRestart e v →
        EffectIs (exec i s) s (· = engineReset e.val (setFld 0x008 0 1 1 s)))))

/-! ## The queue, every step, and reset -/

/-- A step runs the command at the front of the queue on the hub with the queue's rest; every command answers a next state, neither a
fault nor a refusal, and leaves the queue alone. On an empty queue the step answers a next state with an empty queue: one tick passes,
which is the model's choice (log entry 2). -/
def Obligations.StepRunsFront : Prop :=
  (∀ (c : Instr) (rest : List Instr) (s : State), step { s with pending := c :: rest } = exec c { s with pending := rest })
  ∧ (∀ (c : Instr) (s : State), ∃ t, exec c s = .next t ∧ t.pending = s.pending)
  ∧ (∀ s : State, s.pending = [] → ∃ t, step s = .next t ∧ t.pending = [])

/-- From R42, R54, R109: after every step no reply whose turn has come still waits, so that a completed command in flight stands behind an
unanswered one of its session, and no event of an open session on the ring waits. -/
def Obligations.RepliesAndEventsLeave : Prop :=
  ∀ s t : State, step s = .next t → RepliesGone t ∧ RingEventsGone t

/-- From R384, R385, R395, R404: the hub after reset: it stands in BOOT at step 1, nothing waits, no session is open, channels and
engines are OFF, outlets have no supply, no line is driven, and the registers named read the reset values of their tables. That BOOT is
the state shown, and that nothing is open before it, is the model's choice of the first instant (log entry 29). -/
def Obligations.AfterReset : Prop :=
  State.reset.pending = [] ∧ State.reset.hub = .boot ∧ State.reset.cmd.sessions = [] ∧ State.reset.cmd.inflight = []
  ∧ RepliesGone State.reset ∧ RingEventsGone State.reset
  ∧ (∀ ch, chan State.reset ch = {}) ∧ (∀ o, outlet State.reset o = {})
  ∧ (∀ e, e < 32 → leState State.reset e = .off) ∧ (∀ l, l < 128 → lineDrive State.reset l = none)
  ∧ bits (csrPeek State.reset 0x10040) 0 4 = 1 ∧ csrPeek State.reset 0x80010 = 0x00080200 ∧ csrPeek State.reset 0x80014 = 0x00080200
  ∧ bits (csrPeek State.reset 0x30000) 8 7 = 10 ∧ bits (csrPeek State.reset 0x30000) 16 8 = 20
  ∧ bits (csrPeek State.reset 0x30000) 24 3 = 2 ∧ bits (csrPeek State.reset 0x30004) 0 7 = 10
  ∧ bits (csrPeek State.reset 0x30004) 16 16 = 60 ∧ csrPeek State.reset 0x30304 = 0 ∧ csrPeek State.reset 0xE0300 = 0
end

