-- ==== Sys2Proof/Laws/Bytes.lean ====
section
/-! SUPPORT. Little-endian fields of byte lists: what is written at a place is read there, and bits of numbers. -/

namespace Sys2Proof.Laws

open Sys2Proof Sys2Proof.Machine

@[simp] theorem length_leBytes (n v : Nat) : (leBytes n v).length = n := by
  induction n generalizing v with
  | zero => rfl
  | succ n ih => simp [leBytes, ih]

@[simp] theorem length_zeros (n : Nat) : (zeros n).length = n := by simp [zeros]

theorem leVal_leBytes (n v : Nat) : leVal (leBytes n v) = v % 256 ^ n := by
  induction n generalizing v with
  | zero => simp [leBytes, leVal, Nat.mod_one]
  | succ n ih =>
    simp only [leBytes, leVal, ih, BitVec.toNat_ofNat, Nat.pow_succ]
    have h : v % (256 ^ n * 256) = v % 256 + 256 * (v / 256 % 256 ^ n) := by
      rw [Nat.mul_comm (256 ^ n) 256, Nat.mod_mul]
    rw [h]

theorem slice_append_left (a b : List Byte) (k n : Nat) (h : k + n ≤ a.length) : slice (a ++ b) k n = slice a k n := by
  unfold slice
  rw [List.drop_append_of_le_length (by omega), List.take_append_of_le_length (by simp; omega)]

theorem slice_append_right (a b : List Byte) (k n : Nat) (h : a.length ≤ k) : slice (a ++ b) k n = slice b (k - a.length) n := by
  unfold slice
  rw [List.drop_append]
  simp [List.drop_eq_nil_of_le h]

theorem slice_all (a : List Byte) (n : Nat) (h : a.length = n) : slice a 0 n = a := by
  simp [slice, ← h]

/-- A field that lies in the first part. -/
theorem rd_append_left (a b : List Byte) (k n : Nat) (h : k + n ≤ a.length) : rd (a ++ b) k n = rd a k n := by
  unfold rd; rw [slice_append_left a b k n h]

/-- A field that lies behind the first part. -/
theorem rd_append_right (a b : List Byte) (k n : Nat) (h : a.length ≤ k) : rd (a ++ b) k n = rd b (k - a.length) n := by
  unfold rd; rw [slice_append_right a b k n h]

/-- A field reads back what was written. -/
theorem rd_leBytes (n v : Nat) : rd (leBytes n v) 0 n = v % 256 ^ n := by
  unfold rd; rw [slice_all _ _ (length_leBytes n v), leVal_leBytes]

theorem rd_leBytes_append (n v : Nat) (t : List Byte) : rd (leBytes n v ++ t) 0 n = v % 256 ^ n := by
  rw [rd_append_left _ _ _ _ (by simp), rd_leBytes]

/-- A byte reads back. -/
@[simp] theorem rd_cons_byte (b : Byte) (t : List Byte) : rd (b :: t) 0 1 = b.toNat := by
  simp [rd, slice, leVal]

theorem rd_cons_succ (b : Byte) (t : List Byte) (k n : Nat) : rd (b :: t) (k + 1) n = rd t k n := rfl

@[simp] theorem length_slice (a : List Byte) (k n : Nat) : (slice a k n).length = min n (a.length - k) := by
  simp [slice]

theorem leVal_lt (a : List Byte) : leVal a < 256 ^ a.length := by
  induction a with
  | nil => simp [leVal]
  | cons b t ih =>
    simp only [leVal, List.length_cons, Nat.pow_succ]
    have := b.isLt
    omega

theorem leVal_append (a b : List Byte) : leVal (a ++ b) = leVal a + 256 ^ a.length * leVal b := by
  induction a with
  | nil => simp [leVal]
  | cons x t ih =>
    simp only [List.cons_append, leVal, ih, List.length_cons, Nat.pow_succ, Nat.mul_add]
    have h : 256 * (256 ^ t.length * leVal b) = 256 ^ t.length * 256 * leVal b := by
      rw [← Nat.mul_assoc, Nat.mul_comm 256]
    omega

/-! ## Bits -/

theorem bits_lt (v lo w : Nat) : bits v lo w < 2 ^ w := Nat.mod_lt _ (Nat.two_pow_pos w)

theorem bits_zero (v w : Nat) : bits v 0 w = v % 2 ^ w := by simp [bits]

theorem b2n_lt (b : Bool) : b2n b < 2 := by cases b <;> decide

end Sys2Proof.Laws
end

