-- ==== Sys2Proof/Laws/Sparse.lean ====
section
/-! SUPPORT. Tables with few entries: a read after a write, and the canonical form that every write keeps. -/

namespace Sys2Proof.Laws

open Sys2Proof Sys2Proof.Machine

variable {α : Type}

@[simp] theorem sget_sins (d : α) (m : Sparse α) (k : Nat) (v : α) : sget d (sins m k v) k = v := by
  induction m with
  | nil => simp [sins, sget]
  | cons e t ih =>
    unfold sins
    split
    · simp [sget]
    · split
      · simp [sget]
      · rename_i h; simp [sget, h, ih]

@[simp] theorem slook_sins (m : Sparse α) (k : Nat) (v : α) : slook (sins m k v) k = some v := by
  induction m with
  | nil => simp [sins, slook]
  | cons e t ih =>
    unfold sins
    split
    · simp [slook]
    · split
      · simp [slook]
      · rename_i h; simp [slook, h, ih]

theorem slook_sins_other (m : Sparse α) (k j : Nat) (v : α) (h : j ≠ k) : slook (sins m k v) j = slook m j := by
  induction m with
  | nil => simp [sins, slook, Ne.symm h]
  | cons e t ih =>
    unfold sins
    split
    · simp [slook, Ne.symm h]
    · split
      · rename_i h2; simp [slook, h2, Ne.symm h]
      · simp [slook, ih]

theorem sget_sins_other (d : α) (m : Sparse α) (k j : Nat) (v : α) (h : j ≠ k) : sget d (sins m k v) j = sget d m j := by
  induction m with
  | nil => simp [sins, sget, Ne.symm h]
  | cons e t ih =>
    unfold sins
    split
    · simp [sget, Ne.symm h]
    · split
      · rename_i h2; simp [sget, h2, Ne.symm h]
      · simp [sget, ih]

theorem sget_sdel_other (d : α) (m : Sparse α) (k j : Nat) (h : j ≠ k) : sget d (sdel m k) j = sget d m j := by
  induction m with
  | nil => rfl
  | cons e t ih =>
    unfold sdel
    split
    · rename_i h2; simp [sget, h2, Ne.symm h]
    · simp [sget, ih]

/-- A read of another key is not touched by a write. -/
theorem sget_sput_other [DecidableEq α] (d : α) (m : Sparse α) (k j : Nat) (v : α) (h : j ≠ k) :
    sget d (sput d m k v) j = sget d m j := by
  unfold sput
  split
  · exact sget_sdel_other d m k j h
  · exact sget_sins_other d m k j v h

/-- A value that is not what an unlisted key reads as reads back. -/
theorem sget_sput_ne [DecidableEq α] (d : α) (m : Sparse α) (k : Nat) (v : α) (h : v ≠ d) : sget d (sput d m k v) k = v := by
  simp [sput, h]

theorem srising_weaken {b c : Nat} (m : Sparse α) (h : srising (some c) m = true) (hb : b ≤ c) : srising (some b) m = true := by
  cases m with
  | nil => rfl
  | cons e t =>
    simp only [srising, Bool.and_eq_true, decide_eq_true_eq] at *
    exact ⟨by omega, h.2⟩

theorem srising_none (m : Sparse α) (b : Nat) (h : srising (some b) m = true) : srising none m = true := by
  cases m with
  | nil => rfl
  | cons e t => simp only [srising, Bool.and_eq_true] at *; exact h.2

theorem sget_above (d : α) (m : Sparse α) (k : Nat) (h : srising (some k) m = true) : sget d m k = d := by
  induction m generalizing k with
  | nil => rfl
  | cons e t ih =>
    simp only [srising, Bool.and_eq_true, decide_eq_true_eq] at h
    have h1 : ¬(e.1 = k) := by omega
    simp only [sget, h1, if_false]
    exact ih k (srising_weaken t h.2 (by omega))

theorem srising_sins (b : Nat) (m : Sparse α) (k : Nat) (v : α) (h : srising (some b) m = true) (hk : b < k) :
    srising (some b) (sins m k v) = true := by
  induction m generalizing b with
  | nil => simp [sins, srising, hk]
  | cons e t ih =>
    simp only [srising, Bool.and_eq_true, decide_eq_true_eq] at h
    unfold sins
    split
    · rename_i h2; simp [srising, hk, h2, h.2]
    · split
      · rename_i h2; subst h2; simp [srising, hk, h.2]
      · rename_i h2 h3
        simp only [srising, Bool.and_eq_true, decide_eq_true_eq]
        exact ⟨h.1, ih e.1 h.2 (by omega)⟩

theorem srising_sdel (b : Nat) (m : Sparse α) (k : Nat) (h : srising (some b) m = true) : srising (some b) (sdel m k) = true := by
  induction m generalizing b with
  | nil => rfl
  | cons e t ih =>
    simp only [srising, Bool.and_eq_true, decide_eq_true_eq] at h
    unfold sdel
    split
    · exact srising_weaken t h.2 (by omega)
    · simp only [srising, Bool.and_eq_true, decide_eq_true_eq]
      exact ⟨h.1, ih e.1 h.2⟩

theorem all_sins (p : Nat × α → Bool) (m : Sparse α) (k : Nat) (v : α) (h : m.all p = true) (hv : p (k, v) = true) :
    (sins m k v).all p = true := by
  induction m with
  | nil => simp [sins, hv]
  | cons e t ih =>
    simp only [List.all_cons, Bool.and_eq_true] at h
    unfold sins
    split
    · simp [h.1, h.2, hv]
    · split
      · simp [h.2, hv]
      · simp [h.1, ih h.2]

theorem all_sdel (p : Nat × α → Bool) (m : Sparse α) (k : Nat) (h : m.all p = true) : (sdel m k).all p = true := by
  induction m with
  | nil => rfl
  | cons e t ih =>
    simp only [List.all_cons, Bool.and_eq_true] at h
    unfold sdel
    split
    · exact h.2
    · simp [h.1, ih h.2]

theorem srising_none_sins (m : Sparse α) (k : Nat) (v : α) (h : srising none m = true) : srising none (sins m k v) = true := by
  cases m with
  | nil => rfl
  | cons e t =>
    simp only [srising] at h
    unfold sins
    split
    · rename_i h2; simp [srising, h2, h]
    · split
      · rename_i h2; subst h2; exact h
      · rename_i h2 h3
        simp only [srising]
        exact srising_sins e.1 t k v h (by omega)

theorem srising_none_sdel (m : Sparse α) (k : Nat) (h : srising none m = true) : srising none (sdel m k) = true := by
  cases m with
  | nil => rfl
  | cons e t =>
    simp only [srising] at h
    unfold sdel
    split
    · exact srising_none t e.1 h
    · exact srising_sdel e.1 t k h

/-- A write keeps the canonical form. -/
theorem swf_sput [DecidableEq α] (d : α) (m : Sparse α) (k : Nat) (v : α) (h : swf d m = true) : swf d (sput d m k v) = true := by
  simp only [swf, Bool.and_eq_true] at h ⊢
  unfold sput
  split
  · exact ⟨srising_none_sdel m k h.1, all_sdel _ m k h.2⟩
  · rename_i hv
    exact ⟨srising_none_sins m k v h.1, all_sins _ m k v h.2 (by simpa using hv)⟩

theorem sget_sdel_rising (d : α) (m : Sparse α) (k : Nat) (h : srising none m = true) : sget d (sdel m k) k = d := by
  have main : ∀ (m : Sparse α) (b : Nat), srising (some b) m = true → sget d (sdel m k) k = d := by
    intro m
    induction m with
    | nil => intro _ _; rfl
    | cons e t ih =>
      intro b h
      simp only [srising, Bool.and_eq_true, decide_eq_true_eq] at h
      unfold sdel
      split
      · rename_i h2; subst h2; exact sget_above d t e.1 h.2
      · rename_i h2; simp only [sget, h2, if_false]; exact ih e.1 h.2
  cases m with
  | nil => rfl
  | cons e t =>
    simp only [srising] at h
    unfold sdel
    split
    · rename_i h2; subst h2; exact sget_above d t e.1 h
    · rename_i h2; simp only [sget, h2, if_false]; exact main t e.1 h

/-- In a table in canonical form every write reads back. -/
theorem sget_sput [DecidableEq α] (d : α) (m : Sparse α) (k : Nat) (v : α) (h : swf d m = true) : sget d (sput d m k v) k = v := by
  simp only [swf, Bool.and_eq_true] at h
  unfold sput
  split
  · rename_i hv; rw [hv]; exact sget_sdel_rising d m k h.1
  · simp

variable (s : State)

theorem chan_modChan (ch : Nat) (f : Chan → Chan) (h : f (chan s ch) ≠ {}) : chan (modChan ch f s) ch = f (chan s ch) :=
  by unfold modChan setChan chan; exact sget_sput_ne _ _ _ _ h

theorem chan_modChan_other (ch k : Nat) (f : Chan → Chan) (h : k ≠ ch) : chan (modChan ch f s) k = chan s k :=
  by unfold modChan setChan chan; exact sget_sput_other _ _ _ _ _ h

theorem engine_modEngine (e : Nat) (f : Engine → Engine) (h : f (engine s e) ≠ {}) : engine (modEngine e f s) e = f (engine s e) :=
  by unfold modEngine setEngine engine; exact sget_sput_ne _ _ _ _ h

theorem engine_modEngine_other (e k : Nat) (f : Engine → Engine) (h : k ≠ e) : engine (modEngine e f s) k = engine s k :=
  by unfold modEngine setEngine engine; exact sget_sput_other _ _ _ _ _ h

theorem outlet_modOutlet (o : Nat) (f : Outlet → Outlet) (h : f (outlet s o) ≠ {}) : outlet (modOutlet o f s) o = f (outlet s o) :=
  by unfold modOutlet setOutlet outlet; exact sget_sput_ne _ _ _ _ h

theorem outlet_modOutlet_other (o k : Nat) (f : Outlet → Outlet) (h : k ≠ o) : outlet (modOutlet o f s) k = outlet s k :=
  by unfold modOutlet setOutlet outlet; exact sget_sput_other _ _ _ _ _ h

end Sys2Proof.Laws
end

