-- ==== Sys2Proof/Laws/State.lean ====
section
/-! SUPPORT. What each shared operation over the state leaves as it was, one lemma for each field, and what it reads back. -/

namespace Sys2Proof.Laws

open Sys2Proof Sys2Proof.Machine

variable (s : State)


/-! `modSw` -/

@[simp] theorem modSw_pending (f : SwState → SwState) : (modSw f s).pending = s.pending := rfl
@[simp] theorem modSw_hub (f : SwState → SwState) : (modSw f s).hub = s.hub := rfl
@[simp] theorem modSw_changes (f : SwState → SwState) : (modSw f s).changes = s.changes := rfl
@[simp] theorem modSw_csr (f : SwState → SwState) : (modSw f s).csr = s.csr := rfl
@[simp] theorem modSw_cfgRegs (f : SwState → SwState) : (modSw f s).cfgRegs = s.cfgRegs := rfl
@[simp] theorem modSw_totals (f : SwState → SwState) : (modSw f s).totals = s.totals := rfl
@[simp] theorem modSw_cmd (f : SwState → SwState) : (modSw f s).cmd = s.cmd := rfl
@[simp] theorem modSw_ring (f : SwState → SwState) : (modSw f s).ring = s.ring := rfl
@[simp] theorem modSw_sw (f : SwState → SwState) : (modSw f s).sw = f s.sw := rfl
@[simp] theorem modSw_master (f : SwState → SwState) : (modSw f s).master = s.master := rfl
@[simp] theorem modSw_time (f : SwState → SwState) : (modSw f s).time = s.time := rfl
@[simp] theorem modSw_chans (f : SwState → SwState) : (modSw f s).chans = s.chans := rfl
@[simp] theorem modSw_maps (f : SwState → SwState) : (modSw f s).maps = s.maps := rfl
@[simp] theorem modSw_dl (f : SwState → SwState) : (modSw f s).dl = s.dl := rfl
@[simp] theorem modSw_engines (f : SwState → SwState) : (modSw f s).engines = s.engines := rfl
@[simp] theorem modSw_power (f : SwState → SwState) : (modSw f s).power = s.power := rfl
@[simp] theorem modSw_reset_ (f : SwState → SwState) : (modSw f s).reset_ = s.reset_ := rfl
@[simp] theorem modSw_faults (f : SwState → SwState) : (modSw f s).faults = s.faults := rfl
@[simp] theorem modSw_upd (f : SwState → SwState) : (modSw f s).upd = s.upd := rfl
@[simp] theorem modSw_cv (f : SwState → SwState) : (modSw f s).cv = s.cv := rfl
@[simp] theorem modSw_fresh (f : SwState → SwState) : (modSw f s).fresh = s.fresh := rfl
@[simp] theorem modSw_shelf (f : SwState → SwState) : (modSw f s).shelf = s.shelf := rfl

/-! `modRing` -/

@[simp] theorem modRing_pending (f : RingState → RingState) : (modRing f s).pending = s.pending := rfl
@[simp] theorem modRing_hub (f : RingState → RingState) : (modRing f s).hub = s.hub := rfl
@[simp] theorem modRing_changes (f : RingState → RingState) : (modRing f s).changes = s.changes := rfl
@[simp] theorem modRing_csr (f : RingState → RingState) : (modRing f s).csr = s.csr := rfl
@[simp] theorem modRing_cfgRegs (f : RingState → RingState) : (modRing f s).cfgRegs = s.cfgRegs := rfl
@[simp] theorem modRing_totals (f : RingState → RingState) : (modRing f s).totals = s.totals := rfl
@[simp] theorem modRing_cmd (f : RingState → RingState) : (modRing f s).cmd = s.cmd := rfl
@[simp] theorem modRing_ring (f : RingState → RingState) : (modRing f s).ring = f s.ring := rfl
@[simp] theorem modRing_sw (f : RingState → RingState) : (modRing f s).sw = s.sw := rfl
@[simp] theorem modRing_master (f : RingState → RingState) : (modRing f s).master = s.master := rfl
@[simp] theorem modRing_time (f : RingState → RingState) : (modRing f s).time = s.time := rfl
@[simp] theorem modRing_chans (f : RingState → RingState) : (modRing f s).chans = s.chans := rfl
@[simp] theorem modRing_maps (f : RingState → RingState) : (modRing f s).maps = s.maps := rfl
@[simp] theorem modRing_dl (f : RingState → RingState) : (modRing f s).dl = s.dl := rfl
@[simp] theorem modRing_engines (f : RingState → RingState) : (modRing f s).engines = s.engines := rfl
@[simp] theorem modRing_power (f : RingState → RingState) : (modRing f s).power = s.power := rfl
@[simp] theorem modRing_reset_ (f : RingState → RingState) : (modRing f s).reset_ = s.reset_ := rfl
@[simp] theorem modRing_faults (f : RingState → RingState) : (modRing f s).faults = s.faults := rfl
@[simp] theorem modRing_upd (f : RingState → RingState) : (modRing f s).upd = s.upd := rfl
@[simp] theorem modRing_cv (f : RingState → RingState) : (modRing f s).cv = s.cv := rfl
@[simp] theorem modRing_fresh (f : RingState → RingState) : (modRing f s).fresh = s.fresh := rfl
@[simp] theorem modRing_shelf (f : RingState → RingState) : (modRing f s).shelf = s.shelf := rfl

/-! `modTime` -/

@[simp] theorem modTime_pending (f : TimeState → TimeState) : (modTime f s).pending = s.pending := rfl
@[simp] theorem modTime_hub (f : TimeState → TimeState) : (modTime f s).hub = s.hub := rfl
@[simp] theorem modTime_changes (f : TimeState → TimeState) : (modTime f s).changes = s.changes := rfl
@[simp] theorem modTime_csr (f : TimeState → TimeState) : (modTime f s).csr = s.csr := rfl
@[simp] theorem modTime_cfgRegs (f : TimeState → TimeState) : (modTime f s).cfgRegs = s.cfgRegs := rfl
@[simp] theorem modTime_totals (f : TimeState → TimeState) : (modTime f s).totals = s.totals := rfl
@[simp] theorem modTime_cmd (f : TimeState → TimeState) : (modTime f s).cmd = s.cmd := rfl
@[simp] theorem modTime_ring (f : TimeState → TimeState) : (modTime f s).ring = s.ring := rfl
@[simp] theorem modTime_sw (f : TimeState → TimeState) : (modTime f s).sw = s.sw := rfl
@[simp] theorem modTime_master (f : TimeState → TimeState) : (modTime f s).master = s.master := rfl
@[simp] theorem modTime_time (f : TimeState → TimeState) : (modTime f s).time = f s.time := rfl
@[simp] theorem modTime_chans (f : TimeState → TimeState) : (modTime f s).chans = s.chans := rfl
@[simp] theorem modTime_maps (f : TimeState → TimeState) : (modTime f s).maps = s.maps := rfl
@[simp] theorem modTime_dl (f : TimeState → TimeState) : (modTime f s).dl = s.dl := rfl
@[simp] theorem modTime_engines (f : TimeState → TimeState) : (modTime f s).engines = s.engines := rfl
@[simp] theorem modTime_power (f : TimeState → TimeState) : (modTime f s).power = s.power := rfl
@[simp] theorem modTime_reset_ (f : TimeState → TimeState) : (modTime f s).reset_ = s.reset_ := rfl
@[simp] theorem modTime_faults (f : TimeState → TimeState) : (modTime f s).faults = s.faults := rfl
@[simp] theorem modTime_upd (f : TimeState → TimeState) : (modTime f s).upd = s.upd := rfl
@[simp] theorem modTime_cv (f : TimeState → TimeState) : (modTime f s).cv = s.cv := rfl
@[simp] theorem modTime_fresh (f : TimeState → TimeState) : (modTime f s).fresh = s.fresh := rfl
@[simp] theorem modTime_shelf (f : TimeState → TimeState) : (modTime f s).shelf = s.shelf := rfl

/-! `modMaster` -/

@[simp] theorem modMaster_pending (f : MasterState → MasterState) : (modMaster f s).pending = s.pending := rfl
@[simp] theorem modMaster_hub (f : MasterState → MasterState) : (modMaster f s).hub = s.hub := rfl
@[simp] theorem modMaster_changes (f : MasterState → MasterState) : (modMaster f s).changes = s.changes := rfl
@[simp] theorem modMaster_csr (f : MasterState → MasterState) : (modMaster f s).csr = s.csr := rfl
@[simp] theorem modMaster_cfgRegs (f : MasterState → MasterState) : (modMaster f s).cfgRegs = s.cfgRegs := rfl
@[simp] theorem modMaster_totals (f : MasterState → MasterState) : (modMaster f s).totals = s.totals := rfl
@[simp] theorem modMaster_cmd (f : MasterState → MasterState) : (modMaster f s).cmd = s.cmd := rfl
@[simp] theorem modMaster_ring (f : MasterState → MasterState) : (modMaster f s).ring = s.ring := rfl
@[simp] theorem modMaster_sw (f : MasterState → MasterState) : (modMaster f s).sw = s.sw := rfl
@[simp] theorem modMaster_master (f : MasterState → MasterState) : (modMaster f s).master = f s.master := rfl
@[simp] theorem modMaster_time (f : MasterState → MasterState) : (modMaster f s).time = s.time := rfl
@[simp] theorem modMaster_chans (f : MasterState → MasterState) : (modMaster f s).chans = s.chans := rfl
@[simp] theorem modMaster_maps (f : MasterState → MasterState) : (modMaster f s).maps = s.maps := rfl
@[simp] theorem modMaster_dl (f : MasterState → MasterState) : (modMaster f s).dl = s.dl := rfl
@[simp] theorem modMaster_engines (f : MasterState → MasterState) : (modMaster f s).engines = s.engines := rfl
@[simp] theorem modMaster_power (f : MasterState → MasterState) : (modMaster f s).power = s.power := rfl
@[simp] theorem modMaster_reset_ (f : MasterState → MasterState) : (modMaster f s).reset_ = s.reset_ := rfl
@[simp] theorem modMaster_faults (f : MasterState → MasterState) : (modMaster f s).faults = s.faults := rfl
@[simp] theorem modMaster_upd (f : MasterState → MasterState) : (modMaster f s).upd = s.upd := rfl
@[simp] theorem modMaster_cv (f : MasterState → MasterState) : (modMaster f s).cv = s.cv := rfl
@[simp] theorem modMaster_fresh (f : MasterState → MasterState) : (modMaster f s).fresh = s.fresh := rfl
@[simp] theorem modMaster_shelf (f : MasterState → MasterState) : (modMaster f s).shelf = s.shelf := rfl

/-! `modMaps` -/

@[simp] theorem modMaps_pending (f : MapState → MapState) : (modMaps f s).pending = s.pending := rfl
@[simp] theorem modMaps_hub (f : MapState → MapState) : (modMaps f s).hub = s.hub := rfl
@[simp] theorem modMaps_changes (f : MapState → MapState) : (modMaps f s).changes = s.changes := rfl
@[simp] theorem modMaps_csr (f : MapState → MapState) : (modMaps f s).csr = s.csr := rfl
@[simp] theorem modMaps_cfgRegs (f : MapState → MapState) : (modMaps f s).cfgRegs = s.cfgRegs := rfl
@[simp] theorem modMaps_totals (f : MapState → MapState) : (modMaps f s).totals = s.totals := rfl
@[simp] theorem modMaps_cmd (f : MapState → MapState) : (modMaps f s).cmd = s.cmd := rfl
@[simp] theorem modMaps_ring (f : MapState → MapState) : (modMaps f s).ring = s.ring := rfl
@[simp] theorem modMaps_sw (f : MapState → MapState) : (modMaps f s).sw = s.sw := rfl
@[simp] theorem modMaps_master (f : MapState → MapState) : (modMaps f s).master = s.master := rfl
@[simp] theorem modMaps_time (f : MapState → MapState) : (modMaps f s).time = s.time := rfl
@[simp] theorem modMaps_chans (f : MapState → MapState) : (modMaps f s).chans = s.chans := rfl
@[simp] theorem modMaps_maps (f : MapState → MapState) : (modMaps f s).maps = f s.maps := rfl
@[simp] theorem modMaps_dl (f : MapState → MapState) : (modMaps f s).dl = s.dl := rfl
@[simp] theorem modMaps_engines (f : MapState → MapState) : (modMaps f s).engines = s.engines := rfl
@[simp] theorem modMaps_power (f : MapState → MapState) : (modMaps f s).power = s.power := rfl
@[simp] theorem modMaps_reset_ (f : MapState → MapState) : (modMaps f s).reset_ = s.reset_ := rfl
@[simp] theorem modMaps_faults (f : MapState → MapState) : (modMaps f s).faults = s.faults := rfl
@[simp] theorem modMaps_upd (f : MapState → MapState) : (modMaps f s).upd = s.upd := rfl
@[simp] theorem modMaps_cv (f : MapState → MapState) : (modMaps f s).cv = s.cv := rfl
@[simp] theorem modMaps_fresh (f : MapState → MapState) : (modMaps f s).fresh = s.fresh := rfl
@[simp] theorem modMaps_shelf (f : MapState → MapState) : (modMaps f s).shelf = s.shelf := rfl

/-! `modPower` -/

@[simp] theorem modPower_pending (f : PowerState → PowerState) : (modPower f s).pending = s.pending := rfl
@[simp] theorem modPower_hub (f : PowerState → PowerState) : (modPower f s).hub = s.hub := rfl
@[simp] theorem modPower_changes (f : PowerState → PowerState) : (modPower f s).changes = s.changes := rfl
@[simp] theorem modPower_csr (f : PowerState → PowerState) : (modPower f s).csr = s.csr := rfl
@[simp] theorem modPower_cfgRegs (f : PowerState → PowerState) : (modPower f s).cfgRegs = s.cfgRegs := rfl
@[simp] theorem modPower_totals (f : PowerState → PowerState) : (modPower f s).totals = s.totals := rfl
@[simp] theorem modPower_cmd (f : PowerState → PowerState) : (modPower f s).cmd = s.cmd := rfl
@[simp] theorem modPower_ring (f : PowerState → PowerState) : (modPower f s).ring = s.ring := rfl
@[simp] theorem modPower_sw (f : PowerState → PowerState) : (modPower f s).sw = s.sw := rfl
@[simp] theorem modPower_master (f : PowerState → PowerState) : (modPower f s).master = s.master := rfl
@[simp] theorem modPower_time (f : PowerState → PowerState) : (modPower f s).time = s.time := rfl
@[simp] theorem modPower_chans (f : PowerState → PowerState) : (modPower f s).chans = s.chans := rfl
@[simp] theorem modPower_maps (f : PowerState → PowerState) : (modPower f s).maps = s.maps := rfl
@[simp] theorem modPower_dl (f : PowerState → PowerState) : (modPower f s).dl = s.dl := rfl
@[simp] theorem modPower_engines (f : PowerState → PowerState) : (modPower f s).engines = s.engines := rfl
@[simp] theorem modPower_power (f : PowerState → PowerState) : (modPower f s).power = f s.power := rfl
@[simp] theorem modPower_reset_ (f : PowerState → PowerState) : (modPower f s).reset_ = s.reset_ := rfl
@[simp] theorem modPower_faults (f : PowerState → PowerState) : (modPower f s).faults = s.faults := rfl
@[simp] theorem modPower_upd (f : PowerState → PowerState) : (modPower f s).upd = s.upd := rfl
@[simp] theorem modPower_cv (f : PowerState → PowerState) : (modPower f s).cv = s.cv := rfl
@[simp] theorem modPower_fresh (f : PowerState → PowerState) : (modPower f s).fresh = s.fresh := rfl
@[simp] theorem modPower_shelf (f : PowerState → PowerState) : (modPower f s).shelf = s.shelf := rfl

/-! `modReset` -/

@[simp] theorem modReset_pending (f : ResetState → ResetState) : (modReset f s).pending = s.pending := rfl
@[simp] theorem modReset_hub (f : ResetState → ResetState) : (modReset f s).hub = s.hub := rfl
@[simp] theorem modReset_changes (f : ResetState → ResetState) : (modReset f s).changes = s.changes := rfl
@[simp] theorem modReset_csr (f : ResetState → ResetState) : (modReset f s).csr = s.csr := rfl
@[simp] theorem modReset_cfgRegs (f : ResetState → ResetState) : (modReset f s).cfgRegs = s.cfgRegs := rfl
@[simp] theorem modReset_totals (f : ResetState → ResetState) : (modReset f s).totals = s.totals := rfl
@[simp] theorem modReset_cmd (f : ResetState → ResetState) : (modReset f s).cmd = s.cmd := rfl
@[simp] theorem modReset_ring (f : ResetState → ResetState) : (modReset f s).ring = s.ring := rfl
@[simp] theorem modReset_sw (f : ResetState → ResetState) : (modReset f s).sw = s.sw := rfl
@[simp] theorem modReset_master (f : ResetState → ResetState) : (modReset f s).master = s.master := rfl
@[simp] theorem modReset_time (f : ResetState → ResetState) : (modReset f s).time = s.time := rfl
@[simp] theorem modReset_chans (f : ResetState → ResetState) : (modReset f s).chans = s.chans := rfl
@[simp] theorem modReset_maps (f : ResetState → ResetState) : (modReset f s).maps = s.maps := rfl
@[simp] theorem modReset_dl (f : ResetState → ResetState) : (modReset f s).dl = s.dl := rfl
@[simp] theorem modReset_engines (f : ResetState → ResetState) : (modReset f s).engines = s.engines := rfl
@[simp] theorem modReset_power (f : ResetState → ResetState) : (modReset f s).power = s.power := rfl
@[simp] theorem modReset_reset_ (f : ResetState → ResetState) : (modReset f s).reset_ = f s.reset_ := rfl
@[simp] theorem modReset_faults (f : ResetState → ResetState) : (modReset f s).faults = s.faults := rfl
@[simp] theorem modReset_upd (f : ResetState → ResetState) : (modReset f s).upd = s.upd := rfl
@[simp] theorem modReset_cv (f : ResetState → ResetState) : (modReset f s).cv = s.cv := rfl
@[simp] theorem modReset_fresh (f : ResetState → ResetState) : (modReset f s).fresh = s.fresh := rfl
@[simp] theorem modReset_shelf (f : ResetState → ResetState) : (modReset f s).shelf = s.shelf := rfl

/-! `modFaults` -/

@[simp] theorem modFaults_pending (f : FaultState → FaultState) : (modFaults f s).pending = s.pending := rfl
@[simp] theorem modFaults_hub (f : FaultState → FaultState) : (modFaults f s).hub = s.hub := rfl
@[simp] theorem modFaults_changes (f : FaultState → FaultState) : (modFaults f s).changes = s.changes := rfl
@[simp] theorem modFaults_csr (f : FaultState → FaultState) : (modFaults f s).csr = s.csr := rfl
@[simp] theorem modFaults_cfgRegs (f : FaultState → FaultState) : (modFaults f s).cfgRegs = s.cfgRegs := rfl
@[simp] theorem modFaults_totals (f : FaultState → FaultState) : (modFaults f s).totals = s.totals := rfl
@[simp] theorem modFaults_cmd (f : FaultState → FaultState) : (modFaults f s).cmd = s.cmd := rfl
@[simp] theorem modFaults_ring (f : FaultState → FaultState) : (modFaults f s).ring = s.ring := rfl
@[simp] theorem modFaults_sw (f : FaultState → FaultState) : (modFaults f s).sw = s.sw := rfl
@[simp] theorem modFaults_master (f : FaultState → FaultState) : (modFaults f s).master = s.master := rfl
@[simp] theorem modFaults_time (f : FaultState → FaultState) : (modFaults f s).time = s.time := rfl
@[simp] theorem modFaults_chans (f : FaultState → FaultState) : (modFaults f s).chans = s.chans := rfl
@[simp] theorem modFaults_maps (f : FaultState → FaultState) : (modFaults f s).maps = s.maps := rfl
@[simp] theorem modFaults_dl (f : FaultState → FaultState) : (modFaults f s).dl = s.dl := rfl
@[simp] theorem modFaults_engines (f : FaultState → FaultState) : (modFaults f s).engines = s.engines := rfl
@[simp] theorem modFaults_power (f : FaultState → FaultState) : (modFaults f s).power = s.power := rfl
@[simp] theorem modFaults_reset_ (f : FaultState → FaultState) : (modFaults f s).reset_ = s.reset_ := rfl
@[simp] theorem modFaults_faults (f : FaultState → FaultState) : (modFaults f s).faults = f s.faults := rfl
@[simp] theorem modFaults_upd (f : FaultState → FaultState) : (modFaults f s).upd = s.upd := rfl
@[simp] theorem modFaults_cv (f : FaultState → FaultState) : (modFaults f s).cv = s.cv := rfl
@[simp] theorem modFaults_fresh (f : FaultState → FaultState) : (modFaults f s).fresh = s.fresh := rfl
@[simp] theorem modFaults_shelf (f : FaultState → FaultState) : (modFaults f s).shelf = s.shelf := rfl

/-! `modUpd` -/

@[simp] theorem modUpd_pending (f : UpdState → UpdState) : (modUpd f s).pending = s.pending := rfl
@[simp] theorem modUpd_hub (f : UpdState → UpdState) : (modUpd f s).hub = s.hub := rfl
@[simp] theorem modUpd_changes (f : UpdState → UpdState) : (modUpd f s).changes = s.changes := rfl
@[simp] theorem modUpd_csr (f : UpdState → UpdState) : (modUpd f s).csr = s.csr := rfl
@[simp] theorem modUpd_cfgRegs (f : UpdState → UpdState) : (modUpd f s).cfgRegs = s.cfgRegs := rfl
@[simp] theorem modUpd_totals (f : UpdState → UpdState) : (modUpd f s).totals = s.totals := rfl
@[simp] theorem modUpd_cmd (f : UpdState → UpdState) : (modUpd f s).cmd = s.cmd := rfl
@[simp] theorem modUpd_ring (f : UpdState → UpdState) : (modUpd f s).ring = s.ring := rfl
@[simp] theorem modUpd_sw (f : UpdState → UpdState) : (modUpd f s).sw = s.sw := rfl
@[simp] theorem modUpd_master (f : UpdState → UpdState) : (modUpd f s).master = s.master := rfl
@[simp] theorem modUpd_time (f : UpdState → UpdState) : (modUpd f s).time = s.time := rfl
@[simp] theorem modUpd_chans (f : UpdState → UpdState) : (modUpd f s).chans = s.chans := rfl
@[simp] theorem modUpd_maps (f : UpdState → UpdState) : (modUpd f s).maps = s.maps := rfl
@[simp] theorem modUpd_dl (f : UpdState → UpdState) : (modUpd f s).dl = s.dl := rfl
@[simp] theorem modUpd_engines (f : UpdState → UpdState) : (modUpd f s).engines = s.engines := rfl
@[simp] theorem modUpd_power (f : UpdState → UpdState) : (modUpd f s).power = s.power := rfl
@[simp] theorem modUpd_reset_ (f : UpdState → UpdState) : (modUpd f s).reset_ = s.reset_ := rfl
@[simp] theorem modUpd_faults (f : UpdState → UpdState) : (modUpd f s).faults = s.faults := rfl
@[simp] theorem modUpd_upd (f : UpdState → UpdState) : (modUpd f s).upd = f s.upd := rfl
@[simp] theorem modUpd_cv (f : UpdState → UpdState) : (modUpd f s).cv = s.cv := rfl
@[simp] theorem modUpd_fresh (f : UpdState → UpdState) : (modUpd f s).fresh = s.fresh := rfl
@[simp] theorem modUpd_shelf (f : UpdState → UpdState) : (modUpd f s).shelf = s.shelf := rfl

/-! `modCv` -/

@[simp] theorem modCv_pending (f : CvState → CvState) : (modCv f s).pending = s.pending := rfl
@[simp] theorem modCv_hub (f : CvState → CvState) : (modCv f s).hub = s.hub := rfl
@[simp] theorem modCv_changes (f : CvState → CvState) : (modCv f s).changes = s.changes := rfl
@[simp] theorem modCv_csr (f : CvState → CvState) : (modCv f s).csr = s.csr := rfl
@[simp] theorem modCv_cfgRegs (f : CvState → CvState) : (modCv f s).cfgRegs = s.cfgRegs := rfl
@[simp] theorem modCv_totals (f : CvState → CvState) : (modCv f s).totals = s.totals := rfl
@[simp] theorem modCv_cmd (f : CvState → CvState) : (modCv f s).cmd = s.cmd := rfl
@[simp] theorem modCv_ring (f : CvState → CvState) : (modCv f s).ring = s.ring := rfl
@[simp] theorem modCv_sw (f : CvState → CvState) : (modCv f s).sw = s.sw := rfl
@[simp] theorem modCv_master (f : CvState → CvState) : (modCv f s).master = s.master := rfl
@[simp] theorem modCv_time (f : CvState → CvState) : (modCv f s).time = s.time := rfl
@[simp] theorem modCv_chans (f : CvState → CvState) : (modCv f s).chans = s.chans := rfl
@[simp] theorem modCv_maps (f : CvState → CvState) : (modCv f s).maps = s.maps := rfl
@[simp] theorem modCv_dl (f : CvState → CvState) : (modCv f s).dl = s.dl := rfl
@[simp] theorem modCv_engines (f : CvState → CvState) : (modCv f s).engines = s.engines := rfl
@[simp] theorem modCv_power (f : CvState → CvState) : (modCv f s).power = s.power := rfl
@[simp] theorem modCv_reset_ (f : CvState → CvState) : (modCv f s).reset_ = s.reset_ := rfl
@[simp] theorem modCv_faults (f : CvState → CvState) : (modCv f s).faults = s.faults := rfl
@[simp] theorem modCv_upd (f : CvState → CvState) : (modCv f s).upd = s.upd := rfl
@[simp] theorem modCv_cv (f : CvState → CvState) : (modCv f s).cv = f s.cv := rfl
@[simp] theorem modCv_fresh (f : CvState → CvState) : (modCv f s).fresh = s.fresh := rfl
@[simp] theorem modCv_shelf (f : CvState → CvState) : (modCv f s).shelf = s.shelf := rfl

/-! `modCmd` -/

@[simp] theorem modCmd_pending (f : CmdState → CmdState) : (modCmd f s).pending = s.pending := rfl
@[simp] theorem modCmd_hub (f : CmdState → CmdState) : (modCmd f s).hub = s.hub := rfl
@[simp] theorem modCmd_changes (f : CmdState → CmdState) : (modCmd f s).changes = s.changes := rfl
@[simp] theorem modCmd_csr (f : CmdState → CmdState) : (modCmd f s).csr = s.csr := rfl
@[simp] theorem modCmd_cfgRegs (f : CmdState → CmdState) : (modCmd f s).cfgRegs = s.cfgRegs := rfl
@[simp] theorem modCmd_totals (f : CmdState → CmdState) : (modCmd f s).totals = s.totals := rfl
@[simp] theorem modCmd_cmd (f : CmdState → CmdState) : (modCmd f s).cmd = f s.cmd := rfl
@[simp] theorem modCmd_ring (f : CmdState → CmdState) : (modCmd f s).ring = s.ring := rfl
@[simp] theorem modCmd_sw (f : CmdState → CmdState) : (modCmd f s).sw = s.sw := rfl
@[simp] theorem modCmd_master (f : CmdState → CmdState) : (modCmd f s).master = s.master := rfl
@[simp] theorem modCmd_time (f : CmdState → CmdState) : (modCmd f s).time = s.time := rfl
@[simp] theorem modCmd_chans (f : CmdState → CmdState) : (modCmd f s).chans = s.chans := rfl
@[simp] theorem modCmd_maps (f : CmdState → CmdState) : (modCmd f s).maps = s.maps := rfl
@[simp] theorem modCmd_dl (f : CmdState → CmdState) : (modCmd f s).dl = s.dl := rfl
@[simp] theorem modCmd_engines (f : CmdState → CmdState) : (modCmd f s).engines = s.engines := rfl
@[simp] theorem modCmd_power (f : CmdState → CmdState) : (modCmd f s).power = s.power := rfl
@[simp] theorem modCmd_reset_ (f : CmdState → CmdState) : (modCmd f s).reset_ = s.reset_ := rfl
@[simp] theorem modCmd_faults (f : CmdState → CmdState) : (modCmd f s).faults = s.faults := rfl
@[simp] theorem modCmd_upd (f : CmdState → CmdState) : (modCmd f s).upd = s.upd := rfl
@[simp] theorem modCmd_cv (f : CmdState → CmdState) : (modCmd f s).cv = s.cv := rfl
@[simp] theorem modCmd_fresh (f : CmdState → CmdState) : (modCmd f s).fresh = s.fresh := rfl
@[simp] theorem modCmd_shelf (f : CmdState → CmdState) : (modCmd f s).shelf = s.shelf := rfl

/-! `setChan` -/

@[simp] theorem setChan_pending (ch : Nat) (v : Chan) : (setChan ch v s).pending = s.pending := rfl
@[simp] theorem setChan_hub (ch : Nat) (v : Chan) : (setChan ch v s).hub = s.hub := rfl
@[simp] theorem setChan_changes (ch : Nat) (v : Chan) : (setChan ch v s).changes = s.changes := rfl
@[simp] theorem setChan_csr (ch : Nat) (v : Chan) : (setChan ch v s).csr = s.csr := rfl
@[simp] theorem setChan_cfgRegs (ch : Nat) (v : Chan) : (setChan ch v s).cfgRegs = s.cfgRegs := rfl
@[simp] theorem setChan_totals (ch : Nat) (v : Chan) : (setChan ch v s).totals = s.totals := rfl
@[simp] theorem setChan_cmd (ch : Nat) (v : Chan) : (setChan ch v s).cmd = s.cmd := rfl
@[simp] theorem setChan_ring (ch : Nat) (v : Chan) : (setChan ch v s).ring = s.ring := rfl
@[simp] theorem setChan_sw (ch : Nat) (v : Chan) : (setChan ch v s).sw = s.sw := rfl
@[simp] theorem setChan_master (ch : Nat) (v : Chan) : (setChan ch v s).master = s.master := rfl
@[simp] theorem setChan_time (ch : Nat) (v : Chan) : (setChan ch v s).time = s.time := rfl
@[simp] theorem setChan_maps (ch : Nat) (v : Chan) : (setChan ch v s).maps = s.maps := rfl
@[simp] theorem setChan_dl (ch : Nat) (v : Chan) : (setChan ch v s).dl = s.dl := rfl
@[simp] theorem setChan_engines (ch : Nat) (v : Chan) : (setChan ch v s).engines = s.engines := rfl
@[simp] theorem setChan_power (ch : Nat) (v : Chan) : (setChan ch v s).power = s.power := rfl
@[simp] theorem setChan_reset_ (ch : Nat) (v : Chan) : (setChan ch v s).reset_ = s.reset_ := rfl
@[simp] theorem setChan_faults (ch : Nat) (v : Chan) : (setChan ch v s).faults = s.faults := rfl
@[simp] theorem setChan_upd (ch : Nat) (v : Chan) : (setChan ch v s).upd = s.upd := rfl
@[simp] theorem setChan_cv (ch : Nat) (v : Chan) : (setChan ch v s).cv = s.cv := rfl
@[simp] theorem setChan_fresh (ch : Nat) (v : Chan) : (setChan ch v s).fresh = s.fresh := rfl
@[simp] theorem setChan_shelf (ch : Nat) (v : Chan) : (setChan ch v s).shelf = s.shelf := rfl

/-! `modChan` -/

@[simp] theorem modChan_pending (ch : Nat) (f : Chan → Chan) : (modChan ch f s).pending = s.pending := rfl
@[simp] theorem modChan_hub (ch : Nat) (f : Chan → Chan) : (modChan ch f s).hub = s.hub := rfl
@[simp] theorem modChan_changes (ch : Nat) (f : Chan → Chan) : (modChan ch f s).changes = s.changes := rfl
@[simp] theorem modChan_csr (ch : Nat) (f : Chan → Chan) : (modChan ch f s).csr = s.csr := rfl
@[simp] theorem modChan_cfgRegs (ch : Nat) (f : Chan → Chan) : (modChan ch f s).cfgRegs = s.cfgRegs := rfl
@[simp] theorem modChan_totals (ch : Nat) (f : Chan → Chan) : (modChan ch f s).totals = s.totals := rfl
@[simp] theorem modChan_cmd (ch : Nat) (f : Chan → Chan) : (modChan ch f s).cmd = s.cmd := rfl
@[simp] theorem modChan_ring (ch : Nat) (f : Chan → Chan) : (modChan ch f s).ring = s.ring := rfl
@[simp] theorem modChan_sw (ch : Nat) (f : Chan → Chan) : (modChan ch f s).sw = s.sw := rfl
@[simp] theorem modChan_master (ch : Nat) (f : Chan → Chan) : (modChan ch f s).master = s.master := rfl
@[simp] theorem modChan_time (ch : Nat) (f : Chan → Chan) : (modChan ch f s).time = s.time := rfl
@[simp] theorem modChan_maps (ch : Nat) (f : Chan → Chan) : (modChan ch f s).maps = s.maps := rfl
@[simp] theorem modChan_dl (ch : Nat) (f : Chan → Chan) : (modChan ch f s).dl = s.dl := rfl
@[simp] theorem modChan_engines (ch : Nat) (f : Chan → Chan) : (modChan ch f s).engines = s.engines := rfl
@[simp] theorem modChan_power (ch : Nat) (f : Chan → Chan) : (modChan ch f s).power = s.power := rfl
@[simp] theorem modChan_reset_ (ch : Nat) (f : Chan → Chan) : (modChan ch f s).reset_ = s.reset_ := rfl
@[simp] theorem modChan_faults (ch : Nat) (f : Chan → Chan) : (modChan ch f s).faults = s.faults := rfl
@[simp] theorem modChan_upd (ch : Nat) (f : Chan → Chan) : (modChan ch f s).upd = s.upd := rfl
@[simp] theorem modChan_cv (ch : Nat) (f : Chan → Chan) : (modChan ch f s).cv = s.cv := rfl
@[simp] theorem modChan_fresh (ch : Nat) (f : Chan → Chan) : (modChan ch f s).fresh = s.fresh := rfl
@[simp] theorem modChan_shelf (ch : Nat) (f : Chan → Chan) : (modChan ch f s).shelf = s.shelf := rfl

/-! `modCan` -/

@[simp] theorem modCan_pending (ch : Nat) (f : CanState → CanState) : (modCan ch f s).pending = s.pending := rfl
@[simp] theorem modCan_hub (ch : Nat) (f : CanState → CanState) : (modCan ch f s).hub = s.hub := rfl
@[simp] theorem modCan_changes (ch : Nat) (f : CanState → CanState) : (modCan ch f s).changes = s.changes := rfl
@[simp] theorem modCan_csr (ch : Nat) (f : CanState → CanState) : (modCan ch f s).csr = s.csr := rfl
@[simp] theorem modCan_cfgRegs (ch : Nat) (f : CanState → CanState) : (modCan ch f s).cfgRegs = s.cfgRegs := rfl
@[simp] theorem modCan_totals (ch : Nat) (f : CanState → CanState) : (modCan ch f s).totals = s.totals := rfl
@[simp] theorem modCan_cmd (ch : Nat) (f : CanState → CanState) : (modCan ch f s).cmd = s.cmd := rfl
@[simp] theorem modCan_ring (ch : Nat) (f : CanState → CanState) : (modCan ch f s).ring = s.ring := rfl
@[simp] theorem modCan_sw (ch : Nat) (f : CanState → CanState) : (modCan ch f s).sw = s.sw := rfl
@[simp] theorem modCan_master (ch : Nat) (f : CanState → CanState) : (modCan ch f s).master = s.master := rfl
@[simp] theorem modCan_time (ch : Nat) (f : CanState → CanState) : (modCan ch f s).time = s.time := rfl
@[simp] theorem modCan_maps (ch : Nat) (f : CanState → CanState) : (modCan ch f s).maps = s.maps := rfl
@[simp] theorem modCan_dl (ch : Nat) (f : CanState → CanState) : (modCan ch f s).dl = s.dl := rfl
@[simp] theorem modCan_engines (ch : Nat) (f : CanState → CanState) : (modCan ch f s).engines = s.engines := rfl
@[simp] theorem modCan_power (ch : Nat) (f : CanState → CanState) : (modCan ch f s).power = s.power := rfl
@[simp] theorem modCan_reset_ (ch : Nat) (f : CanState → CanState) : (modCan ch f s).reset_ = s.reset_ := rfl
@[simp] theorem modCan_faults (ch : Nat) (f : CanState → CanState) : (modCan ch f s).faults = s.faults := rfl
@[simp] theorem modCan_upd (ch : Nat) (f : CanState → CanState) : (modCan ch f s).upd = s.upd := rfl
@[simp] theorem modCan_cv (ch : Nat) (f : CanState → CanState) : (modCan ch f s).cv = s.cv := rfl
@[simp] theorem modCan_fresh (ch : Nat) (f : CanState → CanState) : (modCan ch f s).fresh = s.fresh := rfl
@[simp] theorem modCan_shelf (ch : Nat) (f : CanState → CanState) : (modCan ch f s).shelf = s.shelf := rfl

/-! `modMb` -/

@[simp] theorem modMb_pending (ch : Nat) (f : MbState → MbState) : (modMb ch f s).pending = s.pending := rfl
@[simp] theorem modMb_hub (ch : Nat) (f : MbState → MbState) : (modMb ch f s).hub = s.hub := rfl
@[simp] theorem modMb_changes (ch : Nat) (f : MbState → MbState) : (modMb ch f s).changes = s.changes := rfl
@[simp] theorem modMb_csr (ch : Nat) (f : MbState → MbState) : (modMb ch f s).csr = s.csr := rfl
@[simp] theorem modMb_cfgRegs (ch : Nat) (f : MbState → MbState) : (modMb ch f s).cfgRegs = s.cfgRegs := rfl
@[simp] theorem modMb_totals (ch : Nat) (f : MbState → MbState) : (modMb ch f s).totals = s.totals := rfl
@[simp] theorem modMb_cmd (ch : Nat) (f : MbState → MbState) : (modMb ch f s).cmd = s.cmd := rfl
@[simp] theorem modMb_ring (ch : Nat) (f : MbState → MbState) : (modMb ch f s).ring = s.ring := rfl
@[simp] theorem modMb_sw (ch : Nat) (f : MbState → MbState) : (modMb ch f s).sw = s.sw := rfl
@[simp] theorem modMb_master (ch : Nat) (f : MbState → MbState) : (modMb ch f s).master = s.master := rfl
@[simp] theorem modMb_time (ch : Nat) (f : MbState → MbState) : (modMb ch f s).time = s.time := rfl
@[simp] theorem modMb_maps (ch : Nat) (f : MbState → MbState) : (modMb ch f s).maps = s.maps := rfl
@[simp] theorem modMb_dl (ch : Nat) (f : MbState → MbState) : (modMb ch f s).dl = s.dl := rfl
@[simp] theorem modMb_engines (ch : Nat) (f : MbState → MbState) : (modMb ch f s).engines = s.engines := rfl
@[simp] theorem modMb_power (ch : Nat) (f : MbState → MbState) : (modMb ch f s).power = s.power := rfl
@[simp] theorem modMb_reset_ (ch : Nat) (f : MbState → MbState) : (modMb ch f s).reset_ = s.reset_ := rfl
@[simp] theorem modMb_faults (ch : Nat) (f : MbState → MbState) : (modMb ch f s).faults = s.faults := rfl
@[simp] theorem modMb_upd (ch : Nat) (f : MbState → MbState) : (modMb ch f s).upd = s.upd := rfl
@[simp] theorem modMb_cv (ch : Nat) (f : MbState → MbState) : (modMb ch f s).cv = s.cv := rfl
@[simp] theorem modMb_fresh (ch : Nat) (f : MbState → MbState) : (modMb ch f s).fresh = s.fresh := rfl
@[simp] theorem modMb_shelf (ch : Nat) (f : MbState → MbState) : (modMb ch f s).shelf = s.shelf := rfl

/-! `modIol` -/

@[simp] theorem modIol_pending (ch : Nat) (f : IolState → IolState) : (modIol ch f s).pending = s.pending := rfl
@[simp] theorem modIol_hub (ch : Nat) (f : IolState → IolState) : (modIol ch f s).hub = s.hub := rfl
@[simp] theorem modIol_changes (ch : Nat) (f : IolState → IolState) : (modIol ch f s).changes = s.changes := rfl
@[simp] theorem modIol_csr (ch : Nat) (f : IolState → IolState) : (modIol ch f s).csr = s.csr := rfl
@[simp] theorem modIol_cfgRegs (ch : Nat) (f : IolState → IolState) : (modIol ch f s).cfgRegs = s.cfgRegs := rfl
@[simp] theorem modIol_totals (ch : Nat) (f : IolState → IolState) : (modIol ch f s).totals = s.totals := rfl
@[simp] theorem modIol_cmd (ch : Nat) (f : IolState → IolState) : (modIol ch f s).cmd = s.cmd := rfl
@[simp] theorem modIol_ring (ch : Nat) (f : IolState → IolState) : (modIol ch f s).ring = s.ring := rfl
@[simp] theorem modIol_sw (ch : Nat) (f : IolState → IolState) : (modIol ch f s).sw = s.sw := rfl
@[simp] theorem modIol_master (ch : Nat) (f : IolState → IolState) : (modIol ch f s).master = s.master := rfl
@[simp] theorem modIol_time (ch : Nat) (f : IolState → IolState) : (modIol ch f s).time = s.time := rfl
@[simp] theorem modIol_maps (ch : Nat) (f : IolState → IolState) : (modIol ch f s).maps = s.maps := rfl
@[simp] theorem modIol_dl (ch : Nat) (f : IolState → IolState) : (modIol ch f s).dl = s.dl := rfl
@[simp] theorem modIol_engines (ch : Nat) (f : IolState → IolState) : (modIol ch f s).engines = s.engines := rfl
@[simp] theorem modIol_power (ch : Nat) (f : IolState → IolState) : (modIol ch f s).power = s.power := rfl
@[simp] theorem modIol_reset_ (ch : Nat) (f : IolState → IolState) : (modIol ch f s).reset_ = s.reset_ := rfl
@[simp] theorem modIol_faults (ch : Nat) (f : IolState → IolState) : (modIol ch f s).faults = s.faults := rfl
@[simp] theorem modIol_upd (ch : Nat) (f : IolState → IolState) : (modIol ch f s).upd = s.upd := rfl
@[simp] theorem modIol_cv (ch : Nat) (f : IolState → IolState) : (modIol ch f s).cv = s.cv := rfl
@[simp] theorem modIol_fresh (ch : Nat) (f : IolState → IolState) : (modIol ch f s).fresh = s.fresh := rfl
@[simp] theorem modIol_shelf (ch : Nat) (f : IolState → IolState) : (modIol ch f s).shelf = s.shelf := rfl

/-! `setEngine` -/

@[simp] theorem setEngine_pending (e : Nat) (v : Engine) : (setEngine e v s).pending = s.pending := rfl
@[simp] theorem setEngine_hub (e : Nat) (v : Engine) : (setEngine e v s).hub = s.hub := rfl
@[simp] theorem setEngine_changes (e : Nat) (v : Engine) : (setEngine e v s).changes = s.changes := rfl
@[simp] theorem setEngine_csr (e : Nat) (v : Engine) : (setEngine e v s).csr = s.csr := rfl
@[simp] theorem setEngine_cfgRegs (e : Nat) (v : Engine) : (setEngine e v s).cfgRegs = s.cfgRegs := rfl
@[simp] theorem setEngine_totals (e : Nat) (v : Engine) : (setEngine e v s).totals = s.totals := rfl
@[simp] theorem setEngine_cmd (e : Nat) (v : Engine) : (setEngine e v s).cmd = s.cmd := rfl
@[simp] theorem setEngine_ring (e : Nat) (v : Engine) : (setEngine e v s).ring = s.ring := rfl
@[simp] theorem setEngine_sw (e : Nat) (v : Engine) : (setEngine e v s).sw = s.sw := rfl
@[simp] theorem setEngine_master (e : Nat) (v : Engine) : (setEngine e v s).master = s.master := rfl
@[simp] theorem setEngine_time (e : Nat) (v : Engine) : (setEngine e v s).time = s.time := rfl
@[simp] theorem setEngine_chans (e : Nat) (v : Engine) : (setEngine e v s).chans = s.chans := rfl
@[simp] theorem setEngine_maps (e : Nat) (v : Engine) : (setEngine e v s).maps = s.maps := rfl
@[simp] theorem setEngine_dl (e : Nat) (v : Engine) : (setEngine e v s).dl = s.dl := rfl
@[simp] theorem setEngine_power (e : Nat) (v : Engine) : (setEngine e v s).power = s.power := rfl
@[simp] theorem setEngine_reset_ (e : Nat) (v : Engine) : (setEngine e v s).reset_ = s.reset_ := rfl
@[simp] theorem setEngine_faults (e : Nat) (v : Engine) : (setEngine e v s).faults = s.faults := rfl
@[simp] theorem setEngine_upd (e : Nat) (v : Engine) : (setEngine e v s).upd = s.upd := rfl
@[simp] theorem setEngine_cv (e : Nat) (v : Engine) : (setEngine e v s).cv = s.cv := rfl
@[simp] theorem setEngine_fresh (e : Nat) (v : Engine) : (setEngine e v s).fresh = s.fresh := rfl
@[simp] theorem setEngine_shelf (e : Nat) (v : Engine) : (setEngine e v s).shelf = s.shelf := rfl

/-! `modEngine` -/

@[simp] theorem modEngine_pending (e : Nat) (f : Engine → Engine) : (modEngine e f s).pending = s.pending := rfl
@[simp] theorem modEngine_hub (e : Nat) (f : Engine → Engine) : (modEngine e f s).hub = s.hub := rfl
@[simp] theorem modEngine_changes (e : Nat) (f : Engine → Engine) : (modEngine e f s).changes = s.changes := rfl
@[simp] theorem modEngine_csr (e : Nat) (f : Engine → Engine) : (modEngine e f s).csr = s.csr := rfl
@[simp] theorem modEngine_cfgRegs (e : Nat) (f : Engine → Engine) : (modEngine e f s).cfgRegs = s.cfgRegs := rfl
@[simp] theorem modEngine_totals (e : Nat) (f : Engine → Engine) : (modEngine e f s).totals = s.totals := rfl
@[simp] theorem modEngine_cmd (e : Nat) (f : Engine → Engine) : (modEngine e f s).cmd = s.cmd := rfl
@[simp] theorem modEngine_ring (e : Nat) (f : Engine → Engine) : (modEngine e f s).ring = s.ring := rfl
@[simp] theorem modEngine_sw (e : Nat) (f : Engine → Engine) : (modEngine e f s).sw = s.sw := rfl
@[simp] theorem modEngine_master (e : Nat) (f : Engine → Engine) : (modEngine e f s).master = s.master := rfl
@[simp] theorem modEngine_time (e : Nat) (f : Engine → Engine) : (modEngine e f s).time = s.time := rfl
@[simp] theorem modEngine_chans (e : Nat) (f : Engine → Engine) : (modEngine e f s).chans = s.chans := rfl
@[simp] theorem modEngine_maps (e : Nat) (f : Engine → Engine) : (modEngine e f s).maps = s.maps := rfl
@[simp] theorem modEngine_dl (e : Nat) (f : Engine → Engine) : (modEngine e f s).dl = s.dl := rfl
@[simp] theorem modEngine_power (e : Nat) (f : Engine → Engine) : (modEngine e f s).power = s.power := rfl
@[simp] theorem modEngine_reset_ (e : Nat) (f : Engine → Engine) : (modEngine e f s).reset_ = s.reset_ := rfl
@[simp] theorem modEngine_faults (e : Nat) (f : Engine → Engine) : (modEngine e f s).faults = s.faults := rfl
@[simp] theorem modEngine_upd (e : Nat) (f : Engine → Engine) : (modEngine e f s).upd = s.upd := rfl
@[simp] theorem modEngine_cv (e : Nat) (f : Engine → Engine) : (modEngine e f s).cv = s.cv := rfl
@[simp] theorem modEngine_fresh (e : Nat) (f : Engine → Engine) : (modEngine e f s).fresh = s.fresh := rfl
@[simp] theorem modEngine_shelf (e : Nat) (f : Engine → Engine) : (modEngine e f s).shelf = s.shelf := rfl

/-! `setOutlet` -/

@[simp] theorem setOutlet_pending (o : Nat) (v : Outlet) : (setOutlet o v s).pending = s.pending := rfl
@[simp] theorem setOutlet_hub (o : Nat) (v : Outlet) : (setOutlet o v s).hub = s.hub := rfl
@[simp] theorem setOutlet_changes (o : Nat) (v : Outlet) : (setOutlet o v s).changes = s.changes := rfl
@[simp] theorem setOutlet_csr (o : Nat) (v : Outlet) : (setOutlet o v s).csr = s.csr := rfl
@[simp] theorem setOutlet_cfgRegs (o : Nat) (v : Outlet) : (setOutlet o v s).cfgRegs = s.cfgRegs := rfl
@[simp] theorem setOutlet_totals (o : Nat) (v : Outlet) : (setOutlet o v s).totals = s.totals := rfl
@[simp] theorem setOutlet_cmd (o : Nat) (v : Outlet) : (setOutlet o v s).cmd = s.cmd := rfl
@[simp] theorem setOutlet_ring (o : Nat) (v : Outlet) : (setOutlet o v s).ring = s.ring := rfl
@[simp] theorem setOutlet_sw (o : Nat) (v : Outlet) : (setOutlet o v s).sw = s.sw := rfl
@[simp] theorem setOutlet_master (o : Nat) (v : Outlet) : (setOutlet o v s).master = s.master := rfl
@[simp] theorem setOutlet_time (o : Nat) (v : Outlet) : (setOutlet o v s).time = s.time := rfl
@[simp] theorem setOutlet_chans (o : Nat) (v : Outlet) : (setOutlet o v s).chans = s.chans := rfl
@[simp] theorem setOutlet_maps (o : Nat) (v : Outlet) : (setOutlet o v s).maps = s.maps := rfl
@[simp] theorem setOutlet_dl (o : Nat) (v : Outlet) : (setOutlet o v s).dl = s.dl := rfl
@[simp] theorem setOutlet_engines (o : Nat) (v : Outlet) : (setOutlet o v s).engines = s.engines := rfl
@[simp] theorem setOutlet_reset_ (o : Nat) (v : Outlet) : (setOutlet o v s).reset_ = s.reset_ := rfl
@[simp] theorem setOutlet_faults (o : Nat) (v : Outlet) : (setOutlet o v s).faults = s.faults := rfl
@[simp] theorem setOutlet_upd (o : Nat) (v : Outlet) : (setOutlet o v s).upd = s.upd := rfl
@[simp] theorem setOutlet_cv (o : Nat) (v : Outlet) : (setOutlet o v s).cv = s.cv := rfl
@[simp] theorem setOutlet_fresh (o : Nat) (v : Outlet) : (setOutlet o v s).fresh = s.fresh := rfl
@[simp] theorem setOutlet_shelf (o : Nat) (v : Outlet) : (setOutlet o v s).shelf = s.shelf := rfl

/-! `modOutlet` -/

@[simp] theorem modOutlet_pending (o : Nat) (f : Outlet → Outlet) : (modOutlet o f s).pending = s.pending := rfl
@[simp] theorem modOutlet_hub (o : Nat) (f : Outlet → Outlet) : (modOutlet o f s).hub = s.hub := rfl
@[simp] theorem modOutlet_changes (o : Nat) (f : Outlet → Outlet) : (modOutlet o f s).changes = s.changes := rfl
@[simp] theorem modOutlet_csr (o : Nat) (f : Outlet → Outlet) : (modOutlet o f s).csr = s.csr := rfl
@[simp] theorem modOutlet_cfgRegs (o : Nat) (f : Outlet → Outlet) : (modOutlet o f s).cfgRegs = s.cfgRegs := rfl
@[simp] theorem modOutlet_totals (o : Nat) (f : Outlet → Outlet) : (modOutlet o f s).totals = s.totals := rfl
@[simp] theorem modOutlet_cmd (o : Nat) (f : Outlet → Outlet) : (modOutlet o f s).cmd = s.cmd := rfl
@[simp] theorem modOutlet_ring (o : Nat) (f : Outlet → Outlet) : (modOutlet o f s).ring = s.ring := rfl
@[simp] theorem modOutlet_sw (o : Nat) (f : Outlet → Outlet) : (modOutlet o f s).sw = s.sw := rfl
@[simp] theorem modOutlet_master (o : Nat) (f : Outlet → Outlet) : (modOutlet o f s).master = s.master := rfl
@[simp] theorem modOutlet_time (o : Nat) (f : Outlet → Outlet) : (modOutlet o f s).time = s.time := rfl
@[simp] theorem modOutlet_chans (o : Nat) (f : Outlet → Outlet) : (modOutlet o f s).chans = s.chans := rfl
@[simp] theorem modOutlet_maps (o : Nat) (f : Outlet → Outlet) : (modOutlet o f s).maps = s.maps := rfl
@[simp] theorem modOutlet_dl (o : Nat) (f : Outlet → Outlet) : (modOutlet o f s).dl = s.dl := rfl
@[simp] theorem modOutlet_engines (o : Nat) (f : Outlet → Outlet) : (modOutlet o f s).engines = s.engines := rfl
@[simp] theorem modOutlet_reset_ (o : Nat) (f : Outlet → Outlet) : (modOutlet o f s).reset_ = s.reset_ := rfl
@[simp] theorem modOutlet_faults (o : Nat) (f : Outlet → Outlet) : (modOutlet o f s).faults = s.faults := rfl
@[simp] theorem modOutlet_upd (o : Nat) (f : Outlet → Outlet) : (modOutlet o f s).upd = s.upd := rfl
@[simp] theorem modOutlet_cv (o : Nat) (f : Outlet → Outlet) : (modOutlet o f s).cv = s.cv := rfl
@[simp] theorem modOutlet_fresh (o : Nat) (f : Outlet → Outlet) : (modOutlet o f s).fresh = s.fresh := rfl
@[simp] theorem modOutlet_shelf (o : Nat) (f : Outlet → Outlet) : (modOutlet o f s).shelf = s.shelf := rfl

/-! `setLine` -/

@[simp] theorem setLine_pending (l : Nat) (v : Line) : (setLine l v s).pending = s.pending := rfl
@[simp] theorem setLine_hub (l : Nat) (v : Line) : (setLine l v s).hub = s.hub := rfl
@[simp] theorem setLine_changes (l : Nat) (v : Line) : (setLine l v s).changes = s.changes := rfl
@[simp] theorem setLine_csr (l : Nat) (v : Line) : (setLine l v s).csr = s.csr := rfl
@[simp] theorem setLine_cfgRegs (l : Nat) (v : Line) : (setLine l v s).cfgRegs = s.cfgRegs := rfl
@[simp] theorem setLine_totals (l : Nat) (v : Line) : (setLine l v s).totals = s.totals := rfl
@[simp] theorem setLine_cmd (l : Nat) (v : Line) : (setLine l v s).cmd = s.cmd := rfl
@[simp] theorem setLine_ring (l : Nat) (v : Line) : (setLine l v s).ring = s.ring := rfl
@[simp] theorem setLine_sw (l : Nat) (v : Line) : (setLine l v s).sw = s.sw := rfl
@[simp] theorem setLine_master (l : Nat) (v : Line) : (setLine l v s).master = s.master := rfl
@[simp] theorem setLine_time (l : Nat) (v : Line) : (setLine l v s).time = s.time := rfl
@[simp] theorem setLine_chans (l : Nat) (v : Line) : (setLine l v s).chans = s.chans := rfl
@[simp] theorem setLine_maps (l : Nat) (v : Line) : (setLine l v s).maps = s.maps := rfl
@[simp] theorem setLine_engines (l : Nat) (v : Line) : (setLine l v s).engines = s.engines := rfl
@[simp] theorem setLine_power (l : Nat) (v : Line) : (setLine l v s).power = s.power := rfl
@[simp] theorem setLine_reset_ (l : Nat) (v : Line) : (setLine l v s).reset_ = s.reset_ := rfl
@[simp] theorem setLine_faults (l : Nat) (v : Line) : (setLine l v s).faults = s.faults := rfl
@[simp] theorem setLine_upd (l : Nat) (v : Line) : (setLine l v s).upd = s.upd := rfl
@[simp] theorem setLine_cv (l : Nat) (v : Line) : (setLine l v s).cv = s.cv := rfl
@[simp] theorem setLine_fresh (l : Nat) (v : Line) : (setLine l v s).fresh = s.fresh := rfl
@[simp] theorem setLine_shelf (l : Nat) (v : Line) : (setLine l v s).shelf = s.shelf := rfl

/-! `modLine` -/

@[simp] theorem modLine_pending (l : Nat) (f : Line → Line) : (modLine l f s).pending = s.pending := rfl
@[simp] theorem modLine_hub (l : Nat) (f : Line → Line) : (modLine l f s).hub = s.hub := rfl
@[simp] theorem modLine_changes (l : Nat) (f : Line → Line) : (modLine l f s).changes = s.changes := rfl
@[simp] theorem modLine_csr (l : Nat) (f : Line → Line) : (modLine l f s).csr = s.csr := rfl
@[simp] theorem modLine_cfgRegs (l : Nat) (f : Line → Line) : (modLine l f s).cfgRegs = s.cfgRegs := rfl
@[simp] theorem modLine_totals (l : Nat) (f : Line → Line) : (modLine l f s).totals = s.totals := rfl
@[simp] theorem modLine_cmd (l : Nat) (f : Line → Line) : (modLine l f s).cmd = s.cmd := rfl
@[simp] theorem modLine_ring (l : Nat) (f : Line → Line) : (modLine l f s).ring = s.ring := rfl
@[simp] theorem modLine_sw (l : Nat) (f : Line → Line) : (modLine l f s).sw = s.sw := rfl
@[simp] theorem modLine_master (l : Nat) (f : Line → Line) : (modLine l f s).master = s.master := rfl
@[simp] theorem modLine_time (l : Nat) (f : Line → Line) : (modLine l f s).time = s.time := rfl
@[simp] theorem modLine_chans (l : Nat) (f : Line → Line) : (modLine l f s).chans = s.chans := rfl
@[simp] theorem modLine_maps (l : Nat) (f : Line → Line) : (modLine l f s).maps = s.maps := rfl
@[simp] theorem modLine_engines (l : Nat) (f : Line → Line) : (modLine l f s).engines = s.engines := rfl
@[simp] theorem modLine_power (l : Nat) (f : Line → Line) : (modLine l f s).power = s.power := rfl
@[simp] theorem modLine_reset_ (l : Nat) (f : Line → Line) : (modLine l f s).reset_ = s.reset_ := rfl
@[simp] theorem modLine_faults (l : Nat) (f : Line → Line) : (modLine l f s).faults = s.faults := rfl
@[simp] theorem modLine_upd (l : Nat) (f : Line → Line) : (modLine l f s).upd = s.upd := rfl
@[simp] theorem modLine_cv (l : Nat) (f : Line → Line) : (modLine l f s).cv = s.cv := rfl
@[simp] theorem modLine_fresh (l : Nat) (f : Line → Line) : (modLine l f s).fresh = s.fresh := rfl
@[simp] theorem modLine_shelf (l : Nat) (f : Line → Line) : (modLine l f s).shelf = s.shelf := rfl

/-! `modDlBank` -/

@[simp] theorem modDlBank_pending (b : Nat) (f : DlBank → DlBank) : (modDlBank b f s).pending = s.pending := rfl
@[simp] theorem modDlBank_hub (b : Nat) (f : DlBank → DlBank) : (modDlBank b f s).hub = s.hub := rfl
@[simp] theorem modDlBank_changes (b : Nat) (f : DlBank → DlBank) : (modDlBank b f s).changes = s.changes := rfl
@[simp] theorem modDlBank_csr (b : Nat) (f : DlBank → DlBank) : (modDlBank b f s).csr = s.csr := rfl
@[simp] theorem modDlBank_cfgRegs (b : Nat) (f : DlBank → DlBank) : (modDlBank b f s).cfgRegs = s.cfgRegs := rfl
@[simp] theorem modDlBank_totals (b : Nat) (f : DlBank → DlBank) : (modDlBank b f s).totals = s.totals := rfl
@[simp] theorem modDlBank_cmd (b : Nat) (f : DlBank → DlBank) : (modDlBank b f s).cmd = s.cmd := rfl
@[simp] theorem modDlBank_ring (b : Nat) (f : DlBank → DlBank) : (modDlBank b f s).ring = s.ring := rfl
@[simp] theorem modDlBank_sw (b : Nat) (f : DlBank → DlBank) : (modDlBank b f s).sw = s.sw := rfl
@[simp] theorem modDlBank_master (b : Nat) (f : DlBank → DlBank) : (modDlBank b f s).master = s.master := rfl
@[simp] theorem modDlBank_time (b : Nat) (f : DlBank → DlBank) : (modDlBank b f s).time = s.time := rfl
@[simp] theorem modDlBank_chans (b : Nat) (f : DlBank → DlBank) : (modDlBank b f s).chans = s.chans := rfl
@[simp] theorem modDlBank_maps (b : Nat) (f : DlBank → DlBank) : (modDlBank b f s).maps = s.maps := rfl
@[simp] theorem modDlBank_engines (b : Nat) (f : DlBank → DlBank) : (modDlBank b f s).engines = s.engines := rfl
@[simp] theorem modDlBank_power (b : Nat) (f : DlBank → DlBank) : (modDlBank b f s).power = s.power := rfl
@[simp] theorem modDlBank_reset_ (b : Nat) (f : DlBank → DlBank) : (modDlBank b f s).reset_ = s.reset_ := rfl
@[simp] theorem modDlBank_faults (b : Nat) (f : DlBank → DlBank) : (modDlBank b f s).faults = s.faults := rfl
@[simp] theorem modDlBank_upd (b : Nat) (f : DlBank → DlBank) : (modDlBank b f s).upd = s.upd := rfl
@[simp] theorem modDlBank_cv (b : Nat) (f : DlBank → DlBank) : (modDlBank b f s).cv = s.cv := rfl
@[simp] theorem modDlBank_fresh (b : Nat) (f : DlBank → DlBank) : (modDlBank b f s).fresh = s.fresh := rfl
@[simp] theorem modDlBank_shelf (b : Nat) (f : DlBank → DlBank) : (modDlBank b f s).shelf = s.shelf := rfl

/-! `csrPut` -/

@[simp] theorem csrPut_pending (a w : Nat) : (csrPut a w s).pending = s.pending := rfl
@[simp] theorem csrPut_hub (a w : Nat) : (csrPut a w s).hub = s.hub := rfl
@[simp] theorem csrPut_changes (a w : Nat) : (csrPut a w s).changes = s.changes := rfl
@[simp] theorem csrPut_cfgRegs (a w : Nat) : (csrPut a w s).cfgRegs = s.cfgRegs := rfl
@[simp] theorem csrPut_totals (a w : Nat) : (csrPut a w s).totals = s.totals := rfl
@[simp] theorem csrPut_cmd (a w : Nat) : (csrPut a w s).cmd = s.cmd := rfl
@[simp] theorem csrPut_ring (a w : Nat) : (csrPut a w s).ring = s.ring := rfl
@[simp] theorem csrPut_sw (a w : Nat) : (csrPut a w s).sw = s.sw := rfl
@[simp] theorem csrPut_master (a w : Nat) : (csrPut a w s).master = s.master := rfl
@[simp] theorem csrPut_time (a w : Nat) : (csrPut a w s).time = s.time := rfl
@[simp] theorem csrPut_chans (a w : Nat) : (csrPut a w s).chans = s.chans := rfl
@[simp] theorem csrPut_maps (a w : Nat) : (csrPut a w s).maps = s.maps := rfl
@[simp] theorem csrPut_dl (a w : Nat) : (csrPut a w s).dl = s.dl := rfl
@[simp] theorem csrPut_engines (a w : Nat) : (csrPut a w s).engines = s.engines := rfl
@[simp] theorem csrPut_power (a w : Nat) : (csrPut a w s).power = s.power := rfl
@[simp] theorem csrPut_reset_ (a w : Nat) : (csrPut a w s).reset_ = s.reset_ := rfl
@[simp] theorem csrPut_faults (a w : Nat) : (csrPut a w s).faults = s.faults := rfl
@[simp] theorem csrPut_upd (a w : Nat) : (csrPut a w s).upd = s.upd := rfl
@[simp] theorem csrPut_cv (a w : Nat) : (csrPut a w s).cv = s.cv := rfl
@[simp] theorem csrPut_fresh (a w : Nat) : (csrPut a w s).fresh = s.fresh := rfl
@[simp] theorem csrPut_shelf (a w : Nat) : (csrPut a w s).shelf = s.shelf := rfl

/-! `setFld` -/

@[simp] theorem setFld_pending (a lo w v : Nat) : (setFld a lo w v s).pending = s.pending := rfl
@[simp] theorem setFld_hub (a lo w v : Nat) : (setFld a lo w v s).hub = s.hub := rfl
@[simp] theorem setFld_changes (a lo w v : Nat) : (setFld a lo w v s).changes = s.changes := rfl
@[simp] theorem setFld_cfgRegs (a lo w v : Nat) : (setFld a lo w v s).cfgRegs = s.cfgRegs := rfl
@[simp] theorem setFld_totals (a lo w v : Nat) : (setFld a lo w v s).totals = s.totals := rfl
@[simp] theorem setFld_cmd (a lo w v : Nat) : (setFld a lo w v s).cmd = s.cmd := rfl
@[simp] theorem setFld_ring (a lo w v : Nat) : (setFld a lo w v s).ring = s.ring := rfl
@[simp] theorem setFld_sw (a lo w v : Nat) : (setFld a lo w v s).sw = s.sw := rfl
@[simp] theorem setFld_master (a lo w v : Nat) : (setFld a lo w v s).master = s.master := rfl
@[simp] theorem setFld_time (a lo w v : Nat) : (setFld a lo w v s).time = s.time := rfl
@[simp] theorem setFld_chans (a lo w v : Nat) : (setFld a lo w v s).chans = s.chans := rfl
@[simp] theorem setFld_maps (a lo w v : Nat) : (setFld a lo w v s).maps = s.maps := rfl
@[simp] theorem setFld_dl (a lo w v : Nat) : (setFld a lo w v s).dl = s.dl := rfl
@[simp] theorem setFld_engines (a lo w v : Nat) : (setFld a lo w v s).engines = s.engines := rfl
@[simp] theorem setFld_power (a lo w v : Nat) : (setFld a lo w v s).power = s.power := rfl
@[simp] theorem setFld_reset_ (a lo w v : Nat) : (setFld a lo w v s).reset_ = s.reset_ := rfl
@[simp] theorem setFld_faults (a lo w v : Nat) : (setFld a lo w v s).faults = s.faults := rfl
@[simp] theorem setFld_upd (a lo w v : Nat) : (setFld a lo w v s).upd = s.upd := rfl
@[simp] theorem setFld_cv (a lo w v : Nat) : (setFld a lo w v s).cv = s.cv := rfl
@[simp] theorem setFld_fresh (a lo w v : Nat) : (setFld a lo w v s).fresh = s.fresh := rfl
@[simp] theorem setFld_shelf (a lo w v : Nat) : (setFld a lo w v s).shelf = s.shelf := rfl

/-! `sysErr` -/

@[simp] theorem sysErr_pending (i : Nat) : (sysErr i s).pending = s.pending := rfl
@[simp] theorem sysErr_hub (i : Nat) : (sysErr i s).hub = s.hub := rfl
@[simp] theorem sysErr_changes (i : Nat) : (sysErr i s).changes = s.changes := rfl
@[simp] theorem sysErr_cfgRegs (i : Nat) : (sysErr i s).cfgRegs = s.cfgRegs := rfl
@[simp] theorem sysErr_totals (i : Nat) : (sysErr i s).totals = s.totals := rfl
@[simp] theorem sysErr_cmd (i : Nat) : (sysErr i s).cmd = s.cmd := rfl
@[simp] theorem sysErr_ring (i : Nat) : (sysErr i s).ring = s.ring := rfl
@[simp] theorem sysErr_sw (i : Nat) : (sysErr i s).sw = s.sw := rfl
@[simp] theorem sysErr_master (i : Nat) : (sysErr i s).master = s.master := rfl
@[simp] theorem sysErr_time (i : Nat) : (sysErr i s).time = s.time := rfl
@[simp] theorem sysErr_chans (i : Nat) : (sysErr i s).chans = s.chans := rfl
@[simp] theorem sysErr_maps (i : Nat) : (sysErr i s).maps = s.maps := rfl
@[simp] theorem sysErr_dl (i : Nat) : (sysErr i s).dl = s.dl := rfl
@[simp] theorem sysErr_engines (i : Nat) : (sysErr i s).engines = s.engines := rfl
@[simp] theorem sysErr_power (i : Nat) : (sysErr i s).power = s.power := rfl
@[simp] theorem sysErr_reset_ (i : Nat) : (sysErr i s).reset_ = s.reset_ := rfl
@[simp] theorem sysErr_faults (i : Nat) : (sysErr i s).faults = s.faults := rfl
@[simp] theorem sysErr_upd (i : Nat) : (sysErr i s).upd = s.upd := rfl
@[simp] theorem sysErr_cv (i : Nat) : (sysErr i s).cv = s.cv := rfl
@[simp] theorem sysErr_fresh (i : Nat) : (sysErr i s).fresh = s.fresh := rfl
@[simp] theorem sysErr_shelf (i : Nat) : (sysErr i s).shelf = s.shelf := rfl

/-! `bumpBy` -/

@[simp] theorem bumpBy_pending (a n : Nat) : (bumpBy a n s).pending = s.pending := rfl
@[simp] theorem bumpBy_hub (a n : Nat) : (bumpBy a n s).hub = s.hub := rfl
@[simp] theorem bumpBy_changes (a n : Nat) : (bumpBy a n s).changes = s.changes := rfl
@[simp] theorem bumpBy_cfgRegs (a n : Nat) : (bumpBy a n s).cfgRegs = s.cfgRegs := rfl
@[simp] theorem bumpBy_cmd (a n : Nat) : (bumpBy a n s).cmd = s.cmd := rfl
@[simp] theorem bumpBy_ring (a n : Nat) : (bumpBy a n s).ring = s.ring := rfl
@[simp] theorem bumpBy_sw (a n : Nat) : (bumpBy a n s).sw = s.sw := rfl
@[simp] theorem bumpBy_master (a n : Nat) : (bumpBy a n s).master = s.master := rfl
@[simp] theorem bumpBy_time (a n : Nat) : (bumpBy a n s).time = s.time := rfl
@[simp] theorem bumpBy_chans (a n : Nat) : (bumpBy a n s).chans = s.chans := rfl
@[simp] theorem bumpBy_maps (a n : Nat) : (bumpBy a n s).maps = s.maps := rfl
@[simp] theorem bumpBy_dl (a n : Nat) : (bumpBy a n s).dl = s.dl := rfl
@[simp] theorem bumpBy_engines (a n : Nat) : (bumpBy a n s).engines = s.engines := rfl
@[simp] theorem bumpBy_power (a n : Nat) : (bumpBy a n s).power = s.power := rfl
@[simp] theorem bumpBy_reset_ (a n : Nat) : (bumpBy a n s).reset_ = s.reset_ := rfl
@[simp] theorem bumpBy_faults (a n : Nat) : (bumpBy a n s).faults = s.faults := rfl
@[simp] theorem bumpBy_upd (a n : Nat) : (bumpBy a n s).upd = s.upd := rfl
@[simp] theorem bumpBy_cv (a n : Nat) : (bumpBy a n s).cv = s.cv := rfl
@[simp] theorem bumpBy_fresh (a n : Nat) : (bumpBy a n s).fresh = s.fresh := rfl
@[simp] theorem bumpBy_shelf (a n : Nat) : (bumpBy a n s).shelf = s.shelf := rfl

/-! `bump` -/

@[simp] theorem bump_pending (a : Nat) : (bump a s).pending = s.pending := rfl
@[simp] theorem bump_hub (a : Nat) : (bump a s).hub = s.hub := rfl
@[simp] theorem bump_changes (a : Nat) : (bump a s).changes = s.changes := rfl
@[simp] theorem bump_cfgRegs (a : Nat) : (bump a s).cfgRegs = s.cfgRegs := rfl
@[simp] theorem bump_cmd (a : Nat) : (bump a s).cmd = s.cmd := rfl
@[simp] theorem bump_ring (a : Nat) : (bump a s).ring = s.ring := rfl
@[simp] theorem bump_sw (a : Nat) : (bump a s).sw = s.sw := rfl
@[simp] theorem bump_master (a : Nat) : (bump a s).master = s.master := rfl
@[simp] theorem bump_time (a : Nat) : (bump a s).time = s.time := rfl
@[simp] theorem bump_chans (a : Nat) : (bump a s).chans = s.chans := rfl
@[simp] theorem bump_maps (a : Nat) : (bump a s).maps = s.maps := rfl
@[simp] theorem bump_dl (a : Nat) : (bump a s).dl = s.dl := rfl
@[simp] theorem bump_engines (a : Nat) : (bump a s).engines = s.engines := rfl
@[simp] theorem bump_power (a : Nat) : (bump a s).power = s.power := rfl
@[simp] theorem bump_reset_ (a : Nat) : (bump a s).reset_ = s.reset_ := rfl
@[simp] theorem bump_faults (a : Nat) : (bump a s).faults = s.faults := rfl
@[simp] theorem bump_upd (a : Nat) : (bump a s).upd = s.upd := rfl
@[simp] theorem bump_cv (a : Nat) : (bump a s).cv = s.cv := rfl
@[simp] theorem bump_fresh (a : Nat) : (bump a s).fresh = s.fresh := rfl
@[simp] theorem bump_shelf (a : Nat) : (bump a s).shelf = s.shelf := rfl

/-! `modSrc` -/

@[simp] theorem modSrc_pending (c : Nat) (f : Source → Source) : (modSrc c f s).pending = s.pending := rfl
@[simp] theorem modSrc_hub (c : Nat) (f : Source → Source) : (modSrc c f s).hub = s.hub := rfl
@[simp] theorem modSrc_changes (c : Nat) (f : Source → Source) : (modSrc c f s).changes = s.changes := rfl
@[simp] theorem modSrc_csr (c : Nat) (f : Source → Source) : (modSrc c f s).csr = s.csr := rfl
@[simp] theorem modSrc_cfgRegs (c : Nat) (f : Source → Source) : (modSrc c f s).cfgRegs = s.cfgRegs := rfl
@[simp] theorem modSrc_totals (c : Nat) (f : Source → Source) : (modSrc c f s).totals = s.totals := rfl
@[simp] theorem modSrc_cmd (c : Nat) (f : Source → Source) : (modSrc c f s).cmd = s.cmd := rfl
@[simp] theorem modSrc_ring (c : Nat) (f : Source → Source) : (modSrc c f s).ring = s.ring := rfl
@[simp] theorem modSrc_sw (c : Nat) (f : Source → Source) : (modSrc c f s).sw = s.sw := rfl
@[simp] theorem modSrc_master (c : Nat) (f : Source → Source) : (modSrc c f s).master = s.master := rfl
@[simp] theorem modSrc_time (c : Nat) (f : Source → Source) : (modSrc c f s).time = s.time := rfl
@[simp] theorem modSrc_chans (c : Nat) (f : Source → Source) : (modSrc c f s).chans = s.chans := rfl
@[simp] theorem modSrc_maps (c : Nat) (f : Source → Source) : (modSrc c f s).maps = s.maps := rfl
@[simp] theorem modSrc_dl (c : Nat) (f : Source → Source) : (modSrc c f s).dl = s.dl := rfl
@[simp] theorem modSrc_engines (c : Nat) (f : Source → Source) : (modSrc c f s).engines = s.engines := rfl
@[simp] theorem modSrc_power (c : Nat) (f : Source → Source) : (modSrc c f s).power = s.power := rfl
@[simp] theorem modSrc_reset_ (c : Nat) (f : Source → Source) : (modSrc c f s).reset_ = s.reset_ := rfl
@[simp] theorem modSrc_upd (c : Nat) (f : Source → Source) : (modSrc c f s).upd = s.upd := rfl
@[simp] theorem modSrc_cv (c : Nat) (f : Source → Source) : (modSrc c f s).cv = s.cv := rfl
@[simp] theorem modSrc_fresh (c : Nat) (f : Source → Source) : (modSrc c f s).fresh = s.fresh := rfl
@[simp] theorem modSrc_shelf (c : Nat) (f : Source → Source) : (modSrc c f s).shelf = s.shelf := rfl

/-! `emit` -/

@[simp] theorem emit_pending (c : Nat) (ps : List Byte) : (emit c ps s).pending = s.pending := rfl
@[simp] theorem emit_hub (c : Nat) (ps : List Byte) : (emit c ps s).hub = s.hub := rfl
@[simp] theorem emit_changes (c : Nat) (ps : List Byte) : (emit c ps s).changes = s.changes := rfl
@[simp] theorem emit_cfgRegs (c : Nat) (ps : List Byte) : (emit c ps s).cfgRegs = s.cfgRegs := rfl
@[simp] theorem emit_ring (c : Nat) (ps : List Byte) : (emit c ps s).ring = s.ring := rfl
@[simp] theorem emit_sw (c : Nat) (ps : List Byte) : (emit c ps s).sw = s.sw := rfl
@[simp] theorem emit_master (c : Nat) (ps : List Byte) : (emit c ps s).master = s.master := rfl
@[simp] theorem emit_time (c : Nat) (ps : List Byte) : (emit c ps s).time = s.time := rfl
@[simp] theorem emit_chans (c : Nat) (ps : List Byte) : (emit c ps s).chans = s.chans := rfl
@[simp] theorem emit_maps (c : Nat) (ps : List Byte) : (emit c ps s).maps = s.maps := rfl
@[simp] theorem emit_dl (c : Nat) (ps : List Byte) : (emit c ps s).dl = s.dl := rfl
@[simp] theorem emit_engines (c : Nat) (ps : List Byte) : (emit c ps s).engines = s.engines := rfl
@[simp] theorem emit_power (c : Nat) (ps : List Byte) : (emit c ps s).power = s.power := rfl
@[simp] theorem emit_reset_ (c : Nat) (ps : List Byte) : (emit c ps s).reset_ = s.reset_ := rfl
@[simp] theorem emit_faults (c : Nat) (ps : List Byte) : (emit c ps s).faults = s.faults := rfl
@[simp] theorem emit_upd (c : Nat) (ps : List Byte) : (emit c ps s).upd = s.upd := rfl
@[simp] theorem emit_cv (c : Nat) (ps : List Byte) : (emit c ps s).cv = s.cv := rfl
@[simp] theorem emit_fresh (c : Nat) (ps : List Byte) : (emit c ps s).fresh = s.fresh := rfl
@[simp] theorem emit_shelf (c : Nat) (ps : List Byte) : (emit c ps s).shelf = s.shelf := rfl

/-! `complete` -/

@[simp] theorem complete_pending (se : Nat) (tag : Tag) (st : Status) (res : List Byte) : (complete se tag st res s).pending = s.pending := rfl
@[simp] theorem complete_hub (se : Nat) (tag : Tag) (st : Status) (res : List Byte) : (complete se tag st res s).hub = s.hub := rfl
@[simp] theorem complete_changes (se : Nat) (tag : Tag) (st : Status) (res : List Byte) : (complete se tag st res s).changes = s.changes := rfl
@[simp] theorem complete_csr (se : Nat) (tag : Tag) (st : Status) (res : List Byte) : (complete se tag st res s).csr = s.csr := rfl
@[simp] theorem complete_cfgRegs (se : Nat) (tag : Tag) (st : Status) (res : List Byte) : (complete se tag st res s).cfgRegs = s.cfgRegs := rfl
@[simp] theorem complete_totals (se : Nat) (tag : Tag) (st : Status) (res : List Byte) : (complete se tag st res s).totals = s.totals := rfl
@[simp] theorem complete_ring (se : Nat) (tag : Tag) (st : Status) (res : List Byte) : (complete se tag st res s).ring = s.ring := rfl
@[simp] theorem complete_sw (se : Nat) (tag : Tag) (st : Status) (res : List Byte) : (complete se tag st res s).sw = s.sw := rfl
@[simp] theorem complete_master (se : Nat) (tag : Tag) (st : Status) (res : List Byte) : (complete se tag st res s).master = s.master := rfl
@[simp] theorem complete_time (se : Nat) (tag : Tag) (st : Status) (res : List Byte) : (complete se tag st res s).time = s.time := rfl
@[simp] theorem complete_chans (se : Nat) (tag : Tag) (st : Status) (res : List Byte) : (complete se tag st res s).chans = s.chans := rfl
@[simp] theorem complete_maps (se : Nat) (tag : Tag) (st : Status) (res : List Byte) : (complete se tag st res s).maps = s.maps := rfl
@[simp] theorem complete_dl (se : Nat) (tag : Tag) (st : Status) (res : List Byte) : (complete se tag st res s).dl = s.dl := rfl
@[simp] theorem complete_engines (se : Nat) (tag : Tag) (st : Status) (res : List Byte) : (complete se tag st res s).engines = s.engines := rfl
@[simp] theorem complete_power (se : Nat) (tag : Tag) (st : Status) (res : List Byte) : (complete se tag st res s).power = s.power := rfl
@[simp] theorem complete_reset_ (se : Nat) (tag : Tag) (st : Status) (res : List Byte) : (complete se tag st res s).reset_ = s.reset_ := rfl
@[simp] theorem complete_faults (se : Nat) (tag : Tag) (st : Status) (res : List Byte) : (complete se tag st res s).faults = s.faults := rfl
@[simp] theorem complete_upd (se : Nat) (tag : Tag) (st : Status) (res : List Byte) : (complete se tag st res s).upd = s.upd := rfl
@[simp] theorem complete_cv (se : Nat) (tag : Tag) (st : Status) (res : List Byte) : (complete se tag st res s).cv = s.cv := rfl
@[simp] theorem complete_fresh (se : Nat) (tag : Tag) (st : Status) (res : List Byte) : (complete se tag st res s).fresh = s.fresh := rfl
@[simp] theorem complete_shelf (se : Nat) (tag : Tag) (st : Status) (res : List Byte) : (complete se tag st res s).shelf = s.shelf := rfl

/-! `modSession` -/

@[simp] theorem modSession_pending (n : Nat) (f : Session → Session) : (modSession n f s).pending = s.pending := rfl
@[simp] theorem modSession_hub (n : Nat) (f : Session → Session) : (modSession n f s).hub = s.hub := rfl
@[simp] theorem modSession_changes (n : Nat) (f : Session → Session) : (modSession n f s).changes = s.changes := rfl
@[simp] theorem modSession_csr (n : Nat) (f : Session → Session) : (modSession n f s).csr = s.csr := rfl
@[simp] theorem modSession_cfgRegs (n : Nat) (f : Session → Session) : (modSession n f s).cfgRegs = s.cfgRegs := rfl
@[simp] theorem modSession_totals (n : Nat) (f : Session → Session) : (modSession n f s).totals = s.totals := rfl
@[simp] theorem modSession_ring (n : Nat) (f : Session → Session) : (modSession n f s).ring = s.ring := rfl
@[simp] theorem modSession_sw (n : Nat) (f : Session → Session) : (modSession n f s).sw = s.sw := rfl
@[simp] theorem modSession_master (n : Nat) (f : Session → Session) : (modSession n f s).master = s.master := rfl
@[simp] theorem modSession_time (n : Nat) (f : Session → Session) : (modSession n f s).time = s.time := rfl
@[simp] theorem modSession_chans (n : Nat) (f : Session → Session) : (modSession n f s).chans = s.chans := rfl
@[simp] theorem modSession_maps (n : Nat) (f : Session → Session) : (modSession n f s).maps = s.maps := rfl
@[simp] theorem modSession_dl (n : Nat) (f : Session → Session) : (modSession n f s).dl = s.dl := rfl
@[simp] theorem modSession_engines (n : Nat) (f : Session → Session) : (modSession n f s).engines = s.engines := rfl
@[simp] theorem modSession_power (n : Nat) (f : Session → Session) : (modSession n f s).power = s.power := rfl
@[simp] theorem modSession_reset_ (n : Nat) (f : Session → Session) : (modSession n f s).reset_ = s.reset_ := rfl
@[simp] theorem modSession_faults (n : Nat) (f : Session → Session) : (modSession n f s).faults = s.faults := rfl
@[simp] theorem modSession_upd (n : Nat) (f : Session → Session) : (modSession n f s).upd = s.upd := rfl
@[simp] theorem modSession_cv (n : Nat) (f : Session → Session) : (modSession n f s).cv = s.cv := rfl
@[simp] theorem modSession_fresh (n : Nat) (f : Session → Session) : (modSession n f s).fresh = s.fresh := rfl
@[simp] theorem modSession_shelf (n : Nat) (f : Session → Session) : (modSession n f s).shelf = s.shelf := rfl

/-! `setPort` -/

@[simp] theorem setPort_pending (p : Port) (v : PortSt) : (setPort p v s).pending = s.pending := by cases p <;> rfl
@[simp] theorem setPort_hub (p : Port) (v : PortSt) : (setPort p v s).hub = s.hub := by cases p <;> rfl
@[simp] theorem setPort_changes (p : Port) (v : PortSt) : (setPort p v s).changes = s.changes := by cases p <;> rfl
@[simp] theorem setPort_csr (p : Port) (v : PortSt) : (setPort p v s).csr = s.csr := by cases p <;> rfl
@[simp] theorem setPort_cfgRegs (p : Port) (v : PortSt) : (setPort p v s).cfgRegs = s.cfgRegs := by cases p <;> rfl
@[simp] theorem setPort_totals (p : Port) (v : PortSt) : (setPort p v s).totals = s.totals := by cases p <;> rfl
@[simp] theorem setPort_cmd (p : Port) (v : PortSt) : (setPort p v s).cmd = s.cmd := by cases p <;> rfl
@[simp] theorem setPort_sw (p : Port) (v : PortSt) : (setPort p v s).sw = s.sw := by cases p <;> rfl
@[simp] theorem setPort_master (p : Port) (v : PortSt) : (setPort p v s).master = s.master := by cases p <;> rfl
@[simp] theorem setPort_time (p : Port) (v : PortSt) : (setPort p v s).time = s.time := by cases p <;> rfl
@[simp] theorem setPort_chans (p : Port) (v : PortSt) : (setPort p v s).chans = s.chans := by cases p <;> rfl
@[simp] theorem setPort_maps (p : Port) (v : PortSt) : (setPort p v s).maps = s.maps := by cases p <;> rfl
@[simp] theorem setPort_dl (p : Port) (v : PortSt) : (setPort p v s).dl = s.dl := by cases p <;> rfl
@[simp] theorem setPort_engines (p : Port) (v : PortSt) : (setPort p v s).engines = s.engines := by cases p <;> rfl
@[simp] theorem setPort_power (p : Port) (v : PortSt) : (setPort p v s).power = s.power := by cases p <;> rfl
@[simp] theorem setPort_reset_ (p : Port) (v : PortSt) : (setPort p v s).reset_ = s.reset_ := by cases p <;> rfl
@[simp] theorem setPort_faults (p : Port) (v : PortSt) : (setPort p v s).faults = s.faults := by cases p <;> rfl
@[simp] theorem setPort_upd (p : Port) (v : PortSt) : (setPort p v s).upd = s.upd := by cases p <;> rfl
@[simp] theorem setPort_cv (p : Port) (v : PortSt) : (setPort p v s).cv = s.cv := by cases p <;> rfl
@[simp] theorem setPort_fresh (p : Port) (v : PortSt) : (setPort p v s).fresh = s.fresh := by cases p <;> rfl
@[simp] theorem setPort_shelf (p : Port) (v : PortSt) : (setPort p v s).shelf = s.shelf := by cases p <;> rfl

/-! `modPort` -/

@[simp] theorem modPort_pending (p : Port) (f : PortSt → PortSt) : (modPort p f s).pending = s.pending := by cases p <;> rfl
@[simp] theorem modPort_hub (p : Port) (f : PortSt → PortSt) : (modPort p f s).hub = s.hub := by cases p <;> rfl
@[simp] theorem modPort_changes (p : Port) (f : PortSt → PortSt) : (modPort p f s).changes = s.changes := by cases p <;> rfl
@[simp] theorem modPort_csr (p : Port) (f : PortSt → PortSt) : (modPort p f s).csr = s.csr := by cases p <;> rfl
@[simp] theorem modPort_cfgRegs (p : Port) (f : PortSt → PortSt) : (modPort p f s).cfgRegs = s.cfgRegs := by cases p <;> rfl
@[simp] theorem modPort_totals (p : Port) (f : PortSt → PortSt) : (modPort p f s).totals = s.totals := by cases p <;> rfl
@[simp] theorem modPort_cmd (p : Port) (f : PortSt → PortSt) : (modPort p f s).cmd = s.cmd := by cases p <;> rfl
@[simp] theorem modPort_sw (p : Port) (f : PortSt → PortSt) : (modPort p f s).sw = s.sw := by cases p <;> rfl
@[simp] theorem modPort_master (p : Port) (f : PortSt → PortSt) : (modPort p f s).master = s.master := by cases p <;> rfl
@[simp] theorem modPort_time (p : Port) (f : PortSt → PortSt) : (modPort p f s).time = s.time := by cases p <;> rfl
@[simp] theorem modPort_chans (p : Port) (f : PortSt → PortSt) : (modPort p f s).chans = s.chans := by cases p <;> rfl
@[simp] theorem modPort_maps (p : Port) (f : PortSt → PortSt) : (modPort p f s).maps = s.maps := by cases p <;> rfl
@[simp] theorem modPort_dl (p : Port) (f : PortSt → PortSt) : (modPort p f s).dl = s.dl := by cases p <;> rfl
@[simp] theorem modPort_engines (p : Port) (f : PortSt → PortSt) : (modPort p f s).engines = s.engines := by cases p <;> rfl
@[simp] theorem modPort_power (p : Port) (f : PortSt → PortSt) : (modPort p f s).power = s.power := by cases p <;> rfl
@[simp] theorem modPort_reset_ (p : Port) (f : PortSt → PortSt) : (modPort p f s).reset_ = s.reset_ := by cases p <;> rfl
@[simp] theorem modPort_faults (p : Port) (f : PortSt → PortSt) : (modPort p f s).faults = s.faults := by cases p <;> rfl
@[simp] theorem modPort_upd (p : Port) (f : PortSt → PortSt) : (modPort p f s).upd = s.upd := by cases p <;> rfl
@[simp] theorem modPort_cv (p : Port) (f : PortSt → PortSt) : (modPort p f s).cv = s.cv := by cases p <;> rfl
@[simp] theorem modPort_fresh (p : Port) (f : PortSt → PortSt) : (modPort p f s).fresh = s.fresh := by cases p <;> rfl
@[simp] theorem modPort_shelf (p : Port) (f : PortSt → PortSt) : (modPort p f s).shelf = s.shelf := by cases p <;> rfl

/-! `onlyIf` -/

@[simp] theorem onlyIf_true (f : State → State) : onlyIf true f s = f s := rfl
@[simp] theorem onlyIf_false (f : State → State) : onlyIf false f s = s := rfl
theorem onlyIf_pending (b : Bool) (f : State → State) (h : (f s).pending = s.pending) : (onlyIf b f s).pending = s.pending := by cases b <;> simp [h]
theorem onlyIf_hub (b : Bool) (f : State → State) (h : (f s).hub = s.hub) : (onlyIf b f s).hub = s.hub := by cases b <;> simp [h]
theorem onlyIf_changes (b : Bool) (f : State → State) (h : (f s).changes = s.changes) : (onlyIf b f s).changes = s.changes := by cases b <;> simp [h]
theorem onlyIf_csr (b : Bool) (f : State → State) (h : (f s).csr = s.csr) : (onlyIf b f s).csr = s.csr := by cases b <;> simp [h]
theorem onlyIf_cfgRegs (b : Bool) (f : State → State) (h : (f s).cfgRegs = s.cfgRegs) : (onlyIf b f s).cfgRegs = s.cfgRegs := by cases b <;> simp [h]
theorem onlyIf_totals (b : Bool) (f : State → State) (h : (f s).totals = s.totals) : (onlyIf b f s).totals = s.totals := by cases b <;> simp [h]
theorem onlyIf_cmd (b : Bool) (f : State → State) (h : (f s).cmd = s.cmd) : (onlyIf b f s).cmd = s.cmd := by cases b <;> simp [h]
theorem onlyIf_ring (b : Bool) (f : State → State) (h : (f s).ring = s.ring) : (onlyIf b f s).ring = s.ring := by cases b <;> simp [h]
theorem onlyIf_sw (b : Bool) (f : State → State) (h : (f s).sw = s.sw) : (onlyIf b f s).sw = s.sw := by cases b <;> simp [h]
theorem onlyIf_master (b : Bool) (f : State → State) (h : (f s).master = s.master) : (onlyIf b f s).master = s.master := by cases b <;> simp [h]
theorem onlyIf_time (b : Bool) (f : State → State) (h : (f s).time = s.time) : (onlyIf b f s).time = s.time := by cases b <;> simp [h]
theorem onlyIf_chans (b : Bool) (f : State → State) (h : (f s).chans = s.chans) : (onlyIf b f s).chans = s.chans := by cases b <;> simp [h]
theorem onlyIf_maps (b : Bool) (f : State → State) (h : (f s).maps = s.maps) : (onlyIf b f s).maps = s.maps := by cases b <;> simp [h]
theorem onlyIf_dl (b : Bool) (f : State → State) (h : (f s).dl = s.dl) : (onlyIf b f s).dl = s.dl := by cases b <;> simp [h]
theorem onlyIf_engines (b : Bool) (f : State → State) (h : (f s).engines = s.engines) : (onlyIf b f s).engines = s.engines := by cases b <;> simp [h]
theorem onlyIf_power (b : Bool) (f : State → State) (h : (f s).power = s.power) : (onlyIf b f s).power = s.power := by cases b <;> simp [h]
theorem onlyIf_reset_ (b : Bool) (f : State → State) (h : (f s).reset_ = s.reset_) : (onlyIf b f s).reset_ = s.reset_ := by cases b <;> simp [h]
theorem onlyIf_faults (b : Bool) (f : State → State) (h : (f s).faults = s.faults) : (onlyIf b f s).faults = s.faults := by cases b <;> simp [h]
theorem onlyIf_upd (b : Bool) (f : State → State) (h : (f s).upd = s.upd) : (onlyIf b f s).upd = s.upd := by cases b <;> simp [h]
theorem onlyIf_cv (b : Bool) (f : State → State) (h : (f s).cv = s.cv) : (onlyIf b f s).cv = s.cv := by cases b <;> simp [h]
theorem onlyIf_fresh (b : Bool) (f : State → State) (h : (f s).fresh = s.fresh) : (onlyIf b f s).fresh = s.fresh := by cases b <;> simp [h]
theorem onlyIf_shelf (b : Bool) (f : State → State) (h : (f s).shelf = s.shelf) : (onlyIf b f s).shelf = s.shelf := by cases b <;> simp [h]

/-! Fault detections -/

theorem field_ite {α : Type} (g : State → α) (c : Prop) [Decidable c] (a b : State) (x : α) (ha : g a = x) (hb : g b = x) :
    g (if c then a else b) = x := by split <;> assumption

@[simp] theorem mergeInto_pending (c i : Nat) (r : Report) (q : Bool) : (mergeInto c i r q s).pending = s.pending := field_ite State.pending _ _ _ _ rfl rfl
@[simp] theorem mergeInto_hub (c i : Nat) (r : Report) (q : Bool) : (mergeInto c i r q s).hub = s.hub := field_ite State.hub _ _ _ _ rfl rfl
@[simp] theorem mergeInto_changes (c i : Nat) (r : Report) (q : Bool) : (mergeInto c i r q s).changes = s.changes := field_ite State.changes _ _ _ _ rfl rfl
@[simp] theorem mergeInto_cfgRegs (c i : Nat) (r : Report) (q : Bool) : (mergeInto c i r q s).cfgRegs = s.cfgRegs := field_ite State.cfgRegs _ _ _ _ rfl rfl
@[simp] theorem mergeInto_cmd (c i : Nat) (r : Report) (q : Bool) : (mergeInto c i r q s).cmd = s.cmd := field_ite State.cmd _ _ _ _ rfl rfl
@[simp] theorem mergeInto_ring (c i : Nat) (r : Report) (q : Bool) : (mergeInto c i r q s).ring = s.ring := field_ite State.ring _ _ _ _ rfl rfl
@[simp] theorem mergeInto_sw (c i : Nat) (r : Report) (q : Bool) : (mergeInto c i r q s).sw = s.sw := field_ite State.sw _ _ _ _ rfl rfl
@[simp] theorem mergeInto_master (c i : Nat) (r : Report) (q : Bool) : (mergeInto c i r q s).master = s.master := field_ite State.master _ _ _ _ rfl rfl
@[simp] theorem mergeInto_time (c i : Nat) (r : Report) (q : Bool) : (mergeInto c i r q s).time = s.time := field_ite State.time _ _ _ _ rfl rfl
@[simp] theorem mergeInto_chans (c i : Nat) (r : Report) (q : Bool) : (mergeInto c i r q s).chans = s.chans := field_ite State.chans _ _ _ _ rfl rfl
@[simp] theorem mergeInto_maps (c i : Nat) (r : Report) (q : Bool) : (mergeInto c i r q s).maps = s.maps := field_ite State.maps _ _ _ _ rfl rfl
@[simp] theorem mergeInto_dl (c i : Nat) (r : Report) (q : Bool) : (mergeInto c i r q s).dl = s.dl := field_ite State.dl _ _ _ _ rfl rfl
@[simp] theorem mergeInto_engines (c i : Nat) (r : Report) (q : Bool) : (mergeInto c i r q s).engines = s.engines := field_ite State.engines _ _ _ _ rfl rfl
@[simp] theorem mergeInto_power (c i : Nat) (r : Report) (q : Bool) : (mergeInto c i r q s).power = s.power := field_ite State.power _ _ _ _ rfl rfl
@[simp] theorem mergeInto_reset_ (c i : Nat) (r : Report) (q : Bool) : (mergeInto c i r q s).reset_ = s.reset_ := field_ite State.reset_ _ _ _ _ rfl rfl
@[simp] theorem mergeInto_upd (c i : Nat) (r : Report) (q : Bool) : (mergeInto c i r q s).upd = s.upd := field_ite State.upd _ _ _ _ rfl rfl
@[simp] theorem mergeInto_cv (c i : Nat) (r : Report) (q : Bool) : (mergeInto c i r q s).cv = s.cv := field_ite State.cv _ _ _ _ rfl rfl
@[simp] theorem mergeInto_fresh (c i : Nat) (r : Report) (q : Bool) : (mergeInto c i r q s).fresh = s.fresh := field_ite State.fresh _ _ _ _ rfl rfl
@[simp] theorem mergeInto_shelf (c i : Nat) (r : Report) (q : Bool) : (mergeInto c i r q s).shelf = s.shelf := field_ite State.shelf _ _ _ _ rfl rfl
@[simp] theorem newRecord_pending (c k : Nat) (r : Report) (q : Bool) : (newRecord c k r q s).pending = s.pending := by
  unfold newRecord; dsimp only; simp only [bump_pending, modSrc_pending, modFaults_pending]; exact onlyIf_pending _ _ _ rfl
@[simp] theorem newRecord_hub (c k : Nat) (r : Report) (q : Bool) : (newRecord c k r q s).hub = s.hub := by
  unfold newRecord; dsimp only; simp only [bump_hub, modSrc_hub, modFaults_hub]; exact onlyIf_hub _ _ _ rfl
@[simp] theorem newRecord_changes (c k : Nat) (r : Report) (q : Bool) : (newRecord c k r q s).changes = s.changes := by
  unfold newRecord; dsimp only; simp only [bump_changes, modSrc_changes, modFaults_changes]; exact onlyIf_changes _ _ _ rfl
@[simp] theorem newRecord_cfgRegs (c k : Nat) (r : Report) (q : Bool) : (newRecord c k r q s).cfgRegs = s.cfgRegs := by
  unfold newRecord; dsimp only; simp only [bump_cfgRegs, modSrc_cfgRegs, modFaults_cfgRegs]; exact onlyIf_cfgRegs _ _ _ rfl
@[simp] theorem newRecord_cmd (c k : Nat) (r : Report) (q : Bool) : (newRecord c k r q s).cmd = s.cmd := by
  unfold newRecord; dsimp only; simp only [bump_cmd, modSrc_cmd, modFaults_cmd]; exact onlyIf_cmd _ _ _ rfl
@[simp] theorem newRecord_ring (c k : Nat) (r : Report) (q : Bool) : (newRecord c k r q s).ring = s.ring := by
  unfold newRecord; dsimp only; simp only [bump_ring, modSrc_ring, modFaults_ring]; exact onlyIf_ring _ _ _ rfl
@[simp] theorem newRecord_sw (c k : Nat) (r : Report) (q : Bool) : (newRecord c k r q s).sw = s.sw := by
  unfold newRecord; dsimp only; simp only [bump_sw, modSrc_sw, modFaults_sw]; exact onlyIf_sw _ _ _ rfl
@[simp] theorem newRecord_master (c k : Nat) (r : Report) (q : Bool) : (newRecord c k r q s).master = s.master := by
  unfold newRecord; dsimp only; simp only [bump_master, modSrc_master, modFaults_master]; exact onlyIf_master _ _ _ rfl
@[simp] theorem newRecord_time (c k : Nat) (r : Report) (q : Bool) : (newRecord c k r q s).time = s.time := by
  unfold newRecord; dsimp only; simp only [bump_time, modSrc_time, modFaults_time]; exact onlyIf_time _ _ _ rfl
@[simp] theorem newRecord_chans (c k : Nat) (r : Report) (q : Bool) : (newRecord c k r q s).chans = s.chans := by
  unfold newRecord; dsimp only; simp only [bump_chans, modSrc_chans, modFaults_chans]; exact onlyIf_chans _ _ _ rfl
@[simp] theorem newRecord_maps (c k : Nat) (r : Report) (q : Bool) : (newRecord c k r q s).maps = s.maps := by
  unfold newRecord; dsimp only; simp only [bump_maps, modSrc_maps, modFaults_maps]; exact onlyIf_maps _ _ _ rfl
@[simp] theorem newRecord_dl (c k : Nat) (r : Report) (q : Bool) : (newRecord c k r q s).dl = s.dl := by
  unfold newRecord; dsimp only; simp only [bump_dl, modSrc_dl, modFaults_dl]; exact onlyIf_dl _ _ _ rfl
@[simp] theorem newRecord_engines (c k : Nat) (r : Report) (q : Bool) : (newRecord c k r q s).engines = s.engines := by
  unfold newRecord; dsimp only; simp only [bump_engines, modSrc_engines, modFaults_engines]; exact onlyIf_engines _ _ _ rfl
@[simp] theorem newRecord_power (c k : Nat) (r : Report) (q : Bool) : (newRecord c k r q s).power = s.power := by
  unfold newRecord; dsimp only; simp only [bump_power, modSrc_power, modFaults_power]; exact onlyIf_power _ _ _ rfl
@[simp] theorem newRecord_reset_ (c k : Nat) (r : Report) (q : Bool) : (newRecord c k r q s).reset_ = s.reset_ := by
  unfold newRecord; dsimp only; simp only [bump_reset_, modSrc_reset_, modFaults_reset_]; exact onlyIf_reset_ _ _ _ rfl
@[simp] theorem newRecord_upd (c k : Nat) (r : Report) (q : Bool) : (newRecord c k r q s).upd = s.upd := by
  unfold newRecord; dsimp only; simp only [bump_upd, modSrc_upd, modFaults_upd]; exact onlyIf_upd _ _ _ rfl
@[simp] theorem newRecord_cv (c k : Nat) (r : Report) (q : Bool) : (newRecord c k r q s).cv = s.cv := by
  unfold newRecord; dsimp only; simp only [bump_cv, modSrc_cv, modFaults_cv]; exact onlyIf_cv _ _ _ rfl
@[simp] theorem newRecord_fresh (c k : Nat) (r : Report) (q : Bool) : (newRecord c k r q s).fresh = s.fresh := by
  unfold newRecord; dsimp only; simp only [bump_fresh, modSrc_fresh, modFaults_fresh]; exact onlyIf_fresh _ _ _ rfl
@[simp] theorem newRecord_shelf (c k : Nat) (r : Report) (q : Bool) : (newRecord c k r q s).shelf = s.shelf := by
  unfold newRecord; dsimp only; simp only [bump_shelf, modSrc_shelf, modFaults_shelf]; exact onlyIf_shelf _ _ _ rfl
@[simp] theorem detect_pending (c : Nat) (r : Report) : (detect c r s).pending = s.pending := by
  unfold detect; repeat' split
  all_goals simp
@[simp] theorem detect_hub (c : Nat) (r : Report) : (detect c r s).hub = s.hub := by
  unfold detect; repeat' split
  all_goals simp
@[simp] theorem detect_changes (c : Nat) (r : Report) : (detect c r s).changes = s.changes := by
  unfold detect; repeat' split
  all_goals simp
@[simp] theorem detect_cfgRegs (c : Nat) (r : Report) : (detect c r s).cfgRegs = s.cfgRegs := by
  unfold detect; repeat' split
  all_goals simp
@[simp] theorem detect_cmd (c : Nat) (r : Report) : (detect c r s).cmd = s.cmd := by
  unfold detect; repeat' split
  all_goals simp
@[simp] theorem detect_ring (c : Nat) (r : Report) : (detect c r s).ring = s.ring := by
  unfold detect; repeat' split
  all_goals simp
@[simp] theorem detect_sw (c : Nat) (r : Report) : (detect c r s).sw = s.sw := by
  unfold detect; repeat' split
  all_goals simp
@[simp] theorem detect_master (c : Nat) (r : Report) : (detect c r s).master = s.master := by
  unfold detect; repeat' split
  all_goals simp
@[simp] theorem detect_time (c : Nat) (r : Report) : (detect c r s).time = s.time := by
  unfold detect; repeat' split
  all_goals simp
@[simp] theorem detect_chans (c : Nat) (r : Report) : (detect c r s).chans = s.chans := by
  unfold detect; repeat' split
  all_goals simp
@[simp] theorem detect_maps (c : Nat) (r : Report) : (detect c r s).maps = s.maps := by
  unfold detect; repeat' split
  all_goals simp
@[simp] theorem detect_dl (c : Nat) (r : Report) : (detect c r s).dl = s.dl := by
  unfold detect; repeat' split
  all_goals simp
@[simp] theorem detect_engines (c : Nat) (r : Report) : (detect c r s).engines = s.engines := by
  unfold detect; repeat' split
  all_goals simp
@[simp] theorem detect_power (c : Nat) (r : Report) : (detect c r s).power = s.power := by
  unfold detect; repeat' split
  all_goals simp
@[simp] theorem detect_reset_ (c : Nat) (r : Report) : (detect c r s).reset_ = s.reset_ := by
  unfold detect; repeat' split
  all_goals simp
@[simp] theorem detect_upd (c : Nat) (r : Report) : (detect c r s).upd = s.upd := by
  unfold detect; repeat' split
  all_goals simp
@[simp] theorem detect_cv (c : Nat) (r : Report) : (detect c r s).cv = s.cv := by
  unfold detect; repeat' split
  all_goals simp
@[simp] theorem detect_fresh (c : Nat) (r : Report) : (detect c r s).fresh = s.fresh := by
  unfold detect; repeat' split
  all_goals simp
@[simp] theorem detect_shelf (c : Nat) (r : Report) : (detect c r s).shelf = s.shelf := by
  unfold detect; repeat' split
  all_goals simp
@[simp] theorem unitFault_pending (c k n : Nat) : (unitFault c k n s).pending = s.pending := detect_pending ..
@[simp] theorem unitFault_hub (c k n : Nat) : (unitFault c k n s).hub = s.hub := detect_hub ..
@[simp] theorem unitFault_changes (c k n : Nat) : (unitFault c k n s).changes = s.changes := detect_changes ..
@[simp] theorem unitFault_cfgRegs (c k n : Nat) : (unitFault c k n s).cfgRegs = s.cfgRegs := detect_cfgRegs ..
@[simp] theorem unitFault_cmd (c k n : Nat) : (unitFault c k n s).cmd = s.cmd := detect_cmd ..
@[simp] theorem unitFault_ring (c k n : Nat) : (unitFault c k n s).ring = s.ring := detect_ring ..
@[simp] theorem unitFault_sw (c k n : Nat) : (unitFault c k n s).sw = s.sw := detect_sw ..
@[simp] theorem unitFault_master (c k n : Nat) : (unitFault c k n s).master = s.master := detect_master ..
@[simp] theorem unitFault_time (c k n : Nat) : (unitFault c k n s).time = s.time := detect_time ..
@[simp] theorem unitFault_chans (c k n : Nat) : (unitFault c k n s).chans = s.chans := detect_chans ..
@[simp] theorem unitFault_maps (c k n : Nat) : (unitFault c k n s).maps = s.maps := detect_maps ..
@[simp] theorem unitFault_dl (c k n : Nat) : (unitFault c k n s).dl = s.dl := detect_dl ..
@[simp] theorem unitFault_engines (c k n : Nat) : (unitFault c k n s).engines = s.engines := detect_engines ..
@[simp] theorem unitFault_power (c k n : Nat) : (unitFault c k n s).power = s.power := detect_power ..
@[simp] theorem unitFault_reset_ (c k n : Nat) : (unitFault c k n s).reset_ = s.reset_ := detect_reset_ ..
@[simp] theorem unitFault_upd (c k n : Nat) : (unitFault c k n s).upd = s.upd := detect_upd ..
@[simp] theorem unitFault_cv (c k n : Nat) : (unitFault c k n s).cv = s.cv := detect_cv ..
@[simp] theorem unitFault_fresh (c k n : Nat) : (unitFault c k n s).fresh = s.fresh := detect_fresh ..
@[simp] theorem unitFault_shelf (c k n : Nat) : (unitFault c k n s).shelf = s.shelf := detect_shelf ..
@[simp] theorem pcieBad_pending (q a : Nat) (w : Bool) : (pcieBad q a w s).pending = s.pending := detect_pending ..
@[simp] theorem pcieBad_hub (q a : Nat) (w : Bool) : (pcieBad q a w s).hub = s.hub := detect_hub ..
@[simp] theorem pcieBad_changes (q a : Nat) (w : Bool) : (pcieBad q a w s).changes = s.changes := detect_changes ..
@[simp] theorem pcieBad_cfgRegs (q a : Nat) (w : Bool) : (pcieBad q a w s).cfgRegs = s.cfgRegs := detect_cfgRegs ..
@[simp] theorem pcieBad_cmd (q a : Nat) (w : Bool) : (pcieBad q a w s).cmd = s.cmd := detect_cmd ..
@[simp] theorem pcieBad_ring (q a : Nat) (w : Bool) : (pcieBad q a w s).ring = s.ring := detect_ring ..
@[simp] theorem pcieBad_sw (q a : Nat) (w : Bool) : (pcieBad q a w s).sw = s.sw := detect_sw ..
@[simp] theorem pcieBad_master (q a : Nat) (w : Bool) : (pcieBad q a w s).master = s.master := detect_master ..
@[simp] theorem pcieBad_time (q a : Nat) (w : Bool) : (pcieBad q a w s).time = s.time := detect_time ..
@[simp] theorem pcieBad_chans (q a : Nat) (w : Bool) : (pcieBad q a w s).chans = s.chans := detect_chans ..
@[simp] theorem pcieBad_maps (q a : Nat) (w : Bool) : (pcieBad q a w s).maps = s.maps := detect_maps ..
@[simp] theorem pcieBad_dl (q a : Nat) (w : Bool) : (pcieBad q a w s).dl = s.dl := detect_dl ..
@[simp] theorem pcieBad_engines (q a : Nat) (w : Bool) : (pcieBad q a w s).engines = s.engines := detect_engines ..
@[simp] theorem pcieBad_power (q a : Nat) (w : Bool) : (pcieBad q a w s).power = s.power := detect_power ..
@[simp] theorem pcieBad_reset_ (q a : Nat) (w : Bool) : (pcieBad q a w s).reset_ = s.reset_ := detect_reset_ ..
@[simp] theorem pcieBad_upd (q a : Nat) (w : Bool) : (pcieBad q a w s).upd = s.upd := detect_upd ..
@[simp] theorem pcieBad_cv (q a : Nat) (w : Bool) : (pcieBad q a w s).cv = s.cv := detect_cv ..
@[simp] theorem pcieBad_fresh (q a : Nat) (w : Bool) : (pcieBad q a w s).fresh = s.fresh := detect_fresh ..
@[simp] theorem pcieBad_shelf (q a : Nat) (w : Bool) : (pcieBad q a w s).shelf = s.shelf := detect_shelf ..
@[simp] theorem condEnd_pending (c : Nat) (b : Bool) : (condEnd c b s).pending = s.pending := by cases b <;> rfl
@[simp] theorem condEnd_hub (c : Nat) (b : Bool) : (condEnd c b s).hub = s.hub := by cases b <;> rfl
@[simp] theorem condEnd_changes (c : Nat) (b : Bool) : (condEnd c b s).changes = s.changes := by cases b <;> rfl
@[simp] theorem condEnd_csr (c : Nat) (b : Bool) : (condEnd c b s).csr = s.csr := by cases b <;> rfl
@[simp] theorem condEnd_cfgRegs (c : Nat) (b : Bool) : (condEnd c b s).cfgRegs = s.cfgRegs := by cases b <;> rfl
@[simp] theorem condEnd_totals (c : Nat) (b : Bool) : (condEnd c b s).totals = s.totals := by cases b <;> rfl
@[simp] theorem condEnd_cmd (c : Nat) (b : Bool) : (condEnd c b s).cmd = s.cmd := by cases b <;> rfl
@[simp] theorem condEnd_ring (c : Nat) (b : Bool) : (condEnd c b s).ring = s.ring := by cases b <;> rfl
@[simp] theorem condEnd_sw (c : Nat) (b : Bool) : (condEnd c b s).sw = s.sw := by cases b <;> rfl
@[simp] theorem condEnd_master (c : Nat) (b : Bool) : (condEnd c b s).master = s.master := by cases b <;> rfl
@[simp] theorem condEnd_time (c : Nat) (b : Bool) : (condEnd c b s).time = s.time := by cases b <;> rfl
@[simp] theorem condEnd_chans (c : Nat) (b : Bool) : (condEnd c b s).chans = s.chans := by cases b <;> rfl
@[simp] theorem condEnd_maps (c : Nat) (b : Bool) : (condEnd c b s).maps = s.maps := by cases b <;> rfl
@[simp] theorem condEnd_dl (c : Nat) (b : Bool) : (condEnd c b s).dl = s.dl := by cases b <;> rfl
@[simp] theorem condEnd_engines (c : Nat) (b : Bool) : (condEnd c b s).engines = s.engines := by cases b <;> rfl
@[simp] theorem condEnd_power (c : Nat) (b : Bool) : (condEnd c b s).power = s.power := by cases b <;> rfl
@[simp] theorem condEnd_reset_ (c : Nat) (b : Bool) : (condEnd c b s).reset_ = s.reset_ := by cases b <;> rfl
@[simp] theorem condEnd_upd (c : Nat) (b : Bool) : (condEnd c b s).upd = s.upd := by cases b <;> rfl
@[simp] theorem condEnd_cv (c : Nat) (b : Bool) : (condEnd c b s).cv = s.cv := by cases b <;> rfl
@[simp] theorem condEnd_fresh (c : Nat) (b : Bool) : (condEnd c b s).fresh = s.fresh := by cases b <;> rfl
@[simp] theorem condEnd_shelf (c : Nat) (b : Bool) : (condEnd c b s).shelf = s.shelf := by cases b <;> rfl

end Sys2Proof.Laws
end

