-- ==== Sys2Proof/Laws/Transport.lean ====
section
/-! SUPPORT. What sending, answering and settling leave alone, and how an accepted host command runs through. -/

namespace Sys2Proof.Laws

open Sys2Proof Sys2Proof.Machine

/-! ## Sparse tables under a filter -/

theorem filter_sins {α : Type} (p : Nat → Bool) (m : Sparse α) (k : Nat) (v : α) (h : p k = false) :
    (sins m k v).filter (fun e => p e.1) = m.filter (fun e => p e.1) := by
  induction m with
  | nil => simp [sins, h]
  | cons e t ih =>
    unfold sins
    split
    · simp [h]
    · split
      · rename_i h2
        simp [h, h2]
      · simp [List.filter_cons, ih]

theorem filter_sdel {α : Type} (p : Nat → Bool) (m : Sparse α) (k : Nat) (h : p k = false) :
    (sdel m k).filter (fun e => p e.1) = m.filter (fun e => p e.1) := by
  induction m with
  | nil => rfl
  | cons e t ih =>
    unfold sdel
    split
    · rename_i h2
      simp [h, h2]
    · simp [List.filter_cons, ih]

theorem filter_sput {α : Type} [DecidableEq α] (d : α) (p : Nat → Bool) (m : Sparse α) (k : Nat) (v : α) (h : p k = false) :
    (sput d m k v).filter (fun e => p e.1) = m.filter (fun e => p e.1) := by
  unfold sput
  split
  · exact filter_sdel p m k h
  · exact filter_sins p m k v h

/-! ## Sending -/

variable (s : State)

theorem hubView_modCmd (f : CmdState → CmdState) (h : cmdView (f s.cmd) = cmdView s.cmd) : hubView (modCmd f s) = hubView s := by
  unfold hubView modCmd; simp only [h]

@[simp] theorem hubView_modSw (f : SwState → SwState) : hubView (modSw f s) = hubView s := rfl

theorem hubView_modSession (n : Nat) (f : Session → Session) (h : ∀ x, { f x with events := [] } = { x with events := [] }) :
    hubView (modSession n f s) = hubView s := by
  refine hubView_modCmd s _ ?_
  unfold cmdView
  simp only [List.map_map]
  congr 1
  apply List.map_congr_left
  intro x _
  simp only [Function.comp]
  split
  · exact h x
  · rfl

@[simp] theorem hubView_complete (n : Nat) (g : Tag) (st : Status) (r : List Byte) :
    hubView (complete n g st r s) = hubView s := hubView_modCmd s _ rfl

@[simp] theorem hubView_pending (l : List Instr) : hubView { s with pending := l } = hubView s := rfl

@[simp] theorem hubView_goOn (u : State) : hubView (goOn s u) = hubView (settle u) := by
  unfold goOn; exact hubView_pending (settle u) s.pending

theorem withPending_cmd (l : List Instr) : ({ s with pending := l } : State).cmd = s.cmd := rfl

theorem goOn_cmd (u : State) : (goOn s u).cmd = (settle u).cmd := by unfold goOn; exact withPending_cmd (settle u) s.pending

/-- Every event's outcome: its effect, then what waited. -/
theorem commit_goOn (u : State) : commit s u = .next (goOn s u) := by unfold commit goOn; rfl

theorem hubView_bumpBy (a n : Nat) (h : offSwitch a = false) : hubView (bumpBy a n s) = hubView s := by
  unfold bumpBy hubView
  simp only [filter_sput 0 offSwitch s.totals a _ h]
  congr 1
  split
  · exact filter_sdel offSwitch s.csr a h
  · exact filter_sins offSwitch s.csr a _ h

theorem hubView_bump (a : Nat) (h : offSwitch a = false) : hubView (bump a s) = hubView s := hubView_bumpBy s a 1 h

theorem hubView_csrPut (a w : Nat) (h : offSwitch a = false) : hubView (csrPut a w s) = hubView s := by
  unfold csrPut hubView
  congr 1
  split
  · exact filter_sdel offSwitch s.csr a h
  · exact filter_sins offSwitch s.csr a _ h

theorem hubView_onlyIf (b : Bool) (f : State → State) (h : hubView (f s) = hubView s) :
    hubView (onlyIf b f s) = hubView s := by cases b <;> simp [h]

@[simp] theorem hubView_notePoolMin : hubView (notePoolMin s) = hubView s :=
  hubView_onlyIf s _ _ (hubView_csrPut s 0x60010 _ (by decide))

@[simp] theorem hubView_giveCells (f : Frame) : hubView (giveCells f s).2 = hubView s := rfl

@[simp] theorem hubView_enqueue (o : Output) (f : Frame) : hubView (enqueue o f s) = hubView s := by
  simp [enqueue, setQueue]

@[simp] theorem hubView_putOut (p : Port) (g : Frame) : hubView (putOut p g s) = hubView s := by
  unfold putOut
  split <;> simp [setQueue]

@[simp] theorem hubView_addCopy (f : Frame) : hubView (addCopy f s) = hubView s := rfl

@[simp] theorem hubView_launch (f : Frame) : hubView (launch f s) = hubView s := by
  have h1 : hubView (onlyIf (needsCopy f) (addCopy f) s) = hubView s := hubView_onlyIf s _ _ (by simp)
  unfold launch
  dsimp only
  split
  · rw [hubView_putOut, hubView_onlyIf _ _ _ (hubView_bump _ 0x50628 (by decide)), h1]
  · simp [hubView_bump _ 0x50444 (by decide), h1]

@[simp] theorem hubView_holdOut (f : Frame) : hubView (holdOut f s) = hubView s := by
  simp [holdOut, hubView_onlyIf, hubView_bump _ 0x60410 (by decide), hubView_bump _ 0x50634 (by decide)]

@[simp] theorem hubView_originate (f : Frame) : hubView (originate f s) = hubView s := by
  have h1 : hubView (withSeq f s).2 = hubView s := rfl
  unfold originate offer
  dsimp only
  split <;> simp [h1]

@[simp] theorem hubView_sendPacketFor (b : Option Owed) (c d : Nat) (bs : List Byte) : hubView (sendPacketFor b c d bs s) = hubView s := by
  unfold sendPacketFor
  split <;> simp

theorem foldl_keep {α β : Type} (g : State → β) (f : State → α → State) (h : ∀ s a, g (f s a) = g s) (l : List α) (s : State) :
    g (l.foldl f s) = g s := by
  induction l generalizing s with
  | nil => rfl
  | cons a t ih => rw [List.foldl_cons, ih, h]

@[simp] theorem hubView_sendOut (p : Path) (n : Nat) (b : Option Owed) (l : List (List Byte)) :
    hubView (sendOut p n b l s) = hubView s := by
  unfold sendOut
  split
  · exact foldl_keep hubView _ (fun s a => hubView_onlyIf s _ _ (by simp)) l.zipIdx s
  · rfl

/-! ## The transport's own lists -/

@[simp] theorem cmd_enqueue (o : Output) (f : Frame) : (enqueue o f s).cmd = s.cmd := by
  unfold enqueue notePoolMin
  exact onlyIf_cmd _ _ _ rfl

@[simp] theorem cmd_putOut (p : Port) (g : Frame) : (putOut p g s).cmd = s.cmd := by
  unfold putOut notePoolMin
  split
  · exact onlyIf_cmd _ _ _ rfl
  · simp

@[simp] theorem cmd_launch (f : Frame) : (launch f s).cmd = s.cmd := by
  have h1 : (onlyIf (needsCopy f) (addCopy f) s).cmd = s.cmd := onlyIf_cmd s _ _ rfl
  unfold launch
  dsimp only
  split
  · rw [cmd_putOut, onlyIf_cmd _ _ _ (by simp), h1]
  · simp [h1]

@[simp] theorem cmd_holdOut (f : Frame) : (holdOut f s).cmd = s.cmd := by
  unfold holdOut
  dsimp only
  rw [bump_cmd, modSw_cmd, onlyIf_cmd _ _ _ (by simp)]

@[simp] theorem cmd_originate (f : Frame) : (originate f s).cmd = s.cmd := by
  have h1 : (withSeq f s).2.cmd = s.cmd := rfl
  unfold originate offer
  dsimp only
  split <;> simp [h1]

@[simp] theorem cmd_sendPacketFor (b : Option Owed) (c d : Nat) (bs : List Byte) : (sendPacketFor b c d bs s).cmd = s.cmd := by
  unfold sendPacketFor
  split <;> simp

/-- Sending keeps the commands in flight, the retained replies, the held writes, the sessions and a reset that is due. -/
theorem sendOut_cmd (p : Path) (n : Nat) (b : Option Owed) (l : List (List Byte)) :
    ∃ o m, (sendOut p n b l s).cmd = { s.cmd with out := o, made := m } := by
  unfold sendOut
  dsimp only
  split
  · refine ⟨s.cmd.out, s.cmd.made, ?_⟩
    exact foldl_keep (fun s => s.cmd) _ (fun s a => onlyIf_cmd s _ _ (by simp)) l.zipIdx s
  · exact ⟨_, _, rfl⟩

@[simp] theorem sendOut_inflight (p : Path) (n : Nat) (b : Option Owed) (l : List (List Byte)) :
    (sendOut p n b l s).cmd.inflight = s.cmd.inflight := by
  obtain ⟨o, m, h⟩ := sendOut_cmd s p n b l; rw [h]
@[simp] theorem sendOut_retained (p : Path) (n : Nat) (b : Option Owed) (l : List (List Byte)) :
    (sendOut p n b l s).cmd.retained = s.cmd.retained := by
  obtain ⟨o, m, h⟩ := sendOut_cmd s p n b l; rw [h]
@[simp] theorem sendOut_sessions (p : Path) (n : Nat) (b : Option Owed) (l : List (List Byte)) :
    (sendOut p n b l s).cmd.sessions = s.cmd.sessions := by
  obtain ⟨o, m, h⟩ := sendOut_cmd s p n b l; rw [h]
@[simp] theorem sendOut_pendingReset (p : Path) (n : Nat) (b : Option Owed) (l : List (List Byte)) :
    (sendOut p n b l s).cmd.pendingReset = s.cmd.pendingReset := by
  obtain ⟨o, m, h⟩ := sendOut_cmd s p n b l; rw [h]
@[simp] theorem sendOut_heldPushes (p : Path) (n : Nat) (b : Option Owed) (l : List (List Byte)) :
    (sendOut p n b l s).cmd.heldPushes = s.cmd.heldPushes := by
  obtain ⟨o, m, h⟩ := sendOut_cmd s p n b l; rw [h]

/-- What the draining of the paths leaves alone. -/
structure Drained (s t : State) : Prop where
  view : hubView t = hubView s
  inflight : t.cmd.inflight = s.cmd.inflight
  retained : t.cmd.retained = s.cmd.retained

theorem Drained.rfl' : Drained s s := ⟨rfl, rfl, rfl⟩
theorem Drained.trans {a b c : State} (h : Drained a b) (k : Drained b c) : Drained a c :=
  ⟨k.view.trans h.view, k.inflight.trans h.inflight, k.retained.trans h.retained⟩

theorem drained_foldl {α : Type} (f : State → α → State) (h : ∀ s a, Drained s (f s a)) (l : List α) (s : State) :
    Drained s (l.foldl f s) := by
  induction l generalizing s with
  | nil => exact Drained.rfl' s
  | cons a t ih => exact (h s a).trans (ih _)

theorem drained_sendOut (p : Path) (n : Nat) (b : Option Owed) (l : List (List Byte)) : Drained s (sendOut p n b l s) :=
  ⟨by simp, by simp, by simp⟩

theorem drained_ringEvents : Drained s (ringEvents s) := by
  unfold ringEvents
  refine drained_foldl _ (fun s se => ?_) _ s
  split
  · exact Drained.trans (b := modSession se.num (fun x => { x with events := [] }) s) ⟨hubView_modSession _ _ _ (fun _ => rfl), rfl, rfl⟩
      (drained_foldl _ (fun s e => drained_sendOut s _ _ _ _) _ _)
  · exact Drained.rfl' s

theorem drained_nextOut (p : Path) (x : OutPkt × State) (h : nextOut p s = some x) : Drained s x.2 := by
  have hev : ∀ (n : Nat), Drained s (modSession n (fun se => if se.path = p then { se with events := se.events.drop 1 } else se) s) :=
    fun n => ⟨hubView_modSession _ _ _ (fun se => by by_cases h : se.path = p <;> simp [h]), rfl, rfl⟩
  have hre : ∀ o, Drained s (modCmd (fun c => { c with out := c.out.erase o }) s) := fun o => ⟨hubView_modCmd s _ rfl, rfl, rfl⟩
  unfold nextOut at h
  split at h
  · split at h <;> (cases h; first | exact hev _ | exact hre _)
  · cases h; exact hre _
  · cases h; exact hev _
  · cases h

theorem drained_mntFill (n : Nat) : Drained s (mntFill n s) := by
  induction n generalizing s with
  | zero => exact Drained.rfl' s
  | succ n ih =>
    unfold mntFill
    split
    · rename_i x hx
      split
      · exact (drained_nextOut s _ x hx).trans (Drained.trans ⟨hubView_modCmd _ _ rfl, rfl, rfl⟩ (ih (mntPut x.1.bytes x.2)))
      · exact Drained.rfl' s
    · exact Drained.rfl' s

theorem drained_pcieFill (n : Nat) : Drained s (pcieFill n s) := by
  induction n generalizing s with
  | zero => exact Drained.rfl' s
  | succ n ih =>
    unfold pcieFill
    split
    · rename_i o t ht
      split
      · exact Drained.rfl' s
      · split
        · exact (drained_nextOut s _ _ ht).trans (Drained.trans ⟨by simp, by simp, by simp⟩ (ih (enqueue .pcie (pcieFrame o s) t)))
        · split
          · exact Drained.rfl' s
          · exact ⟨(hubView_bump _ 0x60410 (by decide)).trans (hubView_modCmd s _ rfl), rfl, rfl⟩
    · exact Drained.rfl' s

theorem drained_offerHeld (stay l : List Frame) : Drained s (offerHeld stay l s) := by
  induction l generalizing s stay with
  | nil => exact ⟨rfl, rfl, rfl⟩
  | cons f t ih =>
    unfold offerHeld
    split
    · exact Drained.trans ⟨by simp, by simp, by simp⟩ (ih (launch f s) stay)
    · exact ih s (stay ++ [f])

theorem drained_offerAll : Drained s (offerAll s) := by
  unfold offerAll
  split
  · exact Drained.rfl' s
  · exact drained_offerHeld s [] s.sw.heldOut

/-- Replies and events that leave change the transport and the switch core alone. -/
theorem drained_drainPaths : Drained s (drainPaths s) :=
  (((drained_offerAll s).trans (drained_ringEvents _)).trans (drained_mntFill _ _)).trans (drained_pcieFill _ _)

/-! ## Settling -/

theorem modCmd_eta (t : State) (l : List Cmd) (h : t.cmd.inflight = l) : modCmd (fun c => { c with inflight := l }) t = t := by
  subst h; rfl

/-- With no command in flight and no held write, settling only lets replies and events leave. -/
theorem settle_idle (hi : s.cmd.inflight = []) (hh : s.cmd.heldPushes = []) : settle s = drainPaths s := by
  have h1 : flushReplies s = s := by
    unfold flushReplies
    simp only [hi, splitReady, List.foldl_nil]
    exact modCmd_eta s [] hi
  simp [settle, placeHeld, hh, hi, sweeps, someMayRun, cmdPrefixes, h1]

theorem drained_settle (hi : s.cmd.inflight = []) (hh : s.cmd.heldPushes = []) : Drained s (settle s) := by
  rw [settle_idle s hi hh]; exact drained_drainPaths s

/-! ## Accepted host commands (R38 to R42) -/

theorem modSession_cmd (n : Nat) (f : Session → Session) :
    (modSession n f s).cmd = { s.cmd with sessions := s.cmd.sessions.map (fun x => if x.num = n then f x else x) } := rfl

theorem find_map_num (n : Nat) (f : Session → Session) (hf : ∀ x, (f x).num = x.num) (l : List Session) :
    (l.map (fun x => if x.num = n then f x else x)).find? (fun x => x.num == n) = (l.find? (fun x => x.num == n)).map f := by
  induction l with
  | nil => rfl
  | cons x t ih =>
    simp only [List.map_cons, List.find?_cons]
    by_cases hx : x.num = n
    · simp [hx, hf]
    · have hx' : (x.num == n) = false := by simpa using hx
      simp [hx, hx', ih]

theorem sess_modSession (n : Nat) (f : Session → Session) (hf : ∀ x, (f x).num = x.num) :
    sess (modSession n f s) n = (sess s n).map f := find_map_num n f hf s.cmd.sessions

theorem modSession_modSession (n : Nat) (f g : Session → Session) (hf : ∀ x, (f x).num = x.num) :
    modSession n g (modSession n f s) = modSession n (fun x => g (f x)) s := by
  unfold modSession modCmd
  simp only [List.map_map]
  congr 2
  apply List.map_congr_left
  intro x _
  by_cases hx : x.num = n <;> simp [hx, hf]

/-- An accepted command stands in flight, its tag consumed (R38). -/
theorem hostCommand_accepted (c : Ctx) (op : Nat) (params : List Byte) (h : accepts c op params s = true) :
    hostCommand c op params s = takenIn c op params s := by
  unfold accepts at h
  split at h
  · rename_i se hse
    simp only [Bool.and_eq_true, Bool.not_eq_true', decide_eq_true_eq, beq_iff_eq, bne_iff_ne, ne_eq, Option.isNone_iff_eq_none] at h
    obtain ⟨⟨h1, h2⟩, ⟨⟨⟨⟨⟨⟨⟨⟨⟨h3, h4⟩, h5⟩, h6⟩, h7⟩, h8⟩, h9⟩, h10⟩, h11⟩, h12⟩⟩ := h
    have e1 : (c.tag - se.expected).toNat = 0 := by rw [h5]; simp
    have e2 : ∀ f, inFlightOf (modSession c.session.val f s) c.session.val = inFlightOf s c.session.val := fun _ => rfl
    have e3 : ∀ f, inFlight (modSession c.session.val f s) = inFlight s := fun _ => rfl
    have e4 : ∀ f, (modSession c.session.val f s).cmd.partials = s.cmd.partials := fun _ => rfl
    have e5 : s.cmd.partials.find? (fun p => p.cmd.session == c.session.val) = none := by
      rw [List.find?_eq_none]
      intro x hx hc
      rw [List.any_eq_false] at h6
      exact h6 x hx hc
    unfold hostCommand hostPacket
    simp only [h1, Bool.not_true, Bool.false_eq_true, if_false, h2, hse, h3, h4, ne_eq, not_true_eq_false, or_self]
    unfold placeTag
    simp only [e1, if_true]
    unfold takePacket
    simp only [e2, e3, e4, h6, Bool.not_false, Bool.true_and, Bool.or_eq_true, decide_eq_true_eq, h9, decide_true, Bool.not_true,
      Bool.false_eq_true, if_false]
    have e6 : ¬(se.window ≤ inFlightOf s c.session.val ∨ 256 ≤ inFlight s) := by omega
    simp only [e6, if_false]
    unfold partBad
    simp only [e4, e5, h10, bne_self_eq_false, Bool.false_eq_true, if_false, modSession_hub, modSession_upd, h12]
    unfold acceptPacket
    simp only [e4, e5, h11, Bool.false_eq_true, if_false]
    unfold takeTag takenIn
    have e7 : revOf c s = se.rev := by unfold revOf; rw [hse]
    rw [← modSession_modSession (modCmd _ s) c.session.val (fun x => { x with lastUp := s.time.up })
      (fun x => { x with expected := x.expected + 1 }) (fun _ => rfl)]
    unfold cmdOfArrival taken
    rw [e7]
    have e8 : BitVec.ofNat 8 c.flags.toNat = c.flags := by simp
    simp only [e8]
    rfl
  · simp at h

/-! ## One command runs through -/

theorem sameCmd_self (x : Cmd) : sameCmd x x = true := by simp [sameCmd]

/-- Nothing leaves while the only command in flight is not complete. -/
theorem flushReplies_one (t : State) (x : Cmd) (hin : t.cmd.inflight = [x]) (hx : isReady x = false) : flushReplies t = t := by
  unfold flushReplies
  simp only [hin, splitReady, hx, Bool.false_and, Bool.false_eq_true, if_false, List.foldl_nil]
  exact modCmd_eta t [x] hin

/-- The only command in flight may start. -/
theorem settle_one (t : State) (x : Cmd) (hin : t.cmd.inflight = [x]) (hw : x.phase = .waiting) (hr : t.cmd.pendingReset = none)
    (hh : t.cmd.heldPushes = []) : settle t = drainPaths (sweeps 1 (runOne x t)) := by
  have h0 : isReady x = false := by simp [isReady, hw]
  have h1 : flushReplies t = t := flushReplies_one t x hin h0
  have h2 : mayRun t [] x = true := by simp [mayRun, hr, hw, startable]
  have h3 : someMayRun t = true := by simp [someMayRun, hin, cmdPrefixes, h2]
  have h4 : sweep t = runOne x t := by
    simp [sweep, hin, runnable, hw, findCmd, cmdPrefixes, sameCmd_self, h2]
  simp [settle, placeHeld, hh, hin, sweeps, h1, h3, h4]

/-- The only command in flight can go no further now. -/
theorem sweeps_stuck (t : State) (x : Cmd) (n : Nat) (hin : t.cmd.inflight = [x]) (h0 : isReady x = false)
    (h2 : mayRun t [] x = false) : sweeps n t = t := by
  have h1 : flushReplies t = t := flushReplies_one t x hin h0
  have h3 : someMayRun t = false := by simp [someMayRun, hin, cmdPrefixes, h2]
  cases n <;> simp [sweeps, h1, h3]

theorem retain_last (r : Reply) (t : State) : (retain r t).cmd.retained.getLast? = some r := by
  simp [retain, modCmd, List.getLast?_drop] <;> omega

theorem modCmd_inflight (f : CmdState → CmdState) : (modCmd f s).cmd.inflight = (f s.cmd).inflight := rfl

@[simp] theorem retain_inflight (r : Reply) : (retain r s).cmd.inflight = s.cmd.inflight := by
  unfold retain; rw [modCmd_inflight]

@[simp] theorem hubView_retain (r : Reply) : hubView (retain r s) = hubView s := by
  unfold retain
  exact hubView_modCmd s (fun c => { c with retained := (c.retained ++ [r]).drop (c.retained.length + 1 - 256) }) (by unfold cmdView; rfl)

/-- A retained reply, sent or not. -/
theorem retained_sent (r : Reply) (b d : Bool) (p : Path) (n : Nat) (h : Option Owed) (l : List (List Byte)) (t : State)
    (hn : t.cmd.inflight = []) :
    hubView (if b then retain r t else onlyIf d (sendOut p n h l) (retain r t)) = hubView t
      ∧ (if b then retain r t else onlyIf d (sendOut p n h l) (retain r t)).cmd.inflight = []
      ∧ (if b then retain r t else onlyIf d (sendOut p n h l) (retain r t)).cmd.retained.getLast? = some r := by
  have h1 : (retain r t).cmd.inflight = [] := (retain_inflight t r).trans hn
  have h0 := hubView_retain t r
  split
  · exact ⟨h0, h1, retain_last r t⟩
  · cases d
    · exact ⟨h0, h1, retain_last r t⟩
    · rw [onlyIf_true, hubView_sendOut, sendOut_inflight, sendOut_retained]
      exact ⟨h0, h1, retain_last r t⟩

/-- What follows a reply moves events and the start of a component alone (R431), and nothing but behind a commit. -/
theorem afterReply_id (x : Cmd) (st : Status) (t : State) (h : x.opcode ≠ 0x0901 ∨ st ≠ .ok) : afterReply x st t = t := by
  unfold afterReply
  rw [if_neg]
  rintro ⟨a, b⟩
  rcases h with h | h
  · exact h a
  · exact h b

theorem afterReply_cmd (x : Cmd) (st : Status) (t : State) :
    (afterReply x st t).cmd.inflight = t.cmd.inflight ∧ (afterReply x st t).cmd.retained = t.cmd.retained := by
  unfold afterReply emit
  split <;> simp

theorem afterReply_upd (x : Cmd) (st : Status) (t : State) : ∃ d, (afterReply x st t).upd = { t.upd with start := d } := by
  unfold afterReply emit
  split
  · exact ⟨_, bumpBy_upd _ _ _⟩
  · exact ⟨t.upd.start, rfl⟩

/-- The reply of a host command: retained (R41), and sent. -/
theorem sendAnswer_host (x : Cmd) (t : State) (st : Status) (res : List Byte) (hr : x.repeats = 0) (hn : t.cmd.inflight = []) :
    hubView (sendAnswer x st res t) = hubView t ∧ (sendAnswer x st res t).cmd.inflight = []
      ∧ ∃ r, (sendAnswer x st res t).cmd.retained.getLast? = some r ∧ r.session = x.session ∧ r.tag = x.tag ∧ r.opcode = x.opcode
        ∧ r.status = st ∧ r.results = res ∧ r.opening = false := by
  unfold sendAnswer
  simp only [hr, List.range_zero, List.foldl_nil]
  obtain ⟨h3, h4, h5⟩ := retained_sent _ _ _ _ _ _ _ t hn
  exact ⟨h3, h4, _, h5, rfl, rfl, rfl, rfl, rfl, rfl⟩

/-- A host command's own answer. -/
theorem answer_eq (x : Cmd) (t : State) (st : Status) (res : List Byte) (hs : x.session < 256) (hp : x.phase = .ready st res) :
    answer x t = afterReply x st (sendAnswer x st res t) := by
  have h1 : isItem x = false := by simp [isItem]; omega
  have h2 : isCarried x = false := by simp [isCarried]; omega
  simp [answer, hp, h1, h2]

theorem answer_host (x : Cmd) (t : State) (st : Status) (res : List Byte) (hs : x.session < 256) (hp : x.phase = .ready st res)
    (hr : x.repeats = 0) (hn : t.cmd.inflight = []) :
    (x.opcode ≠ 0x0901 ∨ st ≠ .ok → hubView (answer x t) = hubView t) ∧ (answer x t).cmd.inflight = []
      ∧ ∃ r, (answer x t).cmd.retained.getLast? = some r ∧ r.session = x.session ∧ r.tag = x.tag ∧ r.opcode = x.opcode
        ∧ r.status = st ∧ r.results = res ∧ r.opening = false := by
  obtain ⟨a, b, c⟩ := sendAnswer_host x t st res hr hn
  rw [answer_eq x t st res hs hp, (afterReply_cmd x st _).1, (afterReply_cmd x st _).2]
  exact ⟨fun h => by rw [afterReply_id x st _ h]; exact a, b, c⟩

/-- The only command in flight is complete: it is answered. -/
theorem sweeps_ready (t : State) (x : Cmd) (n : Nat) (st : Status) (res : List Byte) (hin : t.cmd.inflight = [x])
    (hs : x.session < 256) (hp : x.phase = .ready st res) (hr : x.repeats = 0) :
    sweeps n t = answer x (modCmd (fun c => { c with inflight := [] }) t) := by
  have h0 : isReady x = true := by simp [isReady, hp]
  have h1 : flushReplies t = answer x (modCmd (fun c => { c with inflight := [] }) t) := by
    unfold flushReplies
    simp [hin, splitReady, h0]
  have h2 := (answer_host x (modCmd (fun c => { c with inflight := [] }) t) st res hs hp hr rfl).2.1
  have h3 : someMayRun (answer x (modCmd (fun c => { c with inflight := [] }) t)) = false := by
    simp [someMayRun, h2, cmdPrefixes]
  cases n <;> simp [sweeps, h1, h3]

/-- The session of an accepted command, in the hub that took it in. -/
theorem takenIn_sess (c : Ctx) (op : Nat) (params : List Byte) :
    sess (takenIn c op params s) c.session.val
      = (sess s c.session.val).map (fun x => { x with lastUp := s.time.up, expected := x.expected + 1 }) :=
  sess_modSession (modCmd (fun q => { q with inflight := q.inflight ++ [taken c op params s] }) s) c.session.val
    (fun x => { x with lastUp := s.time.up, expected := x.expected + 1 }) (fun _ => rfl)

theorem takenIn_inflight (c : Ctx) (op : Nat) (params : List Byte) (hi : Idle s) :
    (takenIn c op params s).cmd.inflight = [taken c op params s] := by
  simp [takenIn, modSession, modCmd, hi.1]

/-- The hub settles on the only command in flight, which is complete. -/
theorem settled_ready (c : Ctx) (op : Nat) (params : List Byte) (s u t : State) (st : Status) (res : List Byte)
    (ht : t = drainPaths (sweeps 1 u))
    (hu : u.cmd.inflight = [{ taken c op params s with phase := .ready st res, effected := true }]) :
    Answered c op st res t ∧ (op ≠ 0x0901 ∨ st ≠ .ok → hubView t = hubView u) := by
  have h1 := sweeps_ready u _ 1 st res hu c.session.isLt rfl rfl
  obtain ⟨h2, h3, r, h4, h5⟩ := answer_host { taken c op params s with phase := .ready st res, effected := true }
    (modCmd (fun c => { c with inflight := [] }) u) st res c.session.isLt rfl rfl rfl
  have h6 := drained_drainPaths (sweeps 1 u)
  rw [← ht, h1] at h6
  refine ⟨⟨h6.inflight.trans h3, r, h6.retained ▸ h4, h5⟩, fun ho => h6.view.trans ((h2 ho).trans (hubView_modCmd _ _ rfl))⟩

theorem answered_goOn (c : Ctx) (op : Nat) (st : Status) (res : List Byte) (s u : State) (h : Answered c op st res (settle u)) :
    Answered c op st res (goOn s u) := by
  unfold Answered at *
  rw [goOn_cmd]
  exact h

theorem setCmd_one (x : Cmd) (f : Cmd → Cmd) (u : State) (h : u.cmd.inflight = [x]) (hx : isReady x = false) :
    (setCmd x f u).cmd.inflight = [f x] := by
  simp [setCmd, modCmd, h, sameCmd_self, hx]

/-- A host command that the hub takes in while nothing waits, and whose execution completes at once, is answered, and leaves the
hub as its execution left it. -/
theorem host_done (c : Ctx) (op : Nat) (params : List Byte) (s u : State) (st : Status) (res : List Byte) (hi : Idle s)
    (hc : op ≠ 0x0901 ∨ st ≠ .ok)
    (ha : accepts c op params s = true)
    (hr : runOne (taken c op params s) (takenIn c op params s) = noteRan (taken c op params s) (.done st res u))
    (hu : u.cmd.inflight = [taken c op params s]) : Completes (commit s (hostCommand c op params s)) c op st res u := by
  rw [hostCommand_accepted s c op params ha]
  have h1 := settle_one (takenIn c op params s) (taken c op params s) (takenIn_inflight s c op params hi) rfl hi.2.2 hi.2.1
  have h2 := settled_ready c op params s _ _ st res h1 (by rw [hr]; exact setCmd_one _ _ u hu rfl)
  refine ⟨goOn s (takenIn c op params s), commit_goOn _ _, ?_, ?_⟩
  · exact answered_goOn _ _ _ _ _ _ h2.1
  rw [hubView_goOn, h2.2 hc, hr]
  exact hubView_modCmd _ _ rfl

/-- The same for a command whose execution goes on: it stands in flight as issued. -/
theorem host_issued (c : Ctx) (op : Nat) (params : List Byte) (s u : State) (hi : Idle s)
    (ha : accepts c op params s = true) (e : Bool)
    (hr : runOne (taken c op params s) (takenIn c op params s)
      = setCmd (taken c op params s) (fun x => { x with phase := .issued, effected := e }) u)
    (hu : u.cmd.inflight = [taken c op params s]) : Stands (commit s (hostCommand c op params s)) c op .issued u := by
  rw [hostCommand_accepted s c op params ha]
  have h1 := settle_one (takenIn c op params s) (taken c op params s) (takenIn_inflight s c op params hi) rfl hi.2.2 hi.2.1
  have h2 := setCmd_one (taken c op params s) (fun x => { x with phase := .issued, effected := e }) u hu rfl
  rw [hr, sweeps_stuck _ _ 1 h2 rfl (by simp [mayRun])] at h1
  have h3 := drained_drainPaths (setCmd (taken c op params s) (fun x => { x with phase := .issued, effected := e }) u)
  rw [← h1] at h3
  exact ⟨goOn s (takenIn c op params s), _, commit_goOn _ _, by rw [goOn_cmd]; exact h3.inflight.trans h2, rfl, rfl, rfl, rfl,
    by rw [hubView_goOn]; exact h3.view.trans (hubView_modCmd _ _ rfl)⟩

/-- The same for a command held to cycle `k` (R44, R279). -/
theorem host_held (c : Ctx) (op : Nat) (params : List Byte) (s u : State) (k : Nat) (res : List Byte) (hi : Idle s)
    (ha : accepts c op params s = true)
    (hr : runOne (taken c op params s) (takenIn c op params s)
      = setCmd (taken c op params s) (fun x => { x with phase := .heldUntil k res }) u)
    (hu : u.cmd.inflight = [taken c op params s]) : Stands (commit s (hostCommand c op params s)) c op (.heldUntil k res) u := by
  rw [hostCommand_accepted s c op params ha]
  have h1 := settle_one (takenIn c op params s) (taken c op params s) (takenIn_inflight s c op params hi) rfl hi.2.2 hi.2.1
  have h2 := setCmd_one (taken c op params s) (fun x => { x with phase := .heldUntil k res }) u hu rfl
  rw [hr, sweeps_stuck _ _ 1 h2 rfl (by simp [mayRun])] at h1
  have h3 := drained_drainPaths (setCmd (taken c op params s) (fun x => { x with phase := .heldUntil k res }) u)
  rw [← h1] at h3
  exact ⟨goOn s (takenIn c op params s), _, commit_goOn _ _, by rw [goOn_cmd]; exact h3.inflight.trans h2, rfl, rfl, rfl, rfl,
    by rw [hubView_goOn]; exact h3.view.trans (hubView_modCmd _ _ rfl)⟩

/-! ## From a run to the whole command -/

/-- The session of an accepted command is open on the command's path. -/
theorem accepts_path (c : Ctx) (op : Nat) (params : List Byte) (h : accepts c op params s = true) :
    ∃ se, sess s c.session.val = some se ∧ se.path = c.path ∧ se.suspended = false ∧ c.tag = se.expected := by
  unfold accepts at h
  split at h
  · rename_i se hse
    simp only [Bool.and_eq_true, beq_iff_eq, Bool.not_eq_true'] at h
    exact ⟨se, hse, h.2.1.1.1.1.1.1.1.1.2, h.2.1.1.1.1.1.1.1.1.1, h.2.1.1.1.1.1.1.1.2⟩
  · simp at h

/-- LOCKED is set only where the catalogue marks it (R47, step 10 of R38). -/
theorem accepts_unlocked (c : Ctx) (op : Nat) (params : List Byte) (h : accepts c op params s = true)
    (hl : (opRow op).all (fun r => !r.l) = true) : bit c.flags.toNat 3 = false := by
  unfold accepts at h
  split at h
  · simp only [Bool.and_eq_true, Option.isNone_iff_eq_none] at h
    have h12 := h.2.2
    unfold catalogueRefusal at h12
    cases hr : opRow op with
    | none => simp [hr] at h12
    | some r =>
      simp only [hr, Option.all_some, Bool.not_eq_true'] at hl h12
      cases hb : bit c.flags.toNat 3 with
      | false => rfl
      | true =>
        simp [flagsFit, hb, hl] at h12
        split at h12
        · simp at h12
        · split at h12 <;> simp at h12
  · simp at h

/-- An opcode whose commands no target orders (R303, R306). -/
def untargeted (op : Nat) : Bool :=
  !(decide (0x0400 ≤ op) && decide (op ≤ 0x0409) && op != 0x0408) && op != 0x0007 && op != 0x0008

theorem cmdTarget_none (x : Cmd) (u : State) (h : untargeted x.opcode = true) : cmdTarget u x = none := by
  unfold untargeted at h
  simp only [Bool.and_eq_true, Bool.not_eq_true', Bool.and_eq_false_iff, decide_eq_false_iff_not, bne_iff_ne, ne_eq,
    bne_eq_false_iff_eq] at h
  have h2 : ¬(0x0400 ≤ x.opcode ∧ x.opcode ≤ 0x0409 ∧ x.opcode ≠ 0x0408) := by omega
  have h3 : windowSpace u x = none := by
    unfold windowSpace
    have : ¬(x.opcode = 0x0007 ∨ x.opcode = 0x0008) := by omega
    simp [this]
  simp [cmdTarget, h2, h3]

theorem runNow_untargeted (x : Cmd) (u : State) (h : untargeted x.opcode = true) (hf : bit x.flags.toNat 3 = false) :
    runNow x u = if x.opcode < 0x0200 then runSystem x u else if x.opcode < 0x0600 then runField x u else runBoard x u := by
  have h4 : lockMissing u x = false := by simp [lockMissing, hf]
  simp [runNow, cmdTarget_none x u h, h4]

/-- An opcode that acts as it reaches execution, not at a boundary (R279, R375). -/
def actsNow (op : Nat) : Bool := !preparesChange op && op != 0x0603

theorem runOne_now (x : Cmd) (u : State) (hw : x.phase = .waiting) (he : x.effc = none) (ho : actsNow x.opcode = true) :
    runOne x u = noteRan x (runNow x u) := by
  unfold actsNow at ho
  simp only [Bool.and_eq_true, Bool.not_eq_true', bne_iff_ne, ne_eq] at ho
  simp [runOne, hw, he, ho.1, ho.2]

/-- How a run of the accepted command becomes the completion of the host command. -/
theorem hostCompletes_of (i : Ctx → Instr) (op : Nat) (params : List Byte) (good : Ctx → State → Prop) (st : Status)
    (res : Ctx → State → List Byte) (eff : Ctx → State → State)
    (hx : ∀ c s, exec (i c) s = commit s (hostCommand c op params s)) (ho : actsNow op = true) (hc : op ≠ 0x0901 ∨ st ≠ .ok)
    (hr : ∀ c s, accepts c op params s = true → good c (takenIn c op params s) →
      runNow (taken c op params s) (takenIn c op params s) = .done st (res c (takenIn c op params s)) (eff c (takenIn c op params s)))
    (hu : ∀ c u, (eff c u).cmd.inflight = u.cmd.inflight) : HostCompletes i op params good st res eff := by
  intro c s hi he ha hg
  rw [hx]
  refine host_done c op params s _ st _ hi hc ha ?_ ((hu _ _).trans (takenIn_inflight s c op params hi))
  rw [runOne_now _ _ rfl he ho, hr c s ha hg]

/-- The same for an opcode that no target orders. -/
theorem hostCompletes_plain (i : Ctx → Instr) (op : Nat) (params : List Byte) (good : Ctx → State → Prop) (st : Status)
    (res : Ctx → State → List Byte) (eff : Ctx → State → State)
    (hx : ∀ c s, exec (i c) s = commit s (hostCommand c op params s)) (ho : actsNow op = true) (hc : op ≠ 0x0901 ∨ st ≠ .ok)
    (ht : untargeted op = true) (hl : (opRow op).all (fun r => !r.l) = true)
    (hr : ∀ c s, good c (takenIn c op params s) →
      (if op < 0x0200 then runSystem (taken c op params s) (takenIn c op params s)
        else if op < 0x0600 then runField (taken c op params s) (takenIn c op params s)
        else runBoard (taken c op params s) (takenIn c op params s))
        = .done st (res c (takenIn c op params s)) (eff c (takenIn c op params s)))
    (hu : ∀ c u, (eff c u).cmd.inflight = u.cmd.inflight) : HostCompletes i op params good st res eff := by
  refine hostCompletes_of i op params good st res eff hx ho hc (fun c s ha hg => ?_) hu
  rw [runNow_untargeted _ _ ht (accepts_unlocked s c op params ha hl)]
  exact hr c s hg

/-- The same for a command whose execution goes on. -/
theorem hostStands_plain (i : Ctx → Instr) (op : Nat) (params : List Byte) (good : Ctx → State → Prop) (eff : Ctx → State → State)
    (hx : ∀ c s, exec (i c) s = commit s (hostCommand c op params s)) (ho : actsNow op = true) (ht : untargeted op = true)
    (hl : (opRow op).all (fun r => !r.l) = true)
    (hr : ∀ c s, good c (takenIn c op params s) →
      (if op < 0x0200 then runSystem (taken c op params s) (takenIn c op params s)
        else if op < 0x0600 then runField (taken c op params s) (takenIn c op params s)
        else runBoard (taken c op params s) (takenIn c op params s)) = .later (eff c (takenIn c op params s)))
    (hu : ∀ c u, (eff c u).cmd.inflight = u.cmd.inflight) : HostStands i op params good (fun _ _ => .issued) eff := by
  intro c s hi he ha hg
  rw [hx]
  refine host_issued c op params s _ hi ha true ?_ ((hu _ _).trans (takenIn_inflight s c op params hi))
  rw [runOne_now _ _ rfl he ho, runNow_untargeted _ _ ht (accepts_unlocked s c op params ha hl)]
  have := hr c s hg
  exact congrArg (noteRan (taken c op params s)) this

/-- What is known of an accepted host command of these statements: no effective cycle, and its session on its path. -/
theorem taken_facts (c : Ctx) (op : Nat) (params : List Byte) (he : c.effc = none) (ha : accepts c op params s = true) :
    c.effc = none ∧ ∃ se, sess (takenIn c op params s) c.session.val = some se ∧ se.path = c.path ∧ se.suspended = false := by
  refine ⟨he, ?_⟩
  rw [takenIn_sess]
  unfold accepts at ha
  cases h : sess s c.session.val with
  | none => simp [h] at ha
  | some se =>
    simp only [h, Bool.and_eq_true, Bool.not_eq_true', beq_iff_eq] at ha
    exact ⟨_, rfl, by simp [ha.2], by simp [ha.2]⟩

/-- A completion may be shown with those facts at hand. -/
theorem hostCompletes_facts (i : Ctx → Instr) (op : Nat) (params : List Byte) (good : Ctx → State → Prop) (st : Status)
    (res : Ctx → State → List Byte) (eff : Ctx → State → State)
    (h : HostCompletes i op params (fun c u => (c.effc = none ∧ ∃ se, sess u c.session.val = some se ∧ se.path = c.path
      ∧ se.suspended = false) ∧ good c u) st res eff) : HostCompletes i op params good st res eff :=
  fun c s hi he ha hg => h c s hi he ha ⟨taken_facts s c op params he ha, hg⟩

/-- The same for a command that stands in flight. -/
theorem hostStands_facts (i : Ctx → Instr) (op : Nat) (params : List Byte) (good : Ctx → State → Prop) (ph : Ctx → State → Phase)
    (eff : Ctx → State → State) (h : HostStands i op params (fun c u => (c.effc = none ∧ ∃ se, sess u c.session.val = some se
      ∧ se.path = c.path ∧ se.suspended = false) ∧ good c u) ph eff) : HostStands i op params good ph eff :=
  fun c s hi he ha hg => h c s hi he ha ⟨taken_facts s c op params he ha, hg⟩

/-! ## Commands that may carry LOCKED, and transactions -/

theorem lockMissing_taken (c : Ctx) (op : Nat) (params : List Byte) (u : State) (h : lockFits c u = true) :
    lockMissing u (taken c op params s) = false := by
  unfold lockFits at h
  unfold lockMissing
  have e1 : (taken c op params s).flags = c.flags := rfl
  have e2 : (taken c op params s).target = c.target.toNat := rfl
  have e3 : (taken c op params s).session = c.session.val := rfl
  rw [e1, e2, e3]
  cases hb : bit c.flags.toNat 3
  · simp
  · simp only [hb, Bool.not_true, Bool.false_or] at h
    split at h
    · rename_i l hl; simp only [beq_iff_eq] at h; simp [hl, h]
    · simp at h

/-- A command that no target orders, its LOCKED flag in order. -/
theorem runNow_lockFits (c : Ctx) (op : Nat) (params : List Byte) (u : State) (ht : untargeted op = true) (h : lockFits c u = true) :
    runNow (taken c op params s) u = if op < 0x0200 then runSystem (taken c op params s) u
      else if op < 0x0600 then runField (taken c op params s) u else runBoard (taken c op params s) u := by
  unfold runNow
  rw [cmdTarget_none (taken c op params s) u ht]
  simp only [lockMissing_taken s c op params u h, Bool.false_eq_true, if_false]
  rfl

/-- A command that no target orders, that may carry LOCKED, and whose execution goes on. -/
theorem hostStands_lock (i : Ctx → Instr) (op : Nat) (params : List Byte) (good : Ctx → State → Prop) (eff : Ctx → State → State)
    (hx : ∀ c s, exec (i c) s = commit s (hostCommand c op params s)) (ho : actsNow op = true) (ht : untargeted op = true)
    (hl : ∀ c u, good c u → lockFits c u = true)
    (hr : ∀ c s, good c (takenIn c op params s) →
      (if op < 0x0200 then runSystem (taken c op params s) (takenIn c op params s)
        else if op < 0x0600 then runField (taken c op params s) (takenIn c op params s)
        else runBoard (taken c op params s) (takenIn c op params s)) = .later (eff c (takenIn c op params s)))
    (hu : ∀ c u, (eff c u).cmd.inflight = u.cmd.inflight) : HostStands i op params good (fun _ _ => .issued) eff := by
  intro c s hi he ha hg
  rw [hx]
  refine host_issued c op params s _ hi ha true ?_ ((hu _ _).trans (takenIn_inflight s c op params hi))
  rw [runOne_now _ _ rfl he ho, runNow_lockFits s c op params _ ht (hl _ _ hg), hr c s hg]
  rfl

/-- A transaction (R303) that is alone, not refused, and that no lock holds back: it is issued. -/
theorem runNow_issue (c : Ctx) (op : Nat) (params : List Byte) (u : State) (ht : 0x0400 ≤ op ∧ op ≤ 0x0409 ∧ op ≠ 0x0408)
    (hi : u.cmd.inflight = [taken c op params s]) (hh : u.cmd.heldPushes = []) (hl : noLock c u)
    (hr : refuseTx (taken c op params s) u = none) : runNow (taken c op params s) u = issueTx (taken c op params s) u := by
  have h1 : cmdTarget u (taken c op params s) = some c.target.toNat := by
    have : (taken c op params s).opcode = op := rfl
    unfold cmdTarget
    rw [this, if_pos ht]
    rfl
  have h2 : earlierAt u c.target.toNat (taken c op params s) = [] := by
    unfold earlierAt
    simp [hi, sameCmd_self]
  have h3 : lockHolds u c.target.toNat (taken c op params s) = false := by
    unfold lockHolds
    have e3 : (taken c op params s).session = c.session.val := rfl
    have := hl.1
    rw [e3]
    split
    · rename_i l hh; simp only [hh] at this; simp [this]
    · simp
  have h4 : endLockWait c.target.toNat (taken c op params s) u = u := by
    unfold endLockWait
    simp [hl.2]
  have h5 : behindHeld u c.target.toNat (taken c op params s) = false := by simp [behindHeld, hh]
  unfold runNow
  rw [h1]
  simp only [runTx, hr, h2, List.any_nil, h5, Bool.or_self, Bool.false_eq_true, if_false, h3, h4]

/-- A transaction that is issued and goes on. -/
theorem hostStands_tx (i : Ctx → Instr) (op : Nat) (params : List Byte) (good : Ctx → State → Prop) (eff : Ctx → State → State)
    (hx : ∀ c s, exec (i c) s = commit s (hostCommand c op params s)) (ho : actsNow op = true)
    (ht : 0x0400 ≤ op ∧ op ≤ 0x0409 ∧ op ≠ 0x0408) (hl : ∀ c u, good c u → noLock c u)
    (hf : ∀ c s, good c (takenIn c op params s) → refuseTx (taken c op params s) (takenIn c op params s) = none)
    (hr : ∀ c s, good c (takenIn c op params s) →
      issueTx (taken c op params s) (takenIn c op params s) = .later (eff c (takenIn c op params s)))
    (hu : ∀ c u, (eff c u).cmd.inflight = u.cmd.inflight) : HostStands i op params good (fun _ _ => .issued) eff := by
  intro c s hi he ha hg
  rw [hx]
  have hin := takenIn_inflight s c op params hi
  refine host_issued c op params s _ hi ha true ?_ ((hu _ _).trans hin)
  rw [runOne_now _ _ rfl he ho, runNow_issue s c op params _ ht hin hi.2.1 (hl _ _ hg) (hf c s hg), hr c s hg]
  rfl

/-- A transaction that is issued and completes. -/
theorem hostCompletes_tx (i : Ctx → Instr) (op : Nat) (params : List Byte) (good : Ctx → State → Prop) (st : Status)
    (res : Ctx → State → List Byte) (eff : Ctx → State → State)
    (hx : ∀ c s, exec (i c) s = commit s (hostCommand c op params s)) (ho : actsNow op = true)
    (ht : 0x0400 ≤ op ∧ op ≤ 0x0409 ∧ op ≠ 0x0408) (hl : ∀ c u, good c u → noLock c u)
    (hf : ∀ c s, good c (takenIn c op params s) → refuseTx (taken c op params s) (takenIn c op params s) = none)
    (hr : ∀ c s, good c (takenIn c op params s) → issueTx (taken c op params s) (takenIn c op params s)
      = .done st (res c (takenIn c op params s)) (eff c (takenIn c op params s)))
    (hu : ∀ c u, (eff c u).cmd.inflight = u.cmd.inflight) : HostCompletes i op params good st res eff := by
  intro c s hi he ha hg
  rw [hx]
  have hin := takenIn_inflight s c op params hi
  have hc : op ≠ 0x0901 ∨ st ≠ .ok := by left; omega
  refine host_done c op params s _ st _ hi hc ha ?_ ((hu _ _).trans hin)
  rw [runOne_now _ _ rfl he ho, runNow_issue s c op params _ ht hin hi.2.1 (hl _ _ hg) (hf c s hg), hr c s hg]

/-- What a completion says of the hub, up to the transport, holds of the state answered. -/
theorem hostLeads_of (i : Ctx → Instr) (op : Nat) (params : List Byte) (good : Ctx → State → Prop) (st : Status)
    (res : Ctx → State → List Byte) (eff : Ctx → State → State) (q : Ctx → State → State → Prop)
    (h : HostCompletes i op params good st res eff)
    (hq : ∀ c u t, good c u → hubView t = hubView (eff c u) → q c u t) : HostLeads i op params good st res q := by
  intro c s hi he ha hg
  obtain ⟨t, h1, h2, h3⟩ := h c s hi he ha hg
  exact ⟨t, h1, h2, hq c _ t hg h3⟩

/-! ## What equal views share -/

theorem view_chans {t u : State} (h : hubView t = hubView u) : t.chans = u.chans := by
  have h1 := congrArg State.chans h; exact h1
theorem view_chan {t u : State} (h : hubView t = hubView u) (ch : Nat) : chan t ch = chan u ch := by
  unfold chan; rw [view_chans h]
theorem view_cfgRegs {t u : State} (h : hubView t = hubView u) : t.cfgRegs = u.cfgRegs := by
  have h1 := congrArg State.cfgRegs h; exact h1
theorem view_power {t u : State} (h : hubView t = hubView u) : t.power = u.power := by
  have h1 := congrArg State.power h; exact h1
theorem view_upd {t u : State} (h : hubView t = hubView u) : t.upd = u.upd := by
  have h1 := congrArg State.upd h; exact h1
theorem view_faults {t u : State} (h : hubView t = hubView u) : t.faults = u.faults := by
  have h1 := congrArg State.faults h; exact h1
theorem view_maps {t u : State} (h : hubView t = hubView u) : t.maps = u.maps := by
  have h1 := congrArg State.maps h; exact h1
theorem view_engines {t u : State} (h : hubView t = hubView u) : t.engines = u.engines := by
  have h1 := congrArg State.engines h; exact h1
theorem view_ring {t u : State} (h : hubView t = hubView u) : t.ring = u.ring := by
  have h1 := congrArg State.ring h; exact h1
theorem view_csr {t u : State} (h : hubView t = hubView u) (a : Nat) (ha : offSwitch a = true) : sget 0 t.csr a = sget 0 u.csr a := by
  have h1 : t.csr.filter (fun e => offSwitch e.1) = u.csr.filter (fun e => offSwitch e.1) := by
    have h1 := congrArg State.csr h; exact h1
  have h2 : ∀ m : Sparse Word, sget 0 (m.filter (fun e => offSwitch e.1)) a = sget 0 m a := by
    intro m
    induction m with
    | nil => rfl
    | cons e l ih =>
      rw [List.filter_cons]
      split
      · simp only [sget, ih]
      · rename_i hn
        have : e.1 ≠ a := by intro hc; rw [hc] at hn; exact hn ha
        simp only [sget, this, if_false, ih]
  rw [← h2 t.csr, ← h2 u.csr, h1]

end Sys2Proof.Laws
end

