-- ==== Sys2Proof/WellFormed.lean ====
section
/-! DEFINITION. Which commands can stand at the hub's input at all: packets whose header fields agree with each other and whose
parameters fit a packet (R32 to R34), and events whose quantities fit the unit they reach. The machine answers ill-formed
commands too; statements about the wire format take this as their premise. -/

namespace Sys2Proof

/-- The ring node of a path is a node number (R12, R20). -/
def pathWf : Path → Bool
  | .pcie => true
  | .maint => true
  | .ring n => decide (1 ≤ n.val) && decide (n.val ≤ 254)

/-- The header of a command packet agrees with itself: bit 1 of FLAGS (EFFC) stands exactly when an effective cycle follows,
and SESSION 0 stands only in an open (R33, R34). `open_` says whether the opcode is SESSION_OPEN. -/
def ctxWf (open_ : Bool) (c : Ctx) : Bool :=
  pathWf c.path && (c.flags.getLsbD 1 == c.effc.isSome) && (open_ || decide (c.session.val ≠ 0))

/-- Size of a BAR (R317). -/
def barSize : Bar → Nat
  | .bar0 => 0x1000000
  | .bar2 => 0x1000000
  | .bar4 => 0x2000000

/-- The command is one that the hub's inputs can carry. -/
def Instr.wf : Instr → Bool
  | .nop c => ctxWf false c
  | .sessionOpen c _ _ _ _ _ _ _ => ctxWf true c
  | .sessionClose c => ctxWf false c
  | .echo c data => ctxWf false c && decide (data.length ≤ 16352)
  | .getReply c _ => ctxWf false c
  | .getState c => ctxWf false c
  | .setEvents c _ => ctxWf false c
  | .memRead c _ _ => ctxWf false c
  | .memWrite c _ _ _ data => ctxWf false c && decide (data.length + 12 ≤ 16352)
  | .cfgStage c _ data => ctxWf false c && decide (data.length + 4 ≤ 16352)
  | .cfgValidate c => ctxWf false c
  | .cfgActivate c => ctxWf false c
  | .cfgStatus c => ctxWf false c
  | .cfgRead c _ _ _ _ _ => ctxWf false c
  | .chEnable c => ctxWf false c
  | .chDisable c _ => ctxWf false c
  | .chReset c => ctxWf false c
  | .chRateDetect c _ => ctxWf false c
  | .chSend c _ _ data => ctxWf false c && decide (data.length + 10 ≤ 16352)
  | .chReceive c _ => ctxWf false c
  | .chRelease c => ctxWf false c
  | .chStatus c => ctxWf false c
  | .sigWrite c _ _ _ es => ctxWf false c && decide (8 * es.length + 8 ≤ 16352)
  | .sigRead c _ _ _ _ => ctxWf false c
  | .mapChange c _ _ _ rules => ctxWf false c && decide (rules.length + 8 ≤ 16352)
  | .mapStatus c => ctxWf false c
  | .subAdd c _ _ _ _ _ => ctxWf false c
  | .subRemove c _ _ _ _ => ctxWf false c
  | .txMbRead c _ _ _ _ => ctxWf false c
  | .txMbWrite c _ _ _ _ data => ctxWf false c && decide (data.length + 6 ≤ 16352)
  | .txMbRw c _ _ _ _ _ _ data => ctxWf false c && decide (data.length + 10 ≤ 16352)
  | .txIolRead c _ _ _ => ctxWf false c
  | .txIolWrite c _ _ _ data => ctxWf false c && decide (data.length + 4 ≤ 16352)
  | .txCanReq c _ _ _ _ frame => ctxWf false c && decide (frame.length + 12 ≤ 16352)
  | .txPop c _ => ctxWf false c
  | .txPush c words => ctxWf false c && decide (8 * words.length ≤ 16352)
  | .txReRead c _ _ => ctxWf false c
  | .txLock c _ => ctxWf false c
  | .txUnlock c => ctxWf false c
  | .leHalt c => ctxWf false c
  | .leLoad c _ _ es => ctxWf false c && decide (es.length + 4 ≤ 16352)
  | .leRestart c _ => ctxWf false c
  | .leGroupStart c _ _ => ctxWf false c
  | .leStatus c => ctxWf false c
  | .dlWrite c _ _ => ctxWf false c
  | .dlRead c => ctxWf false c
  | .outSet c _ => ctxWf false c
  | .outClear c => ctxWf false c
  | .outStatus c => ctxWf false c
  | .plSet c _ => ctxWf false c
  | .sleepEnter c _ => ctxWf false c
  | .pwrStatus c => ctxWf false c
  | .timeGet c => ctxWf false c
  | .syncOutSet c _ _ _ => ctxWf false c
  | .stampRead c _ => ctxWf false c
  | .peerDelayGet c => ctxWf false c
  | .fltRead c _ _ => ctxWf false c
  | .fltClear c _ => ctxWf false c
  | .fltInject c _ => ctxWf false c
  | .fltReactSet c _ _ => ctxWf false c
  | .updBlock c _ _ _ _ data => ctxWf false c && decide (data.length + 8 ≤ 16352)
  | .updCommit c _ => ctxWf false c
  | .updConfirm c _ => ctxWf false c
  | .updAbort c => ctxWf false c
  | .updStatus c => ctxWf false c
  | .idRead c => ctxWf false c
  | .tagRead c _ => ctxWf false c
  | .tagWrite c _ _ content => ctxWf false c && decide (content.length + 4 ≤ 16352)
  | .tagLock c _ => ctxWf false c
  | .ringStatus c => ctxWf false c
  | .lightListRead c => ctxWf false c
  | .spanAdmin c _ => ctxWf false c
  | .ringBackupSet c _ => ctxWf false c
  | .proofTakeover c _ => ctxWf false c
  | .unwrapHoldoffSet c _ => ctxWf false c
  | .effectiveCycleApply => true
  | .multipartTimeout _ => true
  | .sessionLeaseLapse _ => true
  | .suspendedSessionFree _ => true
  | .cmdqSqTailWrite _ => true
  | .cmdqCqHeadWrite _ => true
  | .cmdqRingCfgWrite _ => true
  | .submissionFetch bytes => decide (bytes.length ≤ 16384)
  | .completionWrite => true
  | .mntPointerWrite _ => true
  | .packetIn bytes _ => decide (bytes.length ≤ 65535)
  | .outAck _ => true
  | .inClear _ => true
  | .i2cAddressMatch _ => true
  | .csrWrite _ bar off size _ => decide (off < barSize bar) && decide (size ≤ 8)
  | .rxPop _ size => decide (size ≤ 16)
  | .windowTxPush _ _ => true
  | .enginePop _ size => decide (size ≤ 16)
  | .enginePush _ _ => true
  | .canObjectHeadRead _ _ => true
  | .canObjectEndRead _ _ => true
  | .canLockTimeout _ _ => true
  | .pciePushDrop => true
  | .windowPushTimeout _ => true
  | .lockExpiry _ => true
  | .lockWaitTimeout _ => true
  | .rstCtlCold _ _ _ => true
  | .rstCtlWarm _ _ _ => true
  | .rstCtlService _ _ _ => true
  | .rstCtlBlock _ _ _ => true
  | .commandResetAssert => true
  | .rstRecClr => true
  | .rstRecModeWrite _ => true
  | .powerOn _ => true
  | .brownOut _ _ => true
  | .vinOvervoltage _ _ => true
  | .vinStageOn _ _ => true
  | .vinStageLimit _ => true
  | .vinTrip _ => true
  | .pwrgdRise => true
  | .pwrgdFall _ => true
  | .thermal _ _ => true
  | .porstN _ => true
  | .wrstN _ => true
  | .watchdog _ => true
  | .critical _ => true
  | .resetRelease _ => true
  | .resetEnd => true
  | .bootStep _ => true
  | .spanAllowanceExpiry _ => true
  | .bootBeaconTimeout => true
  | .firstCycle => true
  | .cycleBoundary => true
  | .publish => true
  | .remoteGather => true
  | .packAndClose => true
  | .mapOverrun _ _ => true
  | .historyCopyDone => true
  | .outputRelease => true
  | .mbRoundOpen _ => true
  | .ringFrameRx _ bytes _ _ => decide (bytes.length ≤ 9600)
  | .outputFrameSend _ _ => true
  | .cycFrameRx => true
  | .streamFrameRx _ => true
  | .multicastReqRx => true
  | .deliveryReportRx => true
  | .multicastRoundEnd _ => true
  | .trainRx => true
  | .trainSend _ => true
  | .trainingTimeout _ => true
  | .fecLockTimeout _ => true
  | .losRise _ => true
  | .losFall _ => true
  | .moduleInsert _ page => match page with | some p => decide (p.length = 96) | none => true
  | .txfltRise _ => true
  | .txfltHoldEnd _ => true
  | .cageSupplyTrip _ => true
  | .livenessLoss _ => true
  | .keepMarkerSend _ => true
  | .ringPcfgWrite _ _ => true
  | .beaconRx => true
  | .holdoverEntry => true
  | .pdelayReqSend _ _ => true
  | .pdelayReqRx _ => true
  | .pdelayRspRx => true
  | .pdelayRspTimeout _ => true
  | .ackRx => true
  | .ackTimer _ _ => true
  | .replayNoAdvance _ _ => true
  | .gapTimeout _ _ _ => true
  | .wrapNoticeRx => true
  | .spanReportRx => true
  | .lightRx => true
  | .lightSend => true
  | .joinSend => true
  | .joinRx => true
  | .assignRx => true
  | .assignWaitTimeout => true
  | .unplannedRemoval _ => true
  | .unwrapHoldoffElapse _ => true
  | .unwrapStart _ => true
  | .drainRx => true
  | .drainTimeout _ _ => true
  | .masterLost => true
  | .masterTakeover => true
  | .masterHandBack _ => true
  | .proofFail => true
  | .beaconLost => true
  | .wakeRx => true
  | .pwrWakeTx _ => true
  | .syncInEdge _ => true
  | .ppsLost => true
  | .syncOutPulse => true
  | .timeSnapTake => true
  | .chnCtlEnable _ _ => true
  | .chnCtlDrain _ _ => true
  | .chnCtlAbort _ _ => true
  | .chnCtlReset _ _ => true
  | .channelJoin _ => true
  | .channelResetEnd _ => true
  | .drainComplete _ => true
  | .txItemComplete _ _ => true
  | .tatRelease _ => true
  | .statusReportWrite _ => true
  | .producerWriteResume _ => true
  | .serialRateConfirm _ _ => true
  | .rateDetectTimeout _ => true
  | .canRateConfirm _ _ _ => true
  | .serialFrameRx _ bytes ticks _ _ => decide (bytes.length ≤ 65535) && decide (ticks.length = bytes.length)
  | .canFrameRx _ record _ => decide (record.length ≤ 72)
  | .canAttemptEnd _ _ => true
  | .busOffRecovery _ => true
  | .onceWindowEnd _ => true
  | .canReqTimeout _ => true
  | .mbRequestStart _ => true
  | .mbReplyRx _ bytes _ _ => decide (bytes.length ≤ 65535)
  | .mbResponseTimeout _ => true
  | .mbBroadcastEnd _ => true
  | .iolPowerGood _ => true
  | .iolPowerLost _ => true
  | .iolWakeUp _ => true
  | .iolComTryEnd _ _ => true
  | .iolStartupDone _ page => decide (page.length = 16)
  | .iolMSequence _ how => match how with | .ok pd _ _ => decide (pd.length ≤ 32) | .repeat_ => true | .failed => true
  | .isduComplete _ how => match how with | .ok d => decide (d.length ≤ 232) | .deviceError _ _ => true
  | .isduTimeout _ => true
  | .iolDeviceEvent _ evs _ => decide (evs.length ≤ 6)
  | .iolDiEdge _ _ _ _ => true
  | .iolDqOverload _ => true
  | .discreteEdge _ _ _ _ => true
  | .dlLineTrip _ _ _ _ => true
  | .dlLineTripClear _ _ => true
  | .dlBankTrip _ _ _ => true
  | .dlBankTripClear _ => true
  | .dlBankUv _ _ => true
  | .engineStart _ => true
  | .engineStep _ _ => true
  | .leCtlHalt _ _ => true
  | .leCtlRestart _ _ => true
  | .leCtlReset _ _ => true
  | .scrubStep _ => true
  | .imageVerify _ _ => true
  | .outletStartOk _ => true
  | .outletOvercurrent _ _ => true
  | .tFltExpiry _ => true
  | .tStartExpiry _ => true
  | .outletTempTrip _ _ => true
  | .cooldownEnd _ => true
  | .tForgiveExpiry _ => true
  | .vfbUv _ _ => true
  | .junctionTempHigh _ => true
  | .plTransitionStep _ => true
  | .sleepEntry => true
  | .sleepPortsDown => true
  | .wakeSequenceEnd _ _ => true
  | .pwrVinStatClr => true
  | .injectedDetection _ => true
  | .faultLogCommit => true
  | .fltFfClear _ => true
  | .mapCfClear => true
  | .trialExpiry => true
  | .ownerLapse => true
  | .componentStart => true
  | .tagWordWrite off _ => decide (off < 0x2000)
  | .blockLock _ _ => true
  | .moduleRemove _ => true
  | .keepMarkerRx _ _ _ _ _ => true
  | .clampEvent _ _ => true
  | .lineGlitch _ _ => true
  | .canReceiveError _ _ _ _ => true
  | .rcRegisterRead _ bar off size => decide (off < barSize bar) && decide (size ≤ 4096)
  | .brsWaitExpiry _ => true

end Sys2Proof
end

