-- ==== Sys2Proof/Tests/Slice0.lean ====
section
/-! SUPPORT. Tests. For each statement a theorem `witness_…` shows states and operands that meet the hypotheses of its clauses, each
clause in its turn, at a bound of the range where it has one; the other theorems check well-formedness, the decoding of table words,
and single steps against values that the spec gives. -/

namespace Sys2Proof.Tests

set_option Elab.async false

open Sys2Proof Sys2Proof.Machine

/-! ## Small states -/

/-- The hypotheses of every clause hold. -/
def allMet (l : List Bool) : Bool := l.all id

/-- A header on the maintenance path: session 1, its expected tag, no flags. -/
def ctx (target : BitVec 16) : Ctx :=
  { path := .maint, session := 1, tag := 5, flags := 0, target := target, effc := none, part := 0 }

/-- A command for the hub itself. -/
def here : Ctx := ctx 0xFFFF

def ses : Session :=
  { num := 1, nonce := 7, path := .maint, rev := 4, window := 8, lease := 0, expected := 5, lastUp := 0, mask := 0xFFFFFFFF, evSeq := 0,
    events := [], lossPend := false, suspended := false, abortedCount := 0, firstAborted := 0 }

/-- A hub in RUN, long after its boot, with one open session. -/
def run : State :=
  { State.reset with
    hub := .run, time := { up := 1000000000 }, cmd := { sessions := [ses] }, reset_ := { bootStep := 8 } }

/-- The same with channel 0 as `c`, of personality `p`. -/
def withChan (p : Nat) (c : Chan) : State := { run with chans := [(0, c)], csr := [(0x80000, BitVec.ofNat 32 p)] }

/-- With engine 0 as `e`, enabled, 8 bits wide. -/
def withEngine (e : Engine) : State := { run with engines := [(0, e)], csr := [(0xC0000, 0x41)] }

/-- With outlet 0 as `o`, configured. -/
def withOutlet (o : Outlet) : State := { run with power := { outlets := [(0, o)] }, csr := [(0x30000, 0x10000000)] }

/-- The hypotheses that every host command's statement shares, and its own. -/
def met (c : Ctx) (op : Nat) (params : List Byte) (s : State) (good : State → Bool) : Bool :=
  s.cmd.inflight.isEmpty && s.cmd.heldPushes.isEmpty && s.cmd.pendingReset.isNone && c.effc.isNone && accepts c op params s
    && good (takenIn c op params s)

/-- The smallest configuration image up to its CRC: the header and one directory entry, which names an empty section (R437). -/
def imageBody : List Byte :=
  [0x4C, 0x59, 0x43, 0x46, 5, 1, 0, 0, 0x54, 0, 0, 0] ++ zeros 52 ++ [7, 0, 0, 0, 0x50, 0, 0, 0, 0, 0, 0, 0, 0, 0, 0, 0]

def image : List Byte := imageBody ++ [0xC7, 0x2B, 0x86, 0xAA]

/-- A frame from another node that waits for the local side in queue `cls`. -/
def frame (cls : Nat) (payload : List Byte) : Frame :=
  { cls := cls, dst := 4, src := 2, first := true, last := true, replay := false, twin := false, seq := 0, gen := 0, mgroup := 0, ccw := false,
    wrapped := false, hops := 1, stampId := 0, frag := 0, cycle := 0, payload := payload, ingress := .east, rxTime := 0, rxTick := 0,
    bankPrev := false, bankNode := 4, member := true, cells := [], cut := false, poison := false, eligible := true, arriving := none, head := [],
    frees := none }

/-! ## Host commands: reading the hub -/

theorem witness_QueriesOfTheHub : allMet [
    met here 0x0000 [] run (fun _ => True),
    met here 0x0003 [1, 2] run (fun _ => True),
    met here 0x0005 [] run (fun _ => True),
    met here 0x0700 [] run (fun _ => True),
    met here 0x0103 [] run (fun _ => True),
    met here 0x0904 [] run (fun _ => True),
    met here 0x0A00 [] run (fun _ => True),
    met here 0x0A01 [15] run (fun _ => True),
    met here 0x0B00 [] run (fun _ => True),
    met here 0x0B01 [] { run with ring := { light := some ⟨1, 1, 2, 0, 0, 2000, 0, 0, 0, []⟩ } }
        (fun u => u.ring.light = some ⟨1, 1, 2, 0, 0, 2000, 0, 0, 0, []⟩),
    met here 0x0104 ([1, 0xFE, 0, 0] ++ leBytes 4 76 ++ leBytes 4 4) { run with upd := { lehr := imageBody } }
        (fun u => u.upd.lehr = imageBody ∧ cfgPart imageBody 0xFE = some (0, 84))] = true := by decide +kernel

theorem witness_FaultLogReads : allMet [
    met here 0x0800 (leBytes 2 511 ++ leBytes 2 510) run (fun _ => True),
    met here 0x0800 (leBytes 2 512 ++ leBytes 2 1) run (fun _ => True),
    met here 0x0800 (leBytes 2 511 ++ leBytes 2 0) run (fun _ => True),
    met here 0x0800 (leBytes 2 511 ++ leBytes 2 511) run (fun u => slook u.faults.log 0 = none)] = true := by decide +kernel

theorem witness_QueriesOfTheField : allMet [
    met (ctx 0) 0x0207 [] run (fun u => (chan u 0).st ≠ .partner),
    met here 0x0303 [] run (fun _ => True),
    met (ctx 0) 0x0504 [] (withEngine {}) (fun u => leState u 0 ≠ .off),
    met (ctx 7) 0x0506 [] run (fun _ => True),
    met (ctx 31) 0x0602 [] run (fun _ => True),
    met here 0x0605 [] run (fun _ => True),
    met (ctx 0) 0x0703 [] { run with ring := { east := { span := .up, pd := { accepted := 8, samples := [65536] } } } }
        (fun u => pdValid u .east = true),
    met here 0x0301 (leBytes 4 0 ++ leBytes 2 1 ++ [0, 0] ++ leBytes 8 85)
        { run with maps := { lastClosed := some 100, history := [(5, ⟨85, [], []⟩)] } }
        (fun u => u.maps.lastClosed = some 100 ∧ (85 ≤ 100 ∧ 100 ≤ 85 + 15) ∧ (closedImage u 85).isSome = true
          ∧ u.maps.copying ≠ some 85 ∧ 100 < 2 ^ 48)] = true := by decide +kernel

/-! ## Host commands: sessions, memory, configuration -/

theorem witness_SessionOpens : ∃ (s : State) (n : Nat), s.cmd.inflight = [] ∧ s.cmd.heldPushes = [] ∧ s.cmd.pendingReset = none
    ∧ serves s .maint = true ∧ s.hub ≠ .boot ∧ s.hub ≠ .off ∧ inFlight s < 256 ∧ (9 : DWord) ≠ 0 ∧ max 1 1 ≤ min 4 4
    ∧ (∀ x ∈ s.cmd.sessions, x.nonce ≠ 9) ∧ freeNumber s = some n := ⟨run, 2, by decide +kernel⟩

theorem witness_SessionAndMemoryCommands : allMet [
    met here 0x0002 [] run (fun u => u.upd.owner = none ∧ sess u 1 = some { ses with expected := 6, lastUp := 1000000000 }),
    met here 0x0006 (leBytes 4 0xFFFFFFFF) run (fun _ => True),
    met here 0x0004 (leBytes 2 4)
        { run with cmd := { sessions := [ses], retained := [⟨1, 4, 0, .ok, [], 7, false, false⟩] } }
        (fun u => sess u 1 = some { ses with expected := 6, lastUp := 1000000000 } ∧ 0x8000 ≤ ((4 : Tag) - 6).toNat
          ∧ retainedOf u { ses with expected := 6, lastUp := 1000000000 } 4 = some ⟨1, 4, 0, .ok, [], 7, false, false⟩),
    met here 0x0007 (leBytes 8 0x14FFFC ++ leBytes 4 4) run (fun _ => inBlock 0x14FFFC = true),
    met here 0x0008 (leBytes 8 0x50604 ++ [0] ++ leBytes 3 0 ++ leBytes 4 10) run
        (fun u => inBlock 0x50604 = true ∧ (csrWrite 0x50604 10 u).cmd.inflight = u.cmd.inflight)] = true := by decide +kernel

/-- The register of the CRC-32C after a run of bytes. -/
def reg (bs : List Byte) (r : Nat) : Nat := bs.foldl (fun r d => crcByte 32 0x1EDC6F41 r (reflect 8 d.toNat)) r

theorem reg_append (a b : List Byte) (r : Nat) : reg (a ++ b) r = reg b (reg a r) := List.foldl_append

theorem crc32c_eq_reg (bs : List Byte) : crc32c bs = Nat.xor (reflect 32 (reg bs 0xFFFFFFFF)) 0xFFFFFFFF := rfl

theorem image_split : imageBody = imageBody.take 24 ++ (zeros 32 ++ imageBody.drop 56) := by decide +kernel
theorem image_crc_1 : reg (imageBody.take 24) 4294967295 = 2378101947 := by decide +kernel
theorem image_crc_2 : reg (zeros 32) 2378101947 = 647900809 := by decide +kernel
theorem image_crc_3 : reg (imageBody.drop 56) 647900809 = 472620714 := by decide +kernel

theorem image_crc : reg imageBody 4294967295 = 472620714 :=
  (congrArg (reg · 4294967295) image_split).trans ((reg_append _ _ _).trans ((congrArg (reg _) image_crc_1).trans
    ((reg_append _ _ _).trans ((congrArg (reg _) image_crc_2).trans image_crc_3))))

theorem crc_of_the_image : crc32c imageBody = 0xAA862BC7 := by
  rw [crc32c_eq_reg, image_crc]
  decide +kernel

theorem image_head : headVerdict image = none := by decide +kernel
theorem image_sections : (directory image).find? (fun d => crc32c (slice image d.off d.size) != d.crc) = none := by decide +kernel
theorem image_before_crc : image.take (imgLength image - 4) = imageBody := by decide +kernel
theorem image_last_word : imgCrc image = 0xAA862BC7 := by decide +kernel

theorem crcVerdict_of_good (b : List Byte) (h : (directory b).find? (fun d => crc32c (slice b d.off d.size) != d.crc) = none)
    (g : crc32c (b.take (imgLength b - 4)) = imgCrc b) : crcVerdict b = none := by
  simp [crcVerdict, h, g]

theorem validate_of_good (u : State) (b : List Byte) (a : headVerdict b = none) (c : crcVerdict b = none)
    (h : firstPlace (contentFaults u b) = none) (g : firstPlace (budgetFaults u b) = none) : (validate u b).cause = 0 := by
  simp [validate, a, c, h, g, Verdict.pass]

theorem image_crcs : crcVerdict image = none :=
  crcVerdict_of_good image image_sections (((congrArg crc32c image_before_crc).trans crc_of_the_image).trans image_last_word.symm)

/-- The hub with the smallest image in its lehr slot. -/
def staged : State := { run with upd := { State.reset.upd with lehr := image, lehrSt := .complete } }

theorem witness_ConfigCommands : allMet [
    met here 0x0100 (leBytes 4 0 ++ image) run (fun u => u.upd.owner = none ∧ 64 ≤ image.length ∧ rd image 0 4 = 0x4643594C
      ∧ rd image 8 4 ≤ 7340032 ∧ rd image 4 1 = 5 ∧ u.upd.lehrSt ≠ .kept ∧ image.length ≤ rd image 8 4),
    met here 0x0101 [] staged (fun u => u.upd.lehr = image ∧ u.upd.lehrSt ≠ .kept),
    met here 0x0102 [] staged (fun u => u.upd.lehr = image ∧ u.upd.lehrSt ≠ .kept ∧ u.hub ≠ .held
      ∧ readsFormat (actSlot (comp u 2)) (imgFormat u.upd.lehr) = true)] = true := by decide +kernel

/-- The image of the last two passes its validation, and validation leaves the firmware slots and the image as they are. -/
theorem witness_ConfigCommands_valid : (validate (takenIn here 0x0101 [] staged) image).cause = 0
    ∧ (validate (takenIn here 0x0102 [] staged) image).cause = 0
    ∧ ∀ u, (lehrValidate u).2.upd.comps = u.upd.comps ∧ (lehrValidate u).2.upd.lehr = u.upd.lehr := by
  refine ⟨validate_of_good _ _ image_head image_crcs (by decide +kernel) (by decide +kernel),
    validate_of_good _ _ image_head image_crcs (by decide +kernel) (by decide +kernel), fun u => ?_⟩
  have n (v : Verdict) : (cvNoteImage u.upd.lehr v u).upd = u.upd := by
    unfold cvNoteImage
    repeat' split
    all_goals rfl
  unfold lehrValidate
  dsimp only
  split <;> simp [n, modUpd]

/-! ## Host commands: channels -/

def item (seq : Nat) (p : Producer) : TxItem := { seq := seq, release := none, data := [1, 2], producer := p, bad := none, attempts := 0 }

theorem witness_ChannelEnables : allMet [
    met (ctx 0) 0x0200 [] (withChan 1 { st := .disabled }) (fun u => (chan u 0).st = .disabled),
    met (ctx 0) 0x0200 [] (withChan 1 { st := .alone }) (fun u => (chan u 0).st = .alone),
    met (ctx 0) 0x0200 [] (withChan 1 { st := .joining }) (fun u => (chan u 0).st = .joining),
    met (ctx 0) 0x0201 [0] (withChan 1 { st := .active, txq := [item 0 .push] }) (fun u => (chan u 0).st = .active ∧ (chan u 0).txq ≠ []),
    met (ctx 0) 0x0201 [0] (withChan 1 { st := .disabled }) (fun u => (chan u 0).st = .disabled)] = true := by decide +kernel

def quiet (c : Chan) : Bool :=
  c.txq.isEmpty && c.detect.isNone && c.enabling.isNone && c.stalled.isEmpty && c.can.reqs.isEmpty && c.mb.exchange.isNone
    && c.mb.waiting.isEmpty && c.iol.isdu.isEmpty && c.draining.isEmpty && c.can.onBus.isNone

theorem witness_ChannelResets : allMet [
    met (ctx 127) 0x0202 [] { run with chans := [(127, { st := .detect })] } (fun u => (chan u 127).st ≠ .off ∧ quiet (chan u 127) = true),
    met (ctx 0) 0x0201 [1] (withChan 1 { st := .joining }) (fun u => (chan u 0).st = .joining ∧ quiet (chan u 0) = true)] = true := by
  decide +kernel

theorem witness_ChannelData : allMet [
    met (ctx 0) 0x0204 (leBytes 8 0 ++ leBytes 2 1 ++ [9]) (withChan 1 { st := .active })
      (fun u => lockFits (ctx 0) u = true ∧ mbOn u 0 = false ∧ pers u 0 ≠ 4 ∧ (chan u 0).st = .active
        ∧ txFits u 0 ⟨0, none, [9], .send 1 5, none, 0⟩ = true),
    met (ctx 0) 0x0204 (leBytes 8 (500000000000 + 20000) ++ leBytes 2 1 ++ [9]) (withChan 1 { st := .alone })
      (fun u => lockFits (ctx 0) u = true ∧ mbOn u 0 = false ∧ pers u 0 ≠ 4 ∧ (chan u 0).st = .alone
        ∧ releaseStatus (tickNow u) (500000000000 + 20000) = none ∧ txFits u 0 ⟨0, some (onGrid (500000000000 + 20000)), [9], .send 1 5, none, 0⟩ = true),
    met (ctx 0) 0x0205 (leBytes 2 1) (withChan 1 { st := .active })
      (fun u => (chan u 0).st ≠ .partner ∧ (chan u 0).pendRpt = none ∧ (chan u 0).rxq = []),
    met (ctx 0) 0x0205 (leBytes 2 1) (withChan 1 { st := .active, rxq := packetWords 7 [3, 4] })
      (fun u => (chan u 0).st ≠ .partner ∧ (chan u 0).pendRpt = none ∧ claimedRead u 0 = false
        ∧ firstPacket (chan u 0).rxq = some (packetWords 7 [3, 4]) ∧ wordKind (qWord false 1 0 7) = 1),
    met (ctx 0) 0x0206 [] (withChan 3 { st := .alone }) (fun u => (chan u 0).st = .alone)] = true := by decide +kernel

/-! ## Host commands: signals -/

theorem witness_SignalCommands : allMet [
    met here 0x0300 (leBytes 4 0 ++ leBytes 2 1 ++ leBytes 2 0 ++ wordsBytes [1]) { run with maps := { descs := [(0, [0, 0, 1] ++ zeros 9)] } }
      (fun u => (slotEntries 0 [1]).all (fun x => hostEntryOk u 0 1 x.1 x.2) = true),
    met here 0x0300 (leBytes 4 0 ++ leBytes 2 1 ++ leBytes 2 0 ++ wordsBytes [7]) run
      (fun u => (slotEntries 0 [7]).all (fun x => hostEntryOk u 0 1 x.1 x.2) = false),
    met here 0x0302 (leBytes 4 0 ++ leBytes 2 1 ++ leBytes 2 0 ++ zeros 32) run
      (fun u => mapVerdict (changeView u (viewAt (cycleNow u + 1) u) (.rules 1 5 (cycleNow u + 1) 0 (zeros 32))) = none),
    met here 0x0302 (leBytes 4 0 ++ leBytes 2 1 ++ leBytes 2 0 ++ (255 :: zeros 31)) run
      (fun u => (mapVerdict (changeView u (viewAt (cycleNow u + 1) u) (.rules 1 5 (cycleNow u + 1) 0 (255 :: zeros 31)))).isSome),
    met here 0x0305 ([9, 0] ++ leBytes 2 0 ++ leBytes 4 3) { run with maps := { subs := [⟨9, 1, 3, 1⟩] } }
      (fun u => (viewAt (cycleNow u + 1) u).subs.any (fun x => x.node == 9 && x.local_ == 3)),
    met here 0x0304 ([9, 0] ++ leBytes 2 1 ++ leBytes 4 1 ++ leBytes 4 3) { run with ring := { node := 4 } }
      (fun u => 9 ≠ u.ring.node ∧ ringSends u = true
        ∧ subVerdict (cycleNow u + 1) { node := 9, remote := 1, local_ := 3, count := 1 } u = none)] = true := by decide +kernel

/-! ## Host commands: transactions -/

/-- Channel 0 a serial line with the Modbus service. -/
def modbus (c : Chan) : State := { run with chans := [(0, c)], csr := [(0x80000, 1), (0x80200, 1)] }

def mbMay (u : State) : Bool :=
  lockFits (ctx 0) u && (lockedBy u 0).isNone && (chan u 0).lockWaits.isEmpty && mbOn u 0 && !isPartner (pers u) 0 && (chan u 0).st == .active

theorem witness_FieldTransactions_modbus : allMet [
    met (ctx 0) 0x0400 ([247, 4] ++ leBytes 2 65411 ++ leBytes 2 125) (modbus { st := .active }) mbMay,
    met (ctx 0) 0x0400 ([1, 2] ++ leBytes 2 0 ++ leBytes 2 2000) (modbus { st := .active }) mbMay,
    met (ctx 0) 0x0401 ([0, 5] ++ leBytes 2 65535 ++ leBytes 2 1 ++ [1]) (modbus { st := .active }) mbMay,
    met (ctx 0) 0x0401 ([9, 6] ++ leBytes 2 0 ++ leBytes 2 1 ++ [1, 2]) (modbus { st := .active }) mbMay,
    met (ctx 0) 0x0401 ([9, 15] ++ leBytes 2 0 ++ leBytes 2 9 ++ [1, 1]) (modbus { st := .active }) mbMay,
    met (ctx 0) 0x0401 ([9, 16] ++ leBytes 2 0 ++ leBytes 2 1 ++ [1, 2]) (modbus { st := .active }) mbMay,
    met (ctx 0) 0x0402 ([9, 0] ++ leBytes 2 0 ++ leBytes 2 1 ++ leBytes 2 5 ++ leBytes 2 1 ++ [1, 2]) (modbus { st := .active }) mbMay] = true := by
  decide +kernel

/-- Channel 0 an IO-Link port in IOL_AUTOSTART. -/
def iolink (c : Chan) : State := { run with chans := [(0, c)], csr := [(0x80000, 4), (0x80300, 2)] }

theorem witness_FieldTransactions : allMet [
    met (ctx 0) 0x0403 (leBytes 2 16 ++ [0, 0]) (iolink { st := .active, iol := { st := .operate } })
      (fun u => lockFits (ctx 0) u = true ∧ lockedBy u 0 = none ∧ (chan u 0).lockWaits = [] ∧ iolLive u 0 = true ∧ (chan u 0).iol.st = .operate),
    met (ctx 0) 0x0403 (leBytes 2 16 ++ [0, 0]) (iolink { st := .joining, iol := { st := .wake } })
      (fun u => lockFits (ctx 0) u = true ∧ lockedBy u 0 = none ∧ (chan u 0).lockWaits = [] ∧ pers u 0 = 4 ∧ (chan u 0).iol.st = .wake),
    met (ctx 0) 0x0404 (leBytes 2 16 ++ [0, 0] ++ [7]) (iolink { st := .active, iol := { st := .preoperate } })
      (fun u => lockFits (ctx 0) u = true ∧ lockedBy u 0 = none ∧ (chan u 0).lockWaits = [] ∧ iolLive u 0 = true
        ∧ (chan u 0).iol.st = .preoperate),
    met (ctx 0) 0x0405 (leBytes 2 1 ++ leBytes 2 0 ++ leBytes 4 5 ++ leBytes 4 0x7FF ++ zeros 8) (withChan 3 { st := .active })
      (fun u => lockFits (ctx 0) u = true ∧ lockedBy u 0 = none ∧ (chan u 0).lockWaits = [] ∧ pers u 0 = 3
        ∧ recordFault (fdEn u 0) false (zeros 8) = none ∧ (chan u 0).st = .active ∧ (chan u 0).stalled = []
        ∧ txFits (modCan 0 (fun x => { x with reqs := x.reqs ++ [⟨1, 5, 5, 0x7FF, 1, 2 ^ 32, false, u.time.up⟩] }) u) 0
            { seq := 0, release := none, data := zeros 8, producer := .txn 1 5, bad := none, attempts := 0 } = true)] = true := by
  decide +kernel

theorem witness_WindowTransactions : allMet [
    met (ctx 0x100) 0x0406 (leBytes 2 1) (withEngine { st := .run, push := [(3, 3)] })
      (fun u => lockFits (ctx 0x100) u = true ∧ lockedBy u 0x100 = none ∧ (chan u 0x100).lockWaits = [] ∧ engineOff u 0x100 = false
        ∧ partnerAt u 0x100 = false ∧ claimedRead u 0x100 = false),
    met (ctx 0) 0x0407 (wordsBytes [qWord true 0 1 9]) (withChan 1 { st := .active })
      (fun u => lockFits (ctx 0) u = true ∧ lockedBy u 0 = none ∧ (chan u 0).lockWaits = [] ∧ partnerAt u 0 = false
        ∧ wordEnd (qWord true 0 1 9) = true ∧ pushDenied u 0 = false ∧ (chan u 0).st = .active ∧ wordRoom u 0 1 = true),
    met (ctx 0) 0x0408 (leBytes 4 0xFFFFFFFF ++ leBytes 2 1) (withChan 1 { st := .active, history := [(0xFFFFFFFF, 8)] })
      (fun u => engineOff u 0 = false ∧ partnerAt u 0 = false
        ∧ (historyOf u 0).find? (fun x => x.1 == 0xFFFFFFFF) = some (0xFFFFFFFF, 8) ∧ 2 ^ 31 ≤ (0xFFFFFFFF + 2 ^ 32 - popSeqOf u 0) % 2 ^ 32),
    met (ctx 0) 0x0409 (leBytes 2 100) (modbus { st := .active })
      (fun u => lockFits (ctx 0) u = true ∧ lockedBy u 0 = none ∧ (chan u 0).lockWaits = [] ∧ partnerAt u 0 = false ∧ mbOn u 0 = true),
    met (ctx 0) 0x040A [] { modbus { st := .active } with cmd := { sessions := [ses], locks := [(0, ⟨1, .maint, 2000000000, 0⟩)] } }
      (fun u => lockedBy u 0 = some ⟨1, .maint, 2000000000, 0⟩),
    met (ctx 0) 0x040A [] (modbus { st := .active }) (fun u => lockedBy u 0 = none)] = true := by decide +kernel

/-! ## Host commands: lines and engines, power, time, faults -/

/-- Lines 0 and 1 push-pull outputs of the host. -/
def lines : State := { run with csr := [(0xE0000, 4), (0xE0004, 4)] }

theorem witness_LineAndEngineCommands : allMet [
    met (ctx 0) 0x0505 (leBytes 2 1 ++ leBytes 2 3) lines
      (fun u => isOutput u 0 = true ∧ isOutput u 1 = true ∧ dlOwn u 0 = 0 ∧ dlOwn u 1 = 0 ∧ (List.range 16).all (fun i => !bit 3 i || i < 2)),
    met (ctx 0) 0x0505 (leBytes 2 1 ++ leBytes 2 4) lines (fun u => bit 4 2 = true ∧ isOutput u 2 = false),
    met (ctx 0) 0x0502 [0] (withEngine {}) (fun u => leState u 0 = .idle),
    met (ctx 0) 0x0502 [1] (withEngine { st := .halted, hwidth := 8 }) (fun u => leState u 0 = .halted ∧ leWidth u 0 = (engine u 0).hwidth),
    met (ctx 0) 0x0502 [0] (withEngine { st := .stallPush }) (fun u => leActive (leState u 0)),
    met here 0x0503 (leBytes 4 1 ++ leBytes 8 1000000040) (withEngine {})
      (fun u => (List.range 32).all (fun e => !bit 1 e || leState u e == .idle) ∧ tickNow u + 40 ≤ 1000000040),
    met (ctx 0) 0x0501 (leBytes 2 0 ++ leBytes 2 1 ++ [0x20, 0, 0]) (withEngine {})
      (fun u => leState u 0 = .idle ∧ entryOk (rd [0x20, 0, 0] 0 3) = true),
    met (ctx 0) 0x0500 [] (withEngine {}) (fun u => leState u 0 = .idle),
    met (ctx 0) 0x0501 (leBytes 2 0 ++ leBytes 2 1 ++ [0x20, 0, 0]) (withEngine { st := .run }) (fun u => leActive (leState u 0)),
    met (ctx 0) 0x0500 [] (withEngine { st := .wait }) (fun u => leState u 0 = .wait ∧ (engine u 0).halting = [] ∧ (engine u 0).stalled = none),
    met (ctx 0) 0x0500 [] (withEngine { st := .run }) (fun u => leState u 0 = .run)] = true := by decide +kernel

theorem witness_PowerCommands : allMet [
    met here 0x0603 [3] run (fun _ => True),
    met here 0x0604 [3] run (fun u => u.upd.owner = none ∧ u.power.sleepAt = none ∧ u.master.role = 0),
    met here 0x0604 [2] { run with master := { role := 1 } } (fun u => u.master.role ≠ 0),
    met (ctx 0) 0x0600 [0] (withOutlet { st := .on }) (fun u => (outlet u 0).st ≠ .supplyOff),
    met (ctx 0) 0x0600 [1] (withOutlet { st := .off }) (fun u => outEn u 0 = true ∧ (outlet u 0).st = .off ∧ (outlet u 0).deciC < 1000),
    met (ctx 1) 0x0600 [1] run (fun u => outEn u 1 = false),
    met (ctx 0) 0x0601 [] (withOutlet { st := .cooldown }) (fun u => (outlet u 0).st = .cooldown),
    met (ctx 0) 0x0601 [] (withOutlet { st := .latched, cmd := true })
      (fun u => (outlet u 0).st = .latched ∧ (outlet u 0).cmd = true ∧ (outlet u 0).deciC < 1000)] = true := by decide +kernel

theorem witness_TimeCommands : allMet [
    met here 0x0701 (leBytes 8 500000000000 ++ leBytes 4 0 ++ leBytes 4 20) run (fun u => nsNow u ≤ ceilDiv 500000000000 5 * 5),
    met here 0x0701 (leBytes 8 0 ++ leBytes 4 1000 ++ leBytes 4 980) run (fun _ => 1000 % 5 = 0 ∧ 980 % 5 = 0 ∧ 980 + 20 ≤ 1000),
    met here 0x0701 (leBytes 8 0 ++ leBytes 4 995 ++ leBytes 4 20) run (fun _ => True),
    met (ctx 0) 0x0702 [1] run (fun _ => True),
    met (ctx 1) 0x0702 [1] run (fun _ => True)] = true := by decide +kernel

/-- With source 0x0301 as `x`. -/
def withSource (x : Source) : State := { run with faults := { sources := [(0x0301, x)] } }

theorem witness_FaultCommands : allMet [
    met here 0x0801 (leBytes 2 0x0301) (withSource { st := .pending }) (fun u => (sourceRow 0x0301).isSome ∧ (faultSrc u 0x0301).st = .pending),
    met here 0x0801 (leBytes 2 0x0301) run (fun u => (faultSrc u 0x0301).st = .idle),
    met here 0x0801 (leBytes 2 0x0303) { run with faults := { sources := [(0x0303, { st := .active })] } }
      (fun u => (sourceRow 0x0303).isSome ∧ (faultSrc u 0x0303).st = .active),
    met here 0x0802 (leBytes 2 0x0301) { run with csr := [(0x110000, 1)] }
      (fun u => codedSource 0x0301 = false ∧ fld u 0x110000 0 1 = 1 ∧ (faultSrc u 0x0301).injPend = false),
    met here 0x0802 (leBytes 2 0x0703) { run with csr := [(0x110000, 1)] }
      (fun u => (sourceRow 0x0703).isSome ∧ codedSource 0x0703 = true ∧ fld u 0x110000 0 1 = 1 ∧ (faultSrc u 0x0703).injPend = false
        ∧ u.maps.phase ≠ .stageA),
    met here 0x0802 (leBytes 2 0x0301) run (fun u => fld u 0x110000 0 1 = 0),
    met here 0x0801 (leBytes 2 0xFFFF) (withSource { st := .pending })
      (fun u => sourceTable.any (fun r => (faultSrc (clearPending u) r.1).st == .active) = false),
    met here 0x0803 (leBytes 2 0x0301 ++ [1]) run (fun _ => reactOk 0x0301 1),
    met here 0x0803 (leBytes 2 0x0301 ++ [0xFF]) run (fun _ => !reactOk 0x0301 0xFF)] = true := by decide +kernel

/-! ## Host commands: update and ring -/

/-- Component 2 has a received image of version 1.0.0 in its other slot, in slot state `st`. -/
def withImage (st : SlotSt) (u : UpdState) : State :=
  { run with upd := { u with
      comps := [factoryComp 0 0, factoryComp 1 0, { factoryComp 2 0 with b := { st := st, bytes := factoryImage 2 } }, factoryComp 3 0]
      ident := factoryIdent, active := imageBody, owner := some (1, .maint) } }

theorem witness_UpdateCommands : allMet [
    met here 0x0A02 ([15] ++ leBytes 3 0 ++ zeros 252) run (fun u => bit u.upd.tagLocks 15 = false),
    met here 0x0A02 ([15] ++ leBytes 3 0 ++ zeros 252) { run with upd := { tagLocks := 2 ^ 15 } } (fun u => bit u.upd.tagLocks 15 = true),
    met here 0x0A03 [15] { run with upd := { tagLocks := 2 ^ 15 } } (fun u => bit u.upd.tagLocks 15 = true),
    met here 0x0900 ([3, 0] ++ leBytes 2 0 ++ leBytes 4 1 ++ zeros 99)
      { run with upd := { owner := some (1, .maint), recv := some (3, 100), recvCount := 1 } }
      (fun u => u.upd.owner = some (1, .maint) ∧ u.upd.recv = some (3, 100) ∧ u.upd.recvCount = 1 ∧ 1 + (zeros 99).length ≤ 100),
    met here 0x0901 [2] (withImage .complete {}) (fun u => u.upd.owner = some (1, .maint) ∧ (othSlot (comp u 2)).st = .complete
      ∧ u.upd.comps.length = 4 ∧ u.upd.idBad = false ∧ u.upd.trial = none ∧ (signKey u (rd (othSlot (comp u 2)).bytes 6 1)).isSome = true
      ∧ compatible u 2 (othSlot (comp u 2)).bytes = true ∧ readsFormat (othSlot (comp u 2)) (imgFormat u.upd.active) = true),
    met here 0x0902 [2] (withImage .trial { trial := some (2, 5) })
      (fun u => u.upd.trial = some (2, 5) ∧ u.upd.comps.length = 4 ∧ (othSlot (comp u 2)).st = .trial ∧ u.upd.recv = none),
    met here 0x0902 [0] run (fun u => u.upd.trial = none),
    met here 0x0903 [] (withImage .complete {})
      (fun u => u.upd.owner = some (1, .maint) ∧ u.upd.trial = none ∧ u.upd.recv = none),
    met here 0x0903 [] (withImage .trial { trial := some (2, 5) })
      (fun u => u.upd.owner = some (1, .maint) ∧ u.upd.trial.isSome = true)] = true := by decide +kernel

/-- 28 bytes of 0 from one register value to the next. -/
theorem reg_zeros (n r t : Nat) (h : reg (zeros 28) r = t) : reg (zeros (28 + n)) r = reg (zeros n) t := by
  rw [← h]
  simp only [zeros, ← List.replicate_append_replicate, reg_append]

/-- The CRC-32C of the 252 content bytes 0 of an empty record. -/
theorem crc_of_an_empty_record : crc32c (zeros 252) = 1743147809 := by
  have e : reg (zeros 252) 4294967295 = 2067109913 :=
    (reg_zeros 224 4294967295 1763470352 (by decide +kernel)).trans <|
    (reg_zeros 196 1763470352 2259426647 (by decide +kernel)).trans <|
    (reg_zeros 168 2259426647 2788561968 (by decide +kernel)).trans <|
    (reg_zeros 140 2788561968 547315945 (by decide +kernel)).trans <|
    (reg_zeros 112 547315945 1202654591 (by decide +kernel)).trans <|
    (reg_zeros 84 1202654591 4147691301 (by decide +kernel)).trans <|
    (reg_zeros 56 4147691301 1820390962 (by decide +kernel)).trans <|
    (reg_zeros 28 1820390962 2540740845 (by decide +kernel)).trans <|
    (show reg (zeros 28) 2540740845 = 2067109913 by decide +kernel)
  rw [crc32c_eq_reg, e]
  decide +kernel

/-- An empty record with its good CRC. -/
def tagged : State := { run with upd := { tags := [(252, 0x21), (253, 0x53), (254, 0xE6), (255, 0x67)] } }

/-- TAG_LOCK of a record with a good CRC. -/
theorem witness_UpdateCommands_lock :
    met here 0x0A03 [0] tagged (fun u => bit u.upd.tagLocks 0 = false ∧ u.upd.tags = tagged.upd.tags) = true
      ∧ tagCrcBad tagged 0 = false := by
  refine ⟨by decide +kernel, ?_⟩
  have b : tagBytes tagged (256 * 0) 256 = zeros 252 ++ [0x21, 0x53, 0xE6, 0x67] := by decide +kernel
  simp only [tagCrcBad, b]
  have t : (zeros 252 ++ [0x21, 0x53, 0xE6, 0x67]).take 252 = zeros 252 := by decide +kernel
  have c : rd (zeros 252 ++ [0x21, 0x53, 0xE6, 0x67]) 252 4 = 1743147809 := by decide +kernel
  rw [t, c, crc_of_an_empty_record]
  rfl

def entry (node : Nat) (flags : Byte) : LightEntry :=
  { node := node, flags := flags, state := 0, role := 0, uid := 0, east := 0, west := 0, eastPeer := 0, westPeer := 0, code := 0, step := 0,
    cfgCrc := 0, members := [], grant := 0 }

/-- A light list of nodes 1, 2 and 3, all present and able to be master; node 1 is master and node 2 backup. -/
def light : LightList :=
  { gen := 1, master := 1, backup := 2, ringId := 0, flags := 0, n := 2000, effective := 0, cycUsed := 0, cycLimit := 0,
    entries := [entry 1 0xFF, entry 2 0xFF, entry 3 0xFF] }

theorem witness_RingCommands : allMet [
    met (ctx 0) 0x0B02 [0] run (fun _ => True),
    met (ctx 1) 0x0B02 [1] run (fun u => (portSt u (portOf 1)).span = .adminDown),
    met here 0x0B03 [3] { run with master := { role := 1 }, ring := { node := 1, light := some light } }
      (fun u => isMaster u = true ∧ newestLight u = some light ∧ light.master ≠ 3
        ∧ light.entries.any (fun e => e.node == 3 && entryPresent e && bit e.flags.toNat 4)),
    met here 0x0B04 (leBytes 4 0xFFFFFFFF) { run with master := { role := 1 }, ring := { node := 1, light := some light } }
      (fun u => u.master.role = 1 ∧ u.master.stopped = false ∧ backupNode u ≠ 0),
    met (ctx 0) 0x0B05 (leBytes 4 10) run (fun _ => 10 ≤ 10 ∧ 10 ≤ 3600000),
    met (ctx 1) 0x0B05 (leBytes 4 3600000) run (fun _ => 10 ≤ 3600000 ∧ 3600000 ≤ 3600000),
    met (ctx 0) 0x0B05 (leBytes 4 9) run (fun _ => 9 < 10 ∨ 3600000 < 9),
    met (ctx 0) 0x0B05 (leBytes 4 3600001) run (fun _ => 3600001 < 10 ∨ 3600000 < 3600001)] = true := by decide +kernel

/-! ## Command transport -/

/-- A DL_WRITE, SUB_ADD or PL_SET that waits for its cycle, or another command, in phase `p`. -/
def waits (op : Nat) (params : List Byte) (p : Phase) (effc : Option DWord) : Cmd :=
  { path := .maint, session := 1, tag := 5, opcode := op, flags := 0, target := 0, effc := effc, params := params, tick := 0, up := 0, rev := 4,
    phase := p, repeats := 0, effected := false }

/-- The hub with one command in flight. -/
def busyWith (x : Cmd) : State := { run with cmd := { sessions := [ses], inflight := [x] } }

/-- What a command held to cycle `k` meets at its boundary. -/
def due (x : Cmd) (k : Nat) (s : State) : Bool :=
  s.cmd.pendingReset = none ∧ s.reset_.inReset = false ∧ s.cmd.inflight = [x] ∧ k * s.maps.n ≤ tickNow s ∧ s.power.plCmds = []
    ∧ bit x.flags.toNat 3 = false

def heldWrite : Cmd := waits 0x0505 (leBytes 2 1 ++ leBytes 2 3) (.heldUntil 500000 []) (some 500000)
def heldSub : Cmd := waits 0x0305 ([9, 0] ++ leBytes 2 0 ++ leBytes 4 3) (.heldUntil 500000 []) none
def heldLevel : Cmd := waits 0x0603 [3] (.heldUntil 500000 []) none

theorem witness_SessionEvents : allMet [
    (let s := { lines with cmd := { sessions := [ses], inflight := [heldWrite] } }
     due heldWrite 500000 s && dlMaskOk s 0 3),
    due heldSub 500000 (busyWith heldSub),
    (let s := busyWith heldLevel
     due heldLevel 500000 s && decide (3 ≠ s.power.level) && fitsAt (nowView s) 3 && s.power.plTarget.isNone),
    (let s := { run with cmd := { sessions := [ses], partials := [⟨waits 0x0900 [] .waiting none, 1, 1000000000 - 200000⟩] } }
     s.cmd.partials.find? (fun a => a.cmd.session == 1) = some ⟨waits 0x0900 [] .waiting none, 1, 1000000000 - 200000⟩
       ∧ 1000000000 - 200000 + 200000 ≤ s.time.up),
    (let s := { run with cmd := { sessions := [{ ses with lease := 5, lastUp := 990000000 }] } }
     sess s 1 = some { ses with lease := 5, lastUp := 990000000 } ∧ 990000000 + 5 * 2000000 ≤ s.time.up ∧ s.upd.owner = none),
    (let s := { run with cmd := { sessions := [{ ses with suspended := true }], leftBootUp := 1000000000 - 120000000 } }
     sess s 1 = some { ses with suspended := true } ∧ s.hub ≠ .boot ∧ s.hub ≠ .off ∧ s.reset_.inReset = false
       ∧ s.cmd.leftBootUp + 120000000 ≤ s.time.up ∧ s.upd.owner = none)] = true := by decide +kernel

/-- The hub with both command rings of the smallest size running. -/
def rings (c : CmdState) (tails : Sparse Word) : State := { run with csr := [(0x140048, 0x14)] ++ tails, cmd := c }

theorem witness_QueueRegisters : allMet [
    barFree run && decide (4 ≤ 8 % 16 ∧ 8 % 16 ≤ 8) && decide (9 % 16 < 4 ∨ 8 < 9 % 16) && decide (3 % 16 < 4 ∨ 8 < 3 % 16),
    (let s := rings {} [(0x14004C, 1), (0x140050, 0)]
     ringsOn s = true ∧ sqWaits s = true ∧ cqFull s = false ∧ serves s .pcie = true ∧ fetchHeld s = false),
    (let f := { frame 4 [7] with src := 0 }
     let s := { rings {} [] with sw := { queues := [(qKey .pcie 4, [f])] } }
     ringsOn s = true ∧ cqFull s = false ∧ barServes s = true ∧ swf [] s.sw.queues = true ∧ swf [] s.cmd.cqSlots = true
       ∧ (pickClass .pcie s).map (·.1) = some 4 ∧ queueOf s .pcie 4 = [f]),
    (let f := frame 3 [7]
     let s := { run with sw := { queues := [(qKey .pcie 3, [f])] } }
     ringsOn s = false ∧ cqFull s = false ∧ barServes s = true ∧ (pickClass .pcie s).map (·.1) = some 3 ∧ f.src ≠ 0),
    (pickClass .pcie run).isNone] = true := by decide +kernel

theorem witness_MaintenancePort : allMet [
    mntServes run && decide ((0x31 : Byte).toNat ∈ [0x00, 0x01, 0x03, 0x10, 0x20, 0x30, 0x31]),
    mntServes run && decide (([] : List Byte).length < 16) && decide ((zeros 16).length ≠ announced (zeros 16)),
    mntServes run && decide (16 ≤ (zeros 20).length ∧ (zeros 20).length = announced (zeros 20)),
    (let s := { run with cmd := { mntOut := [(7, [1])] } }
     mntServes s && decide (s.cmd.mntOut = [(7, [1])])),
    (let s := { run with hub := .sleep, power := { sleepLevel := 1 } }
     (0x5C : BitVec 7).toNat = s.power.i2cAddr ∧ s.hub = .sleep ∧ s.power.wakeDone = false ∧ s.power.waking = false ∧ s.power.sleepLevel = 1),
    (0x5D : BitVec 7).toNat ≠ run.power.i2cAddr] = true := by decide +kernel

/-! ## Windows and locks -/

theorem witness_RegisterAccess : allMet [
    barFree run && inBlock 0x14FFFC && decide (0x14FFFC % 4 = 0 ∧ 0x14FFFC < 0x1000000),
    barFree run && decide ((2 : Nat) % 4 ≠ 0 ∧ 2 + 4 < 0x50000),
    barFree run && decide ((10 : Word).toNat ≤ 3600000 ∧ 10 ≤ (3600000 : Word).toNat),
    barFree run && decide (0x1FFFFFF + 1 ≤ 0x2000000 ∧ 0x2000000 < 0x1FFFFFF + 2)] = true := by decide +kernel

/-- Channel 127 a CAN channel whose object 63 is a receiving BUFFER object. -/
def withObject (o : MoBuf) : State :=
  { run with chans := [(127, { st := .active, can := { objects := [(63, o)] } })], csr := [(0xBF800, 3), (0xBFDF0, 5)] }

theorem witness_WindowAccess : allMet [
    (let s := withObject { locks := [1, 1, 1] }
     isBuffer s 127 63 && barFree s && !barBehind s 127 false s.time.up && decide ((moBuf (chan s 127) 63).locks.length < 4)),
    (let s := withObject {}
     isBuffer s 127 63 && barFree s && !barBehind s 127 false s.time.up),
    (let s := withObject { locks := [1000000000 - 200] }
     isBuffer s 127 63 && decide ((moBuf (chan s 127) 63).locks = [1000000000 - 200] ∧ 1000000000 - 200 + 200 ≤ s.time.up)),
    (let s := withChan 1 { st := .active, rxq := [7] }
     barFree s && !claimedRead s 0 && !barBehind s 0 false s.time.up && decide ((chan s 0).rxq = [7])),
    barFree run && !claimedRead run 0 && !barBehind run 0 false run.time.up && (chan run 0).rxq.isEmpty,
    barFree run && !claimedRead run 0x11F && !barBehind run 0x11F false run.time.up && (engine run 31).push.isEmpty,
    (let s := { run with engines := [(31, { st := .run, push := [(3, 9)] })] }
     barFree s && !claimedRead s 0x11F && !barBehind s 0x11F false s.time.up && decide ((engine s 31).push = [(3, 9)])),
    (let s := withChan 1 { st := .active }
     barFree s && !pushDenied s 0 && !barBehind s 0 true s.time.up && (pushOne 0 0 (draw s).2).isSome),
    (let s := busyWith { waits 0x0407 (wordsBytes [1]) (.pushing 0) none with up := 1000000000 - 1 }
     barFree s && !pushDenied s 0 && barBehind s 0 true s.time.up),
    (let s := { withChan 1 { st := .active, txq := List.replicate 8 (item 0 .push) } with csr := [(0x80000, 1), (0x80010, 0x80001)] }
     barFree s && !pushDenied s 0 && (pushOne 0 0 (draw s).2).isNone),
    (let s := withEngine { st := .run }
     barFree s && !pushDenied s 0x100 && !barBehind s 0x100 true s.time.up && (pushOne 0x100 9 (draw s).2).isSome),
    (let s := withEngine { st := .run, pull := List.replicate 16 (0, 0) }
     barFree s && !pushDenied s 0x100 && (pushOne 0x100 9 (draw s).2).isNone)] = true := by decide +kernel

def heldPush : HeldPush := ⟨true, 31, 7, 1000000000 - 2000, 0⟩
def heldItem : Cmd := { waits 0x0407 (wordsBytes [1, 2]) (.pushing 1) none with up := 1000000000 - 2000 }
def lockedOut : Cmd := { waits 0x0204 [] .waiting none with up := 1000000000 - 200000 }

theorem witness_WindowTimeouts : allMet [
    (let s := { run with cmd := { heldPushes := [heldPush] } }
     decide (s.cmd.heldPushes = [heldPush] ∧ heldPush.up + 2000 ≤ s.time.up)),
    ((busyWith heldItem).cmd.inflight = [heldItem] ∧ heldItem.phase = .pushing 1 ∧ heldItem.session = 1
      ∧ heldItem.up + 2000 ≤ (busyWith heldItem).time.up ∧ heldItem.opcode = 0x0407),
    (let s := { run with cmd := { sessions := [ses], locks := [(127, ⟨1, .maint, 1000000000, 0⟩)] } }
     lockedBy s 127 = some ⟨1, .maint, 1000000000, 0⟩ ∧ 1000000000 ≤ tickNow s),
    (let s := { withChan 1 { st := .active, lockWaits := [(1, 5)] } with cmd := { sessions := [ses], inflight := [lockedOut] } }
     s.cmd.inflight = [lockedOut] ∧ lockedOut.phase = .waiting ∧ (chan s 0).lockWaits = [(lockedOut.session, lockedOut.tag)]
       ∧ lockedOut.up + 200000 ≤ s.time.up ∧ (chan s 0).st ≠ .off)] = true := by decide +kernel

/-! ## Reset and start-up -/

theorem witness_ResetSources : allMet [
    (let s := { run with power := { pwrgd := false } }
     decide (s.power.pwrgd = false) && !s.reset_.asserted.any (fun a => a.1 == 0)),
    decide (2000 ≤ 2000) && !run.reset_.asserted.any (fun a => a.1 == 4) && !run.reset_.asserted.any (fun a => a.1 == 5),
    decide (1999 < 2000),
    decide (50000 ≤ 50000) && !run.reset_.asserted.any (fun a => a.1 == 6),
    decide (49999 < 50000),
    decide ((if orderCode run = 2 then 1450 else 1350) ≤ (1350 : Int)) && !run.reset_.asserted.any (fun a => a.1 == 3),
    decide ((1349 : Int) < (if orderCode run = 2 then 1450 else 1350)),
    decide ((0x0201 : BitVec 16).toNat / 256 = 2 ∧ run.faults.frozen = false) && (sourceRow 0x0201).isSome
      && !run.reset_.asserted.any (fun a => a.1 == 0xB),
    (let s := { run with cmd := { pendingReset := some (.warm, 1000000000 - 2000) } }
     decide (s.cmd.pendingReset = some (.warm, 1000000000 - 2000) ∧ 1000000000 - 2000 + 2000 ≤ s.time.up)
       && !s.reset_.asserted.any (fun a => a.1 == 8))] = true := by decide +kernel

theorem witness_ResetRequests : allMet [
    barFree run,
    barFree (withEngine {}) && decide ((31 : BitVec 7).toNat < 32) && !leActive (leState (withEngine {}) 31),
    decide ((0xC2 : Byte) ≠ 0xC3),
    !unitOk 1 32, !unitOk 3 2, !unitOk 2 127,
    decide (true ≠ run.reset_.countMode)] = true := by decide +kernel

/-- The hub in step `n` of BOOT, or, with a cause, still held by one source. -/
def booting (n : Nat) : State := { State.reset with reset_ := { bootStep := n }, time := { up := 1000 } }

def heldIn (c t : Nat) : State := { State.reset with reset_ := { asserted := [(c, t)], inReset := true }, time := { up := 1000 } }

theorem witness_StartUp : allMet [
    decide ((heldIn 2 1000).reset_.asserted.find? (fun a => a.1 == 2) = some (2, 1000) ∧ (heldIn 2 1000).hub ≠ .off)
      && (heldIn 2 1000).power.pwrgd,
    decide ((heldIn 5 1000).reset_.asserted.find? (fun a => a.1 == 5) = some (5, 1000) ∧ (heldIn 5 1000).hub ≠ .off),
    decide ((heldIn 15 800).reset_.asserted.find? (fun a => a.1 == 15) = some (15, 800) ∧ 800 + 200 ≤ (heldIn 15 800).time.up),
    (let s := { State.reset with reset_ := { inReset := true, lastReleaseUp := 800 }, time := { up := 1000 } }
     s.reset_.inReset = true ∧ s.reset_.asserted = [] ∧ s.reset_.lastReleaseUp + 200 ≤ s.time.up),
    decide ((booting 1).hub = .boot ∧ (booting 1).reset_.inReset = false ∧ (booting 1).reset_.bootFail = 0
      ∧ (8 : BitVec 4).getLsbD 3 = true ∧ (booting 1).faults.backup = none),
    decide ((booting 2).reset_.bootStep = 2 ∧ (booting 6).reset_.bootStep = 6),
    (let s := { booting 3 with upd := {} }
     s.reset_.bootStep = 3 ∧ (0 : BitVec 4).getLsbD 0 = false ∧ s.upd.trial = none ∧ (othSlot (comp s 0)).st ≠ .valid),
    decide ((booting 5).reset_.bootStep = 5 ∧ (validate (booting 5) (booting 5).upd.active).cause ≠ 0),
    (let s := { booting 5 with time := { up := 100000 } }
     decide (4 ≤ s.reset_.bootStep) && !isUp s .west && decide (s.reset_.step4Up + 100000 ≤ s.time.up)),
    (let s := { booting 7 with time := { up := 4000000, firstUpUp := some 0 } }
     s.time.firstUpUp = some 0 ∧ s.hub = .boot ∧ s.time.lastBeacon = none ∧ 0 + 4000000 ≤ s.time.up ∧ (faultSrc s 0x0303).st ≠ .active)] = true := by decide +kernel

/-! ## Power, outlets and sleep -/

def supply (p : PowerState) : State := { run with power := p }

theorem witness_SupplyEvents : allMet [
    decide (15499 < 15500 ∧ 34000 < 34001) && run.power.stageOn && !run.reset_.asserted.any (fun a => a.1 == 1)
      && !run.reset_.asserted.any (fun a => a.1 == 2),
    (let s := supply { limit := true, limitUp := 1000000000 - 80000 }
     s.power.stageOn = true ∧ s.power.limit = true ∧ s.power.limitUp + 80000 ≤ s.time.up),
    decide (1500 < (1501 : Int)),
    (let s := supply { stageOn := false, tripUp := some (1000000000 - 2000000) }
     s.power.stageOn = false ∧ 17000 ≤ 17000 ∧ 32999 < 33000 ∧ s.power.tripUp = some (1000000000 - 2000000)
       ∧ 1000000000 - 2000000 + 2000000 ≤ s.time.up ∧ (999 : Int) < 1000),
    run.power.stageOn && !run.power.limit,
    (supply { limit := true }).power.stageOn && (supply { limit := true }).power.limit,
    (let s := supply { pwrgd := false, railsUp := 1000000000 - 20000 }
     s.power.stageOn = true ∧ s.power.pwrgd = false ∧ s.power.limit = false ∧ s.power.rails = 0xFF ∧ s.power.railsUp + 20000 ≤ s.time.up),
    run.power.pwrgd && decide ((0x7F : Byte) ≠ 0xFF ∧ run.hub ≠ .sleep)] = true := by decide +kernel

/-- Outlet 31 in state `x` since `t` ticks before now. -/
def outletIn (x : OutSt) (t : Nat) : State :=
  supply { outlets := [(31, { st := x, sinceUp := 1000000000 - t, okUp := 1000000000 - t, used := 1 })] }

theorem witness_OutletEvents : allMet [
    (let s := outletIn .starting 2000
     (outlet s 31).st = .starting ∧ (outlet s 31).okUp + 2000 ≤ s.time.up),
    (let s := outletIn .on 0
     (outlet s 31).st = .on ∧ outTrip s 31 < outTrip s 31 + 1),
    decide ((outlet (outletIn .limit 0) 31).st = .limit),
    (let s := outletIn .limit (outTflt run 31)
     (outlet s 31).st = .limit ∧ (outlet s 31).sinceUp + outTflt s 31 ≤ s.time.up),
    (let s := outletIn .starting (outTstart run 31)
     (outlet s 31).st = .starting ∧ (outlet s 31).sinceUp + outTstart s 31 ≤ s.time.up),
    decide (1500 < (1501 : Int) ∧ (outlet (outletIn .on 0) 31).st = .on),
    (let s := outletIn .cooldown (outCool run 31)
     (outlet s 31).st = .cooldown ∧ (outlet s 31).sinceUp + outCool s 31 ≤ s.time.up ∧ (outlet s 31).deciC < 1000),
    (let s := outletIn .on (outForgive run 31)
     (outlet s 31).st = .on ∧ (outlet s 31).sinceUp + outForgive s 31 ≤ s.time.up ∧ 0 < (outlet s 31).used)] = true := by
  decide +kernel

theorem witness_PowerEvents : allMet [
    decide (15999 < 16000) && !run.power.vfbLow.contains 3,
    decide ((if orderCode run = 2 then 1200 else 1100) ≤ (1200 : Int) ∧ run.power.tjHigh = false),
    decide ((1050 : Int) ≤ (if orderCode run = 2 then 1200 else 1100) - 50 ∧ (supply { tjHigh := true }).power.tjHigh = true),
    (let s := supply { plTarget := some 3 }
     s.power.plTarget = some 3 ∧ s.power.level < 3 ∧ s.power.plClocks = false ∧ s.power.plVcore = false),
    (let s := supply { plTarget := some 2, level := 3 }
     s.power.plTarget = some 2 ∧ 2 < s.power.level ∧ s.power.plClocks = false ∧ s.power.plVcore = false),
    barFree run] = true := by decide +kernel

def sleepCmd : Cmd := waits 0x0604 [3] .issued none

/-- Node 4 with a frame at the head of its LOCAL queue. -/
def receives (f : Frame) : State := { run with ring := { node := 4, light := some light }, sw := { queues := [(qKey .local f.cls, [f])] } }

theorem witness_SleepEvents : allMet [
    (let s := { supply { sleepAt := some (3, 500000, 1, 5) } with cmd := { sessions := [ses], inflight := [sleepCmd] } }
     decide (s.power.sleepAt = some (3, 500000, sleepCmd.session, sleepCmd.tag) ∧ 500000 ≤ cycleNow s ∧ s.cmd.inflight = [sleepCmd])
       && fieldLive s && !sleepDenied 3 s),
    (let s := { supply { sleepLevel := 2, sleepUp := 1000000000 - 2000 - mapDout run } with hub := .sleep }
     s.hub = .sleep ∧ s.power.sleepLevel = 2 ∧ s.power.portsDown = false ∧ swf {} s.power.outlets = true
       ∧ s.power.sleepUp + mapDout s + 2000 ≤ s.time.up),
    (let s := { supply { sleepLevel := 1, waking := true } with hub := .sleep, ring := { east := { span := .up } } }
     decide (s.hub = .sleep ∧ s.power.waking = true ∧ s.power.sleepLevel = 1) && !noSpanUp s),
    (let s := { receives (frame 4 ([0x0B, 0, 0, 0] ++ leBytes 4 0 ++ leBytes 8 1)) with
        hub := .sleep, power := { sleepLevel := 1 }, csr := [(0x20014, 0x80)], upd := State.reset.upd }
     match ctlHead s 0x0B 16 with
     | some f => decide (s.hub = .sleep ∧ s.power.sleepLevel = 1 ∧ fld s 0x20014 7 1 = 1 ∧ s.power.wakeDone = false ∧ s.power.waking = false
         ∧ f.dst = s.ring.node ∧ rd f.payload 4 4 = ringId s ∧ rd f.payload 8 8 = (myUid s).toNat)
     | none => false),
    (let s := { receives (frame 4 ([0x0B, 0, 0, 0] ++ leBytes 4 0 ++ leBytes 8 2)) with
        hub := .sleep, power := { sleepLevel := 1 }, csr := [(0x20014, 0x80)], upd := State.reset.upd }
     match ctlHead s 0x0B 16 with
     | some f => decide (rd f.payload 8 8 ≠ (myUid s).toNat)
     | none => false),
    (let s := { run with ring := { node := 1, light := some light } }
     barFree s && decide ((3 : Byte) ≠ 0 ∧ (3 : Byte) ≠ 255 ∧ s.ring.light = some light
       ∧ light.entries.find? (fun x => x.node == (3 : Byte).toNat) = some (entry 3 0xFF)) && numbered s),
    barFree run && decide (run.ring.light = none)] = true := by decide +kernel

/-! ## Faults, check values and update -/

def logEntry (reaction : Nat) : LogEntry :=
  { seq := 1, source := 0x0301, flags := 0, reaction := reaction, time := 0, address := 0, initiator := 0, initKind := 0, access := 0, merges := 0,
    detail := 0xFFFF }

theorem witness_FaultEvents : allMet [
    (let s := withSource { injPend := true, injTick := 1000000000 - 1 }
     (sourceRow 0x0301).isSome && !codedSource 0x0301 && swf ({} : Source) s.faults.sources
       && decide ((faultSrc s 0x0301).injPend = true ∧ (faultSrc s 0x0301).injTick + 1 ≤ s.time.up ∧ s.faults.frozen = false
         ∧ (faultSrc s 0x0301).handling = none)),
    (let s := { run with faults := { sources := [(0x0301, { injPend := true, handling := some (1, 1000000000) })], log := [(1, logEntry 0)] }
                         csr := [(0x110000, 0x10001)] }
     swf ({} : Source) s.faults.sources
       && decide (s.faults.frozen = false ∧ (faultSrc s 0x0301).handling = some (1, 1000000000)
         ∧ since 1000000000 s < mergeTicks s ∧ slook s.faults.log 1 = some (logEntry 0) ∧ bit (logEntry 0).flags 0 = false)),
    (let s := { run with faults := { sources := [(0x0301, { injPend := true })], frozen := true } }
     swf ({} : Source) s.faults.sources && s.faults.frozen),
    [0, 2, 1, 8].all (fun r =>
      let s := { run with faults := { commits := [(1, 5)], log := [(1, logEntry r)] } }
      decide (s.faults.commits = (1, 5) :: [] ∧ slook s.faults.log 1 = some (logEntry r) ∧ bit (logEntry r).reaction 2 = false)
        && !s.reset_.asserted.any (fun a => a.1 == 0xA)),
    takesEvent 2 ses && decide (ses.events.length + outEvents run 1 < 64),
    barFree run && decide ((10 : Fin 11).val ≠ 7)] = true := by decide +kernel

theorem witness_Scrubs : allMet [
    (let s := { run with csr := [(0x103000, 0x400)], cv := { next := 287 } }
     fieldAwake s && fieldLive s
       && decide (fld s 0x103000 10 1 = 1 ∧ s.cv.lastScrubUp + fld s 0x103000 0 10 * 2000 ≤ s.time.up ∧ s.cv.abandoned = false)),
    (let s := { run with csr := [(0x103000, 0x7FF)], cv := { abandoned := true } }
     fieldAwake s && fieldLive s
       && decide (fld s 0x103000 10 1 = 1 ∧ s.cv.lastScrubUp + fld s 0x103000 0 10 * 2000 ≤ s.time.up ∧ s.cv.abandoned = true)),
    (let s := { run with cv := { lastImageUp := 1000000000 - 120000000 } }
     fieldLive s && decide (s.cv.lastImageUp + 120000000 ≤ s.time.up) && (storedCrc s 7).isSome)] = true := by decide +kernel

theorem witness_UpdateEvents : allMet [
    (let s := withImage .trial { trial := some (2, 1000000000), lehrSt := .kept }
     s.upd.trial = some (2, 1000000000) ∧ s.hub ≠ .off ∧ 1000000000 ≤ s.time.up ∧ 2 < s.upd.comps.length ∧ s.upd.lehrSt = .kept),
    (let s := withImage .trial { trial := some (2, 1000000001) }
     s.upd.trial = some (2, 1000000001) ∧ s.time.up < 1000000001),
    (let s := withImage .complete { lastBlockUp := 1000000000 - 120000000, recv := some (4, 9), lehrSt := .receiving }
     s.upd.owner.isSome = true ∧ s.upd.trial = none ∧ s.upd.lastBlockUp + 120000000 ≤ s.time.up),
    (let s := withImage .trial { start := some (0, 9) }
     s.upd.start = some (0, 9) ∧ s.upd.startPort = 0 ∧ commitOwed s = false),
    commitOwed (busyWith { waits 0x0901 [2] (.ready .ok []) none with effected := true }),
    (let s := withImage .trial { start := some (1, 500000) }
     commitOwed s = false ∧ s.upd.start = some (1, 500000) ∧ s.upd.fellBack = none ∧ 1 < s.upd.comps.length ∧ 500000 ≤ cycleNow s),
    (let s := withImage .trial { start := some (2, 1000000000) }
     1000000000 ≤ s.time.up ∧ s.upd.start = some (2, 1000000000) ∧ s.reset_.asserted.any (fun a => a.1 == 9) = false),
    (let s := withImage .trial { start := some (3, 1000000000) }
     1000000000 ≤ s.time.up ∧ s.upd.start = some (3, 1000000000) ∧ s.reset_.asserted.any (fun a => a.1 == 8) = false),
    serves run .pcie && decide (3832 < 4096 ∧ 3832 % 4 = 0 ∧ 3832 % 256 < 252) && !bit run.upd.tagLocks (3832 / 256),
    serves run .pcie && bit { State.reset.upd with tagLocks := 1 }.tagLocks (248 / 256)] = true := by decide +kernel

/-! ## The cycle -/

def begun (k : Nat) (s : State) : State := (ringBoundary k (modMaps (fun m => { m with boundary := some k }) s)).2

/-- A hub in RUN on a ring, in cycle 500,000, its last cycle packed. -/
def cyclic (m : MapState) : State := { run with ring := { node := 4, light := some light, east := { span := .up } }, maps := m }

/-- Cycle 499,999 stands packed when the boundary of cycle 500,000 comes; and the hub after that boundary has brought its changes. -/
def closing : State := cyclic { active := true, boundary := some 499999, phase := .packed, cycle := 499999, lastClosed := some 499998 }
def closed : State := closeCycle (begun 500000 closing)
def taken : State := takeChanges 500000 closed

/-- In BOOT step 7, ring time locked or not. -/
def bootEnd (locked : Bool) : State :=
  { cyclic {} with hub := .boot, reset_ := { bootStep := 7 }, time := { up := 1000000000, locked := locked } }

def atBoundary (s : State) : Bool := cycleNow s == 500000 && !s.reset_.inReset && s.ring.nextLight.isNone

theorem witness_CycleBoundaries : allMet [
    atBoundary (cyclic { boundary := some 500000 }),
    atBoundary closing && decide (closing.maps.boundary ≠ some 500000),
    (begun 500000 closing).hub == .run && !noSpanUp (begun 500000 closing) && (begun 500000 closing).maps.phase == .packed,
    closed.maps.active && !sleepDue 500000 closed,
    taken.maps.lastClosed == some 499999 && taken.hub == .run,
    atBoundary (bootEnd true) && (bootEnd true).hub == .boot && (bootEnd true).reset_.bootStep == 7 && fieldState (bootEnd true) == some .run,
    (let s := { bootEnd false with ring := { east := { allowanceOver := true }, west := { allowanceOver := true } } }
     atBoundary s && s.hub == .boot && s.reset_.bootStep == 7 && fieldState s == some .isolated && (begun 500000 s).sw.holdBack.isEmpty),
    atBoundary (bootEnd false) && (fieldState (bootEnd false)).isNone] = true := by decide +kernel

theorem witness_CycleStages : allMet [
    decide ((cyclic { phase := .stageA }).maps.phase = .stageA) && !numbered (stageRun 0 0 (splitPub run) { run with maps := { phase := .stageA } }),
    decide (run.maps.phase ≠ .stageA ∧ run.maps.phase = .idle),
    (let s := cyclic { phase := .stageB, cycle := 499999 }
     s.maps.phase = .stageB ∧ s.maps.cycle * s.maps.n + mapH s ≤ tickNow s),
    (let s := cyclic { phase := .stageB, cycle := 500000 }
     tickNow s < s.maps.cycle * s.maps.n + mapH s),
    (let s := cyclic { phase := .stageC, cycle := 499999 }
     decide (s.maps.phase = .stageC) && !(ruleList (stageRun 2 (splitSub s) rulesEnd s).maps.rules).any (fun x => x.2.coded)),
    (let s := cyclic { phase := .stageB, cycle := 499999 }
     decide (s.maps.overrun = none ∧ s.maps.phase = .stageB ∧ splitPub s ≤ 4 ∧ 4 < 5)),
    (let s := { cyclic { phase := .stageB } with csr := [(0xF0010, 5)] }
     decide (s.maps.overrun = none ∧ splitPub s ≤ 4 ∧ 4 < splitSub s)),
    (let s := cyclic { phase := .stageC }
     decide (s.maps.overrun = none ∧ splitSub s ≤ 65535)),
    (let s := { cyclic { phase := .stageA } with csr := [(0xF000C, 5)] }
     decide (s.maps.overrun = none ∧ s.maps.phase = .stageA ∧ 4 < splitPub s)),
    (cyclic { overrun := some 9 }).maps.overrun.isSome,
    (let x := waits 0x0301 (leBytes 4 0 ++ leBytes 2 1 ++ [0, 0] ++ leBytes 8 499999) .issued none
     let s := { busyWith x with maps := { copying := some 499999 } }
     s.maps.copying = some 499999 ∧ s.cmd.inflight = [x] ∧ x.opcode = 0x0301 ∧ x.phase = .issued ∧ rd x.params 8 8 = 499999)] = true := by
  decide +kernel

def instance_ (kind unit release : Nat) : Instance_ :=
  { target := kind * 2 ^ 28 + unit * 2 ^ 20, cycle := 0, release := release, bytes := [5, 0, 0, 0], mask := 7, valid := true }

def releasing (i : Instance_) : State := { run with maps := { instances := [i] } }

theorem witness_ReleasesAndRounds : allMet [
    (let i := instance_ 3 15 500000000000
     decide ((releasing i).maps.instances = [i] ∧ (releasing i).dl.pend = [] ∧ i.release ≤ nsNow (releasing i) ∧ descKind i.target = 3)
       && swf ({} : Line) (releasing i).dl.lines),
    (let i := instance_ 2 127 500000000000
     decide (i.release ≤ nsNow (releasing i) ∧ descKind i.target = 2 ∧ i.valid = true ∧ i.bytes ≠ [])),
    (let i := instance_ 4 31 500000000000
     decide (i.release ≤ nsNow (releasing i) ∧ descKind i.target = 4 ∧ (engine (releasing i) (descUnit i.target)).pull.length < 16)),
    (let i := instance_ 3 0 500000000001
     decide (nsNow (releasing i) < i.release)),
    (let s := { run with dl := { pend := [⟨1000000000, 15, 1, 1⟩] } }
     decide (s.maps.instances = [] ∧ s.dl.pend = [⟨1000000000, 15, 1, 1⟩] ∧ 1000000000 ≤ tickNow s)),
    decide (tickNow run < 1000000001),
    (let s := { modbus { st := .active } with maps := { active := true } }
     fieldAwake s && mbOn s 0 && s.maps.active && serialHears s 0
       && decide (mapDout s ≤ tickNow s ∧ 499999 = (tickNow s - mapDout s) / s.maps.n ∧ (chan s 0).mb.roundCycle < 499999 ∧ lockedBy s 0 = none)),
    (let s := { modbus { st := .active } with maps := { active := true }, cmd := { sessions := [ses], locks := [(0, ⟨1, .maint, 2000000000, 0⟩)] } }
     fieldAwake s && mbOn s 0 && s.maps.active && serialHears s 0 && (lockedBy s 0).isSome)] = true := by decide +kernel

/-! ## Ring frames -/

/-- The largest fields of a frame. -/
theorem witness_FrameRoundTrip : ∃ f : Frame, f.cls ≤ 4 ∧ f.dst < 256 ∧ f.src < 256 ∧ f.mgroup < 256 ∧ f.hops < 65536 ∧ f.frag < 65536
    ∧ f.cycle < 2 ^ 48 ∧ f.payload.length ≤ 9564 :=
  ⟨{ frame 4 (zeros 9564) with dst := 255, src := 255, mgroup := 255, hops := 65535, frag := 65535, cycle := 2 ^ 48 - 1 },
    by decide, by decide, by decide, by decide, by decide, by decide, by decide, Nat.le_of_eq List.length_replicate⟩

/-- Node 4 on a ring, both spans up. -/
def onRing (w : SwState) : State :=
  { run with ring := { node := 4, light := some { light with cycLimit := 100 }, east := { span := .up }, west := { span := .up } }
             sw := { w with current := { node := 4 } } }

/-- What the local side finds at the head of a queue. -/
def headOf (f : Frame) : State := onRing { queues := [(qKey .local f.cls, [f])] }

/-- What waits at EAST. -/
def atEast (f : Frame) : State := onRing { queues := [(qKey .east f.cls, [f])] }

/-- A frame of the present generation may come in at WEST of a hub without other traffic. -/
def comesIn (f : Frame) (s : State) : Bool :=
  (portSt s .west).span == .up && (portSt s .west).rx.isNone && !draining s .west && s.sw.queues.isEmpty
    && decide (1 ≤ f.cls ∧ f.cls ≤ 3 ∧ f.dst < 256 ∧ f.src < 256 ∧ f.hops < 65536 ∧ f.dst ≠ 0 ∧ f.gen = s.sw.current.gen ∧ f.wrapped = false
      ∧ s.sw.current.node ≠ 0)

theorem witness_FramesOnTheWire : allMet [
    (let f := frame 1 [7]
     let s := onRing {}
     comesIn f s && decide (f.src ≠ s.sw.current.node ∧ f.dst = s.sw.current.node ∧ f.poison = false) && judge s .local f == .yes),
    (let f := frame 3 [7]
     let s := { onRing {} with csr := [(0x6014C, 0)] }
     comesIn f s && judge s .local f == .tail),
    (let f := { frame 3 [] with dst := 254, hops := 510 }
     let s := onRing {}
     comesIn f s && decide (f.src ≠ s.sw.current.node ∧ f.dst ≠ s.sw.current.node ∧ f.dst ≠ 255 ∧ f.hops < 511 ∧ turns s .east = false)
       && judge s .east f == .yes),
    (let f := { frame 1 [] with dst := 255, src := 4 }
     comesIn f (onRing {}) && decide (f.src = (onRing {}).sw.current.node ∧ f.poison = false)),
    (let f := { frame 2 [] with poison := true }
     comesIn f (onRing {}) && (onRing {}).sw.wire.isEmpty && decide (f.src ≠ 4 ∧ f.dst = 4)),
    decide ((zeros 31).length < 32 ∧ rd (List.replicate 32 (1 : Byte)) 30 2 ≠ crc16 ((List.replicate 32 (1 : Byte)).take 30)
      ∧ bits (rd ((2 : Byte) :: zeros 31) 0 1) 4 4 ≠ 1),
    decide ((portSt run .east).span = .adminDown),
    (let f := frame 4 [5]
     let s := atEast f
     decide ((portSt s .east).span = .up ∧ busyOut .east s = false ∧ f.eligible = true ∧ f.stampId = 0 ∧ queueOf s (outOf .east) 4 = [f]
       ∧ rd f.payload 0 1 ≠ 2) && swf ([] : List Frame) s.sw.queues),
    (let f := frame 0 (zeros 52)
     let s := atEast f
     decide (queueOf s (outOf .east) 4 = [] ∧ queueOf s (outOf .east) 0 = [f] ∧ f.cls = 0
       ∧ sget 0 s.sw.cycBytes (portNo .east) + frameCharge f ≤ cycLimit s) && swf ([] : List Frame) s.sw.queues)] = true := by decide +kernel

/-- A CYC copy stands before the twin window of its stream; room for one frame in LOCAL's budget. -/
def window (f : Frame) (kept : List (Word × Nat × Word × Word)) : State :=
  onRing { cycIn := [f], twins := [{ src := 2, group := 256, high := 100, mask := 1, kept := kept }] }

theorem witness_StreamFrames : allMet [
    (let f := { frame 0 [] with seq := 36 }
     let s := window f []
     decide (s.sw.cycIn = [f] ∧ s.sw.queues = [] ∧ f.cls = 0 ∧ f.eligible = true ∧ isDrain f = false ∧ comparing s = false
       ∧ twinCase (twinOf s f.src (cycGroup f)) f.seq = .old)),
    (let f := { frame 0 [] with seq := 100 }
     let s := window f []
     (twinOf s f.src (cycGroup f)).any (fun w => w.kept.isEmpty && twinCase (some w) f.seq == .second)),
    (let f := { frame 0 [] with seq := 37 }
     twinCase (twinOf (window f []) f.src (cycGroup f)) f.seq = .fresh),
    (let f := { frame 0 (leBytes 4 9 ++ leBytes 4 1 ++ leBytes 8 1) with seq := 101, cycle := 500000, rxTick := 1000000000 + 499 }
     let s := { window f [] with maps := { subs := [⟨2, 9, 3, 1⟩] } }
     decide (twinCase (twinOf s f.src (cycGroup f)) f.seq = .ahead ∧ cycUsed f s = true ∧ judge s .local f = .yes
       ∧ sget 0 s.sw.cycBytes 2 + frameCharge f ≤ cycLimit s ∧ f.rxTick < cycleOf f s * s.maps.n + mapH s)),
    (let f := { frame 0 (leBytes 4 9 ++ leBytes 4 1 ++ leBytes 8 1) with cycle := 500000, rxTick := 1000000000 + 500 }
     let s := { onRing { cycIn := [f] } with maps := { subs := [⟨2, 9, 3, 1⟩] } }
     decide (twinCase (twinOf s f.src (cycGroup f)) f.seq = .ahead ∧ cycUsed f s = true ∧ judge s .local f = .yes
       ∧ sget 0 s.sw.cycBytes 2 + frameCharge f ≤ cycLimit s ∧ cycleOf f s * s.maps.n + mapH s ≤ f.rxTick)),
    (let f := frame 0 (leBytes 4 9 ++ leBytes 4 1 ++ leBytes 8 1)
     let s := { window f [] with csr := [(0x60140, 0)] }
     judge s .local f == .tail && !cycUsed f s),
    (let f := frame 3 [1]
     let s := headOf f
     decide (queueOf s .local 3 = [f] ∧ f.cls = 3 ∧ f.dst ≠ 255 ∧ (pickWhere (fun g => !headWaits s g) .local s).map (·.1) = some 3
       ∧ f.seq = (holdOf s f.src f.dst none 3).expected ∧ (holdOf s f.src f.dst none 3).held = [] ∧ f.first = true ∧ f.last = true ∧ isDrain f = false ∧ isReport f = false ∧ isItemFrame f = false)),
    (let f := { frame 2 [1] with seq := 1023 }
     decide ((pickWhere (fun g => !headWaits (headOf f) g) .local (headOf f)).map (·.1) = some 2
       ∧ f.seq ≠ (holdOf (headOf f) f.src f.dst none 2).expected ∧ (f.seq - (holdOf (headOf f) f.src f.dst none 2).expected).toNat < 1024)),
    (let f := { frame 2 [1] with seq := 0xFFFFFFFF }
     let h := holdOf (headOf f) f.src f.dst none 2
     decide (1024 ≤ (f.seq - h.expected).toNat ∧ seqBefore f.seq h.expected = true)),
    (let f := { frame 2 [1] with seq := 1024 }
     let h := holdOf (headOf f) f.src f.dst none 2
     decide (1024 ≤ (f.seq - h.expected).toNat ∧ seqBefore f.seq h.expected = false)),
    (let f := frame 1 [1]
     let s := { headOf f with hub := .boot, reset_ := { bootStep := 4 } }
     decide (queueOf s .local 1 = [f] ∧ f.cls = 1 ∧ isDrain f = false ∧ serves s (.ring 0) = false))] = true := by decide +kernel

/-- An item with ID 9 that carries a 28-byte MEM_WRITE packet. -/
def itemFrame : Frame :=
  { frame 1 (leBytes 4 9 ++ zeros 4 ++ packetBytes ⟨0, 0, 8, 2, 5, 0xFFFF, 0⟩ none (zeros 8)) with dst := 255 }

def mc (rounds : Nat) (reports : List (Nat × Nat)) : McItem :=
  { id := 9, session := 1, tag := 5, expected := [2, 3], reports := reports, lost := [], sentUp := 0, rounds := rounds, payload := [] }

theorem witness_MulticastItems : allMet [
    (let s := onRing { delivered := [itemFrame], mcDone := [(2, [(9, 0)])] }
     decide (s.sw.delivered = [itemFrame] ∧ isItemFrame itemFrame = true ∧ serves s (.ring 0) = true
       ∧ (sget [] s.sw.mcDone itemFrame.src).find? (fun x => x.1.toNat == rd itemFrame.payload 0 4) = some (9, 0))),
    (let s := onRing { delivered := [itemFrame] }
     decide (sget [] s.sw.mcDone itemFrame.src = [] ∧ s.cmd.inflight = [] ∧ headGood (itemFrame.payload.drop 8) = true
       ∧ formatGood (itemFrame.payload.drop 8) = true ∧ rd (itemFrame.payload.drop 8) 2 2 = 8)),
    (let f := frame 2 ([0x50, 0] ++ leBytes 2 0 ++ leBytes 4 9 ++ zeros 4)
     let s := onRing { delivered := [f], mcItems := [mc 0 []] }
     decide (s.sw.delivered = [f] ∧ isReport f = true ∧ s.sw.mcItems = [mc 0 []] ∧ (mc 0 []).id = BitVec.ofNat 32 (rd f.payload 4 4))),
    (let m := mc 0 [(2, 0), (3, 0)]
     let x := waits 0x0008 [] .issued none
     let s : State := { onRing { mcItems := [m] } with cmd := { sessions := [ses], inflight := [x] } }
     decide (s.sw.mcItems = [m] ∧ m.sentUp + fld s 0x60000 8 8 * 2000 ≤ s.time.up ∧ mcMissing m = [] ∧ s.cmd.inflight = [x]
       ∧ x.session = m.session ∧ x.tag = m.tag ∧ x.phase = .issued)),
    (let m := mc 7 []
     decide (fld (onRing {}) 0x60000 16 3 ≤ m.rounds)),
    (let m := mc 0 [(2, 0)]
     decide (mcMissing m = [3] ∧ m.rounds < fld (onRing {}) 0x60000 16 3)),
    (let m := { mc 0 [] with sentUp := 1000000000 }
     decide (since m.sentUp (onRing {}) < fld (onRing {}) 0x60000 8 8 * 2000))] = true := by decide +kernel

/-! ## Replay, unwrap and spans -/

/-- A copy of a command frame for node 2 that waits for its acknowledgement, sent `sends` times. -/
def copy (seq : Word) (sends : Nat) : Copy :=
  { frame := { frame 1 (packetBytes ⟨0, 0, 0x204, 1, 5, 0, 0⟩ none []) with
      dst := 2, src := 4, seq := seq, head := packetBytes ⟨0, 0, 0x204, 1, 5, 0, 0⟩ none [] }, sentUp := 5, sends := sends }

/-- An ACK from node 2 for class 1, with its NEXT, and the gap that it reports. -/
def ack (kind : Byte) (next first : Word) (count : Nat) : Frame :=
  frame 4 ([5, 1, kind, 0] ++ leBytes 4 next.toNat ++ leBytes 4 first.toNat ++ leBytes 2 count ++ [0, 0])

def held1 : HoldBack :=
  { src := 2, dst := 4, group := none, cls := 1, expected := 0, held := [{ frame 1 [] with seq := 1 }], gapUp := 1000000000 - 1000, uncovered := 1
    timerUp := 1000000000 - 100 }

theorem witness_ReplayEvents : allMet [
    (let s := headOf (ack 0 4 0 0)
     ctlHead s 5 16 == some (ack 0 4 0 0) && s.sw.heldOut.isEmpty && rd (ack 0 4 0 0).payload 2 1 == 0),
    (let f := ack 2 0 3 1
     let c := copy 3 1
     let x := waits 0x204 [] .issued none
     let s := { onRing { queues := [(qKey .local 4, [f])], replayCw := [c] } with cmd := { sessions := [ses], inflight := [x] } }
     ctlHead s 5 16 == some f && s.sw.heldOut.isEmpty && rd f.payload 2 1 == 2 && s.sw.replayCw == [c] && s.sw.replayCcw.isEmpty
       && copyKey c == seqKey 1 f.src 0 && c.frame.cls == 1 && rd f.payload 1 1 == 1 && c.frame.seq == BitVec.ofNat 32 (rd f.payload 8 4)
       && decide (0 < rd f.payload 12 2) && packetOf c.frame.head == some (x.session, x.tag, x.opcode)),
    (let s := onRing { holdBack := [held1] }
     s.sw.holdBack.find? (fun h => sameStream h 2 4 none 1) == some held1 && decide (held1.uncovered ≠ 0 ∧ held1.timerUp + 100 ≤ s.time.up)),
    decide ({ held1 with uncovered := 0 }.uncovered = 0 ∧ run.time.up < { held1 with timerUp := 1000000000 - 99 }.timerUp + 100),
    (let s := onRing { replayCcw := [copy 3 2], advanceUp := [(seqKey 1 2 0, 1000000000 - 400)] }
     decide (copiesOf s (seqKey 1 2 0) ≠ [] ∧ sget 0 s.sw.advanceUp (seqKey 1 2 0) + 400 ≤ s.time.up)
       && (copiesOf s (seqKey 1 2 0)).all (fun c => decide (c.sends < 3))),
    (copiesOf (onRing { replayCw := [copy 3 3] }) (seqKey 1 2 0)).any (fun c => decide (3 ≤ c.sends)),
    (copiesOf (onRing {}) (seqKey 1 2 0)).isEmpty,
    (let s := onRing { holdBack := [held1] }
     held1.held == [{ frame 1 [] with seq := 1 }] && decide (0 < ((1 : Word) - held1.expected).toNat ∧ held1.gapUp + 1000 ≤ s.time.up)),
    decide (run.time.up < { held1 with gapUp := 1000000000 - 999 }.gapUp + 1000)] = true := by decide +kernel

/-- Node 4 wrapped at EAST, whose span has come back; its hold-off has run since tick 5. -/
def rejoining (u : Option Nat) (since_ : Nat) (f : Option Frame) (w : SwState) : State :=
  { run with ring := { node := 4, east := { span := .up, peerNode := 2, holdUp := some since_, unwrapAt := u }, west := { span := .up } }
             sw := { w with current := { node := 4 }, eastWrap := true, queues := match f with | some x => [(qKey .local 4, [x])] | none => [] } }

def notice (kind span node : Byte) : Frame := frame 4 ([0x0A, kind, span, node] ++ zeros 12 ++ leBytes 8 500002)

theorem witness_UnwrapEvents : allMet [
    (ctlHead (headOf (notice 0 0 9)) 0x0A 24).isSome && rd (notice 0 0 9).payload 1 1 == 0,
    (let f := notice 1 1 4
     let s := rejoining none 5 (some f) {}
     (ctlHead s 0x0A 24).isSome && portOf (1 - min 1 (rd f.payload 2 1)) == .east && rd f.payload 1 1 == 1 && rd f.payload 3 1 == s.ring.node
       && neighbour s .east == f.src && holdElapsed s .east),
    (let s := rejoining none 1000000000 (some (notice 1 1 4)) {}
     (ctlHead s 0x0A 24).isSome && !holdElapsed s .east),
    (let f := notice 3 1 4
     let s := rejoining (some 500002) 5 (some f) {}
     (ctlHead s 0x0A 24).isSome && rd f.payload 1 1 == 3 && rd f.payload 3 1 == s.ring.node && neighbour s .east == f.src),
    rd (notice 2 1 9).payload 1 1 != 0 && rd (notice 2 1 9).payload 3 1 != (headOf (notice 2 1 9)).ring.node,
    (let s := rejoining none 5 none {}
     !s.ring.east.unwrapDone && holdElapsed s .east && s.ring.east.unwrapAt.isNone),
    (let s := rejoining (some 500000) 5 none {}
     (portSt s .east).unwrapAt == some 500000 && decide (500000 ≤ cycleNow s) && isUp s .east && wrapped s .east),
    decide (cycleNow run < 500001),
    (let f := frame 2 ([0xD0, 1] ++ zeros 6)
     let s := rejoining none 5 none { delivered := [f], eastDrain := true }
     s.sw.delivered == [f] && isDrain f && otherPort (portOf (rd f.payload 1 1)) == .east && draining s .east && neighbour s .east == f.src
       && (portSt s .east).unwrapAt.isNone && (drainClasses s).contains f.cls && !(portSt s .east).drainDone.contains f.cls
       && (portSt s .east).drainHeld.isEmpty && !(drainClasses s).all (fun c => ((portSt s .east).drainDone ++ [f.cls]).contains c)),
    (let s := { rejoining none 5 none { eastDrain := true } with ring := { east := { span := .up, drainTick := 1000000000 - 1000 } } }
     draining s .east && (drainClasses s).contains 3 && decide ((portSt s .east).drainTick + 1000 ≤ tickNow s)),
    decide (tickNow run < 1000000000 - 999 + 1000)] = true := by decide +kernel

/-- Both ports alike. -/
def ports (q : PortSt) : State := { run with ring := { node := 4, east := q, west := q }, csr := [(0x50000, 0x215), (0x50100, 0x215)] }

theorem witness_SpanLosses : allMet [
    isUp (ports { span := .up }) .east && isUp (ports { span := .up }) .west && !(portSt (ports { span := .up }) .east).cageOff,
    (let s := { ports { span := .up } with ring := { east := { span := .up } } }
     isUp s .east && !isUp s .west && !isUp s (otherPort .east)),
    (portSt (ports {}) .east).span == .adminDown && !(portSt (ports {}) .east).cageOff,
    (let q := { cageOff := true, cageUp := 1000000000 - 1999999 : PortSt }
     (portSt (ports q) .west).cageOff && decide ((ports q).time.up < q.cageUp + 2000000)),
    (let s := ports { span := .down, modPresent := true }
     (portSt s .east).span == .down && mayLock (modPort .east (fun q => { q with los := false }) s) .east),
    (let s := ports { span := .down }
     !mayLock (modPort .east (fun q => { q with los := false }) s) .east),
    (portSt (ports { span := .training }) .east).span != .down,
    (let q := { txdisUntil := some 1000000000 : PortSt }
     (portSt (ports q) .east).txdisUntil == some 1000000000 && decide (1000000000 ≤ (ports q).time.up)),
    decide ((ports {}).time.up < 1000000001)] = true := by decide +kernel

def train (port revMax count : Byte) : Frame := frame 4 ([1, port, 1, revMax] ++ leBytes 8 9 ++ leBytes 4 0 ++ [2, 0, 0, count] ++ zeros 4)

theorem witness_Training : allMet [
    (let s := ports { span := .locking }
     (portSt s .west).span == .locking && bits (pcfg s .west) 1 2 == 2),
    (let s := { ports { span := .locking } with csr := [(0x50000, 0x213)] }
     bits (pcfg s .east) 1 2 == 1 && bits (pcfg { s with csr := [(0x50000, 0x211)] } .east) 1 2 == 0),
    [(1, 1, SpanState.training), (1, 3, .up), (0, 3, .miswired)].all (fun x =>
      let f := train x.1 2 x.2.1
      let s := { ports { span := .training, train := some ⟨x.1.toNat, 1, 2, 0⟩, consistent := 2 } with
        sw := { queues := [(qKey .local 4, [f])] }, csr := [(0x50000, 0x215)] }
      ctlHead s 1 24 == some f && ingressPort f == .east && (portSt s .east).span == .training
        && trainState .east s ⟨x.1.toNat, 1, 2, 0⟩ 3 x.2.1.toNat == x.2.2),
    (let s := ports { span := .training, lockUp := 1000000000 - 100000 }
     (portSt s .west).span == .training && decide ((portSt s .west).lockUp + 100000 ≤ s.time.up)),
    decide (run.time.up < 1000000000 - 99999 + 100000),
    (let s := ports { span := .locking, fecFailUp := 1000000000 - 200000 }
     (portSt s .west).span == .locking && decide ((portSt s .west).fecFailUp + 200000 ≤ s.time.up)),
    decide (run.time.up < 1000000000 - 199999 + 200000),
    (portSt (ports {}) .east).span == .adminDown && (portSt (ports { span := .down }) .east).span != .adminDown,
    (portSt (ports { span := .up, peerUp := true }) .west).span == .up && (portSt (ports { span := .up, peerUp := true }) .west).peerUp
      && decide ((4 : BitVec 4) ≠ 3 ∧ (4 : BitVec 4) ≠ 2),
    barFree (ports {}) && !bit (0xFE : Word).toNat 0 && bit (0x215 : Word).toNat 0] = true := by decide +kernel

/-! ## Membership, master and ring time -/

/-- Node 1, master of the ring of `light`. -/
def master (f : Option Frame) (r : RingState) : State :=
  { run with ring := { r with node := 1, light := some light }, master := { role := 1 }, upd := State.reset.upd
             sw := { current := { node := 1 }, queues := match f with | some x => [(qKey .local 4, [x])] | none => [] } }

/-- A hub without a number that follows node 1's beacon. -/
def joining (sent : Bool) (t : Nat) : State :=
  { run with ring := { beaconSrc := 1, joinSent := sent, joinUp := t }, time := { up := 1000000000, lastBeacon := some 9 } }

def join (charge : Nat) : Frame := frame 4 ([8, 9, 0, 0] ++ leBytes 8 77 ++ leBytes 4 charge ++ leBytes 4 0 ++ zeros 4)
def assign (uid : Nat) : Frame := frame 4 ([9, 4, 0, 0] ++ leBytes 8 uid ++ leBytes 4 9 ++ leBytes 4 0 ++ leBytes 8 500001)
def report : Frame := frame 4 ([6, 0, 0, 3, 9] ++ zeros 11)
def lightFragment (n : Nat) : Frame := frame 4 ([7, 0] ++ leBytes 2 n ++ zeros 64)

theorem witness_RingMembership : allMet [
    (let s := joining true (1000000000 - 20000)
     s.ring.node == 0 && s.time.lastBeacon.isSome && !s.ring.answered && masterNode s != 0 && decide (s.ring.joinUp + 20000 ≤ s.time.up)),
    (let s := joining true (1000000000 - 19999)
     s.ring.joinSent && decide (s.time.up < s.ring.joinUp + 20000)),
    (onRing {}).ring.node != 0,
    (let f := join 2500000
     let s := master (some f) {}
     let j : JoinReq := ⟨9, 0, 0, 77, 2500000, 0, 0, 0⟩
     queueOf s .local 4 == [f] && rd f.payload 0 1 == 8 && decide (24 ≤ f.payload.length ∧ f.rxTick < tickNow s)
       && newestLight s == some light && isMaster s && chooseNumber light (plans s.upd.inForce) j == (9, false, 0)
       && decide (((light.entries.filter (fun e => e.node != 9)).map (fun e => e.grant.toNat)).sum + j.charge ≤ 1250 * light.n.toNat)),
    decide (1250 * light.n.toNat < ((light.entries.filter (fun e => e.node != 9)).map (fun e => e.grant.toNat)).sum + 2500001),
    (let s := headOf (join 1)
     queueOf s .local 4 == [join 1] && decide ((join 1).rxTick < tickNow s) && (newestLight s).isSome && !isMaster s),
    decide (tickNow run ≤ { join 1 with rxTick := tickNow run }.rxTick),
    [1, 2].all (fun n =>
      let s := { headOf (assign n) with upd := State.reset.upd }
      ctlHead s 9 28 == some (assign n) && s.ring.pubWaits.isEmpty && ((rd (assign n).payload 4 8 == (myUid s).toNat) == (n == 1))),
    (let w : PubWait := { node := 2, session := 1, tag := 5, first := 0, count := 1, up := 1000000000 - 200000, effc := none }
     let s := { busyWith heldLevel with ring := { pubWaits := [w] } }
     s.ring.pubWaits == [w] && s.maps.acts.isEmpty && decide (w.up + 200000 ≤ s.time.up) && heldLevel.session == w.session && heldLevel.tag == w.tag),
    decide (run.time.up < 1000000000 - 199999 + 200000),
    (let s := master (some report) { spanDown := [(2, 9)] }
     ctlHead s 6 16 == some report && s.master.role != 0 && rd report.payload 3 1 == 3),
    (ctlHead (headOf report) 6 16).isSome && (headOf report).master.role == 0,
    (let s := headOf (lightFragment 64)
     (ctlHead s 7 4).isSome && s.ring.fragments.isEmpty && s.master.role != 2 && rd (lightFragment 64).payload 1 1 == 0
       && decide (rd (lightFragment 64).payload 2 2 + 4 ≤ (lightFragment 64).payload.length)),
    decide ((lightFragment 65).payload.length < rd (lightFragment 65).payload 2 2 + 4),
    (let s := master none { lightSentUp := 1000000000 - 2000000 }
     newestLight s == some light && isMaster s && decide (s.ring.lightSentUp + 2000000 ≤ s.time.up)),
    decide (run.time.up < 1000000000 - 1999999 + 2000000),
    (let l := { light with entries := [entry 9 0x04] }
     let s := { master none {} with ring := { node := 1, light := some l, absentSince := [(9, 1000000000 - 120000000)] } }
     slook s.ring.absentSince 9 == some (1000000000 - 120000000) && newestLight s == some l && isMaster s
       && l.entries.any (fun e => e.node == 9 && bit e.flags.toNat 2 && !entryPresent e)),
    decide (run.time.up < 1000000000 - 119999999 + 120000000)] = true := by decide +kernel

/-- Node 2, the backup of node 1. -/
def backup (m : MasterState) (t : TimeState) : State :=
  { run with ring := { node := 2, light := some light }, master := m, time := { t with up := 1000000000 } }

theorem witness_MasterEvents : allMet [
    (let s := backup { role := 2 } { missed := 3, lastBeaconUp := 1000000000 - 2000 }
     s.master.role == 2 && s.master.lostUp.isNone && decide (3 ≤ s.time.missed ∧ s.time.lastBeaconUp + 2000 ≤ s.time.up)),
    (let e := { entry 1 0x01 with eastPeer := 2, westPeer := 9 }
     let l := { light with entries := [e] }
     let s := { backup { role := 2 } {} with ring := { node := 2, light := some l, spanDown := [(2, 1), (9, 1)] } }
     s.master.role == 2 && s.master.lostUp.isNone && s.ring.light == some l && l.entries.find? (fun e => e.node == l.master.toNat) == some e
       && s.ring.spanDown.contains (e.eastPeer.toNat, e.node) && s.ring.spanDown.contains (e.westPeer.toNat, e.node)),
    (backup { role := 2, lostUp := some 5 } {}).master.lostUp.isSome,
    (let s := backup { role := 2, lostUp := some 5 } { holds := true }
     s.master.role == 2 && s.master.lostUp == some 5 && s.ring.light == some light && s.ring.node != 0 && s.time.holds),
    (let s := backup { role := 3, handBackAt := some 500000 } {}
     s.master.role == 3 && s.master.handBackAt == some 500000 && s.ring.light == some light && decide (500000 ≤ cycleNow s)
       && light.master.toNat != s.ring.node),
    decide (cycleNow run < 500001),
    (let s := backup { role := 3, returned := true, saved := { light := some light } } {}
     s.master.role == 3 && s.master.handBackAt.isNone && s.master.saved.light == some light && newestLight s == some light
       && s.master.returned && light.entries.any (fun e => e.node == light.master.toNat && entryPresent e)),
    (let s := { master none {} with master := {}, time := { up := 1000000000, locked := true } }
     s.master.role == 0 && s.ring.light == some light && light.master.toNat == s.ring.node && numbered s && s.time.locked),
    (let s := { master none {} with master := { role := 1, proof := true, stopped := true, proofStartCycle := 499997, proofUp := 1000000000 - 40000 } }
     s.master.proof && s.master.stopped && decide (s.master.proofStartCycle + 3 ≤ cycleNow s ∧ s.master.proofUp + 40000 ≤ s.time.up
       ∧ s.time.lastBeaconUp ≤ s.master.proofUp)),
    decide (cycleNow run < 499998 + 3),
    (let s := { onRing {} with time := { up := 1000000000, missed := 3, lastBeaconUp := 1000000000 - 2000 } }
     !isMaster s && decide (3 ≤ s.time.missed ∧ s.time.lastBeaconUp + 2000 ≤ s.time.up ∧ (faultSrc s 0x0303).st ≠ .active)),
    isMaster (master none {}) && decide ((onRing {}).time.missed < 3)] = true := by decide +kernel

/-- A beacon of cycle 500,000 from `src`, whose ring time lies `d` ns after the cycle's start. -/
def beacon (src : Nat) (d : Nat) : Frame :=
  { frame 4 ([2, 0, 0, 0] ++ leBytes 4 2000 ++ leBytes 6 500 ++ leBytes 2 0 ++ leBytes 4 d ++ leBytes 8 0 ++ zeros 12) with
    src := src, cycle := 500000 }

/-- Node 4 with a measured span EAST and a beacon to take. -/
def listens (f : Frame) (t : TimeState) (pd : PeerDelay) : State :=
  { run with
    ring := { node := 4, light := some light, beaconSrc := f.src, east := { span := .up, pd := pd } }, time := { t with up := 1000000000 }
    sw := { queues := [(qKey .local 4, [f])] } }

def measured : PeerDelay := { accepted := 4, samples := [65536, 65536, 65536, 65536] }

theorem witness_TimeEvents : allMet [
    (let s := listens (beacon 9 0) {} measured
     let s := { s with ring := { s.ring with beaconSrc := 1 } }
     (ctlHead s 2 40).isSome && s.master.role == 0 && !senderAllowed s 9 0 && s.ring.beaconSrc != 9 && s.time.lastBeacon.isNone),
    (let s := listens (beacon 1 0) { accepted := [500000] } measured
     senderAllowed s 1 0 && s.time.accepted.contains (beacon 1 0).cycle && s.ring.beaconSrc == (beacon 1 0).src),
    (let s := listens (beacon 1 0) {} {}
     senderAllowed s 1 0 && !s.time.accepted.contains 500000 && !pdValid s (ingressPort (beacon 1 0))),
    [false, true].all (fun holds =>
     let f := beacon 1 4000
     let s := listens f { holds := holds } measured
     ctlHead s 2 40 == some f && senderAllowed s 1 (rd f.payload 1 1) && !s.time.accepted.contains f.cycle && s.ring.light == some light
       && rd f.payload 4 4 == light.n.toNat
       && decide (f.cycle * rd f.payload 4 4 * 500 ≤ rd f.payload 8 6 * 1000000000 + rd f.payload 16 4
         ∧ rd f.payload 8 6 * 1000000000 + rd f.payload 16 4 ≤ f.cycle * rd f.payload 4 4 * 500 + 4000)
       && pdValid s (ingressPort f) && s.time.holds == holds && s.hub == .run && decide (-200000000 ≤ s.time.rate ∧ s.time.rate ≤ 200000000)),
    (let s := listens (beacon 1 0) { holds := true, missed := 3, lastBeaconUp := 1000000000 - 2000 } {}
     !isMaster s && s.time.holds && !s.time.holdover && decide (3 ≤ s.time.missed ∧ s.time.lastBeaconUp + 2000 ≤ s.time.up)),
    !run.time.holds && decide (run.time.missed < 3),
    (let s := ports { span := .up, pd := { sentUp := 1000000000 - 2000 } }
     isUp s .west && decide ((portSt s .west).pd.sentUp + 2000 ≤ s.time.up)),
    !isUp (ports {}) .west && (portSt (ports {}) .west).pd.t1.isNone,
    (let s := ports { pd := { t1 := some 7, sentUp := 1000000000 - 200 } }
     (portSt s .east).pd.t1.isSome && decide ((portSt s .east).pd.sentUp + 200 ≤ s.time.up)),
    (let f := frame 4 ([3, 0] ++ leBytes 2 1 ++ zeros 4)
     let s := listens f {} {}
     (ctlHead s 3 8).isSome && (portSt s (ingressPort f)).rev != 2),
    (let f := { frame 4 ([4, 0] ++ leBytes 2 7 ++ zeros 4 ++ leBytes 8 0) with rxTime := 131072 }
     let s := listens f {} { measured with seq := 7, t1 := some 0, sentUp := 1000000000 - 200 }
     (ctlHead s 4 16).isSome && (portSt s .east).pd.t1 == some 0 && rd f.payload 2 2 == (portSt s .east).pd.seq.toNat
       && decide (s.time.up ≤ (portSt s .east).pd.sentUp + 200)
       && decide (((f.rxTime - 0) - rd f.payload 8 8) / 2 ≤ pdMean (portSt s .east).pd + 20 * 65536
         ∧ pdMean (portSt s .east).pd ≤ ((f.rxTime - 0) - rd f.payload 8 8) / 2 + 20 * 65536)),
    (let f := { frame 4 ([4, 0] ++ leBytes 2 7 ++ zeros 4 ++ leBytes 8 0) with rxTime := 2 * (21 * 65536 + 1) }
     let d : PeerDelay := { measured with seq := 7, t1 := some 0, outliers := 6 }
     decide (d.samples ≠ [] ∧ pdMean d + 20 * 65536 < ((f.rxTime - 0) - rd f.payload 8 8) / 2 ∧ d.outliers < 7 ∧ 7 ≤ { d with outliers := 7 }.outliers)),
    !isMaster run && fld run 0x40000 0 1 == 0,
    (let s := { master none {} with csr := [(0x40000, 1)], time := { up := 1000000000, syncInAccepted := some 1000000000, syncInGood := 2 } }
     isMaster s && fld s 0x40000 0 1 == 1 && s.time.syncInAccepted == some 1000000000
       && decide (999900000 ≤ 1999900000 - 1000000000 ∧ 2000100000 - 1000000000 ≤ 1000100000 ∧ 2 ≤ s.time.syncInGood
         ∧ 1999899999 - 1000000000 < 999900000)),
    (let s := { master none {} with time := { up := 1000000000, syncInAccepted := some 0, ppsLock := true, seconds := 2, ns := 100000 } }
     s.time.syncInAccepted == some 0 && s.time.ppsLock && decide (0 + 2000100000 ≤ ringNs s)),
    decide (ringNs { run with time := { seconds := 2, ns := 99999 } } < 0 + 2000100000),
    [some false, some true].all (fun b =>
      let s := { run with csr := [(0x40000, 4)], time := { up := 1000000000, syncNext := some 500000000000, syncBall := b } }
      s.time.syncNext == some 500000000000 && fld s 0x40000 2 1 == 1 && fieldLive s && decide (500000000000 ≤ nsNow s)
        && ((s.time.syncBall == some (!(fld s 0x40000 3 1 == 1))) == (b == some true))),
    decide (nsNow run < 500000000001) && barFree run] = true := by decide +kernel

theorem witness_ClampEvents : (1000 < 1001 ∧ ¬ 1000 < 1000) ∧ (1000 ≤ 1000) := by decide

/-! ## Channels -/

theorem witness_ChannelControl : allMet [
    barFree (withChan 1 { st := .disabled }) && (chan (withChan 1 { st := .disabled }) 0).st == .disabled,
    (chan (withChan 1 { st := .alone, txq := [item 0 .push] }) 0).st == .alone && (chan run 0).st == .off,
    (let c := chan (withChan 1 { st := .joining }) 0
     c.st == .joining && c.can.onBus.isNone && c.stalled.isEmpty),
    (8 : BitVec 4).getLsbD 3 && !(4 : BitVec 4).getLsbD 3 && (4 : BitVec 4).getLsbD 2,
    (let s := withChan 3 { st := .joining }
     fieldAwake s && (chan s 0).st == .joining && !(chan s 0).resetting && pers s 0 != 4 && (chan s 0).enabling.isNone
       && !(chan s 0).can.busOff),
    (let x := waits 0x0200 [] .issued none
     let s := { withChan 1 { st := .joining, enabling := some (1, 5, 1000000000 - 2000) } with cmd := { sessions := [ses], inflight := [x] } }
     fieldAwake s && s.cmd.inflight == [x] && (chan s 0).enabling == some (x.session, x.tag, 1000000000 - 2000)),
    (chan (withChan 1 { st := .joining, resetting := true }) 0).resetting,
    (let x := waits 0x0201 [0] .issued none
     let s := { withChan 1 { st := .draining, draining := [(1, 5)] } with cmd := { sessions := [ses], inflight := [x] } }
     (chan s 0).st == .draining && (chan s 0).txq.isEmpty && (chan s 0).can.onBus.isNone && s.cmd.inflight == [x]
       && (chan s 0).draining == [(x.session, x.tag)] && (chan s 0).enabling.isNone && (chan s 0).detect.isNone && (chan s 0).stalled.isEmpty
       && (chan s 0).can.reqs.isEmpty && (chan s 0).mb.exchange.isNone && (chan s 0).mb.waiting.isEmpty && (chan s 0).iol.isdu.isEmpty)] = true := by
  decide +kernel

/-- Channel 127 a serial line whose queue is `q`. -/
def line127 (c : Chan) : State := { run with chans := [(127, c)], csr := [(0xBF800, 1)] }

def sendCmd : Cmd := waits 0x0204 [] .issued none

theorem witness_ChannelItems : allMet [
    (let i := item 3 (.send 1 5)
     let s := { line127 { st := .active, txq := [i], onWire := some 3 } with cmd := { sessions := [ses], inflight := [sendCmd] } }
     fieldAwake s && pers s 127 == 1 && !mbOn s 127 && (chan s 127).txq == [i] && !delimDefect s 127 i && (chan s 127).rptWaits.isEmpty
       && s.cmd.inflight == [sendCmd] && i.producer == .send sendCmd.session sendCmd.tag && (chan s 127).onWire == some i.seq
       && (chan s 127).st != .off),
    (let i := { item 3 .push with bad := some .denied }
     let s := line127 { st := .active, txq := [i] }
     (chan s 127).txq == [i] && i.bad == some .denied && i.producer == .push && sending (chan s 127) && (chan s 127).onWire.isNone
       && (chan s 127).pendRpt.isNone),
    [(ChState.active, 0), (.active, 500000000001), (.draining, 0)].all (fun x =>
     let i := { item 3 .push with release := some 500000000000 }
     let s := line127 { st := x.1, txq := [i], turnUntil := x.2 }
     (chan s 127).txq == [i] && i.bad.isNone && decide (nsNow s ≤ onGrid 500000000000 ∧ onGrid 500000000000 < nextNs s)
       && lineReady s 127 (onGrid 500000000000) == (x.2 == 0) && !delimDefect s 127 i && (chan s 127).onWire.isNone
       && (chan s 127).pendRpt.isNone),
    decide (onGrid 499999999995 < nsNow run ∧ nextNs run ≤ onGrid 500000000496),
    (let s := line127 { st := .active, pendRpt := some ⟨.queueFull, 0, 1⟩ }
     (chan s 127).pendRpt == some ⟨.queueFull, 0, 1⟩ && rxFits s 127 1),
    (let s := { line127 { st := .active, rxq := List.replicate 8 0, pendRpt := some ⟨.queueFull, 0, 1⟩ } with
       csr := [(0xBF800, 1), (0xBF814, 0x80001)] }
     !rxFits s 127 1),
    (let s := line127 { st := .active, stalled := [(item 0 (.send 1 5), 0)] }
     (chan s 127).stalled == [(item 0 (.send 1 5), 0)] && txFits s 127 (item 0 (.send 1 5))),
    (let s := { line127 { st := .active, txq := List.replicate 8 (item 0 .push), stalled := [(item 0 (.send 1 5), 0)] } with
       csr := [(0xBF800, 1), (0xBF810, 0x80001)] }
     !txFits s 127 (item 0 (.send 1 5))),
    (let s := { line127 { st := .active } with csr := [(0xBF800, 1), (0xBF910, 0x20000)] }
     serialHears s 127 && !mbOn s 127 && serMode s 127 == 0 && !cvEn s 127 && decide (([1, 2] : List Byte).length ≤ maxLen s 127)
       && rxFits s 127 (packetWords 7 [1, 2]).length && decide (maxLen s 127 < ([1, 2, 3] : List Byte).length)),
    (let s := { line127 { st := .active, rxq := List.replicate 8 0 } with csr := [(0xBF800, 1), (0xBF910, 0x20000), (0xBF814, 0x80001)] }
     (chan s 127).pendRpt.isNone && (chan s 127).rptWaits.isEmpty && !rxFits s 127 (packetWords 7 [1, 2]).length),
    !serialHears (line127 { st := .joining }) 127] = true := by decide +kernel

/-- Channel 0 of personality `p` in rate detection. -/
def detecting (p : Nat) (c : CanState) (start : Nat) : State :=
  { withChan p { st := .detect, detect := some ⟨1, 5, start, 10⟩, can := c } with cmd := { sessions := [ses], inflight := [waits 0x0203 [] .issued none] } }

theorem witness_RateDetection : allMet [
    met (ctx 0) 0x0203 (leBytes 4 10) (withChan 3 { st := .disabled })
      (fun u => (chan u 0).st == .disabled && !(chan u 0).resetting && pers u 0 == 3 && !isPartner (pers u) 0),
    met (ctx 0) 0x0203 (leBytes 4 600000) (withChan 1 { st := .disabled }) (fun u => (chan u 0).st == .disabled && pers u 0 == 1),
    (let s := detecting 2 {} 1000000000
     fieldAwake s && (chan s 0).detect == some ⟨1, 5, 1000000000, 10⟩ && pers s 0 == 2 && serialRates.contains 9600 && !serialRates.contains 9601),
    (let s := detecting 3 {} 1000000000
     pers s 0 == 3 && (nomTiming 10000).isSome && (chan s 0).can.nominalFound.isNone && (dataTiming 8000000).isSome),
    (let s := detecting 3 { nominalFound := some 10000, nominalUp := 1000000000 - 200000 } 1000000000
     (chan s 0).can.nominalFound == some 10000 && !(chan s 0).can.brsSeen && decide ((chan s 0).can.nominalUp + 200000 ≤ s.time.up)),
    decide (since (1000000000 - 199999) run < 200000),
    (let s := detecting 1 {} (1000000000 - 20000)
     decide (1000000000 - 20000 + 10 * 2000 ≤ s.time.up) && (chan s 0).can.nominalFound.isNone),
    decide (since (1000000000 - 19999) run < 10 * 2000)] = true := by decide +kernel

/-- Channel 0 a CAN bus, all frames received. -/
def canBus (c : Chan) : State := { run with chans := [(0, c)], csr := [(0x80000, 3), (0x80100, 6)] }

def heldReq : CanReq := ⟨1, 5, 5, 0x7FF, 1, 0, true, 1000000000 - 2000⟩

theorem witness_CanEvents : allMet [
    (let s := canBus { st := .alone, can := { rec_ := 127 } }
     fieldAwake s && pers s 0 == 3 && canHears (chan s 0) && decide ((zeros 8).length = 8 + recLen (zeros 8) ∧ (chan s 0).can.rec_ ≤ 127)
       && (chan s 0).can.reqs.isEmpty && (chan s 0).pendRpt.isNone && (List.range 64).all (fun m => !moMatches s 0 m (zeros 8))
       && !recFdf (zeros 8) && (chan s 0).txq.all (fun i => !isOnce i)
       && fld s (canAddr 0 0x100) 2 1 == 1 && rxFits s 0 (packetWords 7 (setAt (zeros 8) 5 0xFF)).length),
    fld (withChan 3 { st := .active }) (canAddr 0 0x100) 2 1 == 0,
    !canHears (chan (canBus { st := .joining }) 0),
    (let i := { item 3 .push with data := zeros 8 }
     let s := canBus { st := .active, busIdle := true, txq := [i] }
     canChoose s 0 == some i && (chan s 0).txq.head? == some i && (canDefect s 0 i).isNone && (chan s 0).busIdle && (chan s 0).can.onBus.isNone
       && !(chan s 0).can.busOff && (chan s 0).pendRpt.isNone && sending (chan s 0)),
    (chan (canBus { st := .active, can := { onBus := some 3 } }) 0).can.onBus.isSome,
    (let i := item 3 (.send 1 5)
     let s := { canBus { st := .active, txq := [i], can := { onBus := some 3, tec := 248 } } with cmd := { sessions := [ses], inflight := [sendCmd] } }
     (chan s 0).txq == [i] && (chan s 0).can.onBus == some i.seq && (chan s 0).st == .active && !(chan s 0).aborting && s.cmd.inflight == [sendCmd]
       && i.producer == .send sendCmd.session sendCmd.tag && !isOnce i && decide (255 < (chan s 0).can.tec + tecStep true .form .nominal false 0)),
    (let i := item 3 .push
     let s := canBus { st := .active, txq := [i], can := { onBus := some 3, tec := 247 } }
     (chan s 0).txq == [i] && (chan s 0).can.onBus == some i.seq && !isOnce i && CanErr.form != .ack
       && decide ((chan s 0).can.tec + tecStep true .form .dataPhase false 0 ≤ 255)),
    (let s := canBus { st := .active, can := { busOff := true } }
     (chan s 0).can.busOff && fld s (canAddr 0 0x100) 1 1 == 1 && (chan s 0).st != .off && (chan s 0).txq.all (fun i => !isOnce i)),
    (let i := { item 3 .push with release := some 400000000000, data := setAt (zeros 8) 5 1 }
     let s := { canBus { st := .active, txq := [i] } with csr := [(0x80000, 3), (0x80100, 0xFFFF0006)] }
     (chan s 0).txq == [i] && isOnce i && decide (onGrid 400000000000 + onceWin s 0 * 1000 < nsNow s) && i.producer == .push
       && (chan s 0).can.onBus.isNone && (chan s 0).pendRpt.isNone && (chan s 0).rptWaits.isEmpty && !(chan s 0).can.busOff),
    (let s := { canBus { st := .active, can := { reqs := [heldReq] } } with cmd := { sessions := [ses], inflight := [waits 0x0405 [] .issued none] } }
     (chan s 0).can.reqs == [heldReq] && heldReq.left && decide (heldReq.startUp + heldReq.timeoutMs * 2000 ≤ s.time.up)
       && (chan s 0).txq.isEmpty && (chan s 0).stalled.isEmpty),
    decide (since (1000000000 - 1999) run < heldReq.timeoutMs * 2000)] = true := by decide +kernel

/-- A Modbus exchange for session 1, tag 5. -/
def exchange (func qty retries : Nat) (sent broadcast : Bool) : MbExchange :=
  { user := .txn 1 5, slave := if broadcast then 0 else 247, func := func, request := [], addr := 0, qty := qty, timeoutMs := 1, retries := retries
    startUp := 1000000000 - 2000, broadcast := broadcast, sent := sent }

def mbBus (m : MbState) (x : List Cmd) : State :=
  { modbus { st := .active, mb := m } with cmd := { sessions := [ses], inflight := x } }

def txnCmd : Cmd := waits 0x0400 ([9, 3] ++ leBytes 2 0 ++ leBytes 2 1) .issued none

/-- An image whose only record is one poll entry of channel 0: every cycle, 1 register of slave 9. -/
def polledImage : List Byte := 
  leBytes 4 0x4643594C ++ [5, 1, 0, 0] ++ leBytes 4 132 ++ zeros 52 ++ [3, 0, 0, 0] ++ leBytes 4 80 ++ leBytes 4 48 ++ zeros 4
    ++ (leBytes 4 0x0302 ++ leBytes 4 36)
    ++ (zeros 8 ++ ([9, 3, 0, 0] ++ leBytes 2 0 ++ leBytes 2 1 ++ zeros 4 ++ leBytes 2 1 ++ zeros 14)) ++ zeros 4

theorem witness_ModbusEvents : allMet [
    (let s := mbBus { waiting := [(1, 5)] } [txnCmd]
     fieldAwake s && mbOn s 0 && serialHears s 0 && (chan s 0).mb.exchange.isNone && (chan s 0).mb.round.isEmpty && (lockedBy s 0).isNone
       && s.cmd.inflight == [txnCmd] && (chan s 0).mb.waiting == [(txnCmd.session, txnCmd.tag)]),
    (let s := { mbBus { round := [⟨0, [], false⟩] } [] with upd := { inForce := polledImage } }
     (chan s 0).mb.round == [⟨0, [], false⟩] && (chan s 0).mb.exchange.isNone && (chan s 0).mb.waiting.isEmpty && (lockedBy s 0).isNone
       && (polls s 0)[0]?.any (fun p => p.slave == 9)),
    (let s := mbBus {} []
     (chan s 0).mb.exchange.isNone && (chan s 0).mb.round.isEmpty && (chan s 0).mb.waiting.isEmpty),
    (let s := mbBus { exchange := some (exchange 3 1 0 false false) } []
     (chan s 0).mb.exchange == some (exchange 3 1 0 false false)),
    (let e := exchange 3 127 0 true false
     let s := mbBus { exchange := some e } [txnCmd]
     (chan s 0).mb.exchange == some e && e.sent && !e.broadcast && e.user == .txn txnCmd.session txnCmd.tag && s.cmd.inflight == [txnCmd]
       && decide ((zeros 254).length = 2 * e.qty ∧ e.qty < 128 ∧ e.slave < 256) && decide (afterRequest s 0 e (e.timeoutMs * 2000) ≤ s.time.up)),
    (let e := exchange 23 1 1 true false
     decide (1 ≤ e.func ∧ e.func ≤ 23 ∧ (0xFF : Byte) ≠ 6 ∧ e.slave < 256 ∧ 0 < e.retries)),
    decide ((zeros 3).length < 4 ∧ rd (zeros 4) 2 2 ≠ crcModbus ((zeros 4).take 2)),
    decide (run.time.up < afterRequest run 0 { exchange 3 1 0 true false with startUp := 1000000000 - 1999 } 2000),
    (let e := exchange 6 1 0 true true
     let s := { mbBus { exchange := some e } [txnCmd] with csr := [(0x80000, 1), (0x80200, 0x10001)] }
     (chan s 0).mb.exchange == some e && e.broadcast && mbOn s 0 && decide (afterRequest s 0 e (fld s (chnAddr 0 0x200) 16 10 * 2000) ≤ s.time.up)),
    (let s := { mbBus {} [] with csr := [(0x80000, 1), (0x80200, 0x20001)] }
     decide (s.time.up < afterRequest s 0 (exchange 6 1 0 true true) (fld s (chnAddr 0 0x200) 16 10 * 2000)))] = true := by decide +kernel

/-- The request of the example of R246: 8 characters of 8E1 at 19,200 bit/s last 4,583.33 µs. -/
theorem test_request_ticks : charTicks { run with csr := [(0x80000, 1), (0x80100, 4), (0x80104, 19200)] } 0 8 = 9166 := by decide +kernel

/-- Channel 0 an IO-Link port with settings `cfg` and state `x`; outlet 0 on since tick `t`. -/
def port (cfg : Word) (c : ChState) (x : IolState) (o : Outlet) : State :=
  { run with chans := [(0, { st := c, iol := x })], csr := [(0x80000, 4), (0x80300, cfg), (0x80314, 0x0101)], power := { outlets := [(0, o)] } }

def onSince (t : Nat) : Outlet := { st := .on, sinceUp := t }

theorem witness_IoLinkEvents : allMet [
    [(0x101, ChState.active), (0x102, .active), (0x103, .joining), (0x104, .joining)].all (fun x =>
      let s := port x.1 x.2 { st := .noPower } (onSince (1000000000 - 2000))
      fieldAwake s && iolLive s 0 && iolSt s 0 == .noPower && (outlet s (iolOutlet s 0)).st == .on && (chan s 0).st == x.2
        && decide (iolMode s 0 = bits x.1.toNat 0 3 ∧ (outlet s (iolOutlet s 0)).sinceUp + iolPwrDelay s 0 * 2000 ≤ s.time.up)),
    (let s := port 0x102 .active { st := .noPower } (onSince (1000000000 - 1999))
     decide (since (outlet s (iolOutlet s 0)).sinceUp s < iolPwrDelay s 0 * 2000)),
    (let x := waits 0x0403 (leBytes 2 16 ++ [0, 0]) .issued none
     let s := { port 2 .draining { st := .operate, isdu := [(1, 5)] } {} with cmd := { sessions := [ses], inflight := [x] } }
     iolLive s 0 && iolSt s 0 != .noPower && (outlet s (iolOutlet s 0)).st != .on && s.cmd.inflight == [x]
       && (chan s 0).iol.isdu == [(x.session, x.tag)]),
    wakeDue (port 2 .joining { st := .wake } (onSince 5)) 0 && !wakeDue (port 2 .joining { st := .operate } (onSince 5)) 0,
    (let s := port 2 .joining { st := .wake, tryCom := 3 } (onSince 5)
     iolLive s 0 && decide ((chan s 0).iol.tryCom ≠ 0 ∧ 2 ≤ (chan s 0).iol.tryCom)),
    (let s := port 2 .joining { st := .wake, tryCom := 1, wakes := 3 } (onSince 5)
     (chan s 0).iol.tryCom == 1 && decide (3 ≤ (chan s 0).iol.wakes) && (chan s 0).iol.st == .wake),
    (let s := port 2 .joining { st := .startup } (onSince 5)
     (chan s 0).iol.st == .startup && iolMode s 0 == 2 && pdLen 0x08 == pdInLen s 0 && pdLen 0x09 != pdInLen s 0 && (chan s 0).st == .joining),
    [0, 2].all (fun n =>
      let s := port 2 .active { st := .operate, failed := n, repeats := 1 } (onSince 5)
      iolLive s 0 && (chan s 0).iol.st == .operate && pdInLen s 0 == 1 && decide ((chan s 0).iol.repeats < 2) && (chan s 0).iol.failed == n),
    (let x := waits 0x0403 (leBytes 2 16 ++ [0, 0]) .issued none
     let s := { port 2 .active { st := .operate, isdu := [(1, 5)], isduRuns := true, isduUp := 1000000000 - 10000000 } (onSince 5) with
       cmd := { sessions := [ses], inflight := [x] } }
     (chan s 0).iol.isduRuns && (chan s 0).iol.isdu == [(x.session, x.tag)] && s.cmd.inflight == [x] && x.opcode == 0x0403
       && decide ((zeros 232).length ≤ 232 ∧ (chan s 0).iol.isduUp + 10000000 ≤ s.time.up)),
    decide (since (1000000000 - 9999999) run < 10000000),
    (let s := port 2 .active { st := .operate } (onSince 5)
     !(chan s 0).iol.isduRuns && (chan s 0).pendRpt.isNone && rxFits s 0 2 && iolMode s 0 != 3),
    iolMode (port 3 .active { st := .sioDi } (onSince 5)) 0 == 3 && (chan (port 4 .active { st := .sioDq } (onSince 5)) 0).iol.st == .sioDq] = true := by
  decide +kernel

/-! ## Lines and engines -/

/-- Engine 31 as `x`, enabled, 8 bits wide, with entry `w` in state 0 for inputs 0. -/
def engine31 (x : Engine) (w : BitVec 24) : State := { run with engines := [(31, { x with table := [(0, w)] })], csr := [(leAddr 31 0, 0x41)] }

theorem witness_LineAndEngineEvents : allMet [
    fieldAwake lines && decide (dlMode lines 0 ≠ 0) && !lines.reset_.inReset && (line lines 0).level != true && dlMode lines 2 == 0,
    (let s := { run with csr := [(0xE01FC, 0x0C)] }
     dlMode s 127 != 0 && dlFilt s 127 != 0 && dlFilt lines 0 == 0),
    isOutput lines 0 && !(line lines 0).tripped && (lineDrive lines 0).isSome && (lineDrive { lines with hub := .held } 0).isNone
      && orderCode lines != 2 && orderCode { lines with upd := { ident := [(5, 2)] } } == 2,
    decide (filterNs { run with csr := [(0xE0000, 8)] } 0 = 1000),
    barFree lines && swf ({} : Line) lines.dl.lines && swf ({} : DlBank) lines.dl.banks,
    !(dlBank lines 0).trip && (bankLines 0).any (fun l => (lineDrive lines l).isSome) && (bankLines 7).all (fun l => (lineDrive lines l).isNone),
    (let s := { lines with dl := { banks := [(7, { uv := true })] } }
     !(dlBank s 0).uv && (dlBank s 7).uv && swf ({} : DlBank) s.dl.banks),
    (let s := engine31 { st := .armed, startTick := 1000000000 } 0
     fieldAwake s && leState s 31 == .armed && fieldLive s && decide ((engine s 31).startTick ≤ tickNow s)),
    decide (tickNow run < 1000000001) && leState run 31 != .armed && !leActive (leState run 31),
    (let s := engine31 { st := .run, haltPend := true } 0
     leState s 31 == .run && fieldLive s && atEdge s 31 500000000000 && (engine s 31).haltPend && (engine s 31).halting.isEmpty),
    !atEdge (engine31 { st := .run } 0) 31 500000000001,
    (let s := engine31 { st := .run, push := List.replicate 16 (0, 0) } 0x60
     leState s 31 == .run && fieldLive s && atEdge s 31 500000000000 && !(engine s 31).haltPend && (engine s 31).stalled.isNone
       && bits (sget 0 (engine s 31).table ((engine s 31).lstate * 256 + leInputs s 31)).toNat 5 3 == 3 && decide (16 ≤ (engine s 31).push.length)),
    (let s := engine31 { st := .run, pull := [(7, 1000000001)] } 0x80
     bits (sget 0 (engine s 31).table ((engine s 31).lstate * 256 + leInputs s 31)).toNat 5 3 == 4
       && (engine s 31).pull.all (fun w => decide (s.time.up < w.2))),
    [0x00, 0x20, 0x40, 0x60, 0x61, 0x80, 0xA0, 0xA2, 0xC0, 0xE0].all (fun w =>
      let s := engine31 { st := .run, pull := [(7, 1000000000)] } w
      (sget 0 (engine s 31).table ((engine s 31).lstate * 256 + leInputs s 31)) == w && decide ((engine s 31).push.length < 16)
        && (engine s 31).pull == [(7, 1000000000)] && decide (1000000000 ≤ s.time.up)),
    barFree (engine31 { st := .halted, hwidth := 8 } 0) && leState (engine31 { st := .halted, hwidth := 8 } 0) 31 == .halted
      && leState (engine31 {} 0) 31 == .idle && (8 : BitVec 4).getLsbD 3] = true := by decide +kernel

/-! ## Well-formed commands -/

/-- A header is refused whose ring node is no node, whose EFFC flag and effective cycle disagree, or that names no session without
opening one; and an event whose operands no input of the hub can carry. -/
theorem test_ill_formed_refused : [
    Instr.nop { here with path := .ring 0 }, Instr.nop { here with path := .ring 255 },
    Instr.nop { here with flags := 2 }, Instr.nop { here with effc := some 7 }, Instr.nop { here with session := 0 },
    Instr.csrWrite 0 .bar0 0x1000000 4 0, Instr.csrWrite 0 .bar0 0 9 0, Instr.rxPop 0 17, Instr.enginePop 0 17,
    Instr.rcRegisterRead 0 .bar0 0x1000000 4, Instr.rcRegisterRead 0 .bar4 0 4097, Instr.moduleInsert .east (some (zeros 95)),
    Instr.canFrameRx 0 (zeros 73) 0, Instr.iolStartupDone 0 (zeros 15), Instr.iolMSequence 0 (.ok (zeros 33) true 0),
    Instr.isduComplete 0 (.ok (zeros 233)), Instr.iolDeviceEvent 0 (List.replicate 7 (0, 0)) 0, Instr.serialFrameRx 0 [1] [] 0 none,
    Instr.tagWordWrite 0x2000 0].all (fun i => !i.wf) = true := by decide +kernel

/-- A command whose parameters do not fit a packet of 16,352 bytes is refused. -/
theorem test_long_commands_refused (a : List Byte) (h : 16352 < a.length) : ∀ i, i = Instr.echo here a ∨ i = Instr.memWrite here 0 0 0 a
    ∨ i = Instr.cfgStage here 0 a ∨ i = Instr.chSend here 0 0 a ∨ i = Instr.mapChange here 0 0 0 a ∨ i = Instr.txMbWrite here 0 0 0 0 a
    ∨ i = Instr.txMbRw here 0 0 0 0 0 0 a ∨ i = Instr.txIolWrite here 0 0 0 a ∨ i = Instr.txCanReq here 0 0 0 0 a ∨ i = Instr.leLoad here 0 0 a
    ∨ i = Instr.updBlock here 0 0 0 0 a ∨ i = Instr.tagWrite here 0 0 a ∨ i = Instr.sigWrite here 0 0 0 (a.map (fun _ => 0))
    ∨ i = Instr.txPush here (a.map (fun _ => 0)) → i.wf = false := by
  intro i hi
  rcases hi with rfl | rfl | rfl | rfl | rfl | rfl | rfl | rfl | rfl | rfl | rfl | rfl | rfl | rfl <;>
    simp only [Instr.wf, Bool.and_eq_false_iff, decide_eq_false_iff_not, List.length_map] <;> omega

/-- Frames and packets longer than their input carries are refused. -/
theorem test_long_frames_refused (a : List Byte) (h : 65535 < a.length) : ∀ i, i = Instr.submissionFetch a ∨ i = Instr.packetIn a false
    ∨ i = Instr.ringFrameRx .east a 0 .whole ∨ i = Instr.serialFrameRx 0 a (a.map (fun _ => 0)) 0 none ∨ i = Instr.mbReplyRx 0 a false 0 → i.wf = false := by
  intro i hi
  rcases hi with rfl | rfl | rfl | rfl | rfl <;>
    simp only [Instr.wf, Bool.and_eq_false_iff, decide_eq_false_iff_not, List.length_map] <;> omega

/-- No row of the table gives its command bits, so no word spells a command. -/
theorem test_no_word_spells_a_command (n w : Nat) : decodeTableWord n w = none := rfl

/-! ## Values of the specification -/

/-- The state after a command. -/
def after (i : Instr) (s : State) : State := match exec i s with | .next t => t | _ => s

/-- Session 3 of the worked packets expects tag 0x0102. -/
def worked (t : Tag) : State := { run with cmd := { sessions := [{ ses with num := 3, expected := t }] } }

def digits : List Byte := [0x31, 0x32, 0x33, 0x34, 0x35, 0x36, 0x37, 0x38, 0x39]

/-- Chapter 2, Worked packets: the ECHO packet byte for byte, and its reply. -/
theorem test_echo_packet : (after (.packetIn ([0x40, 0x00, 0x03, 0x00, 0x03, 0x00, 0x02, 0x01, 0x09, 0x00, 0xFF, 0xFF, 0x00, 0x00, 0x60, 0xCD]
      ++ digits ++ [0x83, 0x92, 0x06, 0xE3]) false) (worked 0x0102)).cmd.mntOut
    = [(0, [0x41, 0x00, 0x03, 0x00, 0x03, 0x00, 0x02, 0x01, 0x09, 0x00, 0x00, 0x00, 0x00, 0x00, 0xC1, 0x32]
      ++ digits ++ [0x83, 0x92, 0x06, 0xE3])] := by decide +kernel

/-- Chapter 2, Worked packets: SIG_READ with a length of 0xFFFF is refused with BAD_LENGTH, over the PCIe path, whose submissions
need not announce their own length. -/
theorem test_bad_length_packet :
    let s := arrive .pcie [0x40, 0x00, 0x01, 0x03, 0x03, 0x00, 0x03, 0x01, 0xFF, 0xFF, 0xFF, 0xFF, 0x00, 0x00, 0x51, 0xB2]
      { run with cmd := { sessions := [{ ses with num := 3, expected := 0x0103, path := .pcie }] } }
    (flushReplies s).cmd.out.map (·.bytes) = [[0x41, 0x00, 0x01, 0x03, 0x03, 0x00, 0x03, 0x01, 0x00, 0x00, 0x05, 0x00, 0x00, 0x00, 0xA5, 0xFF,
      0x00, 0x00, 0x00, 0x00]] := by decide +kernel

/-- R11: ring time 0 s + 1,000,250 ns lies in tick 2,000, the first of cycle 1, and 999,999 ns in tick 1,999, the last of cycle 0. -/
theorem test_ticks_and_cycles :
    [1000250, 999999].map (fun n => let s := { run with time := { holds := true, ns := n } }; (tickNow s, cycleNow s)) = [(2000, 1), (1999, 0)] := by
  decide +kernel

/-- Chapter 7, Worked example: the reply 11 03 0C 00 64 00 C8 … of 17 bytes as a STAMP word and three DATA words. -/
theorem test_packet_words : packetWords 17774 ([0x11, 0x03, 0x0C, 0x00, 0x64, 0x00, 0xC8] ++ zeros 7 ++ [1, 2, 3])
    = [0x880000000000456E, 0x87C80064000C0311, 0x8700000000000000, 0xC300000000030201] := by decide +kernel

/-- R192: a read of an empty queue returns 0, takes nothing and counts one in CHN_EMPTY_READ. -/
theorem test_empty_read : csrPeek (after (.rxPop 0 16) (withChan 1 { st := .active })) 0x800A4 = 1 := by decide +kernel

/-- R366, R368: an outlet whose I_TRIP code 10 means 350 mA enters LIMIT at 351 mA and not at 350. -/
theorem test_outlet_limit : [351, 350].map (fun ma => (outlet (after (.outletOvercurrent 31 ma)
    { outletIn .on 0 with csr := [(0x301F0, 10)] }) 31).st) = [.limit, .on] := by decide +kernel

/-- R160, worked example of chapter 6: t1 to t4 give a peer delay of 196 ns. -/
theorem test_peer_delay :
    let f := { frame 4 ([4, 0] ++ leBytes 2 7 ++ zeros 4 ++ leBytes 8 (1251 * 65536)) with rxTime := 1643 * 65536 }
    (portSt (after .pdelayRspRx (listens f {} { seq := 7, t1 := some 0, sentUp := 1000000000 })) .east).pd.samples = [196 * 65536] := by
  decide +kernel

/-- R364, log entry 2: the step on an empty queue is one tick of the hub's own counter. -/
theorem test_idle_tick : (match step run with | .next t => t.time.up | _ => 0) = 1000000001 := by decide +kernel

/-- R171, worked example: the span event, two edges in line order, the completion on CH37, a CYC frame and the command stand in the order
of one tick, and no two of them may change places. -/
theorem test_order_of_a_tick :
    let q := [Instr.losRise .west, .discreteEdge 3 true 0 0, .discreteEdge 14 true 0 0, .canFrameRx 37 (zeros 8) 0, .cycFrameRx,
      .chDisable { ctx 37 with session := 2 } 1]
    (tickOrdered run q, (List.range 5).any (fun i => tickOrdered run ((q.drop i).take 2).reverse)) = (true, false) := by decide +kernel
end Sys2Proof.Tests
end

section
/-! The check values of a command packet (R35, R36): where they stand, what they cover, and what they give over `123456789`. -/

namespace Sys2Proof.Proofs

open Sys2Proof Sys2Proof.Machine Sys2Proof.Laws

/-- What the packet CRC-32C covers (R36): the effective cycle, when present, and the parameters. -/
def packetBody : Option Nat → List Byte → List Byte
  | none, params => params
  | some k, params => leBytes 8 k ++ params

@[simp] theorem length_headBytes (h : Head) (n : Nat) : (headBytes h n).length = 14 := by
  simp [headBytes]

/-- The four parts of a packet in their order (R32). -/
theorem packetBytes_eq_parts (h : Head) (effc : Option Nat) (params : List Byte) :
    packetBytes h effc params = headBytes h params.length ++ (leBytes 2 (crc16 (headBytes h params.length))
      ++ (packetBody effc params ++ leBytes 4 (crc32c (packetBody effc params)))) := by
  cases effc <;> simp [packetBytes, packetBody]

/-- The bytes that the header CRC-16 covers. -/
theorem take_packetBytes_header (h : Head) (effc : Option Nat) (params : List Byte) :
    (packetBytes h effc params).take 14 = headBytes h params.length := by
  rw [packetBytes_eq_parts, List.take_left' (length_headBytes _ _)]

theorem slice_packetBytes_headerCrc (h : Head) (effc : Option Nat) (params : List Byte) :
    slice (packetBytes h effc params) 14 2 = leBytes 2 (crc16 ((packetBytes h effc params).take 14)) := by
  rw [take_packetBytes_header, packetBytes_eq_parts, slice_append_right _ _ _ _ (by simp), length_headBytes,
    slice_append_left _ _ _ _ (by simp), slice_all _ _ (length_leBytes 2 _)]

/-- Header and header CRC-16 take 16 bytes: what stands from there on. -/
theorem drop_packetBytes_header (h : Head) (effc : Option Nat) (params : List Byte) :
    (packetBytes h effc params).drop 16 = packetBody effc params ++ leBytes 4 (crc32c (packetBody effc params)) := by
  rw [packetBytes_eq_parts, ← List.append_assoc, List.drop_left' (by simp)]

theorem slice_packetBytes_body (h : Head) (effc : Option Nat) (params : List Byte) :
    slice (packetBytes h effc params) 16 (packetBody effc params).length = packetBody effc params := by
  rw [slice, drop_packetBytes_header, List.take_left]

theorem drop_packetBytes_body (h : Head) (effc : Option Nat) (params : List Byte) :
    (packetBytes h effc params).drop (16 + (packetBody effc params).length) = leBytes 4 (crc32c (packetBody effc params)) := by
  rw [← List.drop_drop, drop_packetBytes_header, List.drop_left]

/-- The check value that R35 gives over the nine ASCII bytes `123456789`. -/
theorem crc16_ascii_digits : crc16 [0x31, 0x32, 0x33, 0x34, 0x35, 0x36, 0x37, 0x38, 0x39] = 0x29B1 := by decide +kernel

/-- The check value that R36 gives over the nine ASCII bytes `123456789`. -/
theorem crc32c_ascii_digits : crc32c [0x31, 0x32, 0x33, 0x34, 0x35, 0x36, 0x37, 0x38, 0x39] = 0xE3069283 := by decide +kernel

/-- Settles O1: both parameter sets are those of the model by definition, and every packet is cut at the ends of its four parts. -/
theorem packetCheckValues : Obligations.PacketCheckValues := by
  unfold Obligations.PacketCheckValues
  refine ⟨fun _ => rfl, fun _ => rfl, slice_packetBytes_headerCrc, fun h params => ?noEffectiveCycle,
    fun h k params => ?effectiveCycle, crc16_ascii_digits, crc32c_ascii_digits⟩
  case noEffectiveCycle => exact ⟨drop_packetBytes_body h none params, slice_packetBytes_body h none params⟩
  case effectiveCycle =>
    have hlen : (packetBody (some k) params).length = 8 + params.length := by simp [packetBody]
    have hend : 24 + params.length = 16 + (packetBody (some k) params).length := by omega
    rw [hend, ← hlen]
    exact ⟨drop_packetBytes_body h (some k) params, slice_packetBytes_body h (some k) params⟩

end Sys2Proof.Proofs
end

section
/-! Clamp events of a channel's line (R183): the 1 µs that separates a counted event from one that is not. -/

namespace Sys2Proof.Proofs

open Sys2Proof Sys2Proof.Machine Sys2Proof.Laws

/-- A command whose meaning is `commit` has the effect `u` and none besides it. -/
theorem effectIs_commit (s u : State) : EffectIs (commit s u) s (· = u) :=
  ⟨u, commit_goOn s u, rfl⟩

theorem exec_clampEvent (ch : Fin 128) (ns : Nat) (s : State) :
    exec (.clampEvent ch ns) s = commit s (clampEvent ch.val ns s) := rfl

theorem clampEvent_of_long {ns : Nat} (hlong : 1000 < ns) (ch : Nat) (s : State) :
    clampEvent ch ns s = bump (chnAddr ch 0xAC) s := by
  rw [clampEvent, decide_eq_true hlong, onlyIf_true]

theorem clampEvent_of_short {ns : Nat} (hshort : ns ≤ 1000) (ch : Nat) (s : State) :
    clampEvent ch ns s = s := by
  rw [clampEvent, decide_eq_false (Nat.not_lt.mpr hshort), onlyIf_false]

/-- Settles O50: the event's effect is `clampEvent`, split at 1 µs. -/
theorem clampEvents : Obligations.ClampEvents := by
  unfold Obligations.ClampEvents
  intro ch ns s
  have heffect : EffectIs (exec (.clampEvent ch ns) s) s (· = clampEvent ch.val ns s) := by
    rw [exec_clampEvent]
    exact effectIs_commit s _
  constructor
  · intro hlong
    rwa [clampEvent_of_long hlong] at heffect
  · intro hshort
    rwa [clampEvent_of_short hshort] at heffect

end Sys2Proof.Proofs
end

section
/-! FLT_READ (R414): which entries of the fault log it returns, and when it is refused. -/

namespace Sys2Proof.Proofs

open Sys2Proof Sys2Proof.Machine Sys2Proof.Laws

/-- The parameters of FLT_READ (R57): index and count, two bytes each. -/
def fltReadParams (first count : BitVec 16) : List Byte := leBytes 2 first.toNat ++ leBytes 2 count.toNat

theorem exec_fltRead (c : Ctx) (first count : BitVec 16) (s : State) :
    exec (.fltRead c first count) s = commit s (hostCommand c 0x0800 (fltReadParams first count) s) := rfl

/-- A 16-bit word reads back from its two bytes. -/
theorem rd_leBytes_word (v : BitVec 16) : rd (leBytes 2 v.toNat) 0 2 = v.toNat := by
  rw [rd_leBytes]
  exact Nat.mod_eq_of_lt v.isLt

theorem rd_fltReadParams_first (first count : BitVec 16) : rd (fltReadParams first count) 0 2 = first.toNat := by
  rw [fltReadParams, rd_append_left _ _ _ _ (by simp), rd_leBytes_word]

theorem rd_fltReadParams_count (first count : BitVec 16) : rd (fltReadParams first count) 2 2 = count.toNat := by
  rw [fltReadParams, rd_append_right _ _ _ _ (by simp), length_leBytes, Nat.sub_self, rd_leBytes_word]

theorem fltRead_of_inRange {first count : Nat} (hfirst : first ≤ 511) (hpos : 1 ≤ count) (hmax : count ≤ 510) (u : State) :
    fltRead first count u
      = (.ok, leBytes 2 count ++ [0, 0] ++ (List.range count).flatMap (fun i => logBytes u ((first + i) % 512))) := by
  rw [fltRead, if_neg (by omega), if_neg (by omega)]

theorem fltRead_of_denied {first count : Nat} (h : 511 < first ∨ count = 0) (u : State) :
    fltRead first count u = (.denied, []) := by
  rw [fltRead, if_pos h]

theorem fltRead_of_tooMany {first count : Nat} (hfirst : first ≤ 511) (hmax : 510 < count) (u : State) :
    fltRead first count u = (.badLength, []) := by
  rw [fltRead, if_neg (by omega), if_pos hmax]

/-- FLT_READ runs as soon as it is accepted: its parameters are read back, and the hub stays as it is. -/
theorem runBoard_fltRead (c : Ctx) (first count : BitVec 16) (s u : State) :
    runBoard (taken c 0x0800 (fltReadParams first count) s) u
      = .done (fltRead first.toNat count.toNat u).1 (fltRead first.toNat count.toNat u).2 u := by
  have hrun : runBoard (taken c 0x0800 (fltReadParams first count) s) u
      = runFltRead (taken c 0x0800 (fltReadParams first count) s) u := rfl
  have hparams : (taken c 0x0800 (fltReadParams first count) s).params = fltReadParams first count := rfl
  rw [hrun, runFltRead, hparams, rd_fltReadParams_first, rd_fltReadParams_count]

/-- Whatever `fltRead` gives of the log, the host command completes with, and nothing changes. -/
theorem hostCompletes_fltRead (first count : BitVec 16) (st : Status) (res : State → List Byte)
    (h : ∀ u, fltRead first.toNat count.toNat u = (st, res u)) :
    HostCompletes (.fltRead · first count) 0x0800 (fltReadParams first count) (fun _ _ => True) st
      (fun _ u => res u) (fun _ u => u) := by
  refine hostCompletes_plain _ _ _ _ _ _ _ (fun c s => exec_fltRead c first count s) (by decide) (.inl (by decide)) (by decide)
    (by decide) (fun c s _ => ?run) (fun _ _ => rfl)
  case run =>
    have hrun := runBoard_fltRead c first count s (takenIn c 0x0800 (fltReadParams first count) s)
    rw [h] at hrun
    exact hrun

theorem logBytes_of_written {u : State} {i : Nat} {e : LogEntry} (h : slook u.faults.log i = some e) :
    logBytes u i = entryBytes e := by
  rw [logBytes, h]

theorem logBytes_of_unwritten {u : State} {i : Nat} (h : slook u.faults.log i = none) :
    logBytes u i = List.replicate 32 0 := by
  rw [logBytes, h]
  rfl

/-- Settles O3: the command completes with what `fltRead` gives, in its three cases; what an entry reads is `logBytes`. -/
theorem faultLogReads : Obligations.FaultLogReads := by
  unfold Obligations.FaultLogReads
  refine ⟨fun first count => ⟨?inRange, ?denied, ?tooMany⟩, fun _ _ _ => logBytes_of_written, fun _ _ => logBytes_of_unwritten⟩
  case inRange =>
    intro hfirst hpos hmax
    exact hostCompletes_fltRead first count _ _ (fltRead_of_inRange hfirst hpos hmax)
  case denied =>
    intro hrefused
    exact hostCompletes_fltRead first count _ _ (fltRead_of_denied hrefused)
  case tooMany =>
    intro hfirst hmax
    exact hostCompletes_fltRead first count _ _ (fltRead_of_tooMany hfirst hmax)

end Sys2Proof.Proofs
end

section
/-! Ring frames as bytes (R78, R79): every header field reads back from its place, and the payload follows the header. -/

namespace Sys2Proof.Proofs

open Sys2Proof Sys2Proof.Machine Sys2Proof.Laws

/-! ## Fields behind other fields -/

/-- A field behind a little-endian field. -/
theorem rd_leBytes_skip (n v : Nat) (t : List Byte) (k m : Nat) (h : n ≤ k) : rd (leBytes n v ++ t) k m = rd t (k - n) m := by
  rw [rd_append_right _ _ _ _ (by simpa using h), length_leBytes]

/-- A field behind a byte. -/
theorem rd_cons_skip (b : Byte) (t : List Byte) (k m : Nat) (h : 1 ≤ k) : rd (b :: t) k m = rd t (k - 1) m := by
  obtain ⟨j, rfl⟩ := Nat.exists_eq_add_of_le' h
  exact rd_cons_succ b t j m

/-- A bit vector reads back from as many bytes as it fills. -/
theorem rd_leBytes_toNat {w : Nat} (n : Nat) (v : BitVec w) (t : List Byte) (h : w ≤ 8 * n) :
    rd (leBytes n v.toNat ++ t) 0 n = v.toNat := by
  rw [rd_leBytes_append, Nat.mod_eq_of_lt]
  calc v.toNat < 2 ^ w := v.isLt
    _ ≤ 2 ^ (8 * n) := Nat.pow_le_pow_right (by omega) h
    _ = 256 ^ n := by rw [Nat.pow_mul]

/-- What stands behind a first part of known length. -/
theorem slice_append_prefix (a b t : List Byte) (k n : Nat) (ha : a.length = k) (hb : b.length = n) : slice (a ++ (b ++ t)) k n = b := by
  rw [slice, List.drop_left' ha, List.take_left' hb]

/-! ## The header CRC-16 is a 16-bit number -/

theorem crcBit_lt (poly reg : Nat) (d : Bool) (hp : poly < 2 ^ 16) : crcBit 16 poly reg d < 2 ^ 16 := by
  have hshift : reg * 2 % 2 ^ 16 < 2 ^ 16 := Nat.mod_lt _ (by decide)
  unfold crcBit
  dsimp only
  split
  · exact Nat.xor_lt_two_pow hshift hp
  · exact hshift

theorem crcByte_lt (poly reg d : Nat) (hp : poly < 2 ^ 16) : crcByte 16 poly reg d < 2 ^ 16 := by
  simp only [crcByte, List.foldl_cons, List.foldl_nil]
  exact crcBit_lt _ _ _ hp

theorem crc16_lt (bs : List Byte) : crc16 bs < 2 ^ 16 := by
  have hfold : ∀ (l : List Byte) (r : Nat), r < 2 ^ 16 → l.foldl (fun r d => crcByte 16 0x1021 r d.toNat) r < 2 ^ 16 := by
    intro l
    induction l with
    | nil => exact fun _ h => h
    | cons b t ih => exact fun r _ => ih _ (crcByte_lt _ _ _ (by decide))
  exact Nat.xor_lt_two_pow (hfold bs 0xFFFF (by decide)) (by decide)

/-! ## The frame header -/

theorem length_frameHead (f : Frame) : (frameHead f).length = 30 := by simp [frameHead]

/-- Every field of the header, at its place, whatever follows the header (R79). -/
theorem rd_frameHead (f : Frame) (t : List Byte) :
    rd (frameHead f ++ t) 0 1 = (f.cls % 16 + 16) % 256 ∧ rd (frameHead f ++ t) 1 1 = f.dst % 256 ∧ rd (frameHead f ++ t) 2 1 = f.src % 256
    ∧ rd (frameHead f ++ t) 3 1 = (b2n f.first + 2 * b2n f.last + 4 * b2n f.replay + 8 * b2n f.twin) % 256
    ∧ rd (frameHead f ++ t) 4 4 = f.seq.toNat ∧ rd (frameHead f ++ t) 8 2 = f.gen.toNat
    ∧ rd (frameHead f ++ t) 10 2 = f.payload.length % 256 ^ 2 ∧ rd (frameHead f ++ t) 12 1 = f.mgroup % 256
    ∧ rd (frameHead f ++ t) 13 1 = (b2n f.ccw + 2 * b2n f.wrapped) % 256 ∧ rd (frameHead f ++ t) 14 2 = f.hops % 256 ^ 2
    ∧ rd (frameHead f ++ t) 16 2 = f.stampId.toNat ∧ rd (frameHead f ++ t) 18 2 = f.frag % 256 ^ 2
    ∧ rd (frameHead f ++ t) 20 6 = f.cycle % 256 ^ 6 := by
  simp only [frameHead, List.cons_append, List.nil_append, List.append_assoc]
  refine ⟨?_, ?_, ?_, ?_, ?_, ?_, ?_, ?_, ?_, ?_, ?_, ?_, ?_⟩ <;>
    simp [rd_cons_skip, rd_leBytes_skip, rd_leBytes_append, f.seq.isLt, f.gen.isLt, f.stampId.isLt]

/-- The bits of a byte of flags. -/
theorem bit_flagByte (a b c d : Bool) : bit ((b2n a + 2 * b2n b + 4 * b2n c + 8 * b2n d) % 256) 0 = a
    ∧ bit ((b2n a + 2 * b2n b + 4 * b2n c + 8 * b2n d) % 256) 1 = b
    ∧ bit ((b2n a + 2 * b2n b + 4 * b2n c + 8 * b2n d) % 256) 2 = c
    ∧ bit ((b2n a + 2 * b2n b + 4 * b2n c + 8 * b2n d) % 256) 3 = d := by
  revert a b c d
  decide

theorem bit_ringByte (a b : Bool) : bit ((b2n a + 2 * b2n b) % 256) 0 = a ∧ bit ((b2n a + 2 * b2n b) % 256) 1 = b := by
  revert a b
  decide

/-! ## Frames on the wire -/

theorem frameBytes_eq (f : Frame) : ∃ crc, crc.length = 4 ∧
    frameBytes f = frameHead f ++ (leBytes 2 (crc16 (frameHead f)) ++ (f.payload ++ crc)) :=
  ⟨leBytes 4 (if f.poison then Nat.xor (crc32c f.payload) 0xFFFFFFFF else crc32c f.payload), length_leBytes 4 _,
    by simp [frameBytes]⟩

/-- Settles O39: the header CRC matches, and each field is read at the place where it was written. -/
theorem frameRoundTrip : Obligations.FrameRoundTrip := by
  unfold Obligations.FrameRoundTrip
  intro f ing rx tick hcls hdst hsrc hgroup hhops hfrag hcycle hpay
  obtain ⟨crc, hcrc, hbytes⟩ := frameBytes_eq f
  have htake : (frameBytes f).take 30 = frameHead f := by rw [hbytes, List.take_left' (length_frameHead f)]
  have hhcrc : rd (frameBytes f) 30 2 = crc16 ((frameBytes f).take 30) := by
    rw [htake, hbytes, rd_append_right _ _ _ _ (by simp [length_frameHead]), length_frameHead, rd_leBytes_append]
    exact Nat.mod_eq_of_lt (crc16_lt _)
  have hlen : ¬ (frameBytes f).length < 32 := by simp [hbytes, length_frameHead]; omega
  have hpayload : ((frameBytes f).drop 32).take f.payload.length = f.payload := by
    rw [hbytes, ← List.append_assoc]
    exact slice_append_prefix _ f.payload crc 32 _ (by simp [length_frameHead]) rfl
  obtain ⟨r0, r1, r2, r3, r4, r8, r10, r12, r13, r14, r16, r18, r20⟩ :=
    rd_frameHead f (leBytes 2 (crc16 (frameHead f)) ++ (f.payload ++ crc))
  rw [← hbytes] at r0 r1 r2 r3 r4 r8 r10 r12 r13 r14 r16 r18 r20
  have hfmt : bits (rd (frameBytes f) 0 1) 4 4 = 1 := by rw [r0]; unfold bits; rw [Nat.shiftRight_eq_div_pow]; omega
  have hclass : bits (rd (frameBytes f) 0 1) 0 4 = f.cls := by rw [r0, bits_zero]; omega
  have hops_eq : f.hops % 256 ^ 2 = f.hops := Nat.mod_eq_of_lt hhops
  have frag_eq : f.frag % 256 ^ 2 = f.frag := Nat.mod_eq_of_lt hfrag
  have cycle_eq : f.cycle % 256 ^ 6 = f.cycle := Nat.mod_eq_of_lt hcycle
  have hlength : rd (frameBytes f) 10 2 = f.payload.length := by rw [r10]; omega
  obtain ⟨hfirst, hlast, hreplay, htwin⟩ := bit_flagByte f.first f.last f.replay f.twin
  obtain ⟨hccw, hwrapped⟩ := bit_ringByte f.ccw f.wrapped
  have hpad : padTo f.payload.length f.payload = f.payload := by simp [padTo, zeros]
  unfold parseHead
  rw [if_neg (by rw [hhcrc, hfmt, hclass]; omega)]
  simp only [hlength, hpayload, hpad, hclass, r1, r2, r3, r4, r8, r12, r13, r14, r16, r18, r20, hfirst, hlast, hreplay, htwin, hccw,
    hwrapped, Nat.mod_eq_of_lt hdst, Nat.mod_eq_of_lt hsrc, Nat.mod_eq_of_lt hgroup, hops_eq, frag_eq, cycle_eq,
    BitVec.ofNat_toNat, BitVec.setWidth_eq]

end Sys2Proof.Proofs
end

section
/-! What settling leaves behind every step: replies whose turn has come, and events of sessions on the ring, are gone (R42, R54, R109). -/

namespace Sys2Proof.Proofs

open Sys2Proof Sys2Proof.Machine Sys2Proof.Laws

/-! ## A step is a settled effect -/

/-- Every command has an effect of its own, and what waited follows. -/
theorem exec_commits (i : Instr) (s : State) : ∃ u, exec i s = commit s u := by
  cases i <;> exact ⟨_, rfl⟩

theorem tickPasses_settles (s : State) : ∃ u, tickPasses s = goOn s u := ⟨_, rfl⟩

/-- Whether a command waits or a tick passes, a step settles on its effect. -/
theorem step_settles {s t : State} (h : step s = .next t) : ∃ q u, t = goOn q u := by
  unfold step at h
  split at h
  · obtain ⟨u, hu⟩ := tickPasses_settles s
    cases h
    exact ⟨s, u, hu⟩
  · rename_i c rest _
    obtain ⟨u, hu⟩ := exec_commits c { s with pending := rest }
    rw [hu, commit_goOn] at h
    cases h
    exact ⟨_, u, rfl⟩

/-! ## Replies -/

/-- A second pass over the commands that stay finds none that may leave. -/
theorem splitReady_stays (l : List Cmd) (held : List Nat) : (splitReady held (splitReady held l).2).1 = [] := by
  induction l generalizing held with
  | nil => rfl
  | cons c t ih =>
    by_cases hc : (isReady c && !held.contains c.session) = true
    · simpa only [splitReady, if_pos hc] using ih held
    · simpa only [splitReady, if_neg hc] using ih (c.session :: held)

theorem sendReport_inflight (node id status : Nat) (s : State) : (sendReport node id status s).cmd.inflight = s.cmd.inflight := by
  exact congrArg CmdState.inflight (onlyIf_cmd s _ _ (cmd_originate s _))

theorem itemDone_inflight (c : Cmd) (st : Status) (s : State) : (itemDone c st s).cmd.inflight = s.cmd.inflight := by
  unfold itemDone
  rw [sendReport_inflight, modSw_cmd]

theorem resendReply_inflight (p : Path) (r : Reply) (s : State) : (resendReply p r s).cmd.inflight = s.cmd.inflight := by
  simp [resendReply]

theorem sendAnswer_inflight (c : Cmd) (st : Status) (res : List Byte) (s : State) :
    (sendAnswer c st res s).cmd.inflight = s.cmd.inflight := by
  unfold sendAnswer
  extract_lets nonce r u p v
  have hu : u.cmd.inflight = s.cmd.inflight := retain_inflight s r
  have hv : v.cmd.inflight = u.cmd.inflight := by
    unfold v
    cases bit c.flags.toNat 2 <;> simp
  split
  · exact hu
  · exact (foldl_keep (fun s => s.cmd.inflight) _ (fun s _ => resendReply_inflight p r s) _ v).trans (hv.trans hu)

/-- The answer to one command touches no other command in flight. -/
theorem answer_inflight (c : Cmd) (s : State) : (answer c s).cmd.inflight = s.cmd.inflight := by
  unfold answer
  split
  · split
    · exact itemDone_inflight _ _ _
    · split
      · exact sendOut_inflight _ _ _ _ _
      · rw [(afterReply_cmd _ _ _).1, sendAnswer_inflight]
  · rfl

theorem repliesGone_flushReplies (s : State) : RepliesGone (flushReplies s) := by
  have hstay : (flushReplies s).cmd.inflight = (splitReady [] s.cmd.inflight).2 := by
    unfold flushReplies
    exact foldl_keep (fun s => s.cmd.inflight) _ (fun s c => answer_inflight c s) _ _
  unfold RepliesGone
  rw [hstay, splitReady_stays]

theorem repliesGone_sweeps (n : Nat) (s : State) : RepliesGone (sweeps n s) := by
  induction n generalizing s with
  | zero => exact repliesGone_flushReplies s
  | succ n ih =>
    unfold sweeps
    split
    · exact ih _
    · exact repliesGone_flushReplies s

theorem repliesGone_settle (s : State) : RepliesGone (settle s) := by
  unfold settle RepliesGone
  rw [(drained_drainPaths _).inflight]
  exact repliesGone_sweeps _ _

/-! ## Events of sessions on the ring -/

/-- The session is open on the ring, and events of it wait: they leave at once (R54, R109). -/
def ringEventsWait (se : Session) : Bool := isRing se.path && !se.suspended && !se.events.isEmpty

theorem ringEventsGone_iff (s : State) : RingEventsGone s ↔ ∀ se ∈ s.cmd.sessions, ringEventsWait se = false := by
  unfold RingEventsGone ringEventsWait
  exact forall₂_congr fun se _ => by cases se.suspended <;> simp

theorem ringEventsWait_cleared (se : Session) : ringEventsWait { se with events := [] } = false := by simp [ringEventsWait]

theorem ringEventsWait_of_drop {se : Session} (n : Nat) (h : ringEventsWait { se with events := se.events.drop n } = true) :
    ringEventsWait se = true := by
  simp only [ringEventsWait, Bool.and_eq_true, Bool.not_eq_true', List.isEmpty_eq_false_iff] at h ⊢
  exact ⟨h.1, fun hc => h.2 (by rw [hc, List.drop_nil])⟩

/-- The events of one session leave. -/
def sendRingEvents (s : State) (se : Session) : State :=
  if ringEventsWait se then
    se.events.foldl (fun s e => sendOut se.path se.num none [eventPacket se.num e] s) (modSession se.num (fun x => { x with events := [] }) s)
  else s

theorem ringEvents_eq (s : State) : ringEvents s = s.cmd.sessions.foldl sendRingEvents s := rfl

theorem sendRingEvents_sessions (s : State) (se : Session) : (sendRingEvents s se).cmd.sessions =
    if ringEventsWait se then s.cmd.sessions.map (fun x => if x.num = se.num then { x with events := [] } else x) else s.cmd.sessions := by
  unfold sendRingEvents
  split
  · exact foldl_keep (fun s => s.cmd.sessions) _ (fun s _ => sendOut_sessions s _ _ _ _) _ _
  · rfl

/-- While the events of the sessions `l` are still to leave, only those can wait. -/
def WaitOnlyIn (l : List Session) (s : State) : Prop :=
  ∀ se ∈ s.cmd.sessions, ringEventsWait se = true → ∃ x ∈ l, x.num = se.num ∧ ringEventsWait x = true

theorem waitOnlyIn_sendRingEvents {c : Session} {l : List Session} {s : State} (h : WaitOnlyIn (c :: l) s) :
    WaitOnlyIn l (sendRingEvents s c) := by
  intro se hse hwait
  rw [sendRingEvents_sessions] at hse
  by_cases hc : ringEventsWait c = true
  · rw [if_pos hc] at hse
    obtain ⟨x, hx, rfl⟩ := List.mem_map.mp hse
    by_cases hnum : x.num = c.num
    · rw [if_pos hnum, ringEventsWait_cleared] at hwait
      exact absurd hwait Bool.false_ne_true
    · rw [if_neg hnum] at hwait ⊢
      obtain ⟨y, hy, hynum, hywait⟩ := h x hx hwait
      rcases List.mem_cons.mp hy with rfl | hy
      · exact absurd hynum.symm hnum
      · exact ⟨y, hy, hynum, hywait⟩
  · rw [if_neg hc] at hse
    obtain ⟨y, hy, hynum, hywait⟩ := h se hse hwait
    rcases List.mem_cons.mp hy with rfl | hy
    · exact absurd hywait hc
    · exact ⟨y, hy, hynum, hywait⟩

theorem ringEventsGone_ringEvents (s : State) : RingEventsGone (ringEvents s) := by
  have hfold : ∀ (l : List Session) (u : State), WaitOnlyIn l u → RingEventsGone (l.foldl sendRingEvents u) := by
    intro l
    induction l with
    | nil =>
      intro u h
      rw [List.foldl_nil, ringEventsGone_iff]
      intro se hse
      refine Decidable.byContradiction fun hc => ?_
      obtain ⟨x, hx, _⟩ := h se hse (by simpa using hc)
      exact List.not_mem_nil hx
    | cons c t ih => exact fun u h => ih _ (waitOnlyIn_sendRingEvents h)
  rw [ringEvents_eq]
  exact hfold _ s (fun se hse hwait => ⟨se, hse, rfl, hwait⟩)

/-- A state whose sessions have at most their events dropped keeps the property. -/
theorem ringEventsGone_of_sessions {s t : State} (h : t.cmd.sessions = s.cmd.sessions) (hs : RingEventsGone s) : RingEventsGone t := by
  unfold RingEventsGone
  rw [h]
  exact hs

theorem ringEventsGone_takeEvent {s : State} (p : Path) (n : Nat) (hs : RingEventsGone s) :
    RingEventsGone (modSession n (fun se => if se.path = p then { se with events := se.events.drop 1 } else se) s) := by
  rw [ringEventsGone_iff] at hs ⊢
  intro se hse
  obtain ⟨x, hx, rfl⟩ := List.mem_map.mp hse
  refine Decidable.byContradiction fun hc => ?_
  rw [Bool.not_eq_false] at hc
  have hwait : ringEventsWait x = true := by
    split at hc
    · dsimp only at hc
      split at hc
      · exact ringEventsWait_of_drop 1 hc
      · exact hc
    · exact hc
  simp [hs x hx] at hwait

theorem ringEventsGone_nextOut {s : State} {p : Path} {x : OutPkt × State} (h : nextOut p s = some x) (hs : RingEventsGone s) :
    RingEventsGone x.2 := by
  unfold nextOut at h
  split at h
  · cases h
    split
    · exact ringEventsGone_takeEvent p _ hs
    · exact ringEventsGone_of_sessions rfl hs
  · cases h
    exact ringEventsGone_of_sessions rfl hs
  · cases h
    exact ringEventsGone_takeEvent p _ hs
  · cases h

theorem ringEventsGone_mntFill (n : Nat) {s : State} (hs : RingEventsGone s) : RingEventsGone (mntFill n s) := by
  induction n generalizing s with
  | zero => exact hs
  | succ n ih =>
    unfold mntFill
    split
    · rename_i x hx
      split
      · exact ih (ringEventsGone_of_sessions rfl (ringEventsGone_nextOut hx hs))
      · exact hs
    · exact hs

theorem ringEventsGone_pcieFill (n : Nat) {s : State} (hs : RingEventsGone s) : RingEventsGone (pcieFill n s) := by
  induction n generalizing s with
  | zero => exact hs
  | succ n ih =>
    unfold pcieFill
    split
    · rename_i o t ht
      have henqueue : (enqueue .pcie (pcieFrame o s) t).cmd.sessions = t.cmd.sessions := congrArg CmdState.sessions (cmd_enqueue t _ _)
      split
      · exact hs
      · split
        · exact ih (ringEventsGone_of_sessions henqueue (ringEventsGone_nextOut ht hs))
        · split
          · exact hs
          · exact ringEventsGone_of_sessions rfl hs
    · exact hs

theorem ringEventsGone_settle (s : State) : RingEventsGone (settle s) :=
  ringEventsGone_pcieFill _ (ringEventsGone_mntFill _ (ringEventsGone_ringEvents _))

/-- Settles O59: every step ends by settling, which sends replies until none may leave, and then the events of the ring. -/
theorem repliesAndEventsLeave : Obligations.RepliesAndEventsLeave := by
  unfold Obligations.RepliesAndEventsLeave
  intro s t h
  obtain ⟨q, u, rfl⟩ := step_settles h
  constructor
  · unfold RepliesGone
    rw [goOn_cmd]
    exact repliesGone_settle u
  · exact ringEventsGone_of_sessions (congrArg CmdState.sessions (goOn_cmd q u)) (ringEventsGone_settle u)

/-! ## The step and its front command -/

theorem withPending_pending (s : State) (l : List Instr) : ({ s with pending := l } : State).pending = l := rfl

theorem goOn_pending (s u : State) : (goOn s u).pending = s.pending := by
  unfold goOn
  exact withPending_pending _ _

/-- Settles O58: a step is `exec` of the front command by definition, and every outcome is a settled effect that leaves the queue alone. -/
theorem stepRunsFront : Obligations.StepRunsFront := by
  unfold Obligations.StepRunsFront
  refine ⟨fun _ _ _ => rfl, fun c s => ?command, fun s hempty => ?tick⟩
  case command =>
    obtain ⟨u, hu⟩ := exec_commits c s
    exact ⟨goOn s u, by rw [hu, commit_goOn], goOn_pending s u⟩
  case tick =>
    obtain ⟨u, hu⟩ := tickPasses_settles s
    refine ⟨tickPasses s, ?_, by rw [hu, goOn_pending, hempty]⟩
    unfold step
    rw [hempty]

end Sys2Proof.Proofs
end

section
/-! The hub right after reset. -/

namespace Sys2Proof.Proofs

open Sys2Proof Sys2Proof.Machine Sys2Proof.Laws

/-- Settles O60: nothing waits and no table lists a unit, so that each reads as its first value; the registers are read as their tables give them. -/
theorem afterReset : Obligations.AfterReset := by
  unfold Obligations.AfterReset
  refine ⟨rfl, rfl, rfl, rfl, rfl, ?_, ?_, ?_, ?_, ?_, ?_⟩
  · intro se hse
    exact absurd hse List.not_mem_nil
  · exact fun _ => rfl
  · exact fun _ => rfl
  · decide +kernel
  · decide +kernel
  · decide +kernel

end Sys2Proof.Proofs
end

section
/-! How an accepted host command is read and run: its fields, and one lemma for each way in which it may end. -/

namespace Sys2Proof.Proofs

open Sys2Proof Sys2Proof.Machine Sys2Proof.Laws

/-- An `if` of a condition as good as another. -/
theorem ite_of_iff {α : Type} {p q : Prop} [Decidable p] [Decidable q] (h : p ↔ q) (a b : α) : (if p then a else b) = if q then a else b :=
  ite_congr (propext h) (fun _ => rfl) fun _ => rfl

/-- A list of which every entry is kept as it is. -/
theorem filterMap_kept {α : Type} {f : α → Option α} {l : List α} (h : ∀ a ∈ l, f a = some a) : l.filterMap f = l := by
  induction l with
  | nil => rfl
  | cons a t ih => rw [List.filterMap_cons_some (h a List.mem_cons_self), ih fun x hx => h x (List.mem_cons_of_mem a hx)]

/-! ## The accepted command -/

section
variable (c : Ctx) (op : Nat) (params : List Byte) (s : State)

@[simp] theorem taken_opcode : (taken c op params s).opcode = op := rfl
@[simp] theorem taken_params : (taken c op params s).params = params := rfl
@[simp] theorem taken_target : (taken c op params s).target = c.target.toNat := rfl
@[simp] theorem taken_session : (taken c op params s).session = c.session.val := rfl
@[simp] theorem taken_tag : (taken c op params s).tag = c.tag := rfl
@[simp] theorem taken_effc : (taken c op params s).effc = c.effc := rfl
@[simp] theorem taken_path : (taken c op params s).path = c.path := rfl

/-- Taking a command in lets no time pass. -/
@[simp] theorem tickNow_takenIn : tickNow (takenIn c op params s) = tickNow s := rfl
@[simp] theorem taken_tick : (taken c op params s).tick = tickNow (takenIn c op params s) := rfl

end

/-- A host command is no access that another node carries here. -/
@[simp] theorem isCarried_taken (c : Ctx) (op : Nat) (params : List Byte) (s : State) : isCarried (taken c op params s) = false := by
  exact decide_eq_false (Nat.not_le.mpr c.session.isLt)

/-! ## Opcodes without an order of their own -/

/-- An opcode that acts as it reaches execution, that no target orders and that does not take LOCKED; UPD_COMMIT, whose reply has an
effect of its own, is left out. -/
def plainOp (op : Nat) : Bool := actsNow op && untargeted op && (opRow op).all (fun r => !r.l) && op != 0x0901

/-- The execution of a command that no target orders. -/
def runPlain (x : Cmd) (u : State) : Ran :=
  if x.opcode < 0x0200 then runSystem x u else if x.opcode < 0x0600 then runField x u else runBoard x u

theorem plainOp_parts {op : Nat} (h : plainOp op = true) :
    actsNow op = true ∧ untargeted op = true ∧ (opRow op).all (fun r => !r.l) = true ∧ op ≠ 0x0901 := by
  simp only [plainOp, Bool.and_eq_true, bne_iff_ne] at h
  exact ⟨h.1.1.1, h.1.1.2, h.1.2, h.2⟩

/-- A command of a plain opcode that is alone in flight and whose execution completes. -/
theorem hostCompletes_alone {i : Ctx → Instr} {op : Nat} {params : List Byte} {good : Ctx → State → Prop} {st : Status}
    {res : Ctx → State → List Byte} {eff : Ctx → State → State} (hk : plainOp op = true)
    (hx : ∀ c s, exec (i c) s = commit s (hostCommand c op params s))
    (hr : ∀ c s, good c (takenIn c op params s) → runPlain (taken c op params s) (takenIn c op params s)
      = .done st (res c (takenIn c op params s)) (eff c (takenIn c op params s)))
    (hu : ∀ c s, good c (takenIn c op params s) → (takenIn c op params s).cmd.inflight = [taken c op params s] →
      (eff c (takenIn c op params s)).cmd.inflight = [taken c op params s]) : HostCompletes i op params good st res eff := by
  obtain ⟨hnow, hfree, hlock, hcommit⟩ := plainOp_parts hk
  intro c s hidle heffc ha hgood
  rw [hx]
  refine host_done c op params s _ st _ hidle (.inl hcommit) ha ?_ (hu c s hgood (takenIn_inflight s c op params hidle))
  rw [runOne_now _ _ rfl heffc hnow, runNow_untargeted _ _ hfree (accepts_unlocked s c op params ha hlock)]
  exact congrArg (noteRan _) (hr c s hgood)

/-- The same where the effect touches no command in flight. -/
theorem hostCompletes_run {i : Ctx → Instr} {op : Nat} {params : List Byte} {good : Ctx → State → Prop} {st : Status}
    {res : Ctx → State → List Byte} {eff : Ctx → State → State} (hk : plainOp op = true)
    (hx : ∀ c s, exec (i c) s = commit s (hostCommand c op params s))
    (hr : ∀ c s, good c (takenIn c op params s) → runPlain (taken c op params s) (takenIn c op params s)
      = .done st (res c (takenIn c op params s)) (eff c (takenIn c op params s)))
    (hu : ∀ c u, good c u → (eff c u).cmd.inflight = u.cmd.inflight) : HostCompletes i op params good st res eff :=
  hostCompletes_alone hk hx hr (fun c _ hgood hin => (hu c _ hgood).trans hin)

/-- A command of a plain opcode that completes and changes nothing. -/
theorem hostCompletes_same {i : Ctx → Instr} {op : Nat} {params : List Byte} {good : Ctx → State → Prop} {st : Status}
    {res : Ctx → State → List Byte} (hk : plainOp op = true) (hx : ∀ c s, exec (i c) s = commit s (hostCommand c op params s))
    (hr : ∀ c s, good c (takenIn c op params s) → runPlain (taken c op params s) (takenIn c op params s)
      = .done st (res c (takenIn c op params s)) (takenIn c op params s)) : HostCompletes i op params good st res (fun _ u => u) :=
  hostCompletes_run hk hx hr (fun _ _ _ => rfl)

/-- A command of a plain opcode whose execution goes on. -/
theorem hostStands_run {i : Ctx → Instr} {op : Nat} {params : List Byte} {good : Ctx → State → Prop} {eff : Ctx → State → State}
    (hk : plainOp op = true) (hx : ∀ c s, exec (i c) s = commit s (hostCommand c op params s))
    (hr : ∀ c s, good c (takenIn c op params s) → runPlain (taken c op params s) (takenIn c op params s)
      = .later (eff c (takenIn c op params s)))
    (hu : ∀ c u, (eff c u).cmd.inflight = u.cmd.inflight) : HostStands i op params good (fun _ _ => .issued) eff := by
  obtain ⟨hnow, hfree, hlock, _⟩ := plainOp_parts hk
  exact hostStands_plain i op params good eff hx hnow hfree hlock hr hu

/-- What differs in the counter of free values alone is the same hub. -/
theorem hostCompletes_view {i : Ctx → Instr} {op : Nat} {params : List Byte} {good : Ctx → State → Prop} {st : Status}
    {res : Ctx → State → List Byte} {eff eff' : Ctx → State → State} (h : HostCompletes i op params good st res eff)
    (hv : ∀ c u, hubView (eff c u) = hubView (eff' c u)) : HostCompletes i op params good st res eff' := by
  intro c s hidle heffc haccepts hgood
  obtain ⟨t, hnext, hanswered, hview⟩ := h c s hidle heffc haccepts hgood
  exact ⟨t, hnext, hanswered, hview.trans (hv c _)⟩

end Sys2Proof.Proofs
end

section
/-! Commands that read the hub's records or the field side: each is one step that gives its results and leaves the hub as it is. -/

namespace Sys2Proof.Proofs

open Sys2Proof Sys2Proof.Machine Sys2Proof.Laws

/-! ## The hub's own records -/

theorem stateBytes_eq (u : State) : stateBytes u = leBytes 4 (csrPeek u 0x004) ++ leBytes 4 (csrPeek u 0x00C)
    ++ leBytes 8 (u.maps.lastClosed.getD (2 ^ 64 - 1)) ++ leBytes 8 (tickNow u) := by
  unfold stateBytes
  cases u.maps.lastClosed <;> rfl

/-- TAG_READ of a record that there is. -/
theorem runTagRead_of_record (c : Ctx) (r : Byte) (s u : State) (hr : r.toNat ≤ 15) :
    runTagRead (taken c 0x0A01 [r] s) u = .done .ok (tagBytes u (256 * r.toNat) 256) u := by
  simp only [runTagRead, taken_params, rd_cons_byte, if_neg (Nat.not_lt.mpr hr)]

/-- CFG_READ of a range that lies in its part of the image. -/
theorem cfgRead_of_inside {slot sect off len at_ size : Nat} {b : List Byte} {u : State} (hslot : slot ≤ 1)
    (hb : (if slot = 0 then u.upd.active else u.upd.lehr) = b) (hpart : cfgPart b sect = some (at_, size)) (hsize : off + len ≤ size)
    (hend : at_ + off + len ≤ b.length) : cfgRead slot sect off len u = (.ok, slice b (at_ + off) len) := by
  unfold cfgRead
  rw [if_neg (Nat.not_lt.mpr hslot)]
  dsimp only
  rw [hb, hpart]
  dsimp only
  rw [if_neg (by omega)]

theorem runSystem_cfgRead (c : Ctx) (slot sect : Byte) (off len : Word) (s u : State) :
    runSystem (taken c 0x0104 ([slot, sect, 0, 0] ++ leBytes 4 off.toNat ++ leBytes 4 len.toNat) s) u
      = .done (cfgRead slot.toNat sect.toNat off.toNat len.toNat u).1 (cfgRead slot.toNat sect.toNat off.toNat len.toNat u).2 u := by
  have hoff := rd_leBytes_toNat 4 off (leBytes 4 len.toNat ++ []) (by decide)
  have hlen := rd_leBytes_toNat 4 len [] (by decide)
  simp [runSystem, rd_cons_skip, rd_leBytes_skip] at hoff hlen ⊢
  simp [hoff, hlen]

/-- Settles O2: each command's execution is one line of the dispatch, and reads the record that the catalogue names. -/
theorem queriesOfTheHub : Obligations.QueriesOfTheHub := by
  unfold Obligations.QueriesOfTheHub
  refine ⟨?nop, fun data => ?echo, ?getState, ?timeGet, ?cfgStatus, ?updStatus, ?idRead, fun r hr => ?tagRead, ?ringStatus,
    fun l => ?lightListRead, fun slot sect off len at_ size b hslot hsize hend => ?cfgRead⟩
  case nop => exact hostCompletes_same (by decide) (fun _ _ => rfl) (fun _ _ _ => rfl)
  case echo => exact hostCompletes_same (by decide) (fun _ _ => rfl) (fun _ _ _ => rfl)
  case getState =>
    refine hostCompletes_same (by decide) (fun _ _ => rfl) (fun c s _ => ?_)
    rw [← stateBytes_eq]
    rfl
  case timeGet => exact hostCompletes_same (by decide) (fun _ _ => rfl) (fun _ _ _ => rfl)
  case cfgStatus => exact hostCompletes_same (by decide) (fun _ _ => rfl) (fun _ _ _ => rfl)
  case updStatus => exact hostCompletes_same (by decide) (fun _ _ => rfl) (fun _ _ _ => rfl)
  case idRead => exact hostCompletes_same (by decide) (fun _ _ => rfl) (fun _ _ _ => rfl)
  case tagRead => exact hostCompletes_same (by decide) (fun _ _ => rfl) (fun c s _ => runTagRead_of_record c r s _ hr)
  case ringStatus => exact hostCompletes_same (by decide) (fun _ _ => rfl) (fun _ _ _ => rfl)
  case lightListRead =>
    refine hostCompletes_same (by decide) (fun _ _ => rfl) (fun c s hlight => ?_)
    have hlight : (takenIn c 0x0B01 [] s).ring.light = some l := hlight
    simp [runPlain, runBoard, hlight]
  case cfgRead =>
    refine hostCompletes_same (by decide) (fun _ _ => rfl) (fun c s hgood => ?_)
    have hrun := runSystem_cfgRead c slot sect off len s
      (takenIn c 0x0104 ([slot, sect, 0, 0] ++ leBytes 4 off.toNat ++ leBytes 4 len.toNat) s)
    rw [cfgRead_of_inside hslot hgood.1 hgood.2 hsize hend] at hrun
    exact hrun

/-! ## The field side -/

theorem runChStatus_of_served {c : Ctx} {s u : State} (h : (chan u c.target.toNat).st ≠ .partner) :
    runChStatus (taken c 0x0207 [] s) u = .done .ok (chStatusBytes u c.target.toNat) u := by
  simp [runChStatus, h]

theorem runLeStatus_of_on {c : Ctx} {s u : State} (h : leState u c.target.toNat ≠ .off) :
    runLeStatus (taken c 0x0504 [] s) u = .done .ok (leBytes 1 (leNo (leState u c.target.toNat)) ++ leBytes 1 (engine u c.target.toNat).count
      ++ leBytes 1 (engine u c.target.toNat).push.length ++ leBytes 1 (engine u c.target.toNat).pull.length
      ++ leBytes 4 (engine u c.target.toNat).shift) u := by
  simp [runLeStatus, h]

theorem runPeerDelay_of_valid {c : Ctx} {s u : State} (h : pdValid u (portOf c.target.toNat) = true) :
    runPeerDelay (taken c 0x0703 [] s) u = .done .ok (leBytes 4 (pdMean (portSt u (portOf c.target.toNat)).pd / 65536)
      ++ leBytes 2 (pdMean (portSt u (portOf c.target.toNat)).pd % 65536)) u := by
  simp [runPeerDelay, h]

/-- The parameters of SIG_READ (R57). -/
def sigReadParams (first : Word) (count : BitVec 16) (cycle : DWord) : List Byte :=
  leBytes 4 first.toNat ++ leBytes 2 count.toNat ++ [0, 0] ++ leBytes 8 cycle.toNat

theorem rd_sigReadParams (first : Word) (count : BitVec 16) (cycle : DWord) : rd (sigReadParams first count cycle) 0 4 = first.toNat
    ∧ rd (sigReadParams first count cycle) 4 2 = count.toNat ∧ rd (sigReadParams first count cycle) 8 8 = cycle.toNat := by
  have hcycle := rd_leBytes_toNat 8 cycle [] (by decide)
  simp [sigReadParams, rd_cons_skip, rd_leBytes_skip, rd_leBytes_toNat] at hcycle ⊢
  exact hcycle

/-- SIG_READ of a closed cycle that the history holds and no copy runs over (R283). -/
theorem runSigRead_of_held {c : Ctx} {first : Word} {count : BitVec 16} {cycle : DWord} {l : Nat} {s u : State}
    (hlast : u.maps.lastClosed = some l) (hle : cycle.toNat ≤ l) (hnew : l ≤ cycle.toNat + 15)
    (hheld : (closedImage u cycle.toNat).isSome = true) (hcopy : u.maps.copying ≠ some cycle.toNat) (hl : l < 2 ^ 48) :
    runSigRead (taken c 0x0301 (sigReadParams first count cycle) s) u = .done .ok (sigResults u cycle.toNat first.toNat count.toNat) u := by
  obtain ⟨hfirst, hcount, hcycle⟩ := rd_sigReadParams first count cycle
  have hnewest : ¬ cycle.toNat = 2 ^ 64 - 1 := by omega
  have hgone : ¬ ((decide (cycle.toNat + 15 < l) || (closedImage u cycle.toNat).isNone) = true) := by
    simp [Option.isSome_iff_ne_none.mp hheld, hnew]
  simp only [runSigRead, taken_params, hfirst, hcount, hcycle, hlast, if_neg hnewest, if_neg (Nat.not_lt.mpr hle)]
  rw [if_neg hgone, if_neg hcopy]

/-- Settles O4: as for the hub's own records; the drawing of a free value for the package power leaves the hub as it is. -/
theorem queriesOfTheField : Obligations.QueriesOfTheField := by
  unfold Obligations.QueriesOfTheField
  refine ⟨?chStatus, ?mapStatus, ?leStatus, ?dlRead, ?outStatus, ?pwrStatus, ?peerDelayGet, fun first count cycle l => ?sigRead⟩
  case chStatus => exact hostCompletes_same (by decide) (fun _ _ => rfl) (fun _ _ h => runChStatus_of_served h)
  case mapStatus => exact hostCompletes_same (by decide) (fun _ _ => rfl) (fun _ _ _ => rfl)
  case leStatus => exact hostCompletes_same (by decide) (fun _ _ => rfl) (fun _ _ h => runLeStatus_of_on h)
  case dlRead => exact hostCompletes_same (by decide) (fun _ _ => rfl) (fun _ _ _ => rfl)
  case outStatus => exact hostCompletes_same (by decide) (fun _ _ => rfl) (fun _ _ _ => rfl)
  case pwrStatus =>
    exact hostCompletes_view (hostCompletes_run (eff := fun _ u => (draw u).2) (by decide) (fun _ _ => rfl) (fun _ _ _ => rfl)
      (fun _ _ _ => rfl)) (fun _ _ => rfl)
  case peerDelayGet => exact hostCompletes_same (by decide) (fun _ _ => rfl) (fun _ _ h => runPeerDelay_of_valid h)
  case sigRead =>
    refine hostCompletes_same (by decide) (fun _ _ => rfl) (fun c s hgood => ?_)
    obtain ⟨hlast, hle, hnew, hheld, hcopy, hl⟩ := hgood
    exact runSigRead_of_held hlast hle hnew hheld hcopy hl

end Sys2Proof.Proofs
end

section
/-! SESSION_OPEN (R48): the default window of the hub is not bounded by what the statement supposes. -/

namespace Sys2Proof.Proofs

open Sys2Proof Sys2Proof.Machine Sys2Proof.Laws

/-- A hub in RUN whose default window (CMDQ, offset 0) reads 255, which no register write gives it. -/
def hubOfWideWindow : State := { State.reset with hub := .run, reset_ := { bootStep := 8 }, csr := [(0x140000, 0xFF)] }

/-- A host of the maintenance port that opens a session. -/
def openerCtx : Ctx := { path := .maint, session := 0, tag := 0, flags := 0, target := 0xFFFF, effc := none, part := 0 }

/-- The status that the newest retained reply shows after an outcome. -/
def newestStatus : Host.Outcome State Fault Refusal → Option Status
  | .next t => t.cmd.retained.getLast?.map (·.status)
  | _ => none

/-- The open is refused where its window, left to the hub's default, is above 64. -/
theorem newestStatus_wideOpen :
    newestStatus (exec (.sessionOpen openerCtx 1 1 4 0 0 0 0) hubOfWideWindow) = some .denied := by decide +kernel

/-- Refutes O5: an open that leaves the window to the hub takes the default of the CMDQ register, and where that stands above 64 the
hub answers DENIED; no hypothesis bounds the register word. -/
theorem not_sessionOpens : ¬ Obligations.SessionOpens := by
  unfold Obligations.SessionOpens
  intro h
  obtain ⟨t, r, hnext, -, hlast, -, -, hok, -⟩ := h openerCtx 1 1 4 0 0 hubOfWideWindow 1 ⟨rfl, rfl, rfl⟩ (by decide) rfl rfl rfl rfl rfl
    (by decide) (by decide) (by decide) (by decide) (by decide) (by decide) (by decide) (by decide +kernel)
  have hdenied := newestStatus_wideOpen
  rw [hnext, newestStatus, hlast, Option.map_some, hok] at hdenied
  exact absurd hdenied (by decide)

end Sys2Proof.Proofs
end

section
/-! SESSION_CLOSE, SET_EVENTS and GET_REPLY, and MEM_READ and MEM_WRITE of one register of this hub. -/

namespace Sys2Proof.Proofs

open Sys2Proof Sys2Proof.Machine Sys2Proof.Laws

/-! ## Sessions -/

/-- The session of an accepted command stands on the command's path, in the hub that took the command in. -/
theorem sess_takenIn_path {c : Ctx} {op : Nat} {params : List Byte} {s : State} {se : Session} (ha : accepts c op params s = true)
    (hse : sess (takenIn c op params s) c.session.val = some se) : se.path = c.path := by
  obtain ⟨old, hold, hpath, -, -⟩ := accepts_path s c op params ha
  rw [takenIn_sess, hold] at hse
  cases hse
  exact hpath

/-- SESSION_CLOSE as the only command in flight, of a session that owns no update: the session ends, and the command stays as it was. -/
theorem runClose_alone {x : Cmd} {u : State} {se : Session} (hin : u.cmd.inflight = [x]) (hwait : isReady x = false)
    (hse : sess u x.session = some se) (hpath : se.path = x.path) (howner : u.upd.owner = none) :
    runClose x u = .done .ok (leBytes 2 se.expected.toNat) (closeSession x.session u) := by
  have hsame : modCmd (fun q => { q with inflight := q.inflight.map (fun y => if y.session = x.session then
      (if isReady y || sameCmd y x then { y with path := se.path } else { y with path := se.path, phase := .ready .aborted [], effected := true })
      else y) }) u = u := by
    have hmap : ({ x with path := se.path } : Cmd) = x := by rw [hpath]
    simp only [modCmd, hin, List.map_cons, List.map_nil, sameCmd_self, Bool.or_true, if_true, hmap]
    rw [← hin]
  have howner' : (closeSession x.session u).upd.owner = none := howner
  unfold runClose
  rw [flushReplies_one u x hin hwait]
  simp only [hse]
  rw [hsame, ownerGone, howner']

theorem runSetEvents_eq (c : Ctx) (mask : Word) (s u : State) : runSetEvents (taken c 0x0006 (leBytes 4 mask.toNat) s) u
    = .done .ok (leBytes 4 mask.toNat) (modSession c.session.val (fun x => { x with mask := mask }) u) := by
  have hread : rd (leBytes 4 mask.toNat) 0 4 = mask.toNat := by simpa using rd_leBytes_toNat 4 mask [] (by decide)
  simp [runSetEvents, hread, slice_all]

theorem runGetReply_of_retained {c : Ctx} {tag : Tag} {s u : State} {se : Session} {r : Reply} (hse : sess u c.session.val = some se)
    (hearlier : 0x8000 ≤ (tag - se.expected).toNat) (hr : retainedOf u se tag = some r) :
    runGetReply (taken c 0x0004 (leBytes 2 tag.toNat) s) u
      = .done .ok (replyPackets 0 r.session r.tag.toNat r.opcode r.status r.results).flatten u := by
  have hread : rd (leBytes 2 tag.toNat) 0 2 = tag.toNat := by simpa using rd_leBytes_toNat 2 tag [] (by decide)
  simp only [runGetReply, taken_session, taken_params, hse, hread, BitVec.ofNat_toNat, BitVec.setWidth_eq, if_neg (Nat.not_lt.mpr hearlier), hr]

/-! ## Registers of this hub as memory -/

/-- An address below 0x1000000 names space 0 of this hub. -/
theorem addr_of_register {a : Nat} (h : a < 0x1000000) : addrNode a = 0 ∧ addrSpace a = 0 ∧ addrOff a = a := by
  simp only [addrNode, addrSpace, addrOff, bits, Nat.shiftRight_eq_div_pow]
  omega

theorem isLocal_of_register {a : Nat} (h : a < 0x1000000) (u : State) : isLocal u a = true := by
  simp [isLocal, (addr_of_register h).1]

/-- An access of one aligned word of a block is good (R4, R22, R26). -/
theorem rangeBad_of_register {a : Nat} (h : a < 0x1000000) (halign : a % 4 = 0) (hblock : inBlock a = true) (u : State) :
    rangeBad 0 a 4 u = none := by
  have hsize : ¬ spaceSize 0 < a + 4 := by simp only [spaceSize]; omega
  have hwords : wordsIn a 7 = [a] := by simp [wordsIn]
  simp [rangeBad, hsize, hwords, hblock, halign]

theorem spaceRead_register {a : Nat} (h : a < 0x1000000) (halign : a % 4 = 0) (hblock : inBlock a = true) (u : State) :
    spaceRead 0 a 4 u = (.ok, leBytes 4 (csrPeek u a), csrReadEffect a u) := by
  unfold spaceRead
  rw [rangeBad_of_register h halign hblock]
  simp [readRegs, wordsIn, csrRead]

theorem spaceWrite_register {a v session : Nat} (h : a < 0x1000000) (halign : a % 4 = 0) (hblock : inBlock a = true) (hrst : a ≠ 0x10000)
    (hv : v < 2 ^ 32) (u : State) : spaceWrite session 0 a (leBytes 4 v) u = (.ok, csrWrite a v u) := by
  have hread : rd (leBytes 4 v) 0 4 = v := (rd_leBytes 4 v).trans (Nat.mod_eq_of_lt (by omega))
  unfold spaceWrite
  rw [length_leBytes, rangeBad_of_register h halign hblock]
  simp [writeRegs, wordsIn, writeReg, hrst, hread]

theorem csrReadEffect_cmd (a : Nat) (u : State) : (csrReadEffect a u).cmd = u.cmd := by
  unfold csrReadEffect
  split
  · exact csrPut_cmd _ _ _
  · split
    · exact modCv_cmd _ _
    · split
      · rfl
      · split
        · rfl
        · split <;> rfl

/-- A memory command of a register is ordered by no target (R303, R306). -/
theorem cmdTarget_of_register {x : Cmd} {u : State} (hop : x.opcode = 0x0007 ∨ x.opcode = 0x0008) (h : rd x.params 0 8 < 0x1000000) :
    cmdTarget u x = none := by
  have hgroup : ¬(0x0400 ≤ x.opcode ∧ x.opcode ≤ 0x0409 ∧ x.opcode ≠ 0x0408) := by omega
  have hspace : windowSpace u x = none := by simp [windowSpace, (addr_of_register h).2.1]
  simp [cmdTarget, hgroup, hspace]

theorem runNow_of_noTarget {x : Cmd} {u : State} (ht : cmdTarget u x = none) (hlock : bit x.flags.toNat 3 = false) :
    runNow x u = runPlain x u := by
  have hmissing : lockMissing u x = false := by simp [lockMissing, hlock]
  simp [runNow, ht, hmissing, runPlain]

/-- A memory command of a register of this hub that completes. -/
theorem hostCompletes_register {i : Ctx → Instr} {op : Nat} {params : List Byte} {good : Ctx → State → Prop} {res : Ctx → State → List Byte}
    {eff : Ctx → State → State} (hop : op = 0x0007 ∨ op = 0x0008) (haddr : rd params 0 8 < 0x1000000)
    (hx : ∀ c s, exec (i c) s = commit s (hostCommand c op params s))
    (hr : ∀ c s, good c (takenIn c op params s) → runPlain (taken c op params s) (takenIn c op params s)
      = .done .ok (res c (takenIn c op params s)) (eff c (takenIn c op params s)))
    (hu : ∀ c u, good c u → (eff c u).cmd.inflight = u.cmd.inflight) : HostCompletes i op params good .ok res eff := by
  have hnow : actsNow op = true := by rcases hop with rfl | rfl <;> decide
  have hflags : (opRow op).all (fun r => !r.l) = true := by rcases hop with rfl | rfl <;> decide
  intro c s hidle heffc ha hgood
  rw [hx]
  refine host_done c op params s _ .ok _ hidle (.inl (by omega)) ha ?_ ((hu _ _ hgood).trans (takenIn_inflight s c op params hidle))
  rw [runOne_now _ _ rfl heffc hnow, runNow_of_noTarget (cmdTarget_of_register hop haddr) (accepts_unlocked s c op params ha hflags),
    hr c s hgood]

/-- The parameters of MEM_READ and MEM_WRITE of one word (R464). -/
theorem rd_memReadParams (addr : DWord) : rd (leBytes 8 addr.toNat ++ leBytes 4 4) 0 8 = addr.toNat
    ∧ rd (leBytes 8 addr.toNat ++ leBytes 4 4) 8 4 = 4 :=
  ⟨rd_leBytes_toNat 8 addr _ (by decide), by rw [rd_leBytes_skip _ _ _ _ _ (by decide)]; rfl⟩

theorem rd_memWriteParams (addr : DWord) (data : List Byte) :
    rd (leBytes 8 addr.toNat ++ [0] ++ leBytes 3 0 ++ data) 0 8 = addr.toNat := by
  simp only [List.append_assoc]
  exact rd_leBytes_toNat 8 addr _ (by decide)

theorem drop_memWriteParams (addr : DWord) (data : List Byte) : (leBytes 8 addr.toNat ++ [0] ++ leBytes 3 0 ++ data).drop 12 = data :=
  List.drop_left' (by simp)

/-- Settles O6: the session commands by their runs, the memory commands as reads and writes of one word of space 0. -/
theorem sessionAndMemoryCommands : Obligations.SessionAndMemoryCommands := by
  unfold Obligations.SessionAndMemoryCommands
  refine ⟨⟨fun se => ?close, fun mask => ?setEvents, fun tag se r => ?getReply⟩, fun addr haddr halign hblock => ?memRead,
    fun addr v haddr halign hblock hrst => ?memWrite⟩
  case close =>
    intro c s hidle heffc ha hgood
    obtain ⟨howner, hse⟩ := hgood
    have hin := takenIn_inflight s c 0x0002 [] hidle
    have hrun : runPlain (taken c 0x0002 [] s) (takenIn c 0x0002 [] s)
        = .done .ok (leBytes 2 se.expected.toNat) (closeSession c.session.val (takenIn c 0x0002 [] s)) :=
      runClose_alone hin rfl hse (sess_takenIn_path ha hse) howner
    refine host_done c 0x0002 [] s _ .ok _ hidle (.inl (by decide)) ha ?_ hin
    rw [runOne_now _ _ rfl heffc (show actsNow 0x0002 = true by decide), runNow_untargeted _ _ (show untargeted 0x0002 = true by decide) (accepts_unlocked s c _ _ ha (by decide))]
    exact congrArg _ hrun
  case setEvents => exact hostCompletes_run (by decide) (fun _ _ => rfl) (fun c s _ => runSetEvents_eq c mask s _) (fun _ _ _ => rfl)
  case getReply =>
    exact hostCompletes_same (by decide) (fun _ _ => rfl) (fun c s hgood => runGetReply_of_retained hgood.1 hgood.2.1 hgood.2.2)
  case memRead =>
    obtain ⟨hreadAddr, hreadLen⟩ := rd_memReadParams addr
    obtain ⟨-, hspace, hoff⟩ := addr_of_register haddr
    refine hostCompletes_register (.inl rfl) (by rw [hreadAddr]; exact haddr) (fun _ _ => rfl) (fun c s _ => ?_)
      (fun c u _ => congrArg CmdState.inflight (csrReadEffect_cmd _ u))
    have hrun : ∀ u, runMemRead (taken c 0x0007 (leBytes 8 addr.toNat ++ leBytes 4 4) s) u
        = .done .ok (leBytes 4 (csrPeek u addr.toNat)) (csrReadEffect addr.toNat u) := fun u => by
      simp only [runMemRead, taken_params, hreadAddr, hreadLen, isLocal_of_register haddr, if_true, hspace, hoff,
        spaceRead_register haddr halign hblock]
    exact hrun _
  case memWrite =>
    have hreadAddr := rd_memWriteParams addr (leBytes 4 v.toNat)
    obtain ⟨-, hspace, hoff⟩ := addr_of_register haddr
    refine hostCompletes_register (.inr rfl) (by rw [hreadAddr]; exact haddr) (fun _ _ => rfl) (fun c s _ => ?_) (fun _ _ h => h)
    have hrun : ∀ u, runMemWrite (taken c 0x0008 (leBytes 8 addr.toNat ++ [0] ++ leBytes 3 0 ++ leBytes 4 v.toNat) s) u
        = .done .ok [] (csrWrite addr.toNat v.toNat u) := fun u => by
      simp only [runMemWrite, taken_params, hreadAddr, drop_memWriteParams, isLocal_of_register haddr, if_true, hspace, hoff,
        spaceWrite_register haddr halign hblock hrst v.isLt]
    exact hrun _

end Sys2Proof.Proofs
end

section
/-! CFG_STAGE, CFG_VALIDATE and CFG_ACTIVATE of a good image. -/

namespace Sys2Proof.Proofs

open Sys2Proof Sys2Proof.Machine Sys2Proof.Laws

/-! ## CFG_STAGE -/

/-- The header checks of a staged image (R430) pass. -/
theorem headerCheck_lehr_good {data : List Byte} {u : State} (hmagic : rd data 0 4 = 0x4643594C) (hlen : rd data 8 4 ≤ 7340032)
    (hfmt : rd data 4 1 = 5 ∨ rd data 4 1 = 6) (hkept : u.upd.lehrSt ≠ .kept) : headerCheck u 4 data = none := by
  have hversion : ¬(rd data 4 1 ≠ 5 ∧ rd data 4 1 ≠ 6) := by omega
  simp [headerCheck, hmagic, Nat.not_lt.mpr hlen, hversion, hkept]

/-- The hub that took the first block of an image into the lehr slot. -/
def stagedIn (session : Nat) (path : Path) (data : List Byte) (u : State) : State :=
  bump 0x120100 (modUpd (fun x => { x with
    owner := some (session, path), recv := some (4, rd data 8 4), recvCount := data.length, lastBlockUp := u.time.up
    lehr := data, lehrSt := if rd data 8 4 ≤ data.length then .complete else .receiving }) u)

theorem putBytes_lehr (session : Nat) (path : Path) (data : List Byte) (u : State) :
    putBytes 4 (rd data 8 4) data (modUpd (fun x => { x with owner := some (session, path) }) u) = stagedIn session path data u := by
  by_cases h : rd data 8 4 ≤ data.length
  · simp only [putBytes, stagedIn, if_true, decide_eq_true h, ge_iff_le, if_pos h]
    rfl
  · simp only [putBytes, stagedIn, if_true, decide_eq_false h, ge_iff_le, if_neg h]
    rfl

theorem stagedIn_recvCount (session : Nat) (path : Path) (data : List Byte) (u : State) :
    (stagedIn session path data u).upd.recvCount = data.length := rfl

/-- A first block with a good header starts a transfer that no session runs (R429, R430). -/
theorem takeBlock_first {session : Nat} {path : Path} {data : List Byte} {u : State} (howner : u.upd.owner = none) (hsize : 64 ≤ data.length)
    (hhead : headerCheck u 4 data = none) (hfit : data.length ≤ rd data 8 4) :
    takeBlock 4 0 data session path u = (.ok, leBytes 4 data.length, stagedIn session path data u) := by
  have hstart : startTransfer 4 data session path u = (.ok, stagedIn session path data u) := by
    unfold startTransfer
    rw [if_neg (by simp only [headSize, if_true]; omega), hhead]
    simp only [lengthOf, if_true, if_neg (Nat.not_lt.mpr hfit), putBytes_lehr]
  simp [takeBlock, ownedByOther, howner, hstart, stagedIn_recvCount]

/-! ## Validation -/

theorem lehrValidate_verdict (u : State) : (lehrValidate u).1 = validate u u.upd.lehr := rfl

/-- Noting the check values of an image touches the check-value units alone. -/
theorem cvNoteImage_frame (b : List Byte) (v : Verdict) (u : State) : ∃ cv, cvNoteImage b v u = { u with cv := cv } := by
  unfold cvNoteImage
  split
  · exact ⟨u.cv, rfl⟩
  · split
    · split
      · exact ⟨_, rfl⟩
      · exact ⟨u.cv, rfl⟩
    · exact ⟨_, rfl⟩

/-- A good image that no trial keeps becomes VALID (R398). -/
theorem lehrValidate_good {u : State} (hgood : (validate u u.upd.lehr).cause = 0) (hkept : u.upd.lehrSt ≠ .kept) :
    (lehrValidate u).2 = modUpd (fun x => { x with lehrSt := .valid }) (cvNoteImage u.upd.lehr (validate u u.upd.lehr) u) := by
  obtain ⟨cv, hcv⟩ := cvNoteImage_frame u.upd.lehr (validate u u.upd.lehr) u
  simp [lehrValidate, hcv, hgood, hkept]

theorem status_of_pass {v : Verdict} (h : v.cause = 0) : v.status = .ok := by simp [Verdict.status, h]

theorem cfgValidate_good {u : State} (hgood : (validate u u.upd.lehr).cause = 0) :
    cfgValidate u = (.ok, leBytes 1 (validate u u.upd.lehr).sect ++ zeros 3 ++ leBytes 4 (validate u u.upd.lehr).off
        ++ leBytes 4 ((evals (imgView (lehrValidate u).2 (lehrValidate u).2.upd.lehr)).1
          + (evals (imgView (lehrValidate u).2 (lehrValidate u).2.upd.lehr)).2.1
          + (evals (imgView (lehrValidate u).2 (lehrValidate u).2.upd.lehr)).2.2.1)
        ++ leBytes 4 (perTick (imgView (lehrValidate u).2 (lehrValidate u).2.upd.lehr).level
          * (imgView (lehrValidate u).2 (lehrValidate u).2.upd.lehr).n), (lehrValidate u).2) := by
  have hok : (lehrValidate u).1.status = .ok := status_of_pass hgood
  have hpass : (lehrValidate u).1.cause = 0 ∨ (lehrValidate u).1.cause = 6 := .inl hgood
  unfold cfgValidate
  rw [if_pos hpass, hok, lehrValidate_verdict]

/-- What validation leaves of the hub (R398): the state of the lehr slot and the check-value units. -/
theorem lehrValidate_frame (u : State) : ∃ cv st, (lehrValidate u).2 = { u with cv := cv, upd := { u.upd with lehrSt := st } } := by
  obtain ⟨cv, hcv⟩ := cvNoteImage_frame u.upd.lehr (validate u u.upd.lehr) u
  unfold lehrValidate
  dsimp only
  rw [hcv]
  split
  · exact ⟨cv, u.upd.lehrSt, rfl⟩
  · exact ⟨cv, _, rfl⟩

/-! ## CFG_ACTIVATE -/

theorem endOwner_frame (u : State) : ∃ upd, endOwner u = { u with upd := upd } := by
  unfold endOwner
  split
  · cases h : u.upd.lehrSt == .receiving <;> exact ⟨_, rfl⟩
  · exact ⟨_, rfl⟩
  · exact ⟨_, rfl⟩

/-- Copying an image into the active slot touches the update state alone. -/
theorem activateCopy_frame (session : Nat) (img : List Byte) (u : State) : ∃ upd, activateCopy session img u = { u with upd := upd } := by
  unfold activateCopy
  dsimp only
  split
  · obtain ⟨upd, h⟩ := endOwner_frame (modUpd (fun x => { x with
      active := img, lehr := if x.lehr = img then [] else x.lehr, lehrSt := if x.lehr = img then .empty else x.lehrSt }) u)
    rw [h]
    exact ⟨upd, rfl⟩
  · exact ⟨_, rfl⟩

/-- Outside HELD an activation without effective cycle is noted for the next cycle, and copied at once (R279, R440). -/
theorem noteActivation_outsideHeld {session : Nat} {tag : Tag} {img : List Byte} {u : State} (hheld : u.hub ≠ .held) :
    noteActivation session tag none img u = activateCopy session img (noteChange (.config session tag (cycleNow u + 1) img) u) := by
  obtain ⟨upd, h⟩ := activateCopy_frame session img (noteChange (.config session tag (cycleNow u + 1) img) u)
  have hhub : (activateCopy session img (noteChange (.config session tag (cycleNow u + 1) img) u)).hub = u.hub := by
    rw [h]
    rfl
  have hfalse : (u.hub == HubState.held) = false := by simpa using hheld
  unfold noteActivation
  dsimp only
  rw [Option.isNone_none, onlyIf_true, hhub, hfalse, onlyIf_false]

/-- What must hold of the staged image for CFG_ACTIVATE to take it without asking other hubs. -/
def Activates (u : State) : Prop :=
  (validate u u.upd.lehr).cause = 0 ∧ u.upd.lehrSt ≠ .kept ∧ u.hub ≠ .held
    ∧ readsFormat (actSlot (comp (lehrValidate u).2 2)) (imgFormat (lehrValidate u).2.upd.lehr) = true
    ∧ newSubs u.upd.lehr (lehrValidate u).2 = []

/-- The hub that has taken the staged image for its next cycle. -/
def activatedBy (session : Nat) (tag : Tag) (u : State) : State :=
  activateCopy session u.upd.lehr (noteChange (.config session tag (cycleNow u + 1) u.upd.lehr) (lehrValidate u).2)

theorem runActivate_good {c : Ctx} {s u : State} (heffc : c.effc = none) (h : Activates u) :
    runActivate (taken c 0x0102 [] s) u = .done .ok (leBytes 4 (imgCrc u.upd.lehr)) (activatedBy c.session.val c.tag u) := by
  obtain ⟨hcause, hkept, hheld, hfmt, hsubs⟩ := h
  obtain ⟨cv, st, hframe⟩ := lehrValidate_frame u
  have hjudge : activateJudge u = (none, (lehrValidate u).2) := by
    have hfmt' : readsFormat (actSlot (comp u 2)) (imgFormat u.upd.lehr) = true := by rw [hframe] at hfmt; exact hfmt
    have hpass : ¬ (lehrValidate u).1.cause ≠ 0 := not_not_intro hcause
    simp only [activateJudge, if_neg hkept, if_neg hpass, hfmt', Bool.not_true, Bool.false_eq_true, if_false]
  have hheld' : (lehrValidate u).2.hub ≠ .held := by rw [hframe]; exact hheld
  have hcycle : cycleNow (lehrValidate u).2 = cycleNow u := by rw [hframe]; rfl
  simp only [runActivate, hjudge, taken_effc, heffc, Option.map_none, hsubs, List.isEmpty_nil, Bool.or_true, if_true,
    noteActivation_outsideHeld hheld', hcycle, taken_session, taken_tag]
  rfl

theorem activatedBy_inflight (session : Nat) (tag : Tag) (u : State) : (activatedBy session tag u).cmd.inflight = u.cmd.inflight := by
  obtain ⟨cv, st, hframe⟩ := lehrValidate_frame u
  obtain ⟨upd, h⟩ := activateCopy_frame session u.upd.lehr (noteChange (.config session tag (cycleNow u + 1) u.upd.lehr) (lehrValidate u).2)
  unfold activatedBy
  rw [h, hframe]
  rfl

/-- Settles O7: a first block is a started transfer, a good verdict makes the slot VALID, and a good activation is a change that is held. -/
theorem configCommands : Obligations.ConfigCommands := by
  unfold Obligations.ConfigCommands
  refine ⟨fun data => ?stage, ?validate, ?activate⟩
  case stage =>
    refine hostCompletes_run (by decide) (fun _ _ => rfl) (fun c s hgood => ?_) (fun _ _ _ => rfl)
    obtain ⟨howner, hsize, hmagic, hlen, hfmt, hkept, hfit⟩ := hgood
    have htake := takeBlock_first (session := c.session.val) (path := c.path) howner hsize (headerCheck_lehr_good hmagic hlen hfmt hkept) hfit
    have hrun : ∀ u, takeBlock 4 0 data c.session.val c.path u = (.ok, leBytes 4 data.length, stagedIn c.session.val c.path data u) →
        runPlain (taken c 0x0100 (leBytes 4 0 ++ data) s) u = .done .ok (leBytes 4 data.length) (stagedIn c.session.val c.path data u) := by
      intro u hu
      have hoff : rd (leBytes 4 0 ++ data) 0 4 = 0 := rd_leBytes_append 4 0 data
      have hdata : (leBytes 4 0 ++ data).drop 4 = data := List.drop_left' (length_leBytes 4 0)
      simp [runPlain, runSystem, runBlock, hoff, hdata, hu]
    exact hrun _ htake
  case validate =>
    refine hostCompletes_run (by decide) (fun _ _ => rfl) (fun c s hgood => ?_) (fun c u _ => ?_)
    · have hrun : ∀ u, runPlain (taken c 0x0101 [] s) u = .done (cfgValidate u).1 (cfgValidate u).2.1 (cfgValidate u).2.2 := fun _ => rfl
      rw [hrun, cfgValidate_good hgood.1]
      dsimp only
      rw [lehrValidate_good hgood.1 hgood.2]
    · obtain ⟨cv, hcv⟩ := cvNoteImage_frame u.upd.lehr (validate u u.upd.lehr) u
      rw [hcv]
      rfl
  case activate =>
    intro c s hidle heffc ha hgood
    have hin := takenIn_inflight s c 0x0102 [] hidle
    have hnow : runNow (taken c 0x0102 [] s) (takenIn c 0x0102 [] s) = .done .ok (leBytes 4 (imgCrc (takenIn c 0x0102 [] s).upd.lehr))
        (activatedBy c.session.val c.tag (takenIn c 0x0102 [] s)) := by
      rw [runNow_untargeted _ _ (show untargeted 0x0102 = true by decide) (accepts_unlocked s c _ _ ha (by decide))]
      exact runActivate_good heffc hgood
    refine host_held c 0x0102 [] s _ _ _ hidle ha ?_ ((activatedBy_inflight _ _ _).trans hin)
    have hhold : runOne (taken c 0x0102 [] s) (takenIn c 0x0102 [] s)
        = holdChange (taken c 0x0102 [] s) (cycleNow (takenIn c 0x0102 [] s) + 1) (takenIn c 0x0102 [] s) := by
      simp [runOne, show (taken c 0x0102 [] s).phase = .waiting from rfl, heffc, preparesChange]
    rw [hhold, holdChange, hnow]
    rfl

end Sys2Proof.Proofs
end

section
/-! Channels: what a change of one channel reads back, and how a channel without anything waiting is disabled or reset (R187 to R190). -/

namespace Sys2Proof.Proofs

open Sys2Proof Sys2Proof.Machine Sys2Proof.Laws

/-! ## Reading a changed channel -/

/-- A channel whose new state is not OFF reads back as it was set. -/
theorem chan_modChan_on {ch : Nat} {f : Chan → Chan} {s : State} (h : (f (chan s ch)).st ≠ .off) :
    chan (modChan ch f s) ch = f (chan s ch) :=
  chan_modChan s ch f (fun hc => h (by rw [hc]))

theorem chan_of_chans {s t : State} (h : t.chans = s.chans) (k : Nat) : chan t k = chan s k := by
  unfold chan
  rw [h]

/-- Two changes that agree on the channel are the same. -/
theorem modChan_congr {ch : Nat} {f g : Chan → Chan} {s : State} (h : f (chan s ch) = g (chan s ch)) : modChan ch f s = modChan ch g s := by
  unfold modChan
  rw [h]

/-! ## Counters -/

theorem bumpBy_csr_other {a n b : Nat} {s : State} (h : b ≠ a) : sget 0 (bumpBy a n s).csr b = sget 0 s.csr b := by
  unfold bumpBy
  dsimp only
  split
  · exact sget_sdel_other 0 s.csr a b h
  · exact sget_sins_other 0 s.csr a b _ h

theorem cutPartial_chans (ch : Nat) (s : State) : (cutPartial ch s).chans = s.chans := rfl
theorem cutPartial_cmd (ch : Nat) (s : State) : (cutPartial ch s).cmd = s.cmd := rfl
theorem cutPartial_cfgRegs (ch : Nat) (s : State) : (cutPartial ch s).cfgRegs = s.cfgRegs := rfl

/-- The free value of `cutPartial` goes into CHN_RX_CUT alone. -/
theorem cutPartial_csr_other {ch b : Nat} {s : State} (h : b ≠ chnAddr ch 0x8C) : sget 0 (cutPartial ch s).csr b = sget 0 s.csr b :=
  bumpBy_csr_other h

theorem chan_cutPartial (ch k : Nat) (s : State) : chan (cutPartial ch s) k = chan s k := chan_of_chans (cutPartial_chans ch s) k

/-! ## What waits at a channel -/

/-- Nothing waits for the channel but its queue: no detection, enable, stalled producer, transaction or disable. -/
structure NoWaiters (c : Chan) : Prop where
  detect : c.detect = none
  enabling : c.enabling = none
  stalled : c.stalled = []
  reqs : c.can.reqs = []
  exchange : c.mb.exchange = none
  waiting : c.mb.waiting = []
  isdu : c.iol.isdu = []
  draining : c.draining = []

/-- The channel when everything that waited for it has ended. -/
def waitersGone (c : Chan) : Chan :=
  { c with
    detect := none, enabling := none, stalled := []
    can := { c.can with reqs := [], onBus := none }
    mb := { c.mb with exchange := none, waiting := [], round := [] }
    iol := { c.iol with isdu := [], isduRuns := false } }

/-- Where nothing waits, `abortWaiters` answers none. -/
theorem abortWaiters_quiet {ch : Nat} {s : State} (h : NoWaiters (chan s ch)) : abortWaiters ch s = modChan ch waitersGone s := by
  unfold abortWaiters
  simp only [h.detect, h.enabling, h.stalled, h.reqs, h.exchange, h.waiting, h.isdu, List.foldl_nil]
  rfl

/-- The channel in DISABLED. -/
def disabledChan (c : Chan) : Chan :=
  { c with st := .disabled, enabled := false, busIdle := false, onWire := none, draining := [], drainAborted := 0, aborting := false }

theorem enterDisabled_quiet {ch : Nat} {s : State} (h : (chan s ch).draining = []) : enterDisabled ch s = modChan ch disabledChan s := by
  unfold enterDisabled
  simp only [h, List.foldl_nil]
  rfl

/-- A condition that ends touches the fault sources alone. -/
theorem condEnd_frame (code : Nat) (still : Bool) (s : State) : ∃ f, condEnd code still s = { s with faults := f } := by
  unfold condEnd
  cases still
  · exact ⟨_, rfl⟩
  · exact ⟨s.faults, rfl⟩

/-! ## What a quiet disable or reset leaves -/

/-- What the end of a quiet channel leaves of the hub: the channel itself, the count of cut frames, and what the faults show. -/
structure QuietEnd (ch : Nat) (u v : State) : Prop where
  others : ∀ k, k ≠ ch → chan v k = chan u k
  cfgRegs : v.cfgRegs = u.cfgRegs
  csr : ∀ a, a ≠ chnAddr ch 0x8C → sget 0 v.csr a = sget 0 u.csr a
  cmd : v.cmd = u.cmd

theorem QuietEnd.modChan {ch : Nat} {u v : State} (h : QuietEnd ch u v) (f : Chan → Chan) : QuietEnd ch u (modChan ch f v) :=
  ⟨fun k hk => (chan_modChan_other v ch k f hk).trans (h.others k hk), h.cfgRegs, h.csr, h.cmd⟩

theorem quietEnd_cutPartial (ch : Nat) (u : State) : QuietEnd ch u (cutPartial ch u) :=
  ⟨fun k _ => chan_cutPartial ch k u, cutPartial_cfgRegs ch u, fun _ h => cutPartial_csr_other h, cutPartial_cmd ch u⟩

theorem QuietEnd.condEnd {ch : Nat} {u v : State} (h : QuietEnd ch u v) (code : Nat) (still : Bool) :
    QuietEnd ch u (condEnd code still v) := by
  obtain ⟨f, hf⟩ := condEnd_frame code still v
  rw [hf]
  exact ⟨h.others, h.cfgRegs, h.csr, h.cmd⟩

theorem chan_condEnd (code : Nat) (still : Bool) (s : State) (k : Nat) : chan (condEnd code still s) k = chan s k := by
  obtain ⟨f, hf⟩ := condEnd_frame code still s
  rw [hf]
  rfl

/-- The quiet channel behind a cut of what was partly received. -/
theorem chan_abortWaiters_cutPartial {ch : Nat} {u : State} (h : NoWaiters (chan u ch)) (hon : (chan u ch).st ≠ .off) :
    QuietEnd ch u (abortWaiters ch (cutPartial ch u)) ∧ chan (abortWaiters ch (cutPartial ch u)) ch = waitersGone (chan u ch) := by
  have hsame : chan (cutPartial ch u) ch = chan u ch := chan_cutPartial ch ch u
  rw [abortWaiters_quiet (hsame ▸ h)]
  refine ⟨(quietEnd_cutPartial ch u).modChan _, ?_⟩
  rw [chan_modChan_on (by rw [hsame]; exact hon), hsame]

end Sys2Proof.Proofs
end

section
/-! CH_ENABLE and CH_DISABLE by the state of their channel (R187 to R189), and the block reset of a quiet channel (R190). -/

namespace Sys2Proof.Proofs

open Sys2Proof Sys2Proof.Machine Sys2Proof.Laws

/-! ## CH_ENABLE -/

theorem chanEnable_joining {ch : Nat} {u : State} (h : (chan u ch).resetting = false) :
    chanEnable ch u = modChan ch (fun x => { x with st := .joining, enabled := true, busIdle := false }) u :=
  modChan_congr (by simp [h])

theorem chanEnable_resetting {ch : Nat} {u : State} (h : (chan u ch).resetting = true) :
    chanEnable ch u = modChan ch (fun x => { x with enabled := true, busIdle := false }) u :=
  modChan_congr (by simp [h])

section
variable {c : Ctx} {s u : State}

theorem runEnable_of_disabled (h : (chan u c.target.toNat).st = .disabled) : runEnable (taken c 0x0200 [] s) u
    = .later (modChan c.target.toNat (fun x => { x with enabling := some (c.session.val, c.tag, u.time.up) })
        (chanEnable c.target.toNat u)) := by
  simp [runEnable, h]

theorem runEnable_of_joined (h : (chan u c.target.toNat).st = .active ∨ (chan u c.target.toNat).st = .alone) :
    runEnable (taken c 0x0200 [] s) u = .done .ok (leBytes 8 (chan u c.target.toNat).joinTick) u := by
  rcases h with h | h <;> simp [runEnable, h]

theorem runEnable_of_joining (h : (chan u c.target.toNat).st = .joining) :
    runEnable (taken c 0x0200 [] s) u = .done .ok (leBytes 8 0) u := by
  simp [runEnable, h]

/-! ## CH_DISABLE -/

omit c s in
theorem ne_partner_of_live {ch : Nat} (h : (chan u ch).st = .active ∨ (chan u ch).st = .joining) : (chan u ch).st ≠ .partner := by
  rcases h with h | h <;> rw [h] <;> decide

/-- Of an active or joining channel CH_DISABLE mode 0 stops new items. -/
theorem chanDrain_live {ch : Nat} (h : (chan u ch).st = .active ∨ (chan u ch).st = .joining) :
    chanDrain ch u = modChan ch (fun x => { x with st := .draining }) u := by
  rcases h with h | h <;> simp [chanDrain, h]

theorem runDisable_drains (hst : (chan u c.target.toNat).st = .active ∨ (chan u c.target.toNat).st = .joining)
    (hq : (chan u c.target.toNat).txq ≠ []) : runDisable (taken c 0x0201 [0] s) u
      = .later (modChan c.target.toNat (fun x => { x with draining := x.draining ++ [(c.session.val, c.tag)] })
        (modChan c.target.toNat (fun x => { x with st := .draining }) u)) := by
  have hst' : (chan (modChan c.target.toNat (fun x => { x with st := .draining }) u) c.target.toNat).st = .draining := by
    rw [chan_modChan_on (by simp)]
  have hwaits : (chan (modChan c.target.toNat (fun x => { x with draining := x.draining ++ [(c.session.val, c.tag)] })
      (modChan c.target.toNat (fun x => { x with st := .draining }) u)) c.target.toNat).txq ≠ [] := by
    rw [chan_modChan_on (by simp [hst']), chan_modChan_on (by simp)]
    exact hq
  have hpartner := ne_partner_of_live hst
  simp [runDisable, chanDrain_live hst, hst', hpartner, drainComplete, hwaits]

theorem runDisable_of_disabled (h : (chan u c.target.toNat).st = .disabled) : runDisable (taken c 0x0201 [0] s) u
    = .done .ok (leBytes 4 0) (modChan c.target.toNat (fun x => { x with enabled := false }) u) := by
  have hchan : chan (modChan c.target.toNat (fun x => { x with enabled := false }) u) c.target.toNat
      = { chan u c.target.toNat with enabled := false } := chan_modChan_on (by simp [h])
  simp [runDisable, chanDrain, h, hchan]

end

/-- Settles O8: CH_ENABLE and CH_DISABLE by the channel states that the statement names. -/
theorem channelEnables : Obligations.ChannelEnables := by
  unfold Obligations.ChannelEnables
  refine ⟨?disabled, ?joined, ?joining, ?drains, ?off, ?resetting⟩
  case disabled =>
    refine hostStands_run (by decide) (fun _ _ => rfl) (fun c s hgood => ?_) (fun _ _ => rfl)
    rw [← chanEnable_joining hgood.2]
    exact runEnable_of_disabled hgood.1
  case joined => exact hostCompletes_same (by decide) (fun _ _ => rfl) (fun _ _ h => runEnable_of_joined h)
  case joining => exact hostCompletes_same (by decide) (fun _ _ => rfl) (fun _ _ h => runEnable_of_joining h)
  case drains => exact hostStands_run (by decide) (fun _ _ => rfl) (fun _ _ h => runDisable_drains h.1 h.2) (fun _ _ => rfl)
  case off => exact hostCompletes_run (by decide) (fun _ _ => rfl) (fun _ _ h => runDisable_of_disabled h) (fun _ _ _ => rfl)
  case resetting =>
    refine hostStands_run (by decide) (fun _ _ => rfl) (fun c s hgood => ?_) (fun _ _ => rfl)
    rw [← chanEnable_resetting hgood.2]
    exact runEnable_of_disabled hgood.1

/-! ## Block reset and disable of a quiet channel -/

/-- The channel as its block reset leaves it (R190). -/
def resetChan (x : Chan) : Chan :=
  { x with
    st := .disabled, resetting := true, busIdle := false, onWire := none
    aliveTx := 0, aliveRx := 0, aliveSync := false, turnUntil := 0
    can := {}, mb := { outcomes := x.mb.outcomes, roundCycle := x.mb.roundCycle }, iol := {} }

/-- A channel with nothing queued and nothing waiting is reset without an answer or a report. -/
theorem chanReset_quiet {ch : Nat} {u : State} (hoff : (chan u ch).st ≠ .off) (hpartner : (chan u ch).st ≠ .partner)
    (hdrain : (chan u ch).st ≠ .draining) (hq : (chan u ch).txq = []) (hpart : (chan u ch).partPush = []) (hw : NoWaiters (chan u ch)) :
    (chanReset ch u).1 = 0 ∧ QuietEnd ch u (chanReset ch u).2 ∧ chan (chanReset ch u).2 ch = resetChan (waitersGone (chan u ch)) := by
  obtain ⟨hend, hchan⟩ := chan_abortWaiters_cutPartial hw hoff
  have hcut : cutPush ch (failAll ch [] .aborted u) = u := by simp [cutPush, failAll, hpart]
  have hnd : ((chan u ch).st == ChState.draining) = false := by simpa using hdrain
  have hreset : chanReset ch u = (0, condEnd 0x0607 ((List.range 128).any (fun i =>
        (chan (modChan ch resetChan (abortWaiters ch (cutPartial ch u))) i).iol.st == .dqOverload))
      (condEnd 0x0604 ((List.range 128).any (fun i => (chan (modChan ch resetChan (abortWaiters ch (cutPartial ch u))) i).can.busOff))
        (modChan ch resetChan (abortWaiters ch (cutPartial ch u))))) := by
    unfold chanReset
    dsimp only
    rw [if_neg (by simp [hoff, hpartner]), hq, hcut, hnd, onlyIf_false]
    rfl
  rw [hreset]
  refine ⟨rfl, ((hend.modChan resetChan).condEnd _ _).condEnd _ _, ?_⟩
  rw [chan_condEnd, chan_condEnd, chan_modChan_on (by simp [resetChan]), hchan]

theorem modChan_same {ch : Nat} {f : Chan → Chan} {u : State} (hon : (chan u ch).st ≠ .off) (h : f (chan u ch) = chan u ch) (k : Nat) :
    chan (modChan ch f u) k = chan u k := by
  by_cases hk : k = ch
  · subst hk
    rw [chan_modChan_on (by rw [h]; exact hon), h]
  · exact chan_modChan_other u ch k f hk

/-- CH_DISABLE mode 1 of a live channel with nothing queued and nothing waiting: it stands in DISABLED at once. -/
theorem chanAbort_quiet {ch : Nat} {u : State} (hst : (chan u ch).st = .active ∨ (chan u ch).st = .joining) (hq : (chan u ch).txq = [])
    (hw : NoWaiters (chan u ch)) (hbus : (chan u ch).can.onBus = none) : (chanAbort ch u).1 = 0 ∧ QuietEnd ch u (chanAbort ch u).2
      ∧ chan (chanAbort ch u).2 ch = disabledChan (waitersGone (chan u ch)) := by
  have hon : (chan u ch).st ≠ .off := by rcases hst with h | h <;> simp [h]
  let v := modChan ch (fun x => { x with drainAborted := x.drainAborted + 0 }) u
  have hv : ∀ k, chan v k = chan u k := modChan_same hon rfl
  obtain ⟨hend, hchan⟩ := chan_abortWaiters_cutPartial (u := v) (hv ch ▸ hw) (by rw [hv]; exact hon)
  have hdraining : (chan (abortWaiters ch (cutPartial ch v)) ch).draining = [] := by rw [hchan, hv]; exact hw.draining
  have habort : chanAbort ch u = (0, modChan ch disabledChan (abortWaiters ch (cutPartial ch v))) := by
    rw [← enterDisabled_quiet hdraining]
    rcases hst with h | h <;> simp [chanAbort, h, hq, hbus, failAll, v]
  rw [habort]
  refine ⟨rfl, ⟨fun k hk => ?_, hend.cfgRegs, hend.csr, hend.cmd⟩, ?_⟩
  · exact ((hend.modChan disabledChan).others k hk).trans (hv k)
  · rw [chan_modChan_on (by simp [disabledChan]), hchan, hv]

/-- Settles O9: both are a quiet end of the channel, and the transport keeps what they leave. -/
theorem channelResets : Obligations.ChannelResets := by
  unfold Obligations.ChannelResets
  constructor
  · refine hostLeads_of _ _ _ _ _ _ (fun c u => (chanReset c.target.toNat u).2) _ ?reset (fun c u t hgood hview => ?after)
    case reset =>
      refine hostCompletes_run (by decide) (fun _ _ => rfl) (fun c s hgood => ?_) (fun c u hgood => ?_)
      all_goals
        obtain ⟨hoff, hpartner, hdrain, hq, hpart, hdet, hen, hstall, hreqs, hex, hwait, hisdu, hdr⟩ := hgood
        obtain ⟨hcount, hend, -⟩ := chanReset_quiet hoff hpartner hdrain hq hpart ⟨hdet, hen, hstall, hreqs, hex, hwait, hisdu, hdr⟩
      · have hrun : ∀ v, (chan v c.target.toNat).st ≠ .partner → (chanReset c.target.toNat v).1 = 0 →
            runPlain (taken c 0x0202 [] s) v = .done .ok (leBytes 4 0) (chanReset c.target.toNat v).2 := by
          intro v hv hzero
          simp [runPlain, runField, runReset, hv, hzero]
        exact hrun _ hpartner hcount
      · exact congrArg CmdState.inflight hend.cmd
    case after =>
      obtain ⟨hoff, hpartner, hdrain, hq, hpart, hdet, hen, hstall, hreqs, hex, hwait, hisdu, hdr⟩ := hgood
      obtain ⟨-, hend, hchan⟩ := chanReset_quiet hoff hpartner hdrain hq hpart ⟨hdet, hen, hstall, hreqs, hex, hwait, hisdu, hdr⟩
      have hsame := (view_chan hview c.target.toNat).trans hchan
      exact ⟨by rw [hsame]; rfl, by rw [hsame]; rfl, by rw [hsame]; rfl, by rw [hsame]; rfl, by rw [hsame]; rfl,
        fun k hk => (view_chan hview k).trans (hend.others k hk), (view_cfgRegs hview).trans hend.cfgRegs,
        fun a ha hoffs => (view_csr hview a hoffs).trans (hend.csr a ha)⟩
  · refine hostLeads_of _ _ _ _ _ _ (fun c u => (chanAbort c.target.toNat u).2) _ ?abort (fun c u t hgood hview => ?after)
    case abort =>
      refine hostCompletes_run (by decide) (fun _ _ => rfl) (fun c s hgood => ?_) (fun c u hgood => ?_)
      all_goals
        obtain ⟨hst, hq, hdet, hen, hstall, hreqs, hex, hwait, hisdu, hdr, hbus⟩ := hgood
        obtain ⟨hcount, hend, hchan⟩ := chanAbort_quiet hst hq ⟨hdet, hen, hstall, hreqs, hex, hwait, hisdu, hdr⟩ hbus
      · have hrun : ∀ v, (chan v c.target.toNat).st ≠ .partner → (chanAbort c.target.toNat v).1 = 0 →
            (chan (chanAbort c.target.toNat v).2 c.target.toNat).st = .disabled →
            runPlain (taken c 0x0201 [1] s) v = .done .ok (leBytes 4 0) (chanAbort c.target.toNat v).2 := by
          intro v hv hzero hdis
          simp [runPlain, runField, runDisable, hv, hzero, hdis]
        exact hrun _ (ne_partner_of_live hst) hcount (by rw [hchan]; rfl)
      · exact congrArg CmdState.inflight hend.cmd
    case after =>
      obtain ⟨hst, hq, hdet, hen, hstall, hreqs, hex, hwait, hisdu, hdr, hbus⟩ := hgood
      obtain ⟨-, hend, hchan⟩ := chanAbort_quiet hst hq ⟨hdet, hen, hstall, hreqs, hex, hwait, hisdu, hdr⟩ hbus
      have hsame := (view_chan hview c.target.toNat).trans hchan
      exact ⟨by rw [hsame]; rfl, by rw [hsame]; rfl, by rw [hsame]; rfl,
        fun k hk => (view_chan hview k).trans (hend.others k hk), (view_cfgRegs hview).trans hend.cfgRegs,
        fun a ha hoffs => (view_csr hview a hoffs).trans (hend.csr a ha)⟩

end Sys2Proof.Proofs
end

section
/-! CH_SEND, CH_RECEIVE and CH_RELEASE. -/

namespace Sys2Proof.Proofs

open Sys2Proof Sys2Proof.Machine Sys2Proof.Laws

/-! ## Reports and failures leave other commands alone -/

theorem flushReport_cmd (ch : Nat) (s : State) : (flushReport ch s).cmd = s.cmd := by
  unfold flushReport
  split
  · split
    · exact modChan_cmd _ _ _
    · rfl
  · rfl

theorem report_cmd (ch : Nat) (st : Status) (seq : Nat) (s : State) : (report ch st seq s).cmd = s.cmd := by
  unfold report
  dsimp only
  rw [modChan_cmd]
  exact onlyIf_cmd _ _ _ (flushReport_cmd ch s)

/-- The completion of a command that is not in flight changes none. -/
theorem complete_inflight_other {se : Nat} {tag : Tag} {st : Status} {res : List Byte} {s : State}
    (h : ∀ x ∈ s.cmd.inflight, ¬(x.session = se ∧ x.tag = tag)) : (complete se tag st res s).cmd.inflight = s.cmd.inflight := by
  unfold complete
  rw [modCmd_inflight]
  refine (List.map_congr_left fun x hx => ?_).trans (List.map_id _)
  rw [if_neg (h x hx)]
  rfl

/-- No command in flight waits for the item. -/
def ItemOfNone (s : State) (i : TxItem) : Prop :=
  ∀ x ∈ s.cmd.inflight, i.producer ≠ .send x.session x.tag ∧ i.producer ≠ .txn x.session x.tag

theorem answerItem_inflight {i : TxItem} {st : Status} {res : List Byte} {s : State} (h : ItemOfNone s i) :
    (answerItem i st res s).cmd.inflight = s.cmd.inflight := by
  unfold answerItem
  split
  · rename_i se tag hp
    exact complete_inflight_other fun x hx hc => (h x hx).1 (by rw [hp, hc.1, hc.2])
  · rename_i se tag hp
    exact complete_inflight_other fun x hx hc => (h x hx).2 (by rw [hp, hc.1, hc.2])
  · rfl

theorem unitFault_cmd (code kind n : Nat) (s : State) : (unitFault code kind n s).cmd = s.cmd := detect_cmd s _ _

theorem failItem_inflight {ch : Nat} {i : TxItem} {st : Status} {s : State} (h : ItemOfNone s i) :
    (failItem ch i st s).cmd.inflight = s.cmd.inflight := by
  unfold failItem
  extract_lets u v
  have hu : u.cmd = s.cmd := by unfold u; cases st <;> rfl
  have hv : v.cmd = u.cmd := by
    unfold v
    split
    · exact unitFault_cmd _ _ _ _
    · rfl
  have hr : (report ch st i.seq v).cmd = s.cmd := (report_cmd _ _ _ _).trans (hv.trans hu)
  rw [answerItem_inflight (by unfold ItemOfNone; rw [hr]; exact h), hr]

theorem failAll_inflight {ch : Nat} {st : Status} (is : List TxItem) {s : State} (h : ∀ i ∈ is, ItemOfNone s i) :
    (failAll ch is st s).cmd.inflight = s.cmd.inflight := by
  unfold failAll
  induction is generalizing s with
  | nil => rfl
  | cons i t ih =>
    have hremove : (removeItem ch i.seq s).cmd = s.cmd := modChan_cmd _ _ _
    have hfirst : (failItem ch i st (removeItem ch i.seq s)).cmd.inflight = s.cmd.inflight := by
      rw [failItem_inflight (by unfold ItemOfNone; rw [hremove]; exact h i List.mem_cons_self), hremove]
    rw [List.foldl_cons, ih, hfirst]
    intro j hj
    unfold ItemOfNone
    rw [hfirst]
    exact h j (List.mem_cons_of_mem _ hj)

/-! ## CH_SEND -/

/-- The parameters of CH_SEND (R464). -/
theorem chSendParams (rel : DWord) (len : BitVec 16) (data : List Byte) :
    rd (leBytes 8 rel.toNat ++ leBytes 2 len.toNat ++ data) 0 8 = rel.toNat
    ∧ (leBytes 8 rel.toNat ++ leBytes 2 len.toNat ++ data).drop 10 = data := by
  refine ⟨?_, List.drop_left' (by simp)⟩
  rw [List.append_assoc]
  exact rd_leBytes_toNat 8 rel _ (by decide)

/-- The item of a CH_SEND. -/
def sendItem (c : Ctx) (rel : DWord) (data : List Byte) : TxItem :=
  ⟨0, if rel.toNat = 0 then none else some (onGrid rel.toNat), data, .send c.session.val c.tag, none, 0⟩

theorem offerStatus_open {x : Chan} (h : x.st = .active ∨ x.st = .joining ∨ x.st = .alone) : offerStatus x = none ∧ x.st ≠ .partner := by
  rcases h with h | h | h <;> simp [offerStatus, h]

/-- CH_SEND of an item without a defect, at a channel that takes items and has room. -/
theorem runSend_queued {c : Ctx} {rel : DWord} {len : BitVec 16} {data : List Byte} {s u : State} (htick : tickNow s = tickNow u)
    (hmb : mbOn u c.target.toNat = false) (hiol : pers u c.target.toNat ≠ 4)
    (hst : (chan u c.target.toNat).st = .active ∨ (chan u c.target.toNat).st = .joining ∨ (chan u c.target.toNat).st = .alone)
    (hrec : pers u c.target.toNat = 3 → recordFault (fdEn u c.target.toNat) (decide (rel.toNat ≠ 0)) data = none)
    (hrel : rel.toNat ≠ 0 → releaseStatus (tickNow u) rel.toNat = none)
    (hfits : txFits u c.target.toNat (sendItem c rel data) = true) :
    runSend (taken c 0x0204 (leBytes 8 rel.toNat ++ leBytes 2 len.toNat ++ data) s) u
      = .later (queueItem c.target.toNat (sendItem c rel data) u) := by
  obtain ⟨hread, hdata⟩ := chSendParams rel len data
  obtain ⟨hoffer, hpartner⟩ := offerStatus_open hst
  have hdefect : (if pers u c.target.toNat = 3 then recordFault (fdEn u c.target.toNat) (decide (rel.toNat ≠ 0)) data else none) = none := by
    split
    · exact hrec ‹_›
    · rfl
  have htime : (if rel.toNat = 0 then none else releaseStatus (tickNow u) rel.toNat) = none := by
    split
    · rfl
    · exact hrel ‹_›
  have hnow : (taken c 0x0204 (leBytes 8 rel.toNat ++ leBytes 2 len.toNat ++ data) s).tick = tickNow u := htick
  unfold runSend
  simp only [taken_target, taken_params, taken_session, taken_tag, hnow, hread, hdata, hmb, Bool.false_eq_true, hiol, hpartner, or_self,
    if_false, hdefect, hoffer, htime]
  exact if_pos hfits

/-! ## CH_RECEIVE -/

theorem flushReport_none {ch : Nat} {u : State} (h : (chan u ch).pendRpt = none) : flushReport ch u = u := by
  unfold flushReport
  rw [h]

theorem nextPacket_empty {u : State} {ch : Nat} (h : (chan u ch).rxq = []) : nextPacket u ch = none := by
  unfold nextPacket
  rw [h]
  cases claimedRead u ch <;> rfl

theorem receiveItems_empty {ch : Nat} {u : State} (h : (chan u ch).rxq = []) (n : Nat) : receiveItems ch n [] 0 u = ([], 0, u) := by
  cases n with
  | zero => rfl
  | succ n =>
    unfold receiveItems
    rw [nextPacket_empty h]

/-- An item of CH_RECEIVE that begins with a STAMP word (R192). -/
def stampedItem (u : State) (w : DWord) (ws : List DWord) : List Byte :=
  leBytes 8 (restoreTick u (wordBody w)) ++ leBytes 2 (wordsData ws).length ++ wordsData ws

theorem receiveItems_stamped {ch : Nat} {w : DWord} {ws : List DWord} {u : State} (hclaim : claimedRead u ch = false)
    (hpkt : firstPacket (chan u ch).rxq = some (w :: ws)) (hkind : wordKind w = 1) (hlen : (wordsData ws).length ≤ 4096) :
    receiveItems ch 1 [] 0 u = (stampedItem u w ws, 1, (popWords ch (ws.length + 1) u).2) := by
  have hnext : nextPacket u ch = some (w :: ws) := by simp [nextPacket, hclaim, hpkt]
  have hitem : receiveItem (w :: ws) u = (stampedItem u w ws, u) := by simp [receiveItem, hkind, stampedItem]
  have hroom : ¬ ([] : List Byte).length + (stampedItem u w ws).length + 2 > maxParams := by
    simp only [stampedItem, List.length_nil, List.length_append, length_leBytes, maxParams]
    omega
  simp only [receiveItems, hnext, hitem, hclaim, onlyIf_false]
  rw [if_neg hroom]
  rfl

section
variable {c : Ctx} {s u : State}

/-- CH_RECEIVE with no report pending returns what the queue gives. -/
theorem runReceive_eq (n : BitVec 16) (hst : (chan u c.target.toNat).st ≠ .partner) (hrpt : (chan u c.target.toNat).pendRpt = none) :
    runReceive (taken c 0x0205 (leBytes 2 n.toNat) s) u
      = .done .ok (leBytes 2 (receiveItems c.target.toNat (min n.toNat maxParams) [] 0 u).2.1
          ++ (receiveItems c.target.toNat (min n.toNat maxParams) [] 0 u).1) (receiveItems c.target.toNat (min n.toNat maxParams) [] 0 u).2.2 := by
  have hread : rd (leBytes 2 n.toNat) 0 2 = n.toNat := by simpa using rd_leBytes_toNat 2 n [] (by decide)
  simp [runReceive, hst, flushReport_none hrpt, hread]

/-! ## CH_RELEASE -/

theorem runRelease_alone (h : (chan u c.target.toNat).st = .alone) : runRelease (taken c 0x0206 [] s) u
    = .done .ok (leBytes 4 (chan u c.target.toNat).txq.length)
        (backToBus c.target.toNat (modChan c.target.toNat (fun x => { x with st := .active, can := { x.can with ackRun := 0 } }) u)) := by
  simp [runRelease, h]

/-- Items that end as the channel comes back answer their own producers alone. -/
theorem backToBus_inflight {ch : Nat} {v : State} (h : ∀ i ∈ (chan v ch).txq, ItemOfNone v i) :
    (backToBus ch v).cmd.inflight = v.cmd.inflight :=
  failAll_inflight _ (fun i hi => h i ((List.mem_filter.mp hi).1))

end

theorem popRx_cmd (ch : Nat) (s : State) : (popRx ch s).2.2.cmd = s.cmd := by
  unfold popRx
  dsimp only
  split
  · exact modChan_cmd _ _ _
  · exact bump_cmd _ _

theorem popEngine_cmd (e : Nat) (s : State) : (popEngine e s).2.2.cmd = s.cmd := by
  unfold popEngine
  dsimp only
  split <;> rfl

/-- Taking words of a window touches no command. -/
theorem popWords_cmd (t n : Nat) (s : State) : (popWords t n s).2.cmd = s.cmd := by
  induction n generalizing s with
  | zero => rfl
  | succ n ih =>
    unfold popWords
    extract_lets r empty
    have hone : r.2.2.cmd = s.cmd := by
      unfold r
      split
      · exact popRx_cmd t s
      · exact popEngine_cmd _ s
    split
    · exact hone
    · exact (ih _).trans hone

/-- Settles O10: an item with room is queued, the first packet is taken, and an ALONE channel goes back to its bus. -/
theorem channelData : Obligations.ChannelData := by
  unfold Obligations.ChannelData
  refine ⟨fun rel len data => ?send, fun n => ?receiveNone, fun w ws => ?receiveOne, ?release⟩
  case send =>
    refine hostStands_lock _ _ _ _ _ (fun _ _ => rfl) (by decide) (by decide) (fun _ _ h => h.1) (fun c s hgood => ?_) (fun _ _ => rfl)
    obtain ⟨-, hmb, hiol, hst, hrec, hrel, hfits⟩ := hgood
    exact runSend_queued rfl hmb hiol hst hrec hrel hfits
  case receiveNone =>
    refine hostCompletes_same (by decide) (fun _ _ => rfl) (fun c s hgood => ?_)
    obtain ⟨hst, hrpt, hq⟩ := hgood
    refine (runReceive_eq n hst hrpt).trans ?_
    rw [receiveItems_empty hq]
    rfl
  case receiveOne =>
    refine hostCompletes_run (by decide) (fun _ _ => rfl) (fun c s hgood => ?_) (fun _ u _ => congrArg CmdState.inflight (popWords_cmd _ _ u))
    obtain ⟨hst, hrpt, hclaim, hpkt, hkind, hlen⟩ := hgood
    refine (runReceive_eq 1 hst hrpt).trans ?_
    have hone : min (1 : BitVec 16).toNat maxParams = 1 := by decide
    rw [hone, receiveItems_stamped hclaim hpkt hkind hlen]
    rfl
  case release =>
    refine hostCompletes_alone (by decide) (fun _ _ => rfl) (fun _ _ h => runRelease_alone h.1) (fun c s hgood hin => ?_)
    obtain ⟨-, hnone⟩ := hgood
    let v := modChan c.target.toNat (fun x => { x with st := .active, can := { x.can with ackRun := 0 } }) (takenIn c 0x0206 [] s)
    have hq : (chan v c.target.toNat).txq = (chan (takenIn c 0x0206 [] s) c.target.toNat).txq := by
      unfold v
      rw [chan_modChan_on (by simp)]
    refine (backToBus_inflight (ch := c.target.toNat) (v := v) fun i hi x hx => ?_).trans hin
    have hx' : x = taken c 0x0206 [] s := by
      have hmem : x ∈ (takenIn c 0x0206 [] s).cmd.inflight := hx
      rw [hin] at hmem
      exact List.mem_singleton.mp hmem
    rw [hq] at hi
    subst hx'
    exact hnone i hi

end Sys2Proof.Proofs
end

section
/-! The window transactions (R304, R308 to R316): TX_POP, TX_PUSH, TX_RE_READ, TX_LOCK and TX_UNLOCK. -/

namespace Sys2Proof.Proofs

open Sys2Proof Sys2Proof.Machine Sys2Proof.Laws

/-! ## Words as bytes -/

theorem length_wordsBytes (ws : List DWord) : (wordsBytes ws).length = 8 * ws.length := by
  induction ws with
  | nil => rfl
  | cons w t ih =>
    have hcons : wordsBytes (w :: t) = leBytes 8 w.toNat ++ wordsBytes t := rfl
    rw [hcons, List.length_append, length_leBytes, ih, List.length_cons]
    omega

/-- The entries that the bytes of some words spell are those words. -/
theorem entriesOf_wordsBytes (ws : List DWord) : entriesOf (wordsBytes ws) = ws := by
  have hread : ∀ (ws : List DWord) (i : Nat) (h : i < ws.length), BitVec.ofNat 64 (rd (wordsBytes ws) (8 * i) 8) = ws[i] := by
    intro ws
    induction ws with
    | nil => exact fun i h => absurd h (Nat.not_lt_zero i)
    | cons w t ih =>
      have hcons : wordsBytes (w :: t) = leBytes 8 w.toNat ++ wordsBytes t := rfl
      intro i h
      cases i with
      | zero =>
        rw [hcons, Nat.mul_zero, rd_leBytes_toNat 8 w _ (by decide)]
        simp
      | succ i =>
        rw [hcons, rd_leBytes_skip _ _ _ _ _ (by omega), show 8 * (i + 1) - 8 = 8 * i by omega]
        exact ih i (Nat.lt_of_succ_lt_succ h)
  have hlen : (wordsBytes ws).length / 8 = ws.length := by rw [length_wordsBytes]; omega
  refine List.ext_getElem (by simp [entriesOf, hlen]) (fun i h1 h2 => ?_)
  simpa [entriesOf] using hread ws i h2

/-- Words of which the last alone has END make up one item. -/
theorem cutItems_whole (ws : List DWord) (acc : List DWord) (w : DWord) (hopen : ∀ x ∈ ws, wordEnd x = false) (hend : wordEnd w = true) :
    cutItems (ws ++ [w]) acc = [acc ++ ws ++ [w]] := by
  induction ws generalizing acc with
  | nil => simp [cutItems, hend]
  | cons x t ih =>
    have hx : wordEnd x = false := hopen x List.mem_cons_self
    rw [List.cons_append, cutItems, if_neg (by simp [hx]), ih (acc ++ [x]) (fun y hy => hopen y (List.mem_cons_of_mem _ hy))]
    simp

/-! ## TX_POP and TX_PUSH -/

section
variable {c : Ctx} {s u : State}

theorem refuseTx_pop {params : List Byte} (hlock : lockFits c u = true) (hoff : engineOff u c.target.toNat = false)
    (hpartner : partnerAt u c.target.toNat = false) (hclaim : claimedRead u c.target.toNat = false) :
    refuseTx (taken c 0x0406 params s) u = none := by
  simp [refuseTx, lockMissing_taken s c _ _ u hlock, hoff, hpartner, hclaim]

/-- A push of one whole item at a channel that takes it is not refused (R304, R316). -/
theorem refuseTx_push {ws : List DWord} (hlock : lockFits c u = true) (hchan : c.target.toNat < 0x100)
    (hpartner : partnerAt u c.target.toNat = false) (hdenied : pushDenied u c.target.toNat = false)
    (hend : ∃ w, ws.getLast? = some w ∧ wordEnd w = true) : refuseTx (taken c 0x0407 (wordsBytes ws) s) u = none := by
  obtain ⟨w, hlast, hw⟩ := hend
  have hoff : engineOff u c.target.toNat = false := by simp [engineOff, Nat.not_le.mpr hchan]
  have hwhole : pushRefused u (taken c 0x0407 (wordsBytes ws) s) = false := by
    simp [pushRefused, entriesOf_wordsBytes, hoff, hpartner, hdenied, hchan, hlast, hw]
  simp [refuseTx, lockMissing_taken s c _ _ u hlock, hwhole]

/-- One whole item that has room is queued. -/
theorem runPush_whole {ws : List DWord} (hchan : c.target.toNat < 0x100) (hst : (chan u c.target.toNat).st = .active)
    (hroom : wordRoom u c.target.toNat ws.length = true) (hopen : ∀ w ∈ ws.dropLast, wordEnd w = false)
    (hend : ∃ w, ws.getLast? = some w ∧ wordEnd w = true) : runPush (taken c 0x0407 (wordsBytes ws) s) 0 u
      = .done .ok (leBytes 4 ws.length) (queueItem c.target.toNat (itemOf u c.target.toNat ws) u) := by
  obtain ⟨w, hlast, hw⟩ := hend
  have hsplit : ws.dropLast ++ [w] = ws := by
    obtain ⟨ys, hys⟩ := List.getLast?_eq_some_iff.mp hlast
    rw [hys, List.dropLast_concat]
  have hcut : cutItems ws [] = [ws] := by
    have hwhole := cutItems_whole ws.dropLast [] w hopen hw
    rwa [List.nil_append, hsplit] at hwhole
  have hoffer : offerStatus (chan u c.target.toNat) = none := (offerStatus_open (.inl hst)).1
  simp [runPush, entriesOf_wordsBytes, hchan, hcut, pushItems, pushItem, hoffer, hroom]

/-! ## TX_RE_READ -/

/-- The parameters of TX_RE_READ (R464). -/
theorem reReadParams (first : Word) (n : BitVec 16) : rd (leBytes 4 first.toNat ++ leBytes 2 n.toNat) 0 4 = first.toNat
    ∧ rd (leBytes 4 first.toNat ++ leBytes 2 n.toNat) 4 2 = n.toNat := by
  refine ⟨rd_leBytes_toNat 4 first _ (by decide), ?_⟩
  rw [rd_leBytes_skip _ _ _ _ _ (by decide)]
  simpa using rd_leBytes_toNat 2 n [] (by decide)

omit c s in
/-- The words of a run of sequences that the history holds, none ahead of the next pop sequence. -/
theorem history_of_sequences {t n first : Nat} {ws : List (Nat × DWord)} (hlen : ws.length = n)
    (hseq : ∀ i, i < n → (ws.map (·.1))[i]? = some ((first + i) % 2 ^ 32))
    (hheld : ∀ e ∈ ws, (historyOf u t).find? (fun x => x.1 == e.1) = some e) :
    (upFrom first n).map (· % 2 ^ 32) = ws.map (·.1)
      ∧ ((upFrom first n).map (· % 2 ^ 32)).filterMap (fun q => (historyOf u t).find? (fun e => e.1 == q)) = ws := by
  have hq : (upFrom first n).map (· % 2 ^ 32) = ws.map (·.1) := by
    refine List.ext_getElem? (fun i => ?_)
    by_cases hi : i < n
    · rw [hseq i hi]
      simp [upFrom, hi]
    · rw [List.getElem?_eq_none (by simpa [upFrom] using hi), List.getElem?_eq_none (by simpa [hlen] using hi)]
  refine ⟨hq, ?_⟩
  rw [hq, List.filterMap_map]
  exact filterMap_kept hheld

theorem runReRead_held {first : Word} {n : BitVec 16} {ws : List (Nat × DWord)} (hlen : ws.length = n.toNat)
    (hseq : ∀ i, i < n.toNat → (ws.map (·.1))[i]? = some ((first.toNat + i) % 2 ^ 32)) (hoff : engineOff u c.target.toNat = false)
    (hpartner : partnerAt u c.target.toNat = false)
    (hheld : ∀ e ∈ ws, (historyOf u c.target.toNat).find? (fun x => x.1 == e.1) = some e
      ∧ 2 ^ 31 ≤ (e.1 + 2 ^ 32 - popSeqOf u c.target.toNat) % 2 ^ 32) :
    runReRead (taken c 0x0408 (leBytes 4 first.toNat ++ leBytes 2 n.toNat) s) u
      = .done .ok (leBytes 2 n.toNat ++ [0, 0] ++ ws.flatMap (fun e => leBytes 4 e.1 ++ leBytes 8 e.2.toNat)) (bumpBy 0x140094 n.toNat u) := by
  obtain ⟨hfirst, hn⟩ := reReadParams first n
  obtain ⟨hq, hws⟩ := history_of_sequences (u := u) hlen hseq (fun e he => (hheld e he).1)
  have hbehind : (ws.map (·.1)).any (fun q => decide ((q + 2 ^ 32 - popSeqOf u c.target.toNat) % 2 ^ 32 < 2 ^ 31)) = false := by
    rw [List.any_eq_false]
    intro q hmem
    obtain ⟨e, he, rfl⟩ := List.mem_map.mp hmem
    simpa using (hheld e he).2
  unfold runReRead
  simp only [taken_target, taken_params, hfirst, hn, hoff, hpartner, Bool.or_self, Bool.false_eq_true, if_false, hws]
  rw [hq]
  exact (if_neg (by rw [Bool.not_eq_true]; exact hbehind)).trans (if_neg (by omega))

/-! ## TX_LOCK and TX_UNLOCK -/

theorem refuseTx_lock {hold : BitVec 16} (hlow : 1 ≤ hold.toNat) (hhigh : hold.toNat ≤ 100) (hlock : lockFits c u = true)
    (hpartner : partnerAt u c.target.toNat = false)
    (hkind : mbOn u c.target.toNat = true ∨ pers u c.target.toNat = 4 ∨ pers u c.target.toNat = 3) :
    refuseTx (taken c 0x0409 (leBytes 2 hold.toNat) s) u = none := by
  have hread : rd (leBytes 2 hold.toNat) 0 2 = hold.toNat := by simpa using rd_leBytes_toNat 2 hold [] (by decide)
  have hfit : lockRefused u (taken c 0x0409 (leBytes 2 hold.toNat) s) = false := by
    have hne : hold.toNat ≠ 0 := by omega
    rcases hkind with h | h | h <;> simp [lockRefused, hread, hpartner, h, hne, hhigh]
  simp [refuseTx, lockMissing_taken s c _ _ u hlock, hfit]

/-- The lock that TX_LOCK gives (R308): from its first grant on it never lasts beyond 100 ms. -/
def grantedLock (c : Ctx) (hold : BitVec 16) (u : State) : Lock :=
  { session := c.session.val, path := c.path
    expiry := min (tickNow u + hold.toNat * 2000) ((match lockedBy u c.target.toNat with | some l => l.first | none => tickNow u) + 200000)
    first := match lockedBy u c.target.toNat with | some l => l.first | none => tickNow u }

theorem runLock_eq {hold : BitVec 16} {se : Session} (hse : sess u c.session.val = some se) (hpath : se.path = c.path) :
    runLock (taken c 0x0409 (leBytes 2 hold.toNat) s) u
      = .done .ok (leBytes 8 (grantedLock c hold u).expiry) (setLock c.target.toNat (grantedLock c hold u) u) := by
  have hread : rd (leBytes 2 hold.toNat) 0 2 = hold.toNat := by simpa using rd_leBytes_toNat 2 hold [] (by decide)
  simp only [runLock, taken_target, taken_params, taken_session, hread, hse, hpath]
  rfl

theorem runUnlock_holder {l : Lock} (hl : lockedBy u c.target.toNat = some l) (hself : l.session = c.session.val) :
    runUnlock (taken c 0x040A [] s) u = .done .ok [] (dropLock c.target.toNat u) := by
  simp [runUnlock, hl, hself]

theorem runUnlock_other (h : ∀ l, lockedBy u c.target.toNat = some l → l.session ≠ c.session.val) :
    runUnlock (taken c 0x040A [] s) u = .done .denied [] u := by
  unfold runUnlock
  rw [taken_target]
  split
  · rename_i l hl
    exact if_neg (h l hl)
  · rfl

end

/-- Settles O13: the issue of each transaction, with what it must fulfil not to be refused. -/
theorem windowTransactions : Obligations.WindowTransactions := by
  unfold Obligations.WindowTransactions
  refine ⟨fun n => ?pop, fun ws hopen hend => ?push, fun first n ws hlen hseq => ?reRead, fun hold hlow hhigh => ?lock, ?unlock, ?unlockOther⟩
  case pop =>
    refine hostCompletes_tx _ _ _ _ _ _ _ (fun _ _ => rfl) (by decide) (by decide) (fun _ _ h => h.2.1)
      (fun c s h => refuseTx_pop h.1 h.2.2.1 h.2.2.2.1 h.2.2.2.2) (fun c s _ => ?_) (fun _ u => congrArg CmdState.inflight (popWords_cmd _ _ u))
    have hread : rd (leBytes 2 n.toNat) 0 2 = n.toNat := by simpa using rd_leBytes_toNat 2 n [] (by decide)
    have hrun : ∀ u, runPop (taken c 0x0406 (leBytes 2 n.toNat) s) u
        = .done .ok (leBytes 4 (popSeqOf u c.target.toNat) ++ leBytes 2 (popWords c.target.toNat n.toNat u).1.length ++ [0, 0]
          ++ wordsBytes (popWords c.target.toNat n.toNat u).1) (popWords c.target.toNat n.toNat u).2 := fun u => by
      simp only [runPop, taken_target, taken_params, hread]
    exact hrun _
  case push =>
    refine hostCompletes_tx _ _ _ _ _ _ _ (fun _ _ => rfl) (by decide) (by decide) (fun _ _ h => h.2.1) (fun c s hgood => ?_)
      (fun c s hgood => ?_) (fun _ _ => rfl)
    all_goals obtain ⟨hlock, -, hchan, hpartner, hdenied, hst, hroom⟩ := hgood
    · exact refuseTx_push hlock hchan hpartner hdenied hend
    · exact runPush_whole hchan hst hroom hopen hend
  case reRead =>
    exact hostCompletes_run (by decide) (fun _ _ => rfl) (fun c s hgood => runReRead_held hlen hseq hgood.1 hgood.2.1 hgood.2.2)
      (fun _ _ _ => rfl)
  case lock =>
    refine hostCompletes_facts _ _ _ _ _ _ _ (hostCompletes_tx _ _ _ _ _ _ _ (fun _ _ => rfl) (by decide) (by decide) (fun _ _ h => h.2.2.1)
      (fun c s hgood => ?_) (fun c s hgood => ?_) (fun _ _ => rfl))
    all_goals obtain ⟨⟨-, se, hse, hpath, -⟩, hlock, -, hpartner, hkind⟩ := hgood
    · exact refuseTx_lock hlow hhigh hlock hpartner hkind
    · exact runLock_eq hse hpath
  case unlock =>
    refine hostCompletes_run (by decide) (fun _ _ => rfl) (fun c s hgood => ?_) (fun _ _ _ => rfl)
    obtain ⟨l, hl, hself⟩ := hgood
    exact runUnlock_holder hl hself
  case unlockOther => exact hostCompletes_same (by decide) (fun _ _ => rfl) (fun c s h => runUnlock_other h)

end Sys2Proof.Proofs
end

section
/-! Host commands of engines and discrete lines (R330, R338 to R341). -/

namespace Sys2Proof.Proofs

open Sys2Proof Sys2Proof.Machine Sys2Proof.Laws

/-! ## Commands that wait, and those answered while they begin to wait -/

/-- A command answered in the course of its start is as one that completes: what waits no longer is not noted as waiting. -/
theorem noteRan_wait_complete {x : Cmd} {st : Status} {res : List Byte} {u : State} (hin : u.cmd.inflight = [x]) (hx : x.phase = .waiting) :
    noteRan x (.wait (complete x.session x.tag st res u)) = noteRan x (.done st res u) := by
  simp [noteRan, setCmd, complete, modCmd, hin, hx, sameCmd, isReady]

/-- A plain command that is alone in flight and is noted as complete, however its execution reports that. -/
theorem hostCompletes_noted {i : Ctx → Instr} {op : Nat} {params : List Byte} {good : Ctx → State → Prop} {st : Status}
    {res : Ctx → State → List Byte} {eff : Ctx → State → State} (hk : plainOp op = true)
    (hx : ∀ c s, exec (i c) s = commit s (hostCommand c op params s))
    (hr : ∀ c s, good c (takenIn c op params s) → (takenIn c op params s).cmd.inflight = [taken c op params s] →
      noteRan (taken c op params s) (runPlain (taken c op params s) (takenIn c op params s))
        = noteRan (taken c op params s) (.done st (res c (takenIn c op params s)) (eff c (takenIn c op params s))))
    (hu : ∀ c u, (eff c u).cmd.inflight = u.cmd.inflight) : HostCompletes i op params good st res eff := by
  obtain ⟨hnow, hfree, hlock, hcommit⟩ := plainOp_parts hk
  intro c s hidle heffc ha hgood
  have hin := takenIn_inflight s c op params hidle
  rw [hx]
  refine host_done c op params s _ st _ hidle (.inl hcommit) ha ?_ ((hu c _).trans hin)
  rw [runOne_now _ _ rfl heffc hnow, runNow_untargeted _ _ hfree (accepts_unlocked s c op params ha hlock)]
  exact hr c s hgood hin

/-- A plain command whose effect follows a later event. -/
theorem hostStands_wait {i : Ctx → Instr} {op : Nat} {params : List Byte} {good : Ctx → State → Prop} {eff : Ctx → State → State}
    (hk : plainOp op = true) (hx : ∀ c s, exec (i c) s = commit s (hostCommand c op params s))
    (hr : ∀ c s, good c (takenIn c op params s) → runPlain (taken c op params s) (takenIn c op params s)
      = .wait (eff c (takenIn c op params s)))
    (hu : ∀ c u, (eff c u).cmd.inflight = u.cmd.inflight) : HostStands i op params good (fun _ _ => .issued) eff := by
  obtain ⟨hnow, hfree, hlock, -⟩ := plainOp_parts hk
  intro c s hidle heffc ha hgood
  have hin := (hu c _).trans (takenIn_inflight s c op params hidle)
  have hnote : noteRan (taken c op params s) (.wait (eff c (takenIn c op params s)))
      = setCmd (taken c op params s) (fun x => { x with phase := .issued, effected := false }) (eff c (takenIn c op params s)) := by
    simp [noteRan, setCmd, modCmd, hin, taken]
  rw [hx]
  refine host_issued c op params s _ hidle ha false ?_ hin
  rw [runOne_now _ _ rfl heffc hnow, runNow_untargeted _ _ hfree (accepts_unlocked s c op params ha hlock), ← hnote]
  exact congrArg (noteRan _) (hr c s hgood)

/-! ## DL_WRITE -/

theorem dlMaskOk_iff (u : State) (b mask : Nat) : dlMaskOk u b mask = true
    ↔ ∀ i, i < 16 → bit mask i = true → isOutput u (16 * b + i) = true ∧ dlOwn u (16 * b + i) = 0 := by
  simp only [dlMaskOk, List.all_eq_true, List.mem_range, Bool.or_eq_true, Bool.not_eq_true', Bool.and_eq_true, beq_iff_eq]
  refine forall_congr' fun i => forall_congr' fun _ => ?_
  cases bit mask i <;> simp

theorem dlWriteParams (value mask : BitVec 16) : rd (leBytes 2 value.toNat ++ leBytes 2 mask.toNat) 0 2 = value.toNat
    ∧ rd (leBytes 2 value.toNat ++ leBytes 2 mask.toNat) 2 2 = mask.toNat := by
  refine ⟨rd_leBytes_toNat 2 value _ (by decide), ?_⟩
  rw [rd_leBytes_skip _ _ _ _ _ (by decide)]
  simpa using rd_leBytes_toNat 2 mask [] (by decide)

section
variable {c : Ctx} {s u : State}

theorem runDlWrite_due {value mask : BitVec 16} (heffc : c.effc = none) (hmask : dlMaskOk u c.target.toNat mask.toNat = true) :
    runDlWrite (taken c 0x0505 (leBytes 2 value.toNat ++ leBytes 2 mask.toNat) s) u
      = .done .ok [] (dlSchedule (tickNow s) c.target.toNat value.toNat mask.toNat u) := by
  obtain ⟨hvalue, hbits⟩ := dlWriteParams value mask
  simp [runDlWrite, hvalue, hbits, hmask, heffc, Machine.tell]

theorem runDlWrite_denied {value mask : BitVec 16} (hmask : dlMaskOk u c.target.toNat mask.toNat = false) :
    runDlWrite (taken c 0x0505 (leBytes 2 value.toNat ++ leBytes 2 mask.toNat) s) u = .done .denied [] u := by
  obtain ⟨-, hbits⟩ := dlWriteParams value mask
  simp [runDlWrite, hbits, hmask, Machine.tell]

/-! ## Starts and loads -/

/-- An engine in IDLE or HALTED is configured, and not active (R337). -/
theorem leIdle_parts {e : Nat} (h : leState u e = .idle ∨ leState u e = .halted) : leState u e ≠ .off ∧ leActive (leState u e) = false := by
  rcases h with h | h <;> simp [h, leActive]

theorem leActive_on {e : Nat} (h : leActive (leState u e) = true) : leState u e ≠ .off := fun hoff => by simp [hoff, leActive] at h

theorem runRestart_arms {flags : Byte} (hidle : leState u c.target.toNat = .idle ∨ leState u c.target.toNat = .halted)
    (hflags : flags.toNat = 0 ∨ flags.toNat = 1 ∧ leWidth u c.target.toNat = (engine u c.target.toNat).hwidth) :
    runRestart (taken c 0x0502 [flags] s) u = .done .ok [] (arm c.target.toNat (tickNow s + 40) (bit flags.toNat 0) u) := by
  obtain ⟨hon, hinactive⟩ := leIdle_parts hidle
  have hread : rd [flags] 0 1 = flags.toNat := by simp [rd, slice, leVal]
  rcases hflags with h | ⟨h, hwidth⟩
  · simp [runRestart, restart, hread, h, hon, hinactive, Machine.tell, bit]
  · simp [runRestart, restart, hread, h, hon, hinactive, Machine.tell, bit, hwidth]

theorem runRestart_active (h : leActive (leState u c.target.toNat) = true) :
    runRestart (taken c 0x0502 [0] s) u = .done .engineActive [] u := by
  simp [runRestart, restart, leActive_on h, h, Machine.tell]

theorem groupParams (mask : Word) (tick : DWord) : rd (leBytes 4 mask.toNat ++ leBytes 8 tick.toNat) 0 4 = mask.toNat
    ∧ rd (leBytes 4 mask.toNat ++ leBytes 8 tick.toNat) 4 8 = tick.toNat := by
  refine ⟨rd_leBytes_toNat 4 mask _ (by decide), ?_⟩
  rw [rd_leBytes_skip _ _ _ _ _ (by decide)]
  simpa using rd_leBytes_toNat 8 tick [] (by decide)

theorem groupStart_arms {mask tick : Nat} (hidle : ∀ e, e < 32 → bit mask e = true → leState u e = .idle ∨ leState u e = .halted)
    (hlow : tickNow u + 40 ≤ tick) (hhigh : tick ≤ tickNow u + 120000000) :
    groupStart mask tick (tickNow u) u = (.ok, forEach ((List.range 32).filter (fun e => bit mask e)) (fun e => arm e tick false) u) := by
  have hmember : ∀ e ∈ (List.range 32).filter (fun e => bit mask e), leState u e ≠ .off ∧ leActive (leState u e) = false := by
    intro e he
    rw [List.mem_filter, List.mem_range] at he
    exact leIdle_parts (hidle e he.1 he.2)
  have hactive : ((List.range 32).filter (fun e => bit mask e)).any (fun e => leActive (leState u e)) = false := by
    rw [List.any_eq_false]
    exact fun e he => by simp [(hmember e he).2]
  have hoff : ((List.range 32).filter (fun e => bit mask e)).any (fun e => leState u e == .off) = false := by
    rw [List.any_eq_false]
    exact fun e he => by simp [(hmember e he).1]
  unfold groupStart
  dsimp only
  rw [if_neg (by rw [hactive]; decide), if_neg (by rw [hoff]; decide), if_neg (by omega), if_neg (by omega)]

/-- The parameters of a single-part LE_LOAD are one part. -/
theorem loadParts_single {first count : BitVec 16} {bs : List Byte} (hlen : bs.length = 3 * count.toNat) :
    loadParts 64 (leBytes 2 first.toNat ++ leBytes 2 count.toNat ++ bs) = [(first.toNat, bs)] := by
  have hfirst : rd (leBytes 2 first.toNat ++ leBytes 2 count.toNat ++ bs) 0 2 = first.toNat := by
    rw [List.append_assoc]
    exact rd_leBytes_toNat 2 first _ (by decide)
  have hcount : rd (leBytes 2 first.toNat ++ leBytes 2 count.toNat ++ bs) 2 2 = count.toNat := by
    rw [List.append_assoc, rd_leBytes_skip _ _ _ _ _ (by decide)]
    exact rd_leBytes_toNat 2 count _ (by decide)
  have hbytes : slice (leBytes 2 first.toNat ++ leBytes 2 count.toNat ++ bs) 4 (3 * count.toNat) = bs := by
    rw [slice, List.drop_left' (by simp), ← hlen, List.take_length]
  have hall : (leBytes 2 first.toNat ++ leBytes 2 count.toNat ++ bs).length = 4 + 3 * count.toNat := by
    simp only [List.length_append, length_leBytes, hlen]
  rw [loadParts, if_neg (by omega), hfirst, hcount]
  dsimp only
  rw [hbytes, List.drop_eq_nil_of_le (Nat.le_of_eq hall)]
  rfl

@[simp] theorem scrubTouch_cmd (steps : List Nat) (v : State) : (scrubTouch steps v).cmd = v.cmd := by
  unfold scrubTouch
  dsimp only
  split <;> rfl

theorem runLoad_writes {first count : BitVec 16} {bs : List Byte} (hlen : bs.length = 3 * count.toNat)
    (hok : ∀ i, i < count.toNat → entryOk (rd bs (3 * i) 3) = true)
    (hidle : leState u c.target.toNat = .idle ∨ leState u c.target.toNat = .halted) :
    runLoad (taken c 0x0501 (leBytes 2 first.toNat ++ leBytes 2 count.toNat ++ bs) s) u
      = .done .ok [] (scrubTouch [256 + c.target.toNat] (writeTable c.target.toNat first.toNat bs u)) := by
  obtain ⟨hon, hinactive⟩ := leIdle_parts hidle
  have hgood : (List.range (bs.length / 3)).any (fun i => !entryOk (loadEntry bs i)) = false := by
    rw [List.any_eq_false]
    intro i hi
    rw [List.mem_range] at hi
    simpa [loadEntry] using hok i (by omega)
  have hrun : ∀ params, loadParts 64 params = [(first.toNat, bs)] → runLoad (taken c 0x0501 params s) u
      = .done .ok [] (scrubTouch [256 + c.target.toNat] (writeTable c.target.toNat first.toNat bs u)) := by
    intro params hparts
    simp [runLoad, hparts, hon, hinactive, hgood]
  exact hrun _ (loadParts_single hlen)

theorem runLoad_active {params : List Byte} (h : leActive (leState u c.target.toNat) = true) :
    runLoad (taken c 0x0501 params s) u = .done .engineActive [] u := by
  simp [runLoad, leActive_on h, h, Machine.tell]

/-! ## Halts -/

theorem runHalt_inactive (hidle : leState u c.target.toNat = .idle ∨ leState u c.target.toNat = .halted) :
    runHalt (taken c 0x0500 [] s) u = .done .ok (haltResults (engine u c.target.toNat) (engine u c.target.toNat).abandoned true) u := by
  obtain ⟨hon, hinactive⟩ := leIdle_parts hidle
  simp [runHalt, hon, hinactive]

/-- The engine `e` as LE_HALT asks it to halt. -/
def askedHalt (e : Nat) (who : Nat × Tag) (u : State) : State :=
  modEngine e (fun x => { x with haltPend := true, halting := x.halting ++ [who] }) u

theorem runHalt_waits (h : leState u c.target.toNat = .run ∨ leState u c.target.toNat = .stallPush ∨ leState u c.target.toNat = .stallPull) :
    runHalt (taken c 0x0500 [] s) u = .wait (askedHalt c.target.toNat (c.session.val, c.tag) u) := by
  rcases h with h | h | h <;> simp [runHalt, askHalt, h, leActive, askedHalt]

/-! ## An engine that halts -/

theorem forEach_keeps {α : Type} {g : State → α} {f : Nat → State → State} (l : List Nat) (u : State) (h : ∀ i v, g (f i v) = g v) :
    g (forEach l f u) = g u :=
  foldl_keep g _ (fun v i => h i v) l u

theorem drivePins_keeps {α : Type} {g : State → α} (h : ∀ l f v, g (modLine l f v) = g v) (e : Nat) (u : State) :
    g (drivePins e u) = g u := by
  refine forEach_keeps _ _ (fun i v => ?_)
  dsimp only
  split
  · exact h _ _ _
  · rfl

@[simp] theorem drivePins_engines (e : Nat) (u : State) : (drivePins e u).engines = u.engines := drivePins_keeps (fun _ _ _ => rfl) e u
@[simp] theorem drivePins_cmd (e : Nat) (u : State) : (drivePins e u).cmd = u.cmd := drivePins_keeps (fun _ _ _ => rfl) e u

/-- The engine `e` halted, and its pins at their halt values (R337), before any command is answered. -/
def haltedPins (e : Nat) (u : State) : State :=
  haltPins e (modEngine e (fun x => { x with
    st := .halted, hwidth := leWidth u e, stalled := none, haltPend := false, halting := [], abandoned := (engine u e).stalled.isSome }) u)

@[simp] theorem haltedPins_cmd (e : Nat) (u : State) : (haltedPins e u).cmd = u.cmd := by
  rw [haltedPins, haltPins, drivePins_cmd]
  rfl

theorem engine_of_engines {u v : State} (h : u.engines = v.engines) (e : Nat) : engine u e = engine v e := by rw [engine, engine, h]

theorem engine_modEngine_on (e : Nat) {f : Engine → Engine} {u : State} (h : (f (engine u e)).st ≠ .off) :
    engine (modEngine e f u) e = f (engine u e) :=
  engine_modEngine _ _ _ (fun hdef => h (congrArg Engine.st hdef))

theorem engine_haltedPins (e : Nat) (u : State) : ∃ outs enables, engine (haltedPins e u) e = { engine u e with
    st := .halted, hwidth := leWidth u e, stalled := none, haltPend := false, halting := [], abandoned := (engine u e).stalled.isSome
    outs := outs, enables := enables } := by
  have hmod := engine_modEngine_on e (u := u) (f := fun x => { x with
    st := .halted, hwidth := leWidth u e, stalled := none, haltPend := false, halting := [], abandoned := (engine u e).stalled.isSome })
    (by simp)
  rw [haltedPins, haltPins, engine_of_engines (drivePins_engines _ _), engine_modEngine_on e (by rw [hmod]; simp), hmod]
  exact ⟨_, _, rfl⟩

theorem engine_haltedPins_other (e k : Nat) (u : State) (hk : k ≠ e) : engine (haltedPins e u) k = engine u k := by
  rw [haltedPins, haltPins, engine_of_engines (drivePins_engines _ _), engine_modEngine_other _ _ _ _ hk, engine_modEngine_other _ _ _ _ hk]

/-- LE_HALT of an engine in ARMED or WAIT for which no other command waits: it halts and answers (R340). -/
theorem runHalt_halts (h : leState u c.target.toNat = .armed ∨ leState u c.target.toNat = .wait)
    (hwait : (engine u c.target.toNat).halting = []) (hstall : (engine u c.target.toNat).stalled = none) :
    runHalt (taken c 0x0500 [] s) u = .wait (complete c.session.val c.tag .ok (haltResults (engine u c.target.toNat) false false)
      (haltedPins c.target.toNat (askedHalt c.target.toNat (c.session.val, c.tag) u))) := by
  have hactive : leState u c.target.toNat ≠ .off ∧ leActive (leState u c.target.toNat) = true := by rcases h with h | h <;> simp [h, leActive]
  have hasked : engine (askedHalt c.target.toNat (c.session.val, c.tag) u) c.target.toNat
      = { engine u c.target.toNat with haltPend := true, halting := [(c.session.val, c.tag)] } := by
    rw [askedHalt, engine_modEngine _ _ _ (fun hdef => Bool.noConfusion (congrArg Engine.haltPend hdef)), hwait]
    rfl
  have hhalt : haltNow c.target.toNat (askedHalt c.target.toNat (c.session.val, c.tag) u)
      = complete c.session.val c.tag .ok (haltResults (engine u c.target.toNat) false false)
        (haltedPins c.target.toNat (askedHalt c.target.toNat (c.session.val, c.tag) u)) := by
    simp only [haltNow, haltedPins, hasked, hstall, List.foldl_cons, List.foldl_nil]
    rfl
  have hrun : ∀ v, leState v c.target.toNat ≠ .off → leActive (leState v c.target.toNat) = true →
      (leState v c.target.toNat = .armed ∨ leState v c.target.toNat = .wait) →
      runHalt (taken c 0x0500 [] s) v = .wait (haltNow c.target.toNat (askedHalt c.target.toNat (c.session.val, c.tag) v)) := by
    intro v hon hact hnow
    simp [runHalt, hon, hact, askHalt, hnow, askedHalt]
  exact (hrun u hactive.1 hactive.2 h).trans (congrArg Ran.wait hhalt)

end

/-- Settles O14: what each command does, by the state of its engine, or by the lines that its mask names. -/
theorem lineAndEngineCommands : Obligations.LineAndEngineCommands := by
  unfold Obligations.LineAndEngineCommands
  refine ⟨fun value mask => ⟨?write, ?writeDenied⟩, ?restart, ?restartKeep, ?restartActive, fun mask tick => ?group,
    fun first count bs hlen hok => ?load, ?haltInactive, fun first count bs => ?loadActive, ?halt, ?haltWaits⟩
  case write =>
    refine hostCompletes_facts _ _ _ _ _ _ _ (hostCompletes_run (by decide) (fun _ _ => rfl) (fun c s hgood => ?_) (fun _ _ _ => rfl))
    obtain ⟨⟨heffc, -⟩, hlines⟩ := hgood
    exact runDlWrite_due heffc ((dlMaskOk_iff _ _ _).mpr hlines)
  case writeDenied =>
    refine hostCompletes_same (by decide) (fun _ _ => rfl) (fun c s hgood => ?_)
    obtain ⟨i, hi, hbit, hline⟩ := hgood
    refine runDlWrite_denied (Bool.eq_false_iff.mpr fun hok => ?_)
    obtain ⟨hout, hown⟩ := (dlMaskOk_iff _ _ _).mp hok i hi hbit
    rcases hline with h | h
    · exact Bool.false_ne_true (h.symm.trans hout)
    · exact h hown
  case restart =>
    exact hostCompletes_run (by decide) (fun _ _ => rfl) (fun c s hgood => runRestart_arms (s := s) (flags := 0) hgood (.inl rfl)) (fun _ _ _ => rfl)
  case restartKeep =>
    exact hostCompletes_run (by decide) (fun _ _ => rfl) (fun c s hgood => runRestart_arms (s := s) (flags := 1) hgood.1 (.inr ⟨rfl, hgood.2⟩)) (fun _ _ _ => rfl)
  case restartActive => exact hostCompletes_same (by decide) (fun _ _ => rfl) (fun c s hgood => runRestart_active hgood)
  case group =>
    refine hostCompletes_run (by decide) (fun _ _ => rfl) (fun c s hgood => ?_)
      (fun _ u _ => congrArg CmdState.inflight (forEach_keeps (g := State.cmd) _ u (fun _ _ => rfl)))
    obtain ⟨hidle, hlow, hhigh⟩ := hgood
    obtain ⟨hmask, htick⟩ := groupParams mask tick
    have hrun : ∀ v, runGroup (taken c 0x0503 (leBytes 4 mask.toNat ++ leBytes 8 tick.toNat) s) v
        = Machine.tell (groupStart mask.toNat tick.toNat (tickNow s) v).1 (groupStart mask.toNat tick.toNat (tickNow s) v).2 := fun v => by
      simp only [runGroup, taken_params, taken_tick, tickNow_takenIn, hmask, htick]
    have hstart := groupStart_arms hidle hlow hhigh
    exact (hrun _).trans (congrArg (fun r => Machine.tell r.1 r.2) hstart)
  case load =>
    refine hostCompletes_run (by decide) (fun _ _ => rfl) (fun c s hgood => ?_) (fun _ _ _ => congrArg CmdState.inflight (scrubTouch_cmd _ _))
    have hcount : bs.length / 3 = count.toNat := by omega
    have hrun := runLoad_writes (s := s) (first := first) hlen hok hgood
    rw [writeTable, hcount] at hrun
    exact hrun
  case haltInactive => exact hostCompletes_same (by decide) (fun _ _ => rfl) (fun c s hgood => runHalt_inactive hgood)
  case loadActive => exact hostCompletes_same (by decide) (fun _ _ => rfl) (fun c s hgood => runLoad_active hgood)
  case halt =>
    refine hostLeads_of _ _ _ _ _ _ (fun c u => haltedPins c.target.toNat (askedHalt c.target.toNat (c.session.val, c.tag) u)) _
      (hostCompletes_noted (by decide) (fun _ _ => rfl) (fun c s hgood hin => ?_)
        (fun c u => congrArg CmdState.inflight (haltedPins_cmd _ _))) (fun c u t hgood hview => ?_)
    · obtain ⟨hst, hwait, hstall⟩ := hgood
      refine (congrArg (noteRan _) (runHalt_halts hst hwait hstall)).trans (noteRan_wait_complete ?_ rfl)
      exact (congrArg CmdState.inflight (haltedPins_cmd _ _)).trans hin
    · have hsame : ∀ k, engine t k = engine (haltedPins c.target.toNat (askedHalt c.target.toNat (c.session.val, c.tag) u)) k :=
        fun k => engine_of_engines (view_engines hview) k
      obtain ⟨outs, enables, heng⟩ := engine_haltedPins c.target.toNat (askedHalt c.target.toNat (c.session.val, c.tag) u)
      rw [askedHalt, engine_modEngine _ _ _ (fun hdef => Bool.noConfusion (congrArg Engine.haltPend hdef))] at heng
      rw [hsame, askedHalt, heng]
      refine ⟨rfl, rfl, rfl, rfl, rfl, fun k hk => ?_⟩
      rw [hsame, engine_haltedPins_other _ _ _ hk, askedHalt, engine_modEngine_other _ _ _ _ hk]
  case haltWaits => exact hostStands_wait (by decide) (fun _ _ => rfl) (fun c s hgood => runHalt_waits hgood) (fun _ _ => rfl)

end Sys2Proof.Proofs
end

section
/-! The fault commands (R410, R419, R420): FLT_CLEAR, FLT_INJECT and FLT_REACT_SET. -/

namespace Sys2Proof.Proofs

open Sys2Proof Sys2Proof.Machine Sys2Proof.Laws

section
variable {code : Nat} {u : State}

theorem fltClear_one (hall : code ≠ 0xFFFF) (hrow : (sourceRow code).isSome = true) :
    fltClear code u = match (faultSrc u code).st with
      | .idle => (.ok, u)
      | .active => (.denied, u)
      | .pending => (.ok, clearSource1 code u) := by
  have hsome : (sourceRow code).isNone = false := by
    cases hr : sourceRow code with
    | none => simp [hr] at hrow
    | some r => rfl
  exact (if_neg hall).trans (if_neg (by rw [hsome]; decide))

theorem fltClear_all : fltClear 0xFFFF u
    = (if sourceTable.any (fun r => (faultSrc (clearPending u) r.1).st == .active) then .denied else .ok, clearPending u) := rfl

theorem fltInject_denied {session : Nat} (h : fld u 0x110000 0 1 = 0 ∨ (faultSrc u code).injPend = true) :
    fltInject code session u = (.denied, u) := if_pos (.inr h)

/-- A source that an injection has armed (R420). -/
def armedInjection (code session : Nat) (u : State) : State :=
  bump 0x110208 (modSrc code (fun x => { x with injPend := true, injBy := session, injTick := u.time.up }) u)

theorem fltInject_armed {session : Nat} (hrow : (sourceRow code).isSome = true) (hen : fld u 0x110000 0 1 = 1)
    (hfree : (faultSrc u code).injPend = false) (hcoded : codedSource code = false) :
    fltInject code session u = (.ok, armedInjection code session u) := by
  have hsome : (sourceRow code).isNone = false := by
    cases hr : sourceRow code with
    | none => simp [hr] at hrow
    | some r => rfl
  have hok : ¬((sourceRow code).isNone = true ∨ fld u 0x110000 0 1 = 0 ∨ injectPending u code = true) := by
    simp [hsome, hen, injectPending, hfree]
  rw [fltInject, if_neg hok]
  dsimp only
  rw [if_neg (by rw [hcoded]; decide)]
  rfl

/-- An injection of the coded pass outside stage A acts in the next cycle (R299). -/
theorem fltInject_coded {session : Nat} (hrow : (sourceRow code).isSome = true) (hen : fld u 0x110000 0 1 = 1)
    (hfree : (faultSrc u code).injPend = false) (hcoded : codedSource code = true) (hphase : u.maps.phase ≠ .stageA) :
    fltInject code session u = (.ok, modMaps (fun m => { m with codedInject := m.codedInject ++ [(code, session)] })
      (armedInjection code session u)) := by
  have hsome : (sourceRow code).isNone = false := by
    cases hr : sourceRow code with
    | none => simp [hr] at hrow
    | some r => rfl
  have hok : ¬((sourceRow code).isNone = true ∨ fld u 0x110000 0 1 = 0 ∨ injectPending u code = true) := by
    simp [hsome, hen, injectPending, hfree]
  have hmaps : (armedInjection code session u).maps = u.maps := by simp [armedInjection]
  have hnow : ((armedInjection code session u).maps.phase == .stageA) = false := by rw [hmaps]; simpa using hphase
  rw [fltInject, if_neg hok]
  dsimp only
  rw [if_pos hcoded, show (bump 0x110208 (modSrc code (fun x => { x with injPend := true, injBy := session, injTick := u.time.up }) u))
    = armedInjection code session u from rfl, hnow]
  rfl

end

theorem readCode (code : BitVec 16) : rd (leBytes 2 code.toNat) 0 2 = code.toNat := by simpa using rd_leBytes_toNat 2 code [] (by decide)

/-- Clearing sources touches nothing of the command transport. -/
theorem clearPending_cmd (u : State) : (clearPending u).cmd = u.cmd := by
  refine foldl_keep State.cmd _ (fun v r => ?_) _ u
  split <;> rfl

section
variable {c : Ctx} {s : State}

theorem run_fltClear (code : BitVec 16) (u : State) : runPlain (taken c 0x0801 (leBytes 2 code.toNat) s) u
    = Machine.tell (fltClear code.toNat u).1 (fltClear code.toNat u).2 := by
  have hrun : runPlain (taken c 0x0801 (leBytes 2 code.toNat) s) u
      = Machine.tell (fltClear (rd (leBytes 2 code.toNat) 0 2) u).1 (fltClear (rd (leBytes 2 code.toNat) 0 2) u).2 := rfl
  rw [hrun, readCode]

theorem run_fltInject (code : BitVec 16) (u : State) : runPlain (taken c 0x0802 (leBytes 2 code.toNat) s) u
    = Machine.tell (fltInject code.toNat c.session.val u).1 (fltInject code.toNat c.session.val u).2 := by
  have hrun : runPlain (taken c 0x0802 (leBytes 2 code.toNat) s) u
      = Machine.tell (fltInject (rd (leBytes 2 code.toNat) 0 2) c.session.val u).1
        (fltInject (rd (leBytes 2 code.toNat) 0 2) c.session.val u).2 := rfl
  rw [hrun, readCode]

theorem run_fltReact (code : BitVec 16) (mask : Byte) (u : State) : runPlain (taken c 0x0803 (leBytes 2 code.toNat ++ [mask]) s) u
    = Machine.tell (fltReact code.toNat mask.toNat u).1 (fltReact code.toNat mask.toNat u).2 := by
  have hcode : rd (leBytes 2 code.toNat ++ [mask]) 0 2 = code.toNat := rd_leBytes_toNat 2 code _ (by decide)
  have hmask : rd (leBytes 2 code.toNat ++ [mask]) 2 1 = mask.toNat := by
    rw [rd_leBytes_skip _ _ _ _ _ (by decide)]
    simp [rd, slice, leVal]
  have hrun : runPlain (taken c 0x0803 (leBytes 2 code.toNat ++ [mask]) s) u
      = Machine.tell (fltReact (rd (leBytes 2 code.toNat ++ [mask]) 0 2) (rd (leBytes 2 code.toNat ++ [mask]) 2 1) u).1
        (fltReact (rd (leBytes 2 code.toNat ++ [mask]) 0 2) (rd (leBytes 2 code.toNat ++ [mask]) 2 1) u).2 := rfl
  rw [hrun, hcode, hmask]

end

/-- Settles O17: each command is told what its source's state, or the mask, allows. -/
theorem faultCommands : Obligations.FaultCommands := by
  unfold Obligations.FaultCommands
  refine ⟨fun code hall hrow => ⟨?pending, ?idle, ?active⟩, fun code hrow hcoded => ?inject,
    fun code hrow => ⟨fun hcoded => ?injectCoded, ?injectDenied⟩, fun st => ?clearAll, fun code mask => ⟨?react, ?reactDenied⟩⟩
  case pending =>
    refine hostCompletes_run (by decide) (fun _ _ => rfl) (fun c s hgood => ?_) (fun _ _ _ => rfl)
    rw [run_fltClear, fltClear_one hall hrow, hgood]
    rfl
  case idle =>
    refine hostCompletes_same (by decide) (fun _ _ => rfl) (fun c s hgood => ?_)
    rw [run_fltClear, fltClear_one hall hrow, hgood]
    rfl
  case active =>
    refine hostCompletes_same (by decide) (fun _ _ => rfl) (fun c s hgood => ?_)
    rw [run_fltClear, fltClear_one hall hrow, hgood]
    rfl
  case inject =>
    refine hostCompletes_run (by decide) (fun _ _ => rfl) (fun c s hgood => ?_) (fun _ _ _ => by simp)
    rw [run_fltInject, fltInject_armed hrow hgood.1 hgood.2 hcoded]
    rfl
  case injectCoded =>
    refine hostCompletes_run (by decide) (fun _ _ => rfl) (fun c s hgood => ?_) (fun _ _ _ => by simp)
    rw [run_fltInject, fltInject_coded hrow hgood.1 hgood.2.1 hcoded hgood.2.2]
    rfl
  case injectDenied =>
    refine hostCompletes_same (by decide) (fun _ _ => rfl) (fun c s hgood => ?_)
    rw [run_fltInject, fltInject_denied hgood]
    rfl
  case clearAll =>
    refine hostCompletes_run (eff := fun _ u => clearPending u) (by decide) (fun _ _ => rfl) (fun c s hgood => ?_) (fun _ u _ => ?_)
    case refine_2 => exact congrArg CmdState.inflight (clearPending_cmd u)
    have hrun := run_fltClear (c := c) (s := s) 0xFFFF (takenIn c 0x0801 (leBytes 2 0xFFFF) s)
    rw [show (0xFFFF : BitVec 16).toNat = 0xFFFF by rfl, fltClear_all] at hrun
    dsimp only [Machine.tell] at hrun
    rw [← hgood] at hrun
    exact hrun
  case react =>
    refine hostCompletes_run (by decide) (fun _ _ => rfl) (fun c s hgood => ?_) (fun _ _ _ => by simp)
    rw [run_fltReact, fltReact, if_pos hgood]
    rfl
  case reactDenied =>
    refine hostCompletes_same (by decide) (fun _ _ => rfl) (fun c s hgood => ?_)
    rw [run_fltReact, fltReact, if_neg (by rw [hgood]; decide)]
    rfl

end Sys2Proof.Proofs
end

section
/-! Update and tag commands (R428 to R434, R441, R442). -/

namespace Sys2Proof.Proofs

open Sys2Proof Sys2Proof.Machine Sys2Proof.Laws

/-! ## Components -/

theorem setAt_eq_set {α : Type} (l : List α) (i : Nat) (v : α) : setAt l i v = l.set i v := by
  induction l generalizing i with
  | nil => rfl
  | cons x t ih =>
    cases i with
    | zero => rfl
    | succ i => exact congrArg (x :: ·) (ih i)

theorem comp_modComp {u : State} {k : Nat} (hk : k < u.upd.comps.length) (f : FwComp → FwComp) :
    comp (modComp k f u) k = f (comp u k) := by
  simp [comp, modComp, modUpd, setAt_eq_set, hk]

@[simp] theorem othSlot_setOth (v : FwSlot) (x : FwComp) : othSlot (setOth v x) = v := by
  cases h : x.active <;> simp [othSlot, setOth, h]

@[simp] theorem actSlot_setOth (v : FwSlot) (x : FwComp) : actSlot (setOth v x) = actSlot x := by
  cases h : x.active <;> simp [actSlot, setOth, h]

theorem comp_modComp_other {u : State} {k j : Nat} (h : j ≠ k) (f : FwComp → FwComp) : comp (modComp k f u) j = comp u j := by
  simp [comp, modComp, modUpd, setAt_eq_set, Ne.symm h]

/-- Which headers fit a component depends on the active images of the others alone. -/
theorem compatible_modComp (u : State) (k : Nat) (f : FwComp → FwComp) (hdr : List Byte) :
    compatible (modComp k f u) k hdr = compatible u k hdr := by
  have hall : ∀ j, (j == k || (inWindow hdr j (slotVersion (actSlot (comp (modComp k f u) j)))
      && inWindow (actSlot (comp (modComp k f u) j)).bytes k (rd hdr 8 4)))
      = (j == k || (inWindow hdr j (slotVersion (actSlot (comp u j))) && inWindow (actSlot (comp u j)).bytes k (rd hdr 8 4))) := by
    intro j
    by_cases hj : j = k
    · simp [hj]
    · rw [comp_modComp_other hj]
  simp only [compatible, hall]

theorem ownedByOther_owner {u : State} {session : Nat} {p : Path} (h : u.upd.owner = some (session, p)) :
    ownedByOther u session = false := by
  simp [ownedByOther, ownerNo, h]

/-! ## Tags -/

section
variable {c : Ctx} {s : State}

theorem run_tagWrite (r : Byte) (content : List Byte) (u : State) :
    runPlain (taken c 0x0A02 ([r] ++ leBytes 3 0 ++ content) s) u
      = Machine.tell (tagWrite r.toNat content u).1 (tagWrite r.toNat content u).2 := by
  have hrecord : rd ([r] ++ leBytes 3 0 ++ content) 0 1 = r.toNat := by simp [rd, slice, leVal]
  have hcontent : ([r] ++ leBytes 3 0 ++ content).drop 4 = content := by simp [leBytes]
  have hrun : runPlain (taken c 0x0A02 ([r] ++ leBytes 3 0 ++ content) s) u
      = Machine.tell (tagWrite (rd ([r] ++ leBytes 3 0 ++ content) 0 1) (([r] ++ leBytes 3 0 ++ content).drop 4) u).1
        (tagWrite (rd ([r] ++ leBytes 3 0 ++ content) 0 1) (([r] ++ leBytes 3 0 ++ content).drop 4) u).2 := rfl
  rw [hrun, hrecord, hcontent]

theorem tagPutAll_cmd (off : Nat) (bs : List Byte) (u : State) : (tagPutAll off bs u).cmd = u.cmd :=
  foldl_keep State.cmd _ (fun _ _ => by rfl) _ u

theorem tagStore_cmd (off : Nat) (bs : List Byte) (u : State) : (tagStore off bs u).cmd = u.cmd := by
  rw [tagStore, bump_cmd, tagPutAll_cmd, tagPutAll_cmd]

theorem run_tagLock (r : Byte) (u : State) :
    runPlain (taken c 0x0A03 [r] s) u = Machine.tell (tagLock r.toNat u).1 (tagLock r.toNat u).2 := by
  have hrecord : rd [r] 0 1 = r.toNat := by simp [rd, slice, leVal]
  have hrun : runPlain (taken c 0x0A03 [r] s) u = Machine.tell (tagLock (rd [r] 0 1) u).1 (tagLock (rd [r] 0 1) u).2 := rfl
  rw [hrun, hrecord]

/-! ## Blocks of an image -/

/-- The block that follows what a transfer of the owner holds is appended (R429). -/
theorem takeBlock_next {u : State} {k off len session : Nat} {data : List Byte} {path p : Path} (howner : u.upd.owner = some (session, p))
    (hrecv : u.upd.recv = some (k, len)) (hcount : u.upd.recvCount = off) (hoff : off ≠ 0) (hfit : off + data.length ≤ len) :
    takeBlock k off data session path u = (.ok, leBytes 4 ((heldBytes u k).length + data.length),
      putBytes k len (heldBytes u k ++ data) (modUpd (fun x => { x with lastBlockUp := u.time.up }) u)) := by
  have hheld : heldBytes (modUpd (fun x => { x with lastBlockUp := u.time.up }) u) k = heldBytes u k := rfl
  have hnext : nextBlock k off data (modUpd (fun x => { x with lastBlockUp := u.time.up }) u)
      = (.ok, putBytes k len (heldBytes u k ++ data) (modUpd (fun x => { x with lastBlockUp := u.time.up }) u)) := by
    simp [nextBlock, hrecv, hcount, hheld, Nat.not_lt.mpr hfit]
  have hreceived : ∀ (v : State) (bs : List Byte), (putBytes k len bs v).upd.recvCount = bs.length := by
    intro v bs
    unfold putBytes
    dsimp only
    split <;> simp [modUpd, modComp]
  simp [takeBlock, ownedByOther_owner howner, howner, hoff, hnext, hreceived]

theorem putBytes_cmd (k len : Nat) (bs : List Byte) (u : State) : (putBytes k len bs u).cmd = u.cmd := by
  unfold putBytes
  dsimp only
  split <;> simp [modComp]

/-! ## The end of an ownership, and a fall-back -/

theorem endOwner_idle {u : State} (h : u.upd.recv = none) :
    endOwner u = modUpd (fun x => { x with owner := none, recv := none, recvCount := 0 }) u := by
  simp [endOwner, h]

theorem endOwner_cmd (u : State) : (endOwner u).cmd = u.cmd := by
  obtain ⟨upd, h⟩ := endOwner_frame u
  rw [h]

theorem fallAndRestart_cmd (u : State) : (fallAndRestart u).cmd = u.cmd := by
  have hexchange : ∀ v : State, (if v.upd.lehrSt = .kept then exchangeCfg .valid v else v).cmd = v.cmd := by
    intro v
    split <;> rfl
  unfold fallAndRestart fallBack
  cases h : u.upd.trial with
  | none => rfl
  | some t => exact (endOwner_cmd _).trans (hexchange _)

/-! ## Commit -/

section
variable {k : Nat} {key : List Byte} {session : Nat} {p : Path} {u : State}

/-- An owner may commit an image that stands whole, while no trial runs (R431). -/
structure MayCommit (u : State) (k session : Nat) (p : Path) (key : List Byte) : Prop where
  comp : k ≤ 3
  owner : u.upd.owner = some (session, p)
  whole : (othSlot (Machine.comp u k)).st = .complete
  ident : u.upd.idBad = false
  trial : u.upd.trial = none
  key : signKey u (rd (othSlot (Machine.comp u k)).bytes 6 1) = some key

/-- Whether the signature of the image in the inactive slot of a component verifies (log entry 4). -/
def imageSigned (u : State) (k : Nat) (key : List Byte) : Bool :=
  Config.signatureGood key ((othSlot (comp u k)).bytes.take 64
    ++ slice (othSlot (comp u k)).bytes 128 (rd (othSlot (comp u k)).bytes 12 4 - 128)) (slice (othSlot (comp u k)).bytes 64 64)

/-- The image of the inactive slot marked as bad, and counted (R431). -/
def badImage (k : Nat) (u : State) : State := bump 0x120104 (modComp k (setOth { othSlot (comp u k) with st := .bad }) u)

theorem updCommit_unsigned (h : MayCommit u k session p key) (hsign : imageSigned u k key = false) :
    updCommit k session u = (.denied, [], badImage k u) := by
  obtain ⟨hk, howner, hwhole, hident, htrial, hkey⟩ := h
  have hmay : ¬(k > 3 ∨ u.upd.owner.isNone = true ∨ (othSlot (comp u k)).st ≠ .complete ∨ u.upd.idBad = true ∨ u.upd.trial.isSome = true) := by
    simp [hk, howner, hwhole, hident, htrial]
  rw [updCommit, if_neg (by rw [ownedByOther_owner howner]; decide)]
  dsimp only
  rw [if_neg hmay, hkey]
  dsimp only
  rw [if_pos (by rw [Bool.not_eq_true']; exact hsign)]
  rfl

/-- The image of the inactive slot on trial, its component about to start (R431, R433). -/
def onTrial (k : Nat) (u : State) : State :=
  let slot := { othSlot (comp u k) with crc := BitVec.ofNat 32 (crc32c (othSlot (comp u k)).bytes) }
  let v := modComp k (setOth { slot with st := .trial }) (modComp k (setOth slot) u)
  scheduleStart k (modUpd (fun x => { x with
    trial := some (k, v.time.up + bits (csr v 0x120000) 0 17 * 2000000), recv := none, recvCount := 0 }) v)

theorem comp_onTrial (hk : k < u.upd.comps.length) : comp (onTrial k u) k
    = setOth { othSlot (comp u k) with crc := BitVec.ofNat 32 (crc32c (othSlot (comp u k)).bytes), st := .trial } (comp u k) := by
  let slot : FwSlot := { othSlot (comp u k) with crc := BitVec.ofNat 32 (crc32c (othSlot (comp u k)).bytes) }
  have hlen : k < (modComp k (setOth slot) u).upd.comps.length := by simpa [modComp, modUpd, setAt_eq_set] using hk
  have htwice : ∀ x : FwComp, setOth { slot with st := .trial } (setOth slot x) = setOth { slot with st := .trial } x := by
    intro x
    cases h : x.active <;> simp [setOth, h]
  calc comp (onTrial k u) k = comp (modComp k (setOth { slot with st := .trial }) (modComp k (setOth slot) u)) k := rfl
    _ = setOth { slot with st := .trial } (setOth slot (comp u k)) := by rw [comp_modComp hlen, comp_modComp hk]
    _ = _ := htwice _

theorem updCommit_trial (h : MayCommit u k session p key) (hsign : imageSigned u k key = true)
    (hfit : compatible u k (othSlot (comp u k)).bytes = true)
    (hformat : k = 2 → readsFormat (othSlot (comp u k)) (imgFormat u.upd.active) = true) :
    updCommit k session u = (.ok, [], onTrial k u) := by
  obtain ⟨hk, howner, hwhole, hident, htrial, hkey⟩ := h
  have hmay : ¬(k > 3 ∨ u.upd.owner.isNone = true ∨ (othSlot (comp u k)).st ≠ .complete ∨ u.upd.idBad = true ∨ u.upd.trial.isSome = true) := by
    simp [hk, howner, hwhole, hident, htrial]
  let slot : FwSlot := { othSlot (comp u k) with crc := BitVec.ofNat 32 (crc32c (othSlot (comp u k)).bytes) }
  have hserved : k = 2 → formatServed (modComp k (setOth slot) u) slot = true := by
    intro hs
    have hread : readsFormat slot (imgFormat (modComp k (setOth slot) u).upd.active) = true := hformat hs
    rw [formatServed, hread, Bool.true_or]
  have hgood : ¬((!compatible (modComp k (setOth slot) u) k slot.bytes) = true
      ∨ (k = 2 ∧ (!formatServed (modComp k (setOth slot) u) slot) = true)) := by
    rintro (hbad | ⟨hs, hbad⟩)
    · rw [compatible_modComp, Bool.not_eq_true'] at hbad
      exact Bool.false_ne_true (hbad.symm.trans hfit)
    · rw [hserved hs] at hbad
      exact Bool.false_ne_true hbad
  rw [updCommit, if_neg (by rw [ownedByOther_owner howner]; decide)]
  dsimp only
  rw [if_neg hmay, hkey]
  dsimp only
  rw [if_neg (by rw [Bool.not_eq_true', Bool.not_eq_false]; exact hsign), if_neg hgood]
  rfl

end

/-- A commit that takes its image in: its reply is followed by the event of the update, which leaves the update state but for the
instant at which the component starts (R431). -/
theorem commit_answers {params : List Byte} {u : State} {res : List Byte} (hidle : Idle s) (ha : accepts c 0x0901 params s = true)
    (hr : runOne (taken c 0x0901 params s) (takenIn c 0x0901 params s) = noteRan (taken c 0x0901 params s) (.done .ok res u))
    (hu : u.cmd.inflight = [taken c 0x0901 params s]) :
    ∃ t, commit s (hostCommand c 0x0901 params s) = .next t ∧ Answered c 0x0901 .ok res t ∧ ∃ d, t.upd = { u.upd with start := d } := by
  rw [hostCommand_accepted s c 0x0901 params ha]
  have hsettle := settle_one (takenIn c 0x0901 params s) (taken c 0x0901 params s) (takenIn_inflight s c 0x0901 params hidle) rfl
    hidle.2.2 hidle.2.1
  have hready := setCmd_one (taken c 0x0901 params s) (fun x => { x with phase := .ready .ok res, effected := true }) u hu rfl
  rw [hr] at hsettle
  have hanswered := settled_ready c 0x0901 params s _ _ .ok res hsettle hready
  refine ⟨goOn s (takenIn c 0x0901 params s), commit_goOn _ _, answered_goOn _ _ _ _ _ _ hanswered.1, ?_⟩
  let x : Cmd := { taken c 0x0901 params s with phase := .ready .ok res, effected := true }
  let v := setCmd (taken c 0x0901 params s) (fun y => { y with phase := .ready .ok res, effected := true }) u
  let w := modCmd (fun q => { q with inflight := [] }) v
  obtain ⟨d, hd⟩ := afterReply_upd x .ok (sendAnswer x .ok res w)
  refine ⟨d, ?_⟩
  calc (goOn s (takenIn c 0x0901 params s)).upd = (settle (takenIn c 0x0901 params s)).upd := view_upd (hubView_goOn _ _)
    _ = (drainPaths (sweeps 1 v)).upd := by rw [hsettle]; rfl
    _ = (sweeps 1 v).upd := view_upd (drained_drainPaths _).view
    _ = (answer x w).upd := by rw [sweeps_ready v x 1 .ok res hready c.session.isLt rfl rfl]
    _ = { (sendAnswer x .ok res w).upd with start := d } := by rw [answer_eq x w .ok res c.session.isLt rfl, hd]
    _ = { u.upd with start := d } := by rw [view_upd (sendAnswer_host x w .ok res rfl rfl).1]; rfl

/-- The fields of a component's slots depend on the update state alone. -/
theorem comp_of_upd {t u : State} (h : t.upd.comps = u.upd.comps) (k : Nat) : comp t k = comp u k := by rw [comp, comp, h]

/-! ## Confirmation -/

/-- The component whose trial image is confirmed: that image is the active one. -/
def confirmedComp (x : FwComp) : FwComp :=
  let x := if (othSlot x).st = .trial then { x with active := !x.active } else x
  setAct { actSlot x with st := .valid } x

theorem confirmedComp_slots {x : FwComp} (h : (othSlot x).st = .trial) : actSlot (confirmedComp x) = { othSlot x with st := .valid }
    ∧ othSlot (confirmedComp x) = actSlot x := by
  simp only [confirmedComp, if_pos h]
  cases hx : x.active <;> simp [actSlot, othSlot, setAct, hx]

/-- The update state behind a confirmation of component `k`. -/
def confirmedUpd (k : Nat) (u : State) : State :=
  (fun v => if v.upd.lehrSt = .kept then modUpd (fun x => { x with lehr := [], lehrSt := .empty }) v else v) (modComp k confirmedComp u)

theorem comp_confirmedUpd {k : Nat} {u : State} (hk : k < u.upd.comps.length) : comp (confirmedUpd k u) k = confirmedComp (comp u k) := by
  refine Eq.trans ?_ (comp_modComp hk confirmedComp)
  unfold confirmedUpd
  dsimp only
  split <;> rfl

theorem lehrSt_confirmedUpd (k : Nat) (u : State) :
    (confirmedUpd k u).upd.lehrSt = if u.upd.lehrSt = .kept then .empty else u.upd.lehrSt := by
  have hsame : (modComp k confirmedComp u).upd.lehrSt = u.upd.lehrSt := rfl
  unfold confirmedUpd
  dsimp only
  rw [hsame]
  split
  · rfl
  · exact hsame

theorem updConfirm_trial {k due : Nat} {u : State} (htrial : u.upd.trial = some (k, due)) : updConfirm k u
    = (.ok, updateEvent k 1 (bump 0x120108 (endOwner (modUpd (fun x => { x with trial := none }) (confirmedUpd k u))))) := by
  rw [updConfirm, htrial]
  dsimp only
  rw [if_neg (by simp)]
  rfl

theorem emit_upd (code : Nat) (params : List Byte) (u : State) : (emit code params u).upd = u.upd := bumpBy_upd _ _ _

theorem emit_inflight (code : Nat) (params : List Byte) (u : State) : (emit code params u).cmd.inflight = u.cmd.inflight := by
  unfold emit
  simp

theorem updConfirm_upd {k due : Nat} {u : State} (htrial : u.upd.trial = some (k, due)) (hrecv : u.upd.recv = none) :
    (updConfirm k u).2.upd = { (confirmedUpd k u).upd with trial := none, owner := none, recv := none, recvCount := 0 } := by
  have hidle : (modUpd (fun x => { x with trial := none }) (confirmedUpd k u)).upd.recv = none := by
    unfold confirmedUpd
    dsimp only
    split <;> exact hrecv
  rw [updConfirm_trial htrial, endOwner_idle hidle]
  exact (emit_upd _ _ _).trans (bump_upd _ _)

theorem updConfirm_inflight {k due : Nat} {u : State} (htrial : u.upd.trial = some (k, due)) :
    (updConfirm k u).2.cmd.inflight = u.cmd.inflight := by
  have hupdate : (confirmedUpd k u).cmd = u.cmd := by
    unfold confirmedUpd
    dsimp only
    split <;> rfl
  rw [updConfirm_trial htrial]
  refine (emit_inflight _ _ _).trans (congrArg CmdState.inflight ?_)
  rw [bump_cmd, endOwner_cmd]
  exact hupdate

theorem run_updConfirm (k : Byte) (u : State) :
    runPlain (taken c 0x0902 [k] s) u = Machine.tell (updConfirm k.toNat u).1 (updConfirm k.toNat u).2 := by
  have hcomp : rd [k] 0 1 = k.toNat := by simp [rd, slice, leVal]
  have hrun : runPlain (taken c 0x0902 [k] s) u = Machine.tell (updConfirm (rd [k] 0 1) u).1 (updConfirm (rd [k] 0 1) u).2 := rfl
  rw [hrun, hcomp]

theorem run_updAbort (u : State) : runPlain (taken c 0x0903 [] s) u
    = .done (updAbort c.session.val u).1 (updAbort c.session.val u).2.1 (updAbort c.session.val u).2.2 := by
  simp only [runPlain, taken_opcode, runBoard, taken_session, if_neg (show ¬0x0903 < 0x0200 by decide), if_neg (show ¬0x0903 < 0x0600 by decide)]

theorem runNow_updCommit (k : Byte) (ha : accepts c 0x0901 [k] s = true) : runNow (taken c 0x0901 [k] s) (takenIn c 0x0901 [k] s)
    = .done (updCommit k.toNat c.session.val (takenIn c 0x0901 [k] s)).1 (updCommit k.toNat c.session.val (takenIn c 0x0901 [k] s)).2.1
      (updCommit k.toNat c.session.val (takenIn c 0x0901 [k] s)).2.2 := by
  have hcomp : rd [k] 0 1 = k.toNat := by simp [rd, slice, leVal]
  rw [runNow_untargeted _ _ (show untargeted 0x0901 = true by decide) (accepts_unlocked s c _ _ ha (by decide))]
  have hrun : ∀ u, runBoard (taken c 0x0901 [k] s) u = .done (updCommit (rd [k] 0 1) c.session.val u).1
      (updCommit (rd [k] 0 1) c.session.val u).2.1 (updCommit (rd [k] 0 1) c.session.val u).2.2 := fun _ => rfl
  refine (if_neg (by simp)).trans ((if_neg (by simp)).trans ?_)
  rw [hrun, hcomp]

theorem run_updBlock {k : Byte} {off : Word} (data : List Byte) (hk : k.toNat ≤ 3) (u : State) :
    runPlain (taken c 0x0900 ([k, 0] ++ leBytes 2 0 ++ leBytes 4 off.toNat ++ data) s) u
      = .done (takeBlock k.toNat off.toNat data c.session.val c.path u).1 (takeBlock k.toNat off.toNat data c.session.val c.path u).2.1
        (takeBlock k.toNat off.toNat data c.session.val c.path u).2.2 := by
  have hcomp : rd ([k, 0] ++ leBytes 2 0 ++ leBytes 4 off.toNat ++ data) 0 1 = k.toNat := by simp [rd, slice, leVal]
  have hoff : rd ([k, 0] ++ leBytes 2 0 ++ leBytes 4 off.toNat ++ data) 4 4 = off.toNat := by
    have hhead : [k, 0] ++ leBytes 2 0 ++ leBytes 4 off.toNat ++ data = k :: 0 :: 0 :: 0 :: (leBytes 4 off.toNat ++ data) := rfl
    rw [hhead]
    exact rd_leBytes_toNat 4 off data (by decide)
  have hdata : ([k, 0] ++ leBytes 2 0 ++ leBytes 4 off.toNat ++ data).drop 8 = data := List.drop_left' (by simp)
  have hrun : ∀ params, runPlain (taken c 0x0900 params s) u = if rd params 0 1 > 3 then Machine.tell .denied u
      else if rd params 0 1 > 4 then Machine.tell .denied u
      else .done (takeBlock (rd params 0 1) (rd params 4 4) (params.drop 8) c.session.val c.path u).1
        (takeBlock (rd params 0 1) (rd params 4 4) (params.drop 8) c.session.val c.path u).2.1
        (takeBlock (rd params 0 1) (rd params 4 4) (params.drop 8) c.session.val c.path u).2.2 := fun _ => rfl
  rw [hrun, hcomp, hoff, hdata, if_neg (by omega), if_neg (by omega)]

end

/-- Settles O18: tags by their locks, blocks, commits and confirmations by the owner and the trial. -/
theorem updateCommands : Obligations.UpdateCommands := by
  unfold Obligations.UpdateCommands
  refine ⟨⟨fun r content hr => ⟨?write, ?writeLocked⟩, fun r hr => ⟨?lock, ?lockAgain⟩⟩, fun k off data len hk hoff => ?block,
    fun k key hk => ?commitBad, fun k key hk => ?commit, fun k due hk => ?confirm, ?confirmNone, ?abort, ?abortTrial⟩
  case write =>
    refine hostCompletes_run (by decide) (fun _ _ => rfl) (fun c s hgood => ?_) (fun _ u _ => ?_)
    · rw [run_tagWrite, tagWrite, if_neg fun h => h.elim (fun h => by omega) fun h => Bool.false_ne_true (hgood.symm.trans h)]
      rfl
    · exact congrArg CmdState.inflight (tagStore_cmd _ _ u)
  case writeLocked =>
    refine hostCompletes_same (by decide) (fun _ _ => rfl) (fun c s hgood => ?_)
    rw [run_tagWrite, tagWrite, if_pos (.inr hgood)]
    rfl
  case lock =>
    refine hostCompletes_run (by decide) (fun _ _ => rfl) (fun c s hgood => ?_) (fun _ _ _ => rfl)
    rw [run_tagLock, tagLock, if_neg (by omega), if_neg (by simp [tagLocked, hgood.1]), if_neg (by simp [hgood.2])]
    rfl
  case lockAgain =>
    refine hostCompletes_same (by decide) (fun _ _ => rfl) (fun c s hgood => ?_)
    rw [run_tagLock, tagLock, if_neg (by omega), if_pos (show tagLocked _ _ = true from hgood)]
    rfl
  case block =>
    refine hostCompletes_run (by decide) (fun _ _ => rfl) (fun c s hgood => ?_) (fun _ u _ => congrArg CmdState.inflight (putBytes_cmd _ _ _ _))
    obtain ⟨⟨p, howner⟩, hrecv, hcount, hfit⟩ := hgood
    have hne : off.toNat ≠ 0 := fun h => hoff (BitVec.eq_of_toNat_eq h)
    rw [run_updBlock data hk, takeBlock_next howner hrecv hcount hne hfit]
  case commitBad =>
    intro c s hidle heffc ha ⟨⟨p, howner⟩, hwhole, hcomps, hident, htrial, hkey, hsign⟩
    have hcommit := updCommit_unsigned ⟨hk, howner, hwhole, hident, htrial, hkey⟩ hsign
    have hrun : runOne (taken c 0x0901 [k] s) (takenIn c 0x0901 [k] s) = noteRan (taken c 0x0901 [k] s) (.done .denied [] (badImage k.toNat (takenIn c 0x0901 [k] s))) := by
      rw [runOne_now _ _ rfl heffc (show actsNow 0x0901 = true by decide), runNow_updCommit k ha, hcommit]
    obtain ⟨t, hnext, hanswered, hview⟩ := host_done c 0x0901 [k] s _ .denied [] hidle (.inr (by decide)) ha hrun
      ((congrArg CmdState.inflight (bump_cmd _ _)).trans (takenIn_inflight s c 0x0901 [k] hidle))
    have hupd := (view_upd hview).trans (bump_upd _ _)
    have hcomp := (comp_of_upd (congrArg UpdState.comps hupd) k.toNat).trans (comp_modComp (by omega) _)
    refine ⟨t, hnext, hanswered, ?_, ?_, ?_, ?_⟩
    · rw [hcomp, othSlot_setOth]
    · rw [hcomp, actSlot_setOth]
    · rw [hupd]; exact htrial
    · rw [hupd]; rfl
  case commit =>
    intro c s hidle heffc ha ⟨⟨p, howner⟩, hwhole, hcomps, hident, htrial, hkey, hsign, hfit, hformat⟩
    have hcommit := updCommit_trial ⟨hk, howner, hwhole, hident, htrial, hkey⟩ hsign hfit hformat
    have hrun : runOne (taken c 0x0901 [k] s) (takenIn c 0x0901 [k] s)
        = noteRan (taken c 0x0901 [k] s) (.done .ok [] (onTrial k.toNat (takenIn c 0x0901 [k] s))) := by
      rw [runOne_now _ _ rfl heffc (show actsNow 0x0901 = true by decide), runNow_updCommit k ha, hcommit]
    obtain ⟨t, hnext, hanswered, d, hupd⟩ := commit_answers hidle ha hrun (takenIn_inflight s c 0x0901 [k] hidle)
    have hcomp := (comp_of_upd (u := onTrial k.toNat (takenIn c 0x0901 [k] s)) (by rw [hupd]) k.toNat).trans (comp_onTrial (by omega))
    refine ⟨t, hnext, hanswered, ?_, ?_, ?_, ?_⟩
    · rw [hcomp, othSlot_setOth]
    · rw [hcomp, othSlot_setOth]
    · rw [hcomp, actSlot_setOth]
    · rw [hupd]; rfl
  case confirm =>
    refine hostLeads_of _ _ _ _ _ _ (fun _ u => (updConfirm k.toNat u).2) _ (hostCompletes_run (by decide) (fun _ _ => rfl)
      (fun c s hgood => ?_) (fun _ u hgood => updConfirm_inflight hgood.1)) (fun c u t hgood hview => ?_)
    · rw [run_updConfirm]
      exact congrArg (fun st => Ran.done st [] _) (congrArg Prod.fst (updConfirm_trial hgood.1))
    · obtain ⟨htrial, hcomps, hslot, hrecv⟩ := hgood
      have hupd := (view_upd hview).trans (updConfirm_upd htrial hrecv)
      have hcomp : comp t k.toNat = confirmedComp (comp u k.toNat) :=
        (comp_of_upd (u := confirmedUpd k.toNat u) (by rw [hupd]) k.toNat).trans (comp_confirmedUpd (by omega))
      obtain ⟨hact, hoth⟩ := confirmedComp_slots hslot
      refine ⟨by rw [hupd], by rw [hupd], by rw [hcomp, hact], by rw [hcomp, hact], by rw [hcomp, hoth], fun h => ?_, fun h => ?_⟩
      · rw [hupd]
        exact (lehrSt_confirmedUpd _ _).trans (if_pos h)
      · rw [hupd]
        exact (lehrSt_confirmedUpd _ _).trans (if_neg h)
  case confirmNone =>
    refine hostCompletes_same (by decide) (fun _ _ => rfl) (fun c s hgood => ?_)
    exact (run_updConfirm 0 _).trans (by rw [updConfirm, hgood]; rfl)
  case abort =>
    refine hostCompletes_run (by decide) (fun _ _ => rfl) (fun c s hgood => ?_) (fun _ _ _ => rfl)
    obtain ⟨⟨p, howner⟩, htrial, hrecv⟩ := hgood
    rw [run_updAbort, updAbort, if_neg (by simp [ownedByOther_owner howner]), if_neg (by simp [howner]), if_neg (by simp [htrial]),
      endOwner_idle hrecv]
  case abortTrial =>
    refine hostCompletes_run (by decide) (fun _ _ => rfl) (fun c s hgood => ?_)
      (fun _ u _ => congrArg CmdState.inflight (fallAndRestart_cmd u))
    obtain ⟨⟨p, howner⟩, htrial⟩ := hgood
    rw [run_updAbort, updAbort, if_neg (by simp [ownedByOther_owner howner]), if_neg (by simp [howner]), if_pos htrial]

end Sys2Proof.Proofs
end

section
/-! SPAN_ADMIN (R74): a frame of this hub's own that the wrap finds returned answers the command itself with LOST. -/

namespace Sys2Proof.Proofs

open Sys2Proof Sys2Proof.Machine Sys2Proof.Laws

/-- The first bytes of a command packet of session 1 with tag 0, whose header CRC holds (R33). -/
def ownHead : List Byte :=
  [0x40, 0, 0x02, 0x0B, 1, 0, 0, 0, 0, 0, 0, 0, 0, 0] ++ leBytes 2 (crc16 [0x40, 0, 0x02, 0x0B, 1, 0, 0, 0, 0, 0, 0, 0, 0, 0])

/-- A frame that this hub, node 3, sent and that returned to it on its detour, in the EAST queue; it carries such a packet. -/
def returnedFrame : Frame :=
  { cls := 1, dst := 5, src := 3, first := true, last := true, replay := false, twin := false, seq := 0, gen := 0, mgroup := 0, ccw := true
    wrapped := true, hops := 1, stampId := 0, frag := 0, cycle := 0, payload := ownHead, ingress := .west, rxTime := 0, rxTick := 0
    bankPrev := false, bankNode := 3, member := false, cells := [], cut := false, poison := false, eligible := true, arriving := none
    head := [], frees := none }

/-- A hub in RUN with both spans UP, one open session, and that frame queued. -/
def hubOfReturnedFrame : State := { State.reset with
  hub := .run, reset_ := { bootStep := 8 }
  ring := { State.reset.ring with east := { span := .up }, west := { span := .up } }
  sw := { queues := [(qKey .east 1, [returnedFrame])] }
  cmd := { sessions := [{ num := 1, nonce := 1, path := .maint, rev := 4, window := 8, lease := 0, expected := 0, lastUp := 0, mask := 0, evSeq := 0
                          events := [], lossPend := false, suspended := false, abortedCount := 0, firstAborted := 0 }] } }

/-- That session's host, which takes the EAST span down. -/
def spanAdminCtx : Ctx := { path := .maint, session := 1, tag := 0, flags := 0, target := 0, effc := none, part := 0 }

theorem newestStatus_spanAdmin : newestStatus (exec (.spanAdmin spanAdminCtx 0) hubOfReturnedFrame) = some .lost := by decide +kernel

/-- No replay copy and no frame being received bears the command; what is queued is not asked. -/
theorem notOnTheRing_returned : NotOnTheRing spanAdminCtx (takenIn spanAdminCtx 0x0B02 [0] hubOfReturnedFrame) := by
  refine ⟨fun x hx => absurd hx (List.not_mem_nil), fun p a ha => ?_⟩
  cases p <;> exact nomatch (show none = some a from ha)

/-- Refutes O19: as EAST leaves UP its queue moves, and a frame there that has come back to this hub completes what its packet names with
LOST (R82, R129); a packet that bears this command's session and tag so ends SPAN_ADMIN with LOST, not with OK. `NotOnTheRing` asks of
replay copies and of frames being received, not of queued ones. -/
theorem not_ringCommands : ¬ Obligations.RingCommands := by
  unfold Obligations.RingCommands
  intro h
  obtain ⟨t, hnext, ⟨-, r, hlast, -, -, -, hok, -⟩, -⟩ := h.1 spanAdminCtx hubOfReturnedFrame ⟨rfl, rfl, rfl⟩ rfl (by decide +kernel)
    notOnTheRing_returned
  have hlost := newestStatus_spanAdmin
  rw [hnext, newestStatus, hlast, Option.map_some, hok] at hlost
  exact absurd hlost (by decide)

end Sys2Proof.Proofs
end

section
/-! Commands held to a cycle, and the timers of parts, leases and suspensions (R44, R45, R51 to R53, R375). -/

namespace Sys2Proof.Proofs

open Sys2Proof Sys2Proof.Machine Sys2Proof.Laws

/-- A command whose own effect is known. -/
theorem effectIs_eq {s u v : State} (h : u = v) : EffectIs (commit s u) s (· = v) := ⟨u, commit_goOn s u, h⟩

/-! ## The one command in flight -/

section
variable {s : State} {x : Cmd}

/-- Setting the command in flight to what it is changes nothing. -/
theorem modCmd_inflight_same {l : List Cmd} (h : s.cmd.inflight = l) : modCmd (fun q => { q with inflight := l }) s = s := by
  subst h
  rfl

theorem setCmd_alone {f : Cmd → Cmd} (hin : s.cmd.inflight = [x]) (hx : isReady x = false) :
    setCmd x f s = modCmd (fun q => { q with inflight := [f x] }) s := by
  simp [setCmd, modCmd, hin, hx, sameCmd]

theorem nextDue_alone (hin : s.cmd.inflight = [x]) : nextDue s = (heldDue s [] x).map (fun r => (x, r)) := by
  cases h : heldDue s [] x <;> simp [nextDue, hin, cmdPrefixes, h]

theorem farEffected_held {k : Nat} {res : List Byte} (hin : s.cmd.inflight = [x]) (hx : x.phase = .heldUntil k res) : farEffected s = s := by
  refine Eq.trans ?_ (modCmd_inflight_same hin)
  simp [farEffected, modCmd, hin, hx]

/-- Behind a boundary at which no level change waits, or one runs, nothing of that kind begins (R374). -/
theorem plResume_same (h : s.power.plCmds = [] ∨ s.power.plTarget.isSome = true) : plResume s = s := by
  unfold plResume
  split
  · rcases h with hnone | hruns
    · rw [hnone, List.length_nil, plNext, hnone]
      cases s.power.plTarget <;> rfl
    · obtain ⟨lv, hlv⟩ := Option.isSome_iff_exists.mp hruns
      rw [plNext, hlv]
  · rfl

/-- The one command in flight, held to a cycle that has begun, is applied once (R44). -/
theorem effectiveApply_alone {k : Nat} {res : List Byte} {y : Cmd} (hreset : s.cmd.pendingReset = none) (hrun : s.reset_.inReset = false)
    (hin : s.cmd.inflight = [x]) (hx : x.phase = .heldUntil k res) (hdue : k * s.maps.n ≤ tickNow s)
    (hout : (runHeld x res s).cmd.inflight = [y]) (hy : heldDue (runHeld x res s) [] y = none)
    (hpl : (runHeld x res s).power.plCmds = [] ∨ (runHeld x res s).power.plTarget.isSome = true) :
    effectiveApply s = runHeld x res s := by
  have hnext : nextDue s = some (x, res) := by simp [nextDue_alone hin, heldDue, hx, hdue]
  have hdone : nextDue (runHeld x res s) = none := by rw [nextDue_alone hout, hy]; rfl
  have happly : applyDue (s.cmd.inflight.length + 1) s = runHeld x res s := by
    rw [hin, List.length_singleton, applyDue, hnext]
    dsimp only
    rw [hx]
    dsimp only
    rw [applyDue, hdone]
  rw [effectiveApply, if_neg (by simp [hreset, hrun]), farEffected_held hin hx, happly, plResume_same hpl]

/-! ## What a held command does at its cycle -/

theorem setLines_cmd (b v m : Nat) (u : State) : (setLines b v m u).cmd = u.cmd := by
  exact forEach_keeps (g := State.cmd) _ u (fun _ _ => rfl)

theorem setLines_power (b v m : Nat) (u : State) : (setLines b v m u).power = u.power := by
  exact forEach_keeps (g := State.power) _ u (fun _ _ => rfl)

theorem runHeld_lines {res : List Byte} (hop : x.opcode = 0x0505) (heffc : x.effc.isSome = true)
    (hmask : dlMaskOk s x.target (rd x.params 2 2) = true) (hlock : bit x.flags.toNat 3 = false) :
    runHeld x res s = noteRan x (.done .ok [] (setLines x.target (rd x.params 0 2) (rd x.params 2 2) s)) := by
  have hrun : runNow x s = runDlWrite x s := by
    rw [runNow_untargeted x s (by rw [hop]; decide) hlock, hop]
    simp only [runField, hop]
    rfl
  have hwrite : runDlWrite x s = .done .ok [] (setLines x.target (rd x.params 0 2) (rd x.params 2 2) s) := by
    simp [runDlWrite, hmask, heffc, Machine.tell]
  rw [runHeld, if_neg (by omega), if_neg (by omega), if_neg (by rw [hop]; decide), hrun, hwrite]

theorem runHeld_prepared {res : List Byte} (hop : x.opcode = 0x0304 ∨ x.opcode = 0x0305) : runHeld x res s = noteRan x (.done .ok res s) := by
  have hprep : preparesChange x.opcode = true := by rcases hop with h | h <;> rw [h] <;> decide
  rw [runHeld, if_neg (by omega), if_neg (by omega), if_pos hprep]

/-- The transition to a level that the map fits, asked for by one command, has begun (R374, R375). -/
def levelBegun (x : Cmd) (lv : Nat) (u : State) : State :=
  modPower (fun p => { p with plCmds := [(x.session, x.tag, lv)], plTarget := some lv, plClocks := false, plVcore := false, plUp := u.time.up }) u

theorem runHeld_level {res : List Byte} {lv : Nat} (hop : x.opcode = 0x0603) (hlv : rd x.params 0 1 = lv) (hle : lv ≤ 3)
    (hne : lv ≠ s.power.level) (hfit : fitsAt (nowView s) lv = true) (htarget : s.power.plTarget = none) (hcmds : s.power.plCmds = [])
    (hlock : bit x.flags.toNat 3 = false) : runHeld x res s = noteRan x (.later (levelBegun x lv s)) := by
  have hrun : runNow x s = runPlSet x s := by
    rw [runNow_untargeted x s (by rw [hop]; decide) hlock, hop]
    simp only [runBoard, hop]
    rfl
  let v := modPower (fun p => { p with plCmds := [(x.session, x.tag, lv)] }) s
  have hstart : plStart lv v = (none, plBegin lv v) := by
    have hview : nowView v = nowView s := rfl
    have hlevel : v.power.level = s.power.level := rfl
    simp [plStart, hview, hlevel, hfit, hne]
  have hset : runPlSet x s = .later (levelBegun x lv s) := by
    have hnext : plNext 1 v = levelBegun x lv s := by
      have htarget' : v.power.plTarget = none := htarget
      have hcmds' : v.power.plCmds = [(x.session, x.tag, lv)] := rfl
      rw [plNext, htarget', hcmds']
      dsimp only
      rw [hstart]
      rfl
    have hadd : modPower (fun p => { p with plCmds := p.plCmds ++ [(x.session, x.tag, lv)] }) s = v := by simp [modPower, hcmds, v]
    rw [runPlSet]
    dsimp only
    rw [hlv, if_neg (by omega), hadd]
    exact congrArg Ran.later ((if_pos rfl).trans hnext)
  rw [runHeld, if_neg (by omega), if_neg (by omega), if_neg (by rw [hop]; decide), hrun, hset]

/-! ## Parts, leases and suspensions -/

theorem multipartTimeout_due {n : Nat} {a : Assembly} (hpart : s.cmd.partials.find? (fun a => a.cmd.session == n) = some a)
    (hdue : a.lastUp + 200000 ≤ s.time.up) : multipartTimeout n s = endAssembly n .aborted s := by
  have hlong : decide (since a.lastUp s ≥ 200000) = true := decide_eq_true (by unfold since; omega)
  rw [multipartTimeout, hpart]
  exact if_pos hlong

theorem leaseLapse_due {n : Nat} {se : Session} (hse : sess s n = some se) (hopen : se.suspended = false) (hlease : se.lease ≠ 0)
    (hdue : se.lastUp + se.lease * 2000000 ≤ s.time.up) : leaseLapse n s
      = emit 1 (leBytes 1 (hubNo s.hub) ++ leBytes 1 (hubNo s.hub) ++ [0x10]) (closeSession n s) := by
  have hlong : since se.lastUp s ≥ se.lease * 2000000 := by unfold since; omega
  rw [leaseLapse, hse]
  dsimp only
  rw [if_pos ⟨by simp [hopen], hlease, hlong⟩]
  rfl

theorem suspendedFree_due {n : Nat} {se : Session} (hse : sess s n = some se) (hsusp : se.suspended = true) (hboot : s.hub ≠ .boot)
    (hoff : s.hub ≠ .off) (hrun : s.reset_.inReset = false) (hdue : s.cmd.leftBootUp + 120000000 ≤ s.time.up) :
    suspendedFree n s = closeSession n s := by
  have hlong : since s.cmd.leftBootUp s ≥ 120000000 := by unfold since; omega
  rw [suspendedFree, hse]
  dsimp only
  rw [if_pos ⟨hsusp, hboot, hoff, by simp [hrun], hlong⟩]

theorem ownerGone_none (h : s.upd.owner = none) : ownerGone s = s := by rw [ownerGone, h]

end

/-- Settles O20: the held command of each kind, then the three timers. -/
theorem sessionEvents : Obligations.SessionEvents := by
  unfold Obligations.SessionEvents
  refine ⟨fun s x k res hreset hrun hin hx hdue hpl hlock => ⟨fun hop heffc hmask => ?lines, fun hop => ?subscription,
    fun lv hop hlv hle hne hfit htarget => ?level⟩, fun n s a hpart hdue => ?part, fun n s se hse hopen hlease hdue howner => ?lease,
    fun n s se hse hsusp hboot hoff hrun hdue howner => ?suspended⟩
  case lines =>
    have hheld : runHeld x res s = modCmd (fun q => { q with inflight := [{ x with phase := .ready .ok [], effected := true }] })
        (setLines x.target (rd x.params 0 2) (rd x.params 2 2) s) :=
      (runHeld_lines hop heffc hmask hlock).trans (setCmd_alone (by rw [setLines_cmd, hin]) (by simp [isReady, hx]))
    have happly := effectiveApply_alone (y := { x with phase := .ready .ok [], effected := true }) hreset hrun hin hx hdue
      (by rw [hheld]; rfl) rfl (.inl (by rw [hheld]; exact (congrArg PowerState.plCmds (setLines_power _ _ _ _)).trans hpl))
    exact effectIs_eq (happly.trans hheld)
  case subscription =>
    have hheld : runHeld x res s = modCmd (fun q => { q with inflight := [{ x with phase := .ready .ok res, effected := true }] }) s :=
      (runHeld_prepared hop).trans (setCmd_alone hin (by simp [isReady, hx]))
    have happly := effectiveApply_alone (y := { x with phase := .ready .ok res, effected := true }) hreset hrun hin hx hdue
      (by rw [hheld]; rfl) rfl (.inl (by rw [hheld]; exact hpl))
    exact effectIs_eq (happly.trans hheld)
  case level =>
    have hheld : runHeld x res s = modCmd (fun q => { q with inflight := [{ x with phase := .issued, effected := true }] }) (levelBegun x lv s) :=
      (runHeld_level hop hlv hle hne hfit htarget hpl hlock).trans (setCmd_alone hin (by simp [isReady, hx]))
    have happly := effectiveApply_alone (y := { x with phase := .issued, effected := true }) hreset hrun hin hx hdue
      (by rw [hheld]; rfl) rfl (.inr (by rw [hheld]; rfl))
    exact effectIs_eq (happly.trans hheld)
  case part =>
    have heff : multipartTimeout n.val s = modSession n.val (fun x => { x with expected := x.expected + 1 }) (modCmd (fun c => { c with
        partials := c.partials.filter (fun a => a.cmd.session != n.val)
        inflight := c.inflight ++ [{ a.cmd with phase := .ready .aborted [], effected := true }] }) s) := by
      rw [multipartTimeout_due hpart hdue, endAssembly, hpart]
    exact effectIs_eq heff
  case lease =>
    have heff : ownerGone (leaseLapse n.val s)
        = emit 1 (leBytes 1 (hubNo s.hub) ++ leBytes 1 (hubNo s.hub) ++ [0x10]) (closeSession n.val s) := by
      rw [leaseLapse_due hse hopen hlease hdue]
      exact ownerGone_none ((congrArg UpdState.owner (emit_upd _ _ _)).trans howner)
    exact effectIs_eq heff
  case suspended =>
    have heff : ownerGone (suspendedFree n.val s) = closeSession n.val s := by
      rw [suspendedFree_due hse hsusp hboot hoff hrun hdue]
      exact ownerGone_none howner
    exact effectIs_eq heff

end Sys2Proof.Proofs
end

section
/-! The completion ring's tail (R60): what is read behind a write of it, and what settling leaves of it. -/

namespace Sys2Proof.Proofs

open Sys2Proof Sys2Proof.Machine Sys2Proof.Laws

/-! ## Settling without commands -/

/-- What a held write may change: no word of the command queue's block, and no command in flight where none is. -/
structure QuietPush (s u : State) : Prop where
  tail : sget 0 u.csr 0x140054 = sget 0 s.csr 0x140054
  inflight : s.cmd.inflight = [] → u.cmd.inflight = []

theorem QuietPush.refl (s : State) : QuietPush s s := ⟨rfl, id⟩

theorem QuietPush.trans {s u v : State} (h : QuietPush s u) (k : QuietPush u v) : QuietPush s v :=
  ⟨k.tail.trans h.tail, fun hin => k.inflight (h.inflight hin)⟩

theorem QuietPush.of_same {s u : State} (hcsr : u.csr = s.csr) (hcmd : u.cmd = s.cmd) : QuietPush s u :=
  ⟨by rw [hcsr], fun h => by rw [hcmd, h]⟩

section
variable (s : State)

theorem quiet_modChan (ch : Nat) (f : Chan → Chan) : QuietPush s (modChan ch f s) := .of_same rfl rfl

theorem quiet_bump {a : Nat} (h : a < 0x140000) : QuietPush s (bump a s) :=
  ⟨bumpBy_csr_other (by omega), fun hin => by rw [bump_cmd, hin]⟩

omit s in
theorem QuietPush.bump {s u : State} {a : Nat} (h : QuietPush s u) (ha : a < 0x140000) : QuietPush s (bump a u) := h.trans (quiet_bump u ha)

theorem quiet_onlyIf {f : State → State} (b : Bool) (h : QuietPush s (f s)) : QuietPush s (onlyIf b f s) := by
  unfold onlyIf
  split
  · exact h
  · exact .refl s

theorem quiet_newRecord (code mask : Nat) (r : Report) (cond : Bool) : QuietPush s (newRecord code mask r cond s) := by
  unfold newRecord
  extract_lets seq idx tv e v g full w
  have hv : QuietPush s v := quiet_onlyIf s _ (quiet_bump s (by decide))
  have hw : QuietPush v w := .of_same rfl rfl
  refine QuietPush.bump ?_ (by decide)
  exact (hv.trans hw).trans (.of_same rfl rfl)

theorem quiet_mergeInto (code idx : Nat) (r : Report) (cond : Bool) : QuietPush s (mergeInto code idx r cond s) := by
  unfold mergeInto
  extract_lets same v
  split
  · exact .of_same rfl rfl
  · refine QuietPush.bump ?_ (by decide)
    exact .of_same rfl rfl

theorem quiet_detect (code : Nat) (r : Report) : QuietPush s (detect code r s) := by
  unfold detect
  split
  · exact .refl s
  · extract_lets cond react mask
    split
    · refine QuietPush.bump ?_ (by decide)
      exact .of_same rfl rfl
    · split
      · split
        · exact quiet_mergeInto s _ _ _ _
        · exact quiet_newRecord s _ _ _ _
      · exact quiet_newRecord s _ _ _ _

theorem quiet_complete (se : Nat) (tag : Tag) (st : Status) (res : List Byte) : QuietPush s (complete se tag st res s) :=
  ⟨rfl, fun hin => by simp [complete, modCmd, hin]⟩

theorem quiet_report (ch : Nat) (st : Status) (seq : Nat) : QuietPush s (report ch st seq s) := by
  have hflush : QuietPush s (flushReport ch s) := by
    unfold flushReport
    split
    · split
      · exact quiet_modChan s _ _
      · exact .refl s
    · exact .refl s
  unfold report
  extract_lets joins u
  exact (quiet_onlyIf s _ hflush).trans (quiet_modChan u _ _)

theorem quiet_failItem {ch : Nat} (hch : ch < 0x100) (i : TxItem) (st : Status) : QuietPush s (failItem ch i st s) := by
  have hcount : ∀ off, off < 0x800 → QuietPush s (bump (chnAddr ch off) s) := fun off hoff =>
    quiet_bump s (by unfold chnAddr; omega)
  unfold failItem
  extract_lets v w
  have hv : QuietPush s v := by
    unfold v
    split
    · exact hcount _ (by decide)
    · exact hcount _ (by decide)
    · exact hcount _ (by decide)
    · exact .refl s
  have hw : QuietPush v w := by
    unfold w
    split
    · exact quiet_detect v _ _
    · exact .refl v
  have hanswer : ∀ t : State, QuietPush t (answerItem i st [] t) := by
    intro t
    unfold answerItem
    split
    · exact quiet_complete t _ _ _ _
    · exact quiet_complete t _ _ _ _
    · exact .refl t
  exact ((hv.trans hw).trans (quiet_report w _ _ _)).trans (hanswer _)

theorem quiet_failOffer {ch : Nat} (hch : ch < 0x100) (i : TxItem) (st : Status) : QuietPush s (failOffer ch i st s) := by
  unfold failOffer
  exact (quiet_modChan s _ _).trans (quiet_failItem _ hch _ _)

theorem quiet_pushWord {ch : Nat} (hch : ch < 0x100) (w : DWord) : QuietPush s (pushWord ch w s) := by
  unfold pushWord
  extract_lets c ws i u
  split
  · exact quiet_onlyIf s _ (quiet_modChan s _ _)
  · split
    · exact quiet_modChan s _ _
    · refine (quiet_modChan s ch (fun c => { c with partPush := [] })).trans ?_
      split
      · exact quiet_failOffer _ hch _ _
      · exact quiet_modChan _ _ _

theorem quiet_pushOne {target : Nat} {w : DWord} {u : State} (h : pushOne target w s = some u) : QuietPush s u := by
  unfold pushOne at h
  dsimp only at h
  split at h
  · split at h
    · obtain rfl := Option.some.inj h
      exact quiet_pushWord s ‹_› w
    · exact nomatch h
  · split at h
    · obtain rfl := Option.some.inj h
      unfold pushEngine
      split <;> exact .of_same rfl rfl
    · exact nomatch h

theorem quiet_placeHeld (n : Nat) : QuietPush s (placeHeld n s) := by
  induction n generalizing s with
  | zero => exact .refl s
  | succ n ih =>
    unfold placeHeld
    split
    · exact .refl s
    · split
      · exact .refl s
      · split
        · rename_i h t _ _ _ u hu
          exact ((quiet_pushOne s hu).trans (⟨rfl, id⟩ : QuietPush u (modCmd (fun x => { x with heldPushes := t }) u))).trans (ih _)
        · exact .refl s

end

/-- Where no command is in flight, settling only places the held pushes and drains the paths. -/
theorem settle_noneInFlight {u : State} (hin : u.cmd.inflight = []) :
    ∃ v, settle u = drainPaths v ∧ QuietPush u v ∧ v.cmd.inflight = [] := by
  have hquiet := quiet_placeHeld u u.cmd.heldPushes.length
  generalize hv : placeHeld u.cmd.heldPushes.length u = v at hquiet
  have hempty : v.cmd.inflight = [] := hquiet.inflight hin
  have hflush : flushReplies v = v := by
    unfold flushReplies
    simp only [hempty, splitReady, List.foldl_nil]
    exact modCmd_inflight_same hempty
  refine ⟨v, ?_, hquiet, hempty⟩
  simp [settle, hv, hempty, sweeps, hflush, someMayRun, cmdPrefixes]

/-- Where no command is in flight, settling leaves the completion ring's tail alone. -/
theorem settle_tail {u : State} (hin : u.cmd.inflight = []) : sget 0 (settle u).csr 0x140054 = sget 0 u.csr 0x140054 := by
  obtain ⟨v, hsettle, hquiet, -⟩ := settle_noneInFlight hin
  rw [hsettle, ← hquiet.tail]
  exact view_csr (drained_drainPaths v).view 0x140054 (by decide)

theorem settle_inflight_nil {u : State} (hin : u.cmd.inflight = []) : (settle u).cmd.inflight = [] := by
  obtain ⟨v, hsettle, -, hempty⟩ := settle_noneInFlight hin
  rw [hsettle, (drained_drainPaths v).inflight, hempty]

/-! ## A tail that is listed twice -/

theorem sget_eq_slook {α : Type} (d : α) (m : Sparse α) (k : Nat) : sget d m k = (slook m k).getD d := by
  induction m with
  | nil => rfl
  | cons e t ih =>
    rw [sget, slook]
    split
    · rfl
    · exact ih

/-- A frame of this hub's own for the PCIe path. -/
def ownPacket : Frame :=
  { cls := 4, dst := 0, src := 0, first := true, last := true, replay := false, twin := false, seq := 0, gen := 0, mgroup := 0, ccw := false
    wrapped := false, hops := 0, stampId := 0, frag := 0, cycle := 0, payload := [7], ingress := .local, rxTime := 0, rxTick := 0
    bankPrev := false, bankNode := 0, member := false, cells := [], cut := false, poison := false, eligible := true, arriving := none
    head := [], frees := none }

/-- A hub whose completion ring of 16 slots has its tail at 15, listed before a second word 5 of the same register. -/
def hubOfTwoTails : State := { State.reset with
  hub := .run, reset_ := { bootStep := 8 }
  csr := [(0x140048, 0x14), (0x140054, 15), (0x140054, 5), (0x140058, 1)]
  sw := { queues := [(qKey .pcie 4, [ownPacket])] } }

/-- The word of the tail after an outcome. -/
def tailAfter : Host.Outcome State Fault Refusal → Option Nat
  | .next t => some (sget 0 t.csr 0x140054).toNat
  | _ => none

theorem tailAfter_twoTails : tailAfter (exec .completionWrite hubOfTwoTails) = some 5 := by decide +kernel

/-- Refutes O21: the tail moves from 15 to 0, its reset word, so that its entry goes; where the CSR bank lists the register a second time,
which no hypothesis shuts out (`swf` is asked of the queues and the slots alone), the tail then reads 5. -/
theorem not_queueRegisters : ¬ Obligations.QueueRegisters := by
  unfold Obligations.QueueRegisters
  intro h
  obtain ⟨⟨c, t⟩, hpick⟩ : ∃ x, pickClass .pcie hubOfTwoTails = some x := Option.isSome_iff_exists.mp (by decide +kernel)
  have hclass : c = 4 := by
    have hfour : (pickClass .pcie hubOfTwoTails).map (·.1) = some 4 := by decide +kernel
    rw [hpick] at hfour
    exact Option.some.inj hfour
  subst hclass
  obtain ⟨u, hnext, -, -, -, hin, -, htail⟩ := (h.2.2.1 4 ownPacket [] hubOfTwoTails t (by decide +kernel) (by decide +kernel) (by decide +kernel)
    (by decide +kernel) hpick (by decide +kernel)).1 (.inl (by decide +kernel))
  have hfive := tailAfter_twoTails
  rw [hnext, tailAfter, Option.some.injEq, view_csr (hubView_goOn _ u) 0x140054 (by decide), settle_tail hin] at hfive
  have hlisted : csr u 0x140054 = 5 := by
    cases hw : slook u.csr 0x140054 with
    | none => rw [sget_eq_slook, hw] at hfive; exact absurd hfive (by decide)
    | some w => rw [sget_eq_slook, hw] at hfive; rw [csr, hw]; exact hfive
  rw [fld, hlisted] at htail
  exact absurd htail (by decide +kernel)

end Sys2Proof.Proofs
end

section
/-! The maintenance port (R62 to R64, R378). -/

namespace Sys2Proof.Proofs

open Sys2Proof Sys2Proof.Machine Sys2Proof.Laws

section
variable {s : State}

theorem mntPointerWrite_listed {p : Byte} (hserves : mntServes s = true) (hp : p.toNat ∈ [0x00, 0x01, 0x03, 0x10, 0x20, 0x30, 0x31]) :
    mntPointerWrite p s = modCmd (fun c => { c with mntPtr := p }) s := by
  have hlisted : mntPointers.contains p.toNat = true := List.contains_iff_mem.mpr hp
  rw [mntPointerWrite, hserves, hlisted]
  rfl

/-- A packet that is cut, or not of the length that it announces, is discarded (R63). -/
theorem packetIn_bad {bs : List Byte} {rs : Bool} (hserves : mntServes s = true) (hbad : rs = true ∨ bs.length < 16 ∨ bs.length ≠ announced bs) :
    packetIn bs rs s = bump 0x140028 (modCmd (fun c => { c with mntPtr := 0x10, mntInBad := true }) s) := by
  have hdiscard : (rs || decide (bs.length < 16) || bs.length != announced bs) = true := by
    rcases hbad with h | h | h <;> simp [h]
  rw [packetIn, hserves, if_neg (by decide)]
  dsimp only
  rw [if_pos hdiscard]
  rfl

theorem packetIn_good {bs : List Byte} (hserves : mntServes s = true) (hlen : 16 ≤ bs.length) (hsize : bs.length = announced bs) :
    packetIn bs false s = arrive .maint bs (modCmd (fun c => { c with mntPtr := 0x10, mntInBad := false }) s) := by
  have hkeep : ¬((false || decide (bs.length < 16) || bs.length != announced bs) = true) := by simp [← hsize, hlen]
  rw [packetIn, hserves, if_neg (by decide)]
  dsimp only
  rw [if_neg hkeep]
  rfl

theorem outAck_head {seq : BitVec 16} {h : BitVec 16 × List Byte} {t : List (BitVec 16 × List Byte)} (hserves : mntServes s = true)
    (hout : s.cmd.mntOut = h :: t) : outAck seq s
      = if h.1 = seq then modCmd (fun c => { c with mntPtr := 0x30, mntOut := t }) s else bump 0x140028 (modCmd (fun c => { c with mntPtr := 0x30 }) s) := by
  have hout' : (modCmd (fun c => { c with mntPtr := 0x30 }) s).cmd.mntOut = h :: t := hout
  rw [outAck, hserves, if_neg (by decide)]
  dsimp only
  rw [hout']
  rfl

theorem inClear_key (hserves : mntServes s = true) : inClear 0xA5 s = modCmd (fun c => { c with mntPtr := 0x31, mntInBad := false }) s := by
  have hclear : ∀ b : Bool, (b && (0xA5 : Byte) != 0xA5) = false := by decide
  rw [inClear, hserves, if_neg (by decide)]
  exact congrArg (fun b => modCmd (fun c => { c with mntPtr := 0x31, mntInBad := b }) s) (hclear s.cmd.mntInBad)

/-- From SL1 the wake begins, and no port or image has to be taken up (R378). -/
theorem startWake_light {source : Nat} (hhub : s.hub = .sleep) (hdone : s.power.wakeDone = false) (hwaking : s.power.waking = false)
    (hlevel : s.power.sleepLevel = 1) :
    startWake source s = modPower (fun p => { p with waking := true, wakeSource := source, wakeUp := s.time.up }) s := by
  have hlight : (modPower (fun p => { p with waking := true, wakeSource := source, wakeUp := s.time.up }) s).power.sleepLevel < 2 := by
    show s.power.sleepLevel < 2
    omega
  rw [startWake, if_neg (by simp [hhub, hdone]), if_neg (by simp [hwaking])]
  exact if_pos hlight

theorem i2cMatch_own {a : Nat} (h : a = s.power.i2cAddr) : i2cMatch a s = startWake 2 s := if_pos (beq_iff_eq.mpr h)
theorem i2cMatch_other {a : Nat} (h : a ≠ s.power.i2cAddr) : i2cMatch a s = s := if_neg (by simpa using h)

end

/-- Settles O22: one equation for each event of the port. -/
theorem maintenancePort : Obligations.MaintenancePort := by
  unfold Obligations.MaintenancePort
  refine ⟨fun p s hserves hp => effectIs_eq (mntPointerWrite_listed hserves hp), fun bs rs s hserves => ⟨fun hbad => ?bad, fun hrs hlen hsize => ?good⟩,
    fun seq h t s hserves hout => ⟨fun hseq => ?ack, fun hseq => ?other⟩, fun s hserves => effectIs_eq (inClear_key hserves),
    fun a s ha hhub hdone hwaking hlevel => effectIs_eq ((i2cMatch_own ha).trans (startWake_light hhub hdone hwaking hlevel)),
    fun a s ha => effectIs_eq (i2cMatch_other ha)⟩
  case bad => exact effectIs_eq (packetIn_bad hserves hbad)
  case good =>
    subst hrs
    exact effectIs_eq (packetIn_good hserves hlen hsize)
  case ack => exact effectIs_eq ((outAck_head hserves hout).trans (if_pos hseq))
  case other => exact effectIs_eq ((outAck_head hserves hout).trans (if_neg hseq))

end Sys2Proof.Proofs
end

section
/-! PCIe accesses of registers and of the image history (R4, R5, R22, R317). -/

namespace Sys2Proof.Proofs

open Sys2Proof Sys2Proof.Machine Sys2Proof.Laws

/-- An unaligned access of the low blocks is refused for its alignment alone (R22). -/
theorem rangeBad_unaligned {off : Nat} (halign : off % 4 ≠ 0) (hlow : off + 4 < 0x50000) (s : State) : rangeBad 0 off 4 s = some (sysErr 1 s) := by
  have hsize : ¬ spaceSize 0 < off + 4 := by simp only [spaceSize]; omega
  have hblocks : (wordsIn (off - off % 4) (4 + off % 4 + 3)).any (fun a => decide (a < off + 4) && !inBlock a) = false := by
    rw [List.any_eq_false]
    intro a _
    by_cases ha : a < off + 4
    · have hin : inBlock a = true := by
        rw [inBlock, decide_eq_true (by omega), decide_eq_false (p := 0x70000 ≤ a) (by omega)]
        rfl
      simp [hin]
    · simp [ha]
  rw [rangeBad, if_neg hsize, if_pos rfl, if_neg (by rw [hblocks]; decide), if_pos (.inl halign)]

section
variable {s : State} {rq off : Nat}

theorem barWrite_register {v : DWord} (hfree : barFree s = true) (halign : off % 4 = 0) (hlow : off < 0x1000000) (hblock : inBlock off = true) :
    barWrite rq .bar0 off 4 v s = csrWrite off (v.toNat % 2 ^ 32) s := by
  have hgood : barAccessBad off 4 s = none := by rw [barAccessBad, rangeBad_of_register hlow halign hblock]; rfl
  rw [barWrite, hfree, if_neg (by decide)]
  rw [bar0Write, hgood]
  simp [bits]

theorem barReadAt_register (hfree : barFree s = true) (halign : off % 4 = 0) (hlow : off < 0x1000000) (hblock : inBlock off = true) :
    barReadAt rq .bar0 off 4 s = barAnswer (leBytes 4 (csrPeek s off)) (csrReadEffect off s) := by
  have hgood : barAccessBad off 4 s = none := by rw [barAccessBad, rangeBad_of_register hlow halign hblock]; rfl
  rw [barReadAt, hfree, if_neg (by decide)]
  rw [bar0Read, hgood]
  rfl

theorem barWrite_unaligned {v : DWord} (hfree : barFree s = true) (halign : off % 4 ≠ 0) (hlow : off + 4 < 0x50000) :
    barWrite rq .bar0 off 4 v s = pcieBad rq off true (sysErr 1 s) := by
  have hbad : barAccessBad off 4 s = some (sysErr 1 s) := by rw [barAccessBad, rangeBad_unaligned halign hlow]
  rw [barWrite, hfree, if_neg (by decide)]
  rw [bar0Write, hbad]

theorem barReadAt_unaligned (hfree : barFree s = true) (halign : off % 4 ≠ 0) (hlow : off + 4 < 0x50000) :
    barReadAt rq .bar0 off 4 s = barAnswer [0xFF, 0xFF, 0xFF, 0xFF] (pcieBad rq off false (sysErr 1 s)) := by
  have hbad : barAccessBad off 4 s = some (sysErr 1 s) := by rw [barAccessBad, rangeBad_unaligned halign hlow]
  rw [barReadAt, hfree, if_neg (by decide)]
  rw [bar0Read, hbad]
  rfl

theorem barWrite_history {size : Nat} {v : DWord} (hfree : barFree s = true) : barWrite rq .bar4 off size v s = pcieBad rq off true (sysErr 2 s) := by
  rw [barWrite, hfree, if_neg (by decide)]

theorem barReadAt_history {size : Nat} (hfree : barFree s = true) (hfit : off + size ≤ 0x2000000) :
    barReadAt rq .bar4 off size s = barAnswer ((upFrom off size).map (historyByte s)) (draw s).2 := by
  rw [barReadAt, hfree, if_neg (by decide)]
  exact if_neg (Nat.not_lt.mpr hfit)

theorem barReadAt_beyond {size : Nat} (hfree : barFree s = true) (hpast : 0x2000000 < off + size) :
    barReadAt rq .bar4 off size s = barAnswer (List.replicate size 0xFF) (pcieBad rq off false (sysErr 2 s)) := by
  rw [barReadAt, hfree, if_neg (by decide)]
  exact if_pos hpast

end

/-- A hold-off within its range is taken whole (R149). -/
theorem csrWrite_holdoff {s : State} {v : Nat} (hlow : 10 ≤ v) (hhigh : v ≤ 3600000) : csrWrite 0x50604 v s = setFld 0x50604 0 32 v s := by
  have hrows : rowsAt s 0x50604 = [rw_ 0 32 .warm 2000 [(10, 3600000)]] := rfl
  have hbits : bits v 0 32 = v := by rw [bits, Nat.shiftRight_zero, Nat.mod_eq_of_lt (by omega)]
  have hput : csrWrite 0x50604 v s = putFields 0x50604 v s := rfl
  rw [hput, putFields, hrows]
  simp [putField, rw_, allowed, hbits, hlow, hhigh]

/-- Settles O23: each access is good, or bad in one way. -/
theorem registerAccess : Obligations.RegisterAccess := by
  unfold Obligations.RegisterAccess
  refine ⟨fun rq off v s hfree halign hlow hblock => ⟨effectIs_eq (barWrite_register hfree halign hlow hblock),
      effectIs_eq (barReadAt_register hfree halign hlow hblock)⟩, fun rq v s hfree hlow hhigh => ?holdoff,
    fun rq s hfree => effectIs_eq (barReadAt_register hfree (by decide) (by decide) (by decide)),
    fun rq off v s hfree halign hlow => ⟨effectIs_eq (barWrite_unaligned hfree halign hlow), effectIs_eq (barReadAt_unaligned hfree halign hlow)⟩,
    fun rq off size v s hfree => ⟨effectIs_eq (barWrite_history hfree), fun hfit => ?history, fun hpast => effectIs_eq (barReadAt_beyond hfree hpast)⟩⟩
  case holdoff =>
    refine effectIs_eq ((barWrite_register hfree (by decide) (by decide) (by decide)).trans ?_)
    rw [Nat.mod_eq_of_lt (by omega), csrWrite_holdoff hlow hhigh]
  case history =>
    refine ⟨_, commit_goOn s _, ?_⟩
    rw [barReadAt_history hfree hfit]
    exact ⟨rfl, rfl⟩

end Sys2Proof.Proofs
end

section
/-! PCIe accesses of windows (R217, R312 to R319). -/

namespace Sys2Proof.Proofs

open Sys2Proof Sys2Proof.Machine Sys2Proof.Laws

/-! ## Reads -/

section
variable {s : State} {target : Nat}

/-- A read that is not claimed, and whose turn has come, is answered by the window as it stands (R307, R314). -/
theorem barRead_answers {off size : Nat} {r : List Byte × State} (hfree : barFree s = true) (hclaim : readClaimed s target off = false)
    (hturn : barBehind s target false s.time.up = false) (hread : windowRead (draw s).2 target off size = some r) :
    barRead target off size s = barAnswer r.1 r.2 := by
  have hfree' : barFree (draw s).2 = true := hfree
  have hclaim' : readClaimed (draw s).2 target off = false := hclaim
  have hturn' : barBehind (draw s).2 target false (draw s).2.time.up = false := hturn
  rw [barRead, hfree, if_pos rfl, barReadFrom, hfree', if_neg (by decide), hclaim', if_neg Bool.false_ne_true, hread]
  exact if_neg (by rw [hturn']; decide)

theorem readClaimed_inside {off : Nat} (h : off ≠ 0) : readClaimed s target off = false := by simp [readClaimed, h]
theorem readClaimed_pop (h : claimedRead s target = false) : readClaimed s target 0 = false := by simp [readClaimed, h]

theorem windowRead_head (u : State) (ch : Fin 128) (m : Fin 64) :
    windowRead u ch.val (0x8000 + m.val * 0x80) 8 = some (leBytes 8 (headRead ch.val m.val u).1.toNat, (headRead ch.val m.val u).2) := by
  have hoff : (0x8000 + m.val * 0x80 - 0x8000) % 0x80 = 0 := by omega
  have hobj : (0x8000 + m.val * 0x80 - 0x8000) / 0x80 = m.val := by omega
  rw [windowRead, if_pos (by omega), chWindowRead, if_neg (by omega), if_neg (by omega), if_neg (by omega), if_neg (by omega), if_pos (by omega),
    objectRead]
  dsimp only
  rw [hoff, hobj, if_neg (by omega), if_neg (by omega), if_pos rfl]

theorem windowRead_end (u : State) (ch : Fin 128) (m : Fin 64) :
    windowRead u ch.val (0x8050 + m.val * 0x80) 8 = some (leBytes 8 (endRead ch.val m.val u).1.toNat, (endRead ch.val m.val u).2) := by
  have hoff : (0x8050 + m.val * 0x80 - 0x8000) % 0x80 = 0x50 := by omega
  have hobj : (0x8050 + m.val * 0x80 - 0x8000) / 0x80 = m.val := by omega
  rw [windowRead, if_pos (by omega), chWindowRead, if_neg (by omega), if_neg (by omega), if_neg (by omega), if_neg (by omega), if_pos (by omega),
    objectRead]
  dsimp only
  rw [hoff, hobj, if_neg (by omega), if_neg (by omega), if_neg (by omega), if_neg (by omega), if_pos rfl]

theorem windowRead_pop (u : State) (ch : Fin 128) :
    windowRead u ch.val 0 16 = some (popBytes (popRx ch.val u).1 (popRx ch.val u).2.1, (popRx ch.val u).2.2) := by
  rw [windowRead, if_pos (by omega)]
  rfl

theorem windowRead_enginePop (u : State) (e : Fin 32) : windowRead u (0x100 + e.val) 0 16
    = some (popBytes (popEngine e.val u).1 (popEngine e.val u).2.1, (popEngine e.val u).2.2) := by
  rw [windowRead, if_neg (by omega), Nat.add_sub_cancel_left]
  rfl

/-! ## HEAD and END of a buffer object -/

theorem headRead_locks {ch m : Nat} {u : State} (hbuf : isBuffer u ch m = true) (hfew : (moBuf (chan u ch) m).locks.length < 4) :
    (headRead ch m u).2 = modMo ch m (fun o => { o with locks := o.locks ++ [u.time.up], new_ := false }) u := by
  rw [headRead, hbuf, if_neg (by decide)]
  dsimp only
  rw [if_neg (by omega)]

theorem endRead_unlocks {ch m : Nat} {u : State} (hbuf : isBuffer u ch m = true) :
    (endRead ch m u).2 = unlockMo ch m (modMo ch m (fun o => { o with replaced := 0, overruns := 0 }) u) := by
  rw [endRead, hbuf, if_neg (by decide)]

theorem canLockTimeout_due {ch m t : Nat} {l : List Nat} (hlocks : (moBuf (chan s ch) m).locks = t :: l) (hdue : t + 200 ≤ s.time.up) :
    canLockTimeout ch m s = bump (chnAddr ch 0x1B0) (unlockMo ch m s) := by
  rw [canLockTimeout, hlocks]
  exact if_pos (by unfold since; omega)

/-! ## Pushes -/

/-- A push that waits for its turn or for room is held and counted (R319). -/
def pushHeld (rq target : Nat) (w : DWord) (u : State) : State :=
  bump 0x140080 (modCmd (fun x => { x with heldPushes := x.heldPushes ++
    [{ engine := decide (0x100 ≤ target), unit := target % 0x100, word := w, up := u.time.up, requester := rq }] }) u)

theorem barPush_eq {w : DWord} (hfree : barFree s = true) (hdenied : pushDenied s target = false) : barPush target w s
    = if barBehind s target true s.time.up then pushHeld ((draw s).1 % 65536) target w (draw s).2
      else match pushOne target w (draw s).2 with
        | some t => t
        | none => pushHeld ((draw s).1 % 65536) target w (draw s).2 := by
  have hfree' : barFree (draw s).2 = true := hfree
  have hdenied' : pushDenied (draw s).2 target = false := hdenied
  have hturn : barBehind (draw s).2 target true (draw s).2.time.up = barBehind s target true s.time.up := rfl
  rw [barPush, hfree, if_pos rfl, barPushFrom, hfree', if_neg (by decide), hdenied', if_neg Bool.false_ne_true, hturn]
  rfl

theorem barPush_placed {w : DWord} {t : State} (hfree : barFree s = true) (hdenied : pushDenied s target = false)
    (hturn : barBehind s target true s.time.up = false) (hroom : pushOne target w (draw s).2 = some t) : barPush target w s = t := by
  rw [barPush_eq hfree hdenied, hturn, if_neg Bool.false_ne_true, hroom]

theorem barPush_held {w : DWord} (hfree : barFree s = true) (hdenied : pushDenied s target = false)
    (hwait : barBehind s target true s.time.up = true ∨ pushOne target w (draw s).2 = none) :
    barPush target w s = pushHeld ((draw s).1 % 65536) target w (draw s).2 := by
  rw [barPush_eq hfree hdenied]
  split
  · rfl
  · rw [hwait.resolve_left ‹_›]

end

/-- Settles O24: reads by the window's register, pushes by turn and room. -/
theorem windowAccess : Obligations.WindowAccess := by
  unfold Obligations.WindowAccess
  refine ⟨fun ch m s hbuf => ⟨fun hfree hturn hfew => ?head, fun hfree hturn => ?end_, fun t l hlocks hdue => effectIs_eq (canLockTimeout_due hlocks hdue)⟩,
    fun ch s hfree hclaim hturn => ⟨fun w t hq => ?pop, fun hq => ?popNone⟩, fun e s hfree hclaim hturn => ⟨fun w k t hq => ?engine, fun hq => ?engineNone⟩,
    fun ch w s hfree hdenied => ⟨fun t hturn hroom => effectIs_eq (barPush_placed hfree hdenied hturn hroom), fun hwait => ?held⟩,
    fun e w s hfree hdenied => ⟨fun t hturn hroom => effectIs_eq (barPush_placed hfree hdenied hturn hroom), fun hwait => ?heldEngine⟩⟩
  case head =>
    refine ⟨_, commit_goOn s _, leBytes 8 (headRead ch.val m.val (draw s).2).1.toNat, length_leBytes _ _, ?_⟩
    refine (barRead_answers hfree (readClaimed_inside (by omega)) hturn (windowRead_head _ ch m)).trans (congrArg (barAnswer _) ?_)
    exact headRead_locks (u := (draw s).2) hbuf hfew
  case end_ =>
    refine ⟨_, commit_goOn s _, leBytes 8 (endRead ch.val m.val (draw s).2).1.toNat, length_leBytes _ _, ?_⟩
    refine (barRead_answers hfree (readClaimed_inside (by omega)) hturn (windowRead_end _ ch m)).trans (congrArg (barAnswer _) ?_)
    exact endRead_unlocks (u := (draw s).2) hbuf
  case pop =>
    refine effectIs_eq ((barRead_answers hfree (readClaimed_pop hclaim) hturn (windowRead_pop _ ch)).trans ?_)
    have hq' : (chan (draw s).2 ch.val).rxq = w :: t := hq
    rw [popRx, hq']
    rfl
  case popNone =>
    refine effectIs_eq ((barRead_answers hfree (readClaimed_pop hclaim) hturn (windowRead_pop _ ch)).trans ?_)
    have hq' : (chan (draw s).2 ch.val).rxq = [] := hq
    rw [popRx, hq']
    rfl
  case engine =>
    refine effectIs_eq ((barRead_answers hfree (readClaimed_pop hclaim) hturn (windowRead_enginePop _ e)).trans ?_)
    have hq' : (Machine.engine (draw s).2 e.val).push = (w, k) :: t := hq
    rw [popEngine, hq']
    rfl
  case engineNone =>
    refine effectIs_eq ((barRead_answers hfree (readClaimed_pop hclaim) hturn (windowRead_enginePop _ e)).trans ?_)
    have hq' : (Machine.engine (draw s).2 e.val).push = [] := hq
    rw [popEngine, hq']
    rfl
  case held =>
    refine ⟨_, commit_goOn s _, ?_⟩
    rw [barPush_held hfree hdenied hwait]
    refine ⟨_, rfl, decide_eq_false (by omega), Nat.mod_eq_of_lt (by omega), rfl, rfl, rfl, rfl⟩
  case heldEngine =>
    refine ⟨_, commit_goOn s _, ?_⟩
    rw [barPush_held hfree hdenied hwait]
    refine ⟨_, rfl, decide_eq_true (by omega), ?_, rfl, rfl, rfl⟩
    show (0x100 + e.val) % 0x100 = e.val
    omega

end Sys2Proof.Proofs
end

section
/-! The timers of held pushes, of locks and of what waits on them (R309, R310, R316, R319). -/

namespace Sys2Proof.Proofs

open Sys2Proof Sys2Proof.Machine Sys2Proof.Laws

section
variable {s : State}

theorem pciePushDrop_due {h : HeldPush} {t : List HeldPush} (hheld : s.cmd.heldPushes = h :: t) (hdue : h.up + 2000 ≤ s.time.up) :
    pciePushDrop s = pushDropped h (giveUpWord (heldTarget h) h.word (modCmd (fun x => { x with heldPushes := t }) s)) := by
  rw [pciePushDrop, hheld]
  exact if_pos (by unfold since; omega)

/-- The command in flight that waits, completed. -/
theorem complete_alone {x : Cmd} {st : Status} {res : List Byte} (hin : s.cmd.inflight = [x]) (hx : isReady x = false) :
    complete x.session x.tag st res s = modCmd (fun q => { q with inflight := [{ x with phase := .ready st res, effected := true }] }) s := by
  have hphase : ∀ a b, x.phase ≠ .ready a b := fun a b h => by simp [isReady, h] at hx
  cases hp : x.phase <;> simp_all [complete, modCmd]

theorem windowPushTimeout_due {x : Cmd} {n k : Nat} (hin : s.cmd.inflight = [x]) (hx : x.phase = .pushing k) (hse : x.session = n)
    (hdue : x.up + 2000 ≤ s.time.up) (hop : x.opcode = 0x0407) : windowPushTimeout n s = bump 0x140098 (modCmd (fun q => { q with
      inflight := [{ x with phase := .ready .queueFull (leBytes 4 k), effected := true }] }) s) := by
  have hlong : x.session = n ∧ since x.up s ≥ 2000 := ⟨hse, by unfold since; omega⟩
  rw [windowPushTimeout, hin, List.foldl_cons, List.foldl_nil, hx]
  dsimp only
  rw [if_pos hlong, if_pos hop, ← hse, complete_alone hin (by simp [isReady, hx])]

/-- A lock past its expiry ends; the session that held it is told (R310). -/
theorem lockExpiry_due {ch : Nat} {l : Lock} (hlock : lockedBy s ch = some l) (hdue : l.expiry ≤ tickNow s) :
    (lockExpiry ch s).cmd.locks = sdel s.cmd.locks ch ∧ (lockExpiry ch s).cmd.inflight = s.cmd.inflight ∧ (lockExpiry ch s).chans = s.chans
      ∧ ∀ se ∈ s.cmd.sessions, se.num ≠ l.session → se ∈ (lockExpiry ch s).cmd.sessions := by
  unfold lockExpiry
  rw [hlock]
  dsimp only
  rw [if_pos hdue]
  refine ⟨by simp [dropLock, modCmd], by simp [dropLock, modCmd], by simp [dropLock, modCmd], fun se hse hother => ?_⟩
  simp only [bumpBy_cmd, bump_cmd, dropLock, modCmd, List.map_map, List.mem_map]
  exact ⟨se, hse, by simp [hother]⟩

/-- A waiting command that a lock has blocked for 100 ms is answered, and waits there no longer (R309). -/
theorem lockWaitTimeout_due {ch : Nat} {x : Cmd} (hin : s.cmd.inflight = [x]) (hx : x.phase = .waiting)
    (hwaits : (chan s ch).lockWaits = [(x.session, x.tag)]) (hdue : x.up + 200000 ≤ s.time.up) :
    lockWaitTimeout ch s = bump 0x14008C (modCmd (fun q => { q with inflight := [{ x with phase := .ready .locked [], effected := true }] })
      (modChan ch (fun c => { c with lockWaits := [] }) s)) := by
  have hfind : cmdOf s x.session x.tag = some x := by simp [cmdOf, hin]
  have hlong : isWaiting x = true ∧ since x.up s ≥ 200000 := ⟨by simp [isWaiting, hx], by unfold since; omega⟩
  have hend : endLockWait ch x s = modChan ch (fun c => { c with lockWaits := [] }) s := by
    rw [endLockWait, hwaits, if_neg (by simp)]
    exact modChan_congr (by simp [hwaits])
  rw [lockWaitTimeout, hwaits, List.foldl_cons, List.foldl_nil]
  dsimp only
  rw [hfind]
  dsimp only
  rw [if_pos hlong, hend, complete_alone (s := modChan ch (fun c => { c with lockWaits := [] }) s) hin (by simp [isReady, hx])]

end

/-- Settles O25: the equation of each timer that is due. -/
theorem windowTimeouts : Obligations.WindowTimeouts := by
  unfold Obligations.WindowTimeouts
  refine ⟨fun h t s hheld hdue => ?drop, fun n x k s hin hx hse hdue hop => effectIs_eq (windowPushTimeout_due hin hx hse hdue hop),
    fun ch l s hlock hdue => ⟨_, commit_goOn s _, lockExpiry_due hlock hdue⟩, fun ch x s hin hx hwaits hdue hon => ?blocked⟩
  case drop => exact effectIs_eq (pciePushDrop_due hheld hdue)
  case blocked =>
    refine ⟨_, commit_goOn s _, ?_⟩
    rw [lockWaitTimeout_due hin hx hwaits hdue]
    have hchan : ∀ k v, chan (bump 0x14008C (modCmd v (modChan ch.val (fun c => { c with lockWaits := [] }) s))) k
        = chan (modChan ch.val (fun c => { c with lockWaits := [] }) s) k := fun k v => chan_of_chans rfl k
    refine ⟨by simp [modCmd], ?_, by simp [modCmd], fun k hk => ?_⟩
    · rw [hchan, chan_modChan_on (by simpa using hon)]
    · rw [hchan, chan_modChan_other s ch.val k _ hk]

end Sys2Proof.Proofs
end

section
/-! The assertion of reset sources (R386 to R392, R401, R415): what an assertion records, and what a reset of each reach leaves. -/

namespace Sys2Proof.Proofs

open Sys2Proof Sys2Proof.Machine Sys2Proof.Laws

/-! ## What transport and records leave alone -/

/-- The parts of the hub that no reply, event, fault record or request for charge touches. -/
structure Kept (s t : State) : Prop where
  hub : t.hub = s.hub
  reset : t.reset_ = s.reset_
  time : t.time = s.time
  tags : t.upd.tags = s.upd.tags
  tagLocks : t.upd.tagLocks = s.upd.tagLocks
  ident : t.upd.ident = s.upd.ident
  chans : t.chans = s.chans
  engines : t.engines = s.engines
  light : t.ring.light = s.ring.light
  node : t.ring.node = s.ring.node
  nums : t.cmd.sessions.map (·.num) = s.cmd.sessions.map (·.num)
  noReset : s.cmd.pendingReset = none → t.cmd.pendingReset = none

theorem Kept.refl (s : State) : Kept s s := ⟨rfl, rfl, rfl, rfl, rfl, rfl, rfl, rfl, rfl, rfl, rfl, id⟩

theorem Kept.trans {s t u : State} (h : Kept s t) (k : Kept t u) : Kept s u :=
  ⟨k.hub.trans h.hub, k.reset.trans h.reset, k.time.trans h.time, k.tags.trans h.tags, k.tagLocks.trans h.tagLocks, k.ident.trans h.ident,
    k.chans.trans h.chans, k.engines.trans h.engines, k.light.trans h.light, k.node.trans h.node, k.nums.trans h.nums,
    fun hn => k.noReset (h.noReset hn)⟩

theorem kept_foldl {β : Type} {f : State → β → State} (h : ∀ s b, Kept s (f s b)) (l : List β) (s : State) : Kept s (l.foldl f s) := by
  induction l generalizing s with
  | nil => exact .refl s
  | cons b t ih => exact (h s b).trans (ih _)

/-- Hubs that differ in what leaves by the transport. -/
theorem Kept.of_view {s t : State} (h : hubView t = hubView s) (hreset : t.cmd.pendingReset = s.cmd.pendingReset) : Kept s t := by
  have hnums : t.cmd.sessions.map (·.num) = s.cmd.sessions.map (·.num) := by
    have hsessions : (cmdView t.cmd).sessions = (cmdView s.cmd).sessions := congrArg (fun v => v.cmd.sessions) h
    have hmap := congrArg (List.map Session.num) hsessions
    simpa [cmdView, Function.comp_def] using hmap
  have hsame : ∀ {α : Type} (g : State → α), g (hubView t) = g (hubView s) := fun g => congrArg g h
  exact ⟨hsame State.hub, hsame State.reset_, hsame State.time, hsame (·.upd.tags), hsame (·.upd.tagLocks), hsame (·.upd.ident),
    hsame State.chans, hsame State.engines, hsame (·.ring.light), hsame (·.ring.node), hnums, fun hn => hreset.trans hn⟩

section
variable (s : State)

theorem kept_onlyIf {f : State → State} (b : Bool) (h : Kept s (f s)) : Kept s (onlyIf b f s) := by
  cases b
  · exact .refl s
  · exact h

theorem kept_bumpBy (a n : Nat) : Kept s (bumpBy a n s) := ⟨rfl, rfl, rfl, rfl, rfl, rfl, rfl, rfl, rfl, rfl, rfl, id⟩

theorem kept_detect (code : Nat) (r : Report) : Kept s (detect code r s) :=
  ⟨by simp, by simp, by simp, by simp, by simp, by simp, by simp, by simp, by simp, by simp, by simp, by simp⟩

theorem nums_map {l : List Session} {f : Session → Session} (h : ∀ x, (f x).num = x.num) : (l.map f).map (·.num) = l.map (·.num) := by
  rw [List.map_map]
  exact List.map_congr_left fun x _ => h x

theorem kept_modSession (n : Nat) {f : Session → Session} (h : ∀ x, (f x).num = x.num) : Kept s (modSession n f s) := by
  refine ⟨rfl, rfl, rfl, rfl, rfl, rfl, rfl, rfl, rfl, rfl, nums_map fun x => ?_, id⟩
  split
  · exact h x
  · rfl

theorem kept_emit (code : Nat) (params : List Byte) : Kept s (emit code params s) := by
  refine ⟨rfl, rfl, rfl, rfl, rfl, rfl, rfl, rfl, rfl, rfl, ?_, id⟩
  refine Eq.trans (congrArg (List.map Session.num) (List.map_map ..)) (nums_map fun x => ?_)
  dsimp only [Function.comp_def]
  split
  · unfold eventTo
    split <;> rfl
  · rfl

theorem kept_originate (f : Frame) : Kept s (originate f s) :=
  .of_view (hubView_originate s f) (by rw [cmd_originate])

theorem kept_sendOut (p : Path) (n : Nat) (b : Option Owed) (l : List (List Byte)) : Kept s (sendOut p n b l s) :=
  .of_view (hubView_sendOut s p n b l) (sendOut_pendingReset s p n b l)

theorem kept_itemDone (c : Cmd) (st : Status) : Kept s (itemDone c st s) :=
  Kept.trans (t := modSw _ s) ⟨rfl, rfl, rfl, rfl, rfl, rfl, rfl, rfl, rfl, rfl, rfl, id⟩ (kept_onlyIf _ _ (kept_originate _ _))

theorem kept_retain (r : Reply) : Kept s (retain r s) := by
  refine .of_view (hubView_retain s r) ?_
  unfold retain modCmd
  dsimp only

theorem kept_resendReply (p : Path) (r : Reply) : Kept s (resendReply p r s) := by
  unfold resendReply
  exact (kept_sendOut s _ _ _ _).trans (kept_bumpBy _ _ _)

theorem kept_sendAnswer (c : Cmd) (st : Status) (res : List Byte) : Kept s (sendAnswer c st res s) := by
  unfold sendAnswer
  extract_lets nonce r u p v
  have hu : Kept s u := kept_retain s r
  split
  · exact hu
  · exact (hu.trans (kept_onlyIf u _ (kept_sendOut _ _ _ _ _))).trans
      (kept_foldl (fun w _ => kept_resendReply w p r) _ v)

theorem kept_afterReply (c : Cmd) (st : Status) : Kept s (afterReply c st s) := by
  unfold afterReply
  split
  · exact Kept.trans (t := modUpd _ s) ⟨rfl, rfl, rfl, rfl, rfl, rfl, rfl, rfl, rfl, rfl, rfl, id⟩ (kept_emit _ _ _)
  · exact .refl s

theorem kept_answer (c : Cmd) : Kept s (answer c s) := by
  unfold answer
  split
  · split
    · exact kept_itemDone s _ _
    · split
      · exact kept_sendOut s _ _ _ _
      · exact (kept_sendAnswer s _ _ _).trans (kept_afterReply _ _ _)
  · exact .refl s

theorem kept_flushReplies : Kept s (flushReplies s) :=
  Kept.trans (t := modCmd _ s) ⟨rfl, rfl, rfl, rfl, rfl, rfl, rfl, rfl, rfl, rfl, rfl, id⟩ (kept_foldl (fun v c => kept_answer v c) _ _)

theorem kept_endAssembly (n : Nat) (st : Status) : Kept s (endAssembly n st s) := by
  unfold endAssembly
  split
  · exact Kept.trans (t := modCmd _ s) ⟨rfl, rfl, rfl, rfl, rfl, rfl, rfl, rfl, rfl, rfl, rfl, id⟩ (kept_modSession _ _ fun _ => rfl)
  · exact .refl s

theorem kept_abortInflight : Kept s (abortInflight s) := by
  unfold abortInflight
  exact (kept_foldl (fun v a => kept_endAssembly v _ _) _ s).trans
    (Kept.trans (t := modCmd _ _) ⟨rfl, rfl, rfl, rfl, rfl, rfl, rfl, rfl, rfl, rfl, rfl, id⟩ (kept_flushReplies _))

/-! ## A request for charge (R85) -/

theorem kept_showStates (me own : Nat) (l : List LightEntry) : Kept s (showStates me own l s).2 := by
  induction l generalizing s with
  | nil => exact .refl s
  | cons e t ih =>
    unfold showStates
    split
    · exact ih s
    · split
      · exact ih s
      · exact Kept.trans (t := (draw s).2) ⟨rfl, rfl, rfl, rfl, rfl, rfl, rfl, rfl, rfl, rfl, rfl, id⟩ (ih _)

theorem kept_sendCtl (dst mgroup cycle : Nat) (ccw : Bool) (payload : List Byte) : Kept s (sendCtl dst mgroup cycle ccw payload s) := by
  unfold sendCtl
  exact kept_originate s _

theorem kept_sendCtlAll (cycle : Nat) (payload : List Byte) : Kept s (sendCtlAll cycle payload s) := kept_sendCtl s _ _ _ _ _

theorem kept_sendLight (l : LightList) : Kept s (sendLight l s) := by
  have hring : ∀ (v : State) (f : RingState → RingState), (∀ r, (f r).light = r.light ∧ (f r).node = r.node) → Kept v (modRing f v) :=
    fun v f hf => ⟨rfl, rfl, rfl, rfl, rfl, rfl, rfl, rfl, (hf _).1, (hf _).2, rfl, id⟩
  unfold sendLight
  dsimp only
  split
  · exact ((kept_sendCtlAll s _ _).trans (kept_sendCtlAll _ _ _)).trans (hring _ _ fun _ => ⟨rfl, rfl⟩)
  · exact (kept_sendCtlAll s _ _).trans (hring _ _ fun _ => ⟨rfl, rfl⟩)

theorem kept_newGeneration (f : LightList → LightList) : Kept s (newGeneration f s) := by
  unfold newGeneration newGenerationAt
  split
  · exact .refl s
  · extract_lets m r n
    have hr : Kept s r.2 := kept_showStates s _ _ _
    exact (hr.trans (t := r.2) (u := modRing _ r.2) ⟨rfl, rfl, rfl, rfl, rfl, rfl, rfl, rfl, rfl, rfl, rfl, id⟩).trans (kept_sendLight _ _)

theorem kept_sendJoin : Kept s (sendJoin s) := by
  unfold sendJoin
  extract_lets m u
  split
  · exact .refl s
  · exact (kept_sendCtl s _ _ _ _ _).trans ⟨rfl, rfl, rfl, rfl, rfl, rfl, rfl, rfl, rfl, rfl, rfl, id⟩

theorem kept_requestCharge (ps : List (Nat × Nat × Nat)) : Kept s (requestCharge ps s) := by
  unfold requestCharge
  extract_lets q u
  split
  · exact .refl s
  · split
    · exact Kept.trans (t := u) ⟨rfl, rfl, rfl, rfl, rfl, rfl, rfl, rfl, rfl, rfl, rfl, id⟩ (kept_onlyIf u _ (kept_newGeneration _ _))
    · exact Kept.trans (t := modRing _ s) ⟨rfl, rfl, rfl, rfl, rfl, rfl, rfl, rfl, rfl, rfl, rfl, id⟩ (kept_sendJoin _)

end

/-! ## Changes of the update state alone -/

/-- Nothing but the update state differs, and neither tags nor the identity block there. -/
structure UpdMoved (s t : State) : Prop where
  eq : t = { s with upd := t.upd }
  tags : t.upd.tags = s.upd.tags
  tagLocks : t.upd.tagLocks = s.upd.tagLocks
  ident : t.upd.ident = s.upd.ident

theorem UpdMoved.refl (s : State) : UpdMoved s s := ⟨rfl, rfl, rfl, rfl⟩

theorem UpdMoved.trans {s t u : State} (h : UpdMoved s t) (k : UpdMoved t u) : UpdMoved s u := by
  refine ⟨?_, k.tags.trans h.tags, k.tagLocks.trans h.tagLocks, k.ident.trans h.ident⟩
  rw [k.eq, h.eq]

section
variable (s : State)

theorem updMoved_modComp (k : Nat) (f : FwComp → FwComp) : UpdMoved s (modComp k f s) := ⟨rfl, rfl, rfl, rfl⟩
theorem updMoved_exchange (st : LehrSt) : UpdMoved s (exchangeCfg st s) := ⟨rfl, rfl, rfl, rfl⟩

theorem updMoved_endOwner : UpdMoved s (endOwner s) := by
  unfold endOwner
  split
  · cases h : s.upd.lehrSt == .receiving <;> exact ⟨rfl, rfl, rfl, rfl⟩
  · exact ⟨rfl, rfl, rfl, rfl⟩
  · exact ⟨rfl, rfl, rfl, rfl⟩

theorem updMoved_ownerGone : UpdMoved s (ownerGone s) := by
  have honly : ∀ b, UpdMoved s (onlyIf b endOwner s) := by
    intro b
    cases b
    · exact .refl s
    · exact updMoved_endOwner s
  unfold ownerGone
  split
  · exact honly _
  · exact .refl s

theorem updMoved_enterTrial (c : Nat) : UpdMoved s (enterTrial c s) := by
  unfold enterTrial
  extract_lets u
  have hu : UpdMoved s u := updMoved_modComp s _ _
  split
  · exact hu.trans (updMoved_exchange _ _)
  · exact hu

theorem updMoved_startByReset (cs : List Nat) : UpdMoved s (startByReset cs s) := by
  unfold startByReset
  split
  · split
    · exact UpdMoved.trans (t := modUpd _ s) ⟨rfl, rfl, rfl, rfl⟩ (updMoved_enterTrial _ _)
    · exact .refl s
  · exact .refl s

theorem updMoved_fallBack (failed : Bool) : UpdMoved s (fallBack failed s) := by
  unfold fallBack
  split
  · exact .refl s
  · extract_lets end_ u v
    have hu : UpdMoved s u := updMoved_modComp s _ _
    have hv : UpdMoved u v := by
      unfold v
      split
      · exact updMoved_exchange _ _
      · exact .refl u
    exact ((hu.trans hv).trans (updMoved_endOwner v)).trans ⟨rfl, rfl, rfl, rfl⟩

theorem updMoved_fallAtCause (c : Nat) : UpdMoved s (fallAtCause c s) := by
  unfold fallAtCause onlyIf
  split
  · exact updMoved_fallBack s _
  · exact .refl s

/-! ## What every reset stops -/

/-- The parts of the input stage and of PWRGD that no reset touches. -/
def supply (p : PowerState) : List Bool × List Nat × Option Nat × Byte :=
  ([p.stageOn, p.pwrgd, p.ovLock], [p.ov, p.trips], p.tripUp, p.rails)

theorem outletsReset_frame (wide : Bool) : ∃ p f, outletsReset wide s = { s with power := p, faults := f }
    ∧ f.frozen = s.faults.frozen ∧ f.backup = s.faults.backup ∧ supply p = supply s.power := by
  have hfold : ∀ (l : List Nat) (v : State), ∃ p, forEach l (fun o s => modOutlet o (outletReset wide) s) v = { v with power := p } ∧ supply p = supply v.power := by
    intro l
    induction l with
    | nil => exact fun v => ⟨v.power, rfl, rfl⟩
    | cons o t ih =>
      intro v
      obtain ⟨p, hp, hs⟩ := ih (modOutlet o (outletReset wide) v)
      exact ⟨p, hp, hs⟩
  obtain ⟨p, hp, hs⟩ := hfold (List.range 32) s
  unfold outletsReset
  rw [hp]
  exact ⟨p, _, rfl, rfl, rfl, hs⟩

/-- What a reset of the field leaves of the rest of the hub (R387). -/
structure FieldStopped (s t : State) : Prop where
  hub : t.hub = s.hub
  asserted : t.reset_.asserted = s.reset_.asserted
  inReset : t.reset_.inReset = s.reset_.inReset
  reach : t.reset_.reach = s.reset_.reach
  recLoss : t.reset_.recLoss = s.reset_.recLoss
  countMode : t.reset_.countMode = s.reset_.countMode
  up : t.time.up = s.time.up
  tags : t.upd.tags = s.upd.tags
  tagLocks : t.upd.tagLocks = s.upd.tagLocks
  ident : t.upd.ident = s.upd.ident
  chans : t.chans = []
  engines : t.engines = []
  light : t.ring.light = s.ring.light
  node : t.ring.node = s.ring.node
  cmd : t.cmd = s.cmd
  master : t.master = s.master
  frozen : t.faults.frozen = s.faults.frozen
  backup : t.faults.backup = s.faults.backup
  supply : supply t.power = supply s.power

variable {s} in
theorem FieldStopped.condEnd {t : State} (h : FieldStopped s t) (c : Nat) (still : Bool) : FieldStopped s (condEnd c still t) := by
  cases still
  · exact ⟨h.hub, h.asserted, h.inReset, h.reach, h.recLoss, h.countMode, h.up, h.tags, h.tagLocks, h.ident, h.chans, h.engines, h.light, h.node, h.cmd, h.master,
      h.frozen, h.backup, h.supply⟩
  · exact h

variable {s} in
theorem FieldStopped.resetRegs {t : State} (h : FieldStopped s t) (r : Reach) : FieldStopped s (resetRegs r t) :=
  ⟨h.hub, h.asserted, h.inReset, h.reach, h.recLoss, h.countMode, h.up, h.tags, h.tagLocks, h.ident, h.chans, h.engines, h.light, h.node, h.cmd,
    h.master, h.frozen, h.backup, h.supply⟩

variable {s} in
theorem FieldStopped.moved {t u : State} (h : FieldStopped s t) (k : UpdMoved t u) : FieldStopped s u := by
  have hsame : ∀ {α : Type} (g : State → α), g u = g { t with upd := u.upd } := fun g => congrArg g k.eq
  exact ⟨(hsame State.hub).trans h.hub, (hsame (·.reset_.asserted)).trans h.asserted, (hsame (·.reset_.inReset)).trans h.inReset,
    (hsame (·.reset_.reach)).trans h.reach, (hsame (·.reset_.recLoss)).trans h.recLoss, (hsame (·.reset_.countMode)).trans h.countMode,
    (hsame (·.time.up)).trans h.up, k.tags.trans h.tags, k.tagLocks.trans h.tagLocks, k.ident.trans h.ident, (hsame State.chans).trans h.chans,
    (hsame State.engines).trans h.engines, (hsame (·.ring.light)).trans h.light, (hsame (·.ring.node)).trans h.node, (hsame State.cmd).trans h.cmd,
    (hsame State.master).trans h.master, (hsame (·.faults.frozen)).trans h.frozen, (hsame (·.faults.backup)).trans h.backup,
    (hsame (fun v => Proofs.supply v.power)).trans h.supply⟩

theorem fieldReset_stops (wide : Bool) : FieldStopped s (fieldReset wide s) := by
  obtain ⟨p, f, hout, hfrozen, hbackup, hsupply⟩ := outletsReset_frame s wide
  have hfold : ∀ (l : List Nat) (t : State), FieldStopped s t → FieldStopped s (l.foldl (fun s c => condEnd c false s) t) := by
    intro l
    induction l with
    | nil => exact fun t h => h
    | cons c l ih => exact fun t h => ih _ (h.condEnd c false)
  unfold fieldReset
  rw [hout]
  extract_lets o u v w x y
  have hu : FieldStopped s u := ⟨rfl, rfl, rfl, rfl, rfl, rfl, rfl, rfl, rfl, rfl, rfl, rfl, rfl, rfl, rfl, rfl, hfrozen, hbackup, hsupply⟩
  have hv : FieldStopped s v := hfold _ u hu
  exact ⟨hv.hub, hv.asserted, hv.inReset, hv.reach, hv.recLoss, hv.countMode, hv.up, hv.tags, hv.tagLocks, hv.ident, hv.chans, hv.engines, hv.light, hv.node, hv.cmd,
    hv.master, hv.frozen, hv.backup, hv.supply⟩

/-! ## The resets -/

/-- A SERVICE reset keeps the ring and the sessions (R53, R387). -/
theorem serviceReset_keeps : ∃ t, FieldStopped s t
    ∧ Kept (modCmd (fun c => { c with pendingReset := none, heldPushes := [] }) t) (serviceReset s) := by
  refine ⟨_, ((fieldReset_stops s false).resetRegs .service).moved (updMoved_startByReset _ [1, 2]), ?_⟩
  unfold serviceReset
  dsimp only
  exact ((kept_abortInflight _).trans (kept_foldl (fun u h => (kept_bumpBy u _ _).trans (kept_detect _ _ _)) _ _)).trans (kept_requestCharge _ _)

/-- The parts of the hub that a WARM or COLD reset clears (R387, R419). -/
structure Cleared (s t : State) : Prop where
  sw : t.sw = {}
  master : t.master = { saved := s.master.saved }
  light : t.ring.light = none
  node : t.ring.node = 0
  sources : t.faults.sources = []
  inflight : t.cmd.inflight = []
  suspended : ∀ se ∈ t.cmd.sessions, se.suspended = true
  noReset : t.cmd.pendingReset = none

/-- What neither reset touches (R387). -/
structure Beyond (s t : State) : Prop where
  hub : t.hub = s.hub
  asserted : t.reset_.asserted = s.reset_.asserted
  inReset : t.reset_.inReset = s.reset_.inReset
  reach : t.reset_.reach = s.reset_.reach
  up : t.time.up = s.time.up
  tags : t.upd.tags = s.upd.tags
  tagLocks : t.upd.tagLocks = s.upd.tagLocks
  ident : t.upd.ident = s.upd.ident
  chans : t.chans = []
  engines : t.engines = []

/-- All sessions stand suspended, and nothing of theirs goes on (R53). -/
theorem suspendSessions_clears : ∃ c, suspendSessions s = { s with cmd := c } ∧ c.inflight = [] ∧ c.pendingReset = none
    ∧ ∀ se ∈ c.sessions, se.suspended = true := by
  have hend : ∀ (l : List Assembly) (v : State), ∃ c, l.foldl (fun s a => endAssembly a.cmd.session .aborted s) v = { v with cmd := c } := by
    intro l
    induction l with
    | nil => exact fun v => ⟨v.cmd, rfl⟩
    | cons a l ih =>
      intro v
      have hone : ∃ c, endAssembly a.cmd.session .aborted v = { v with cmd := c } := by
        unfold endAssembly
        split
        · exact ⟨_, rfl⟩
        · exact ⟨v.cmd, rfl⟩
      obtain ⟨c, hc⟩ := hone
      obtain ⟨d, hd⟩ := ih (endAssembly a.cmd.session .aborted v)
      exact ⟨d, hd.trans (by rw [hc])⟩
  obtain ⟨c, hc⟩ := hend s.cmd.partials s
  unfold suspendSessions
  rw [hc]
  refine ⟨_, rfl, rfl, rfl, fun se hse => ?_⟩
  obtain ⟨x, -, rfl⟩ := List.mem_map.mp hse
  split
  · assumption
  · rfl

/-- The last step of a WARM or COLD reset: everything but the backup domain and MRAM starts anew (R387, R419). -/
def clearedHub (b : State) : State := { b with
  changes := 0
  maps := { n := b.maps.n }
  ring := { east := portReset b.ring.east, west := portReset b.ring.west }
  sw := {}, master := { saved := b.master.saved }, time := timeReset b.time, cv := { lastScrubUp := b.time.up, lastImageUp := b.time.up }
  power := { b.power with level := 0, plTarget := none, plClocks := false, plVcore := false, plLastUs := 0, tjHigh := false }
  reset_ := { b.reset_ with bootStep := 1, bootLastMs := 0 }
  faults := { b.faults with sources := [], latches := [], ovf := [], pend := 0, commits := [] }
  cmd := { b.cmd with mntPtr := 0, mntInBad := false } }

theorem warmReset_eq (r : Reach) : warmReset r s
    = clearedHub (ownerGone (startByReset [0, 1, 2, 3] (resetRegs r (fieldReset true (suspendSessions s))))) := rfl

theorem warmReset_clears (r : Reach) : Beyond s (warmReset r s) ∧ Cleared s (warmReset r s)
    ∧ (warmReset r s).reset_.recLoss = s.reset_.recLoss ∧ (warmReset r s).reset_.countMode = s.reset_.countMode
    ∧ (warmReset r s).faults.frozen = s.faults.frozen ∧ (warmReset r s).faults.backup = s.faults.backup
    ∧ supply (warmReset r s).power = supply s.power := by
  obtain ⟨c, hs, hin, hreset, hsusp⟩ := suspendSessions_clears s
  rw [warmReset_eq, hs]
  have hb := (((fieldReset_stops { s with cmd := c } true).resetRegs r).moved (updMoved_startByReset _ [0, 1, 2, 3])).moved (updMoved_ownerGone _)
  generalize ownerGone (startByReset [0, 1, 2, 3] (resetRegs r (fieldReset true { s with cmd := c }))) = b at hb ⊢
  have hmaster : clearedHub b = { clearedHub b with master := { saved := s.master.saved } } :=
    congrArg (fun m : MasterState => { clearedHub b with master := { saved := m.saved } }) hb.master
  refine ⟨⟨hb.hub, hb.asserted, hb.inReset, hb.reach, hb.up, hb.tags, hb.tagLocks, hb.ident, hb.chans, hb.engines⟩,
    ⟨rfl, congrArg State.master hmaster, rfl, rfl, rfl, (congrArg CmdState.inflight hb.cmd).trans hin, fun se hse => ?_,
      (congrArg CmdState.pendingReset hb.cmd).trans hreset⟩, hb.recLoss, hb.countMode, hb.frozen, hb.backup, hb.supply⟩
  exact hsusp se (Eq.mp (congrArg (fun q : CmdState => se ∈ q.sessions) hb.cmd) hse)

theorem serviceReset_beyond : Beyond s (serviceReset s) ∧ (serviceReset s).ring.light = s.ring.light
    ∧ (serviceReset s).ring.node = s.ring.node ∧ (serviceReset s).cmd.sessions.map (·.num) = s.cmd.sessions.map (·.num)
    ∧ (serviceReset s).cmd.pendingReset = none := by
  obtain ⟨t, hf, hk⟩ := serviceReset_keeps s
  exact ⟨⟨hk.hub.trans hf.hub, (congrArg ResetState.asserted hk.reset).trans hf.asserted, (congrArg ResetState.inReset hk.reset).trans hf.inReset,
      (congrArg ResetState.reach hk.reset).trans hf.reach, (congrArg TimeState.up hk.time).trans hf.up, hk.tags.trans hf.tags,
      hk.tagLocks.trans hf.tagLocks, hk.ident.trans hf.ident, hk.chans.trans hf.chans, hk.engines.trans hf.engines⟩,
    hk.light.trans hf.light, hk.node.trans hf.node, hk.nums.trans (congrArg (fun q : CmdState => q.sessions.map (·.num)) hf.cmd), hk.noReset rfl⟩

end

/-! ## The assertion -/

/-- What the record of an assertion, its fall-back and the change of state leave alone. -/
structure Noted (s v : State) : Prop where
  asserted : v.reset_.asserted = s.reset_.asserted
  inReset : v.reset_.inReset = s.reset_.inReset
  reach : v.reset_.reach = s.reset_.reach
  recLoss : v.reset_.recLoss = s.reset_.recLoss
  countMode : v.reset_.countMode = s.reset_.countMode
  up : v.time.up = s.time.up
  tags : v.upd.tags = s.upd.tags
  tagLocks : v.upd.tagLocks = s.upd.tagLocks
  ident : v.upd.ident = s.upd.ident
  chans : v.chans = s.chans
  engines : v.engines = s.engines
  sw : v.sw = s.sw
  maps : v.maps = s.maps
  master : v.master = s.master
  ring : v.ring = s.ring
  faults : v.faults = s.faults
  power : v.power = s.power
  nums : v.cmd.sessions.map (·.num) = s.cmd.sessions.map (·.num)
  noReset : s.cmd.pendingReset = none → v.cmd.pendingReset = none

theorem Noted.refl (s : State) : Noted s s := ⟨rfl, rfl, rfl, rfl, rfl, rfl, rfl, rfl, rfl, rfl, rfl, rfl, rfl, rfl, rfl, rfl, rfl, rfl, id⟩

theorem Noted.trans {s t u : State} (h : Noted s t) (k : Noted t u) : Noted s u :=
  ⟨k.asserted.trans h.asserted, k.inReset.trans h.inReset, k.reach.trans h.reach, k.recLoss.trans h.recLoss, k.countMode.trans h.countMode,
    k.up.trans h.up, k.tags.trans h.tags, k.tagLocks.trans h.tagLocks, k.ident.trans h.ident, k.chans.trans h.chans, k.engines.trans h.engines,
    k.sw.trans h.sw, k.maps.trans h.maps, k.master.trans h.master, k.ring.trans h.ring, k.faults.trans h.faults, k.power.trans h.power, k.nums.trans h.nums,
    fun hn => k.noReset (h.noReset hn)⟩

section
variable (s : State)

theorem noted_recordCause (c : Nat) : Noted s (recordCause c s) ∧ (recordCause c s).hub = s.hub := by
  unfold recordCause
  dsimp only
  split
  · exact ⟨⟨rfl, rfl, rfl, rfl, rfl, rfl, rfl, rfl, rfl, rfl, rfl, rfl, rfl, rfl, rfl, rfl, rfl, rfl, id⟩, rfl⟩
  · split
    · exact ⟨⟨rfl, rfl, rfl, rfl, rfl, rfl, rfl, rfl, rfl, rfl, rfl, rfl, rfl, rfl, rfl, rfl, rfl, rfl, id⟩, rfl⟩
    · exact ⟨.refl s, rfl⟩

theorem noted_fallAtCause (c : Nat) : Noted s (fallAtCause c s) ∧ (fallAtCause c s).hub = s.hub := by
  have h := updMoved_fallAtCause s c
  have hsame : ∀ {α : Type} (g : State → α), g (fallAtCause c s) = g { s with upd := (fallAtCause c s).upd } := fun g => congrArg g h.eq
  exact ⟨⟨hsame (·.reset_.asserted), hsame (·.reset_.inReset), hsame (·.reset_.reach), hsame (·.reset_.recLoss), hsame (·.reset_.countMode),
    hsame (·.time.up), h.tags, h.tagLocks, h.ident, hsame State.chans, hsame State.engines, hsame State.sw, hsame State.maps, hsame State.master,
    hsame State.ring, hsame State.faults, hsame State.power, hsame (·.cmd.sessions.map (·.num)), fun hn => (hsame (·.cmd.pendingReset)).trans hn⟩, hsame State.hub⟩

/-- The change of state is told to the sessions (R54); of the reset record only the length of the last BOOT moves. -/
theorem noted_toHub (new : HubState) (cause : Option Nat) : Noted s (toHub new cause s) ∧ (toHub new cause s).hub = new := by
  have htold : ∀ (v w : State) (ps : List Byte), Noted s v → w = { v with hub := new, changes := w.changes } → Noted s (emit 1 ps w) ∧ (emit 1 ps w).hub = new := by
    intro v w ps h hw
    have hk := kept_emit w 1 ps
    have hsame : ∀ {α : Type} (g : State → α), g w = g { v with hub := new, changes := w.changes } := fun g => congrArg g hw
    exact ⟨h.trans ⟨hsame (·.reset_.asserted), hsame (·.reset_.inReset), hsame (·.reset_.reach), hsame (·.reset_.recLoss),
      hsame (·.reset_.countMode), hsame (·.time.up), hsame (·.upd.tags), hsame (·.upd.tagLocks), hsame (·.upd.ident), hsame State.chans,
      hsame State.engines, hsame State.sw, hsame State.maps, hsame State.master, hsame State.ring, hsame State.faults, hsame State.power,
      hk.nums.trans (hsame (·.cmd.sessions.map (·.num))), fun hn => hk.noReset ((hsame (·.cmd.pendingReset)).trans hn)⟩, hsame State.hub⟩
  unfold toHub
  split
  · rename_i h
    exact ⟨.refl s, h⟩
  · have hleft : ∀ v : State, Noted s v → Noted s (if v.hub = .boot then
        modReset (fun x => { x with bootLastMs := if new = .off then x.bootLastMs else min 0xFFFF (since x.bootUp v / 2000) })
          (modCmd (fun x => { x with leftBootUp := v.time.up }) v) else v) := by
      intro v hv
      split
      · exact hv.trans ⟨rfl, rfl, rfl, rfl, rfl, rfl, rfl, rfl, rfl, rfl, rfl, rfl, rfl, rfl, rfl, rfl, rfl, rfl, id⟩
      · exact hv
    cases cause with
    | some c => exact htold _ _ _ (hleft s (.refl s)) rfl
    | none =>
      exact htold _ _ _ (hleft (draw s).2 ⟨rfl, rfl, rfl, rfl, rfl, rfl, rfl, rfl, rfl, rfl, rfl, rfl, rfl, rfl, rfl, rfl, rfl, rfl, id⟩) rfl

theorem noted_saveTrial : Noted s (saveTrial s) ∧ (saveTrial s).hub = s.hub :=
  ⟨⟨rfl, rfl, rfl, rfl, rfl, rfl, rfl, rfl, rfl, rfl, rfl, rfl, rfl, rfl, rfl, rfl, rfl, rfl, id⟩, rfl⟩

theorem noted_onlyIf_loseTime (b : Bool) : Noted s (onlyIf b loseTime s) ∧ (onlyIf b loseTime s).hub = s.hub := by
  cases b
  · exact ⟨.refl s, rfl⟩
  · exact ⟨⟨rfl, rfl, rfl, rfl, rfl, rfl, rfl, rfl, rfl, rfl, rfl, rfl, rfl, rfl, rfl, rfl, rfl, rfl, id⟩, rfl⟩

/-- What an assertion does last: the reset of its reach (R387). -/
def reachReset (r : Reach) (s : State) : State := match r with
  | .service => serviceReset s
  | _ => warmReset r s

theorem reachReset_eq (r : Reach) : reachReset r s = if r = .service then serviceReset s else warmReset r s := by
  unfold reachReset
  split
  · exact (if_pos rfl).symm
  · rename_i h
    exact (if_neg h).symm

/-- An assertion before its reach takes effect (R386, R388). -/
structure Asserting (c : Nat) (s v : State) : Prop where
  hub : v.hub = if c = 1 ∨ c = 2 ∨ s.hub = .off then .off else .boot
  inReset : v.reset_.inReset = true
  noted : Noted { s with reset_ := { s.reset_ with
    asserted := s.reset_.asserted ++ [(c, s.time.up)], inReset := true
    reach := if s.reset_.inReset = false ∨ reachNo (causeReach c) < reachNo s.reset_.reach then causeReach c else s.reset_.reach } } v

theorem assertSource_cases {c : Nat} (hfirst : s.reset_.asserted.any (fun a => a.1 == c) = false) : ∃ v, Asserting c s v
    ∧ assertSource c s = if s.reset_.inReset = false ∨ reachNo (causeReach c) < reachNo s.reset_.reach then
        (if causeReach c = .service then serviceReset v else warmReset (causeReach c) v) else v := by
  unfold assertSource
  rw [if_neg (by rw [hfirst]; decide)]
  extract_lets u r wider off v dest w x y
  obtain ⟨hrecord, hrecordHub⟩ := noted_recordCause s c
  obtain ⟨hfall, hfallHub⟩ := noted_fallAtCause (recordCause c s) c
  have hu : Noted s u := hrecord.trans hfall
  have huHub : u.hub = s.hub := hfallHub.trans hrecordHub
  have hwider : wider = true ↔ s.reset_.inReset = false ∨ reachNo (causeReach c) < reachNo s.reset_.reach := by
    have hin : u.reset_.inReset = s.reset_.inReset := hu.inReset
    have hre : u.reset_.reach = s.reset_.reach := hu.reach
    simp [wider, hin, hre, r]
  have hv : Noted { s with reset_ := { s.reset_ with
      asserted := s.reset_.asserted ++ [(c, s.time.up)], inReset := true
      reach := if s.reset_.inReset = false ∨ reachNo (causeReach c) < reachNo s.reset_.reach then causeReach c else s.reset_.reach } } v := by
    refine ⟨?_, rfl, ?_, hu.recLoss, hu.countMode, hu.up, hu.tags, hu.tagLocks, hu.ident, hu.chans, hu.engines, hu.sw, hu.maps, hu.master, hu.ring,
      hu.faults, hu.power, hu.nums, hu.noReset⟩
    · show u.reset_.asserted ++ [(c, u.time.up)] = _
      rw [hu.asserted, hu.up]
    · show (if wider = true then r else u.reset_.reach) = _
      rw [hu.reach]
      exact ite_of_iff hwider _ _
  have hw : Noted v w := by
    unfold w
    split
    · exact (noted_saveTrial v).1
    · exact .refl v
  obtain ⟨hx, hxHub⟩ := noted_toHub w dest (if dest = .boot then some c else none)
  have hy := noted_onlyIf_loseTime x (dest == .off)
  have hnoted := ((hv.trans hw).trans hx).trans hy.1
  refine ⟨y, ⟨?_, hnoted.inReset, hnoted⟩, ?_⟩
  · have hvHub : v.hub = s.hub := huHub
    have hdest : dest = if c = 1 ∨ c = 2 ∨ s.hub = .off then .off else .boot := by simp [dest, off, hvHub, or_assoc]
    exact (hy.2.trans hxHub).trans hdest
  · by_cases hcond : s.reset_.inReset = false ∨ reachNo (causeReach c) < reachNo s.reset_.reach
    · rw [if_pos hcond, if_neg (by rw [hwider.mpr hcond]; decide)]
      exact reachReset_eq y (causeReach c)
    · rw [if_neg hcond, if_pos (by rw [Bool.not_eq_true', Bool.eq_false_iff]; exact fun h => hcond (hwider.mp h))]

/-- The fields of `AssertedBy` that an assertion shares with what its reach leaves. -/
theorem assertedBy_of_beyond {c : Nat} {v u : State} (h : Asserting c s v) (hu : Beyond v u)
    (hwide : s.reset_.inReset = false ∨ reachNo (causeReach c) < reachNo s.reset_.reach)
    (hfull : causeReach c ≠ .service → Cleared v u)
    (hservice : causeReach c = .service → u.ring.light = v.ring.light ∧ u.ring.node = v.ring.node
      ∧ u.cmd.sessions.map (·.num) = v.cmd.sessions.map (·.num)) : AssertedBy c s u := by
  have hn := h.noted
  refine ⟨hu.asserted.trans hn.asserted, hu.inReset.trans h.inReset, hu.hub.trans h.hub, hu.up.trans hn.up, hu.tags.trans hn.tags,
    hu.tagLocks.trans hn.tagLocks, hu.ident.trans hn.ident, fun _ => ⟨(hu.reach.trans hn.reach).trans (if_pos hwide), hu.chans, hu.engines,
      fun hr => ?_, fun hr => ?_⟩, fun hnot => ?_⟩
  · have hc := hfull hr
    refine ⟨hc.sw, hc.master.trans ?_, hc.light, hc.node, hc.sources, hc.inflight, hc.suspended⟩
    exact congrArg (fun m : MasterState => ({ saved := m.saved } : MasterState)) hn.master
  · obtain ⟨hlight, hnode, hnums⟩ := hservice hr
    exact ⟨hlight.trans (congrArg RingState.light hn.ring), hnode.trans (congrArg RingState.node hn.ring), hnums.trans hn.nums⟩
  · exfalso
    rcases hwide with hin | hreach
    · exact Bool.false_ne_true (hin.symm.trans hnot.1)
    · omega

/-- A source that is not asserted yet asserts its cause, with its reach (R386 to R388). -/
theorem assertSource_asserts {c : Nat} (hfirst : s.reset_.asserted.any (fun a => a.1 == c) = false) : AssertedBy c s (assertSource c s)
    ∧ (s.cmd.pendingReset = none → (assertSource c s).cmd.pendingReset = none)
    ∧ (causeReach c ≠ .service → (assertSource c s).reset_.recLoss = s.reset_.recLoss ∧ (assertSource c s).reset_.countMode = s.reset_.countMode
      ∧ (assertSource c s).faults.frozen = s.faults.frozen ∧ (assertSource c s).faults.backup = s.faults.backup
      ∧ supply (assertSource c s).power = supply s.power) := by
  obtain ⟨v, hv, heq⟩ := assertSource_cases s hfirst
  have hn := hv.noted
  rw [heq]
  split
  · rename_i hwide
    split
    · rename_i hservice
      obtain ⟨hbeyond, hlight, hnode, hnums, hnone⟩ := serviceReset_beyond v
      exact ⟨assertedBy_of_beyond s hv hbeyond hwide (fun h => absurd hservice h) (fun _ => ⟨hlight, hnode, hnums⟩), fun _ => hnone,
        fun h => absurd hservice h⟩
    · rename_i hfull
      obtain ⟨hbeyond, hcleared, hloss, hmode, hfrozen, hbackup, hsupply⟩ := warmReset_clears v (causeReach c)
      exact ⟨assertedBy_of_beyond s hv hbeyond hwide (fun _ => hcleared) (fun h => absurd h hfull), fun _ => hcleared.noReset,
        fun _ => ⟨hloss.trans hn.recLoss, hmode.trans hn.countMode, hfrozen.trans (congrArg FaultState.frozen hn.faults),
          hbackup.trans (congrArg FaultState.backup hn.faults), hsupply.trans (congrArg supply hn.power)⟩⟩
  · rename_i hnarrow
    refine ⟨⟨hn.asserted, hv.inReset, hv.hub, hn.up, hn.tags, hn.tagLocks, hn.ident, fun hwide => absurd hwide hnarrow,
      fun _ => ⟨hn.reach.trans (if_neg hnarrow), hn.chans, hn.engines, hn.sw, hn.maps⟩⟩, hn.noReset, fun _ => ⟨hn.recLoss, hn.countMode, ?_, ?_, ?_⟩⟩
    · exact congrArg FaultState.frozen hn.faults
    · exact congrArg FaultState.backup hn.faults
    · exact congrArg supply hn.power

end

/-- A critical state is asserted over the frozen log, its record in the backup domain (R415). -/
theorem critical_logs (s : State) (code : Nat) (hkind : code / 256 = 2) (hrow : (sourceRow code).isSome = true) (hfrozen : s.faults.frozen = false) :
    ∃ e : LogEntry, e.source = code
      ∧ critical code s = assertSource 0xB (modFaults (fun f => { f with frozen := true, frozenCount := 0, backup := some e }) s) := by
  refine ⟨_, rfl, if_neg ?_⟩
  rintro (h | h | h)
  · exact h hkind
  · rw [Option.isNone_iff_eq_none] at h
    rw [h] at hrow
    exact Bool.false_ne_true hrow
  · exact Bool.false_ne_true (hfrozen.symm.trans h)

theorem onlyIf_pos {b : Bool} {f : State → State} {s : State} (h : b = true) : onlyIf b f s = f s := if_pos h
theorem onlyIf_neg {b : Bool} {f : State → State} {s : State} (h : b = false) : onlyIf b f s = s := by rw [h]; rfl

/-- Settles O26: each source asserts through `assertSource`, or leaves the hub as it is. -/
theorem resetSources : Obligations.ResetSources := by
  unfold Obligations.ResetSources
  intro s
  refine ⟨fun hbad hfirst => ⟨?powerOn, ?powerEmpty⟩, fun ns hns hfirst => ?porst, fun ns hns hfirst => ?wrst, fun ns hns => ⟨?porstShort, ?wrstShort⟩,
    fun us hus hfirst => ?watchdog, fun us hus => ?watchdogServed, fun t us ht hus hfirst => ?thermal, fun t us hcool => ?cool,
    fun src hsrc hrow hfrozen hfirst => ?critical, fun r t c hpend hdue hc hfirst => ?command⟩
  case powerOn =>
    refine ⟨_, commit_goOn s _, ?_⟩
    have hon : powerOn false s = assertSource 0 s := by
      rw [powerOn]
      exact if_pos (by simp [hbad])
    rw [hon]
    exact (assertSource_asserts s hfirst).1
  case powerEmpty =>
    refine ⟨_, commit_goOn s _, ?_⟩
    have hon : powerOn true s = assertSource 0 (backupEmpty s) := by
      rw [powerOn]
      exact if_pos (.inl rfl)
    obtain ⟨hasserts, -, hrest⟩ := assertSource_asserts (backupEmpty s) (c := 0) hfirst
    obtain ⟨hloss, hmode, -⟩ := hrest (by decide)
    rw [hon]
    exact ⟨hasserts, hloss, hmode⟩
  case porst => exact ⟨_, commit_goOn s _, by rw [ballReset, onlyIf_pos (decide_eq_true hns)]; exact (assertSource_asserts s hfirst).1⟩
  case wrst => exact ⟨_, commit_goOn s _, by rw [ballReset, onlyIf_pos (decide_eq_true hns)]; exact (assertSource_asserts s hfirst).1⟩
  case porstShort => exact effectIs_eq (onlyIf_neg (decide_eq_false (Nat.not_le.mpr hns)))
  case wrstShort => exact effectIs_eq (onlyIf_neg (decide_eq_false (Nat.not_le.mpr hns)))
  case watchdog => exact ⟨_, commit_goOn s _, by rw [watchdog, onlyIf_pos (decide_eq_true hus)]; exact (assertSource_asserts s hfirst).1⟩
  case watchdogServed => exact effectIs_eq (onlyIf_neg (decide_eq_false (Nat.not_le.mpr hus)))
  case thermal =>
    refine ⟨_, commit_goOn s _, ?_⟩
    have hon : thermal t us s = assertSource 3 (modPower (fun p => { p with junctionDeciC := t }) s) := if_pos ⟨ht, hus⟩
    rw [hon]
    exact (assertSource_asserts (modPower (fun p => { p with junctionDeciC := t }) s) hfirst).1
  case cool =>
    refine effectIs_eq (if_neg ?_)
    rintro ⟨hhot, hlong⟩
    have hlimit : (if orderCode s = 2 then (1450 : Int) else 1350) ≤ t := hhot
    rcases hcool with h | h
    · omega
    · omega
  case critical =>
    obtain ⟨e, hsource, heq⟩ := critical_logs s src.toNat hsrc hrow hfrozen
    refine ⟨_, commit_goOn s _, ?_⟩
    rw [heq]
    obtain ⟨hasserts, -, hrest⟩ := assertSource_asserts (modFaults (fun f => { f with frozen := true, frozenCount := 0, backup := some e }) s)
      (c := 0xB) hfirst
    obtain ⟨-, -, hfrozenThen, hbackup, -⟩ := hrest (by decide)
    exact ⟨hasserts, hfrozenThen, e, hbackup, hsource⟩
  case command =>
    refine ⟨_, commit_goOn s _, ?_⟩
    have hact : commandResetAssert s = assertSource c (modCmd (fun q => { q with pendingReset := none }) s) := by
      rw [commandResetAssert, hpend, hc]
      exact if_pos (by unfold since; omega)
    obtain ⟨hasserts, hnone, -⟩ := assertSource_asserts (modCmd (fun q => { q with pendingReset := none }) s) (c := c) hfirst
    rw [hact]
    exact ⟨hasserts, hnone rfl⟩

end Sys2Proof.Proofs
end

section
/-! Reset requests (R390, R391, R401 to R403). -/

namespace Sys2Proof.Proofs

open Sys2Proof Sys2Proof.Machine Sys2Proof.Laws

section
variable {s : State}

/-- A write of RST_CTL with its key and a reach wider than BLOCK asks for that reset (R390). -/
theorem hostReset_asks {r : Reach} (kind index : Nat) (hfree : barFree s = true) (hr : r ≠ .block) :
    hostReset (reachNo r) 0xC3 kind index s = modCmd (fun c => { c with pendingReset := some (r, s.time.up) }) s := by
  rw [hostReset, if_pos hfree]
  cases r with
  | block => exact absurd rfl hr
  | cold | warm | service => exact congrArg Prod.snd ((if_neg (by simp [reachNo])).trans (if_neg (by decide)))

/-- A BLOCK reset of a unit that the kind has resets it at once (R390, R391). -/
theorem hostReset_block {kind index : Nat} (hfree : barFree s = true) (hunit : unitOk kind index = true) :
    hostReset 3 0xC3 kind index s = blockUnit kind index s := by
  rw [hostReset, if_pos hfree]
  exact congrArg Prod.snd ((if_neg (by simp [hunit])).trans (if_pos rfl))

/-- Another key, or an index that the kind does not have, is a reserved encoding (R391). -/
theorem hostReset_reserved {reach key kind index : Nat} (hfree : barFree s = true)
    (hbad : key ≠ 0xC3 ∨ (reach = 3 ∧ (!unitOk kind index) = true)) : hostReset reach key kind index s = setFld 0x008 0 1 1 s := by
  rw [hostReset, if_pos hfree]
  exact congrArg Prod.snd (if_pos hbad)

/-- An engine that is not active is reset with its FIFOs counted and emptied (R387). -/
theorem engineReset_inactive {e : Nat} (hactive : leActive (leState s e) = false) : engineReset e s =
    bumpBy (leAddr e 0x08C) ((engine s e).push.length + (engine s e).pull.length) (modEngine e (fun x => { x with
      lstate := 0, shift := 0, count := 0, counter := 0, push := [], pull := [], tickPend := false, lastTick := tickNow s
      evtCode := 0, evtPend := false, stalled := none, haltPend := false, abandoned := false }) s) := by
  unfold engineReset
  rw [if_neg (by rw [hactive]; decide)]

theorem recModeSet_same : recModeSet s.reset_.countMode s = s := if_pos rfl

theorem recModeSet_other {mode : Bool} (h : mode ≠ s.reset_.countMode) :
    recModeSet mode s = modReset (fun r => { r with countMode := mode }) (recClear s) := if_neg (fun he => h he.symm)

/-- A host's write of RST_REC sets MODE, and clears the record where CLR is set (R401, R402). -/
theorem hostWrite_record (mode clear : Bool) (hfree : barFree s = true) :
    hostWrite 0x10008 (b2n clear * 2 ^ 31 + b2n mode) s = onlyIf clear recClear (recModeSet mode s) := by
  rw [hostWrite, if_pos hfree]
  cases mode <;> cases clear <;> rfl

end

/-- Settles O27: a taken request notes the reset or resets its unit; every other write is a reserved encoding. -/
theorem resetRequests : Obligations.ResetRequests := by
  unfold Obligations.ResetRequests
  intro s hfree
  refine ⟨fun kind index => ⟨?_, ?_, ?_⟩, fun p => ?_, fun e he hactive => ?_, fun key kind index hkey => ?_, fun kind index hunit => ?_, ?_,
    fun mode hmode => ?_, ?_⟩
  · exact effectIs_eq (hostReset_asks (r := .cold) _ _ hfree (by decide))
  · exact effectIs_eq (hostReset_asks (r := .warm) _ _ hfree (by decide))
  · exact effectIs_eq (hostReset_asks (r := .service) _ _ hfree (by decide))
  · cases p with
    | east => exact effectIs_eq (hostReset_block (kind := 3) (index := 0) hfree rfl)
    | west => exact effectIs_eq (hostReset_block (kind := 3) (index := 1) hfree rfl)
  · exact effectIs_eq ((hostReset_block (kind := 1) hfree (decide_eq_true he)).trans (engineReset_inactive hactive))
  · have hne : key.toNat ≠ 0xC3 := fun h => hkey (BitVec.eq_of_toNat_eq h)
    exact ⟨effectIs_eq (hostReset_reserved hfree (.inl hne)), effectIs_eq (hostReset_reserved hfree (.inl hne)),
      effectIs_eq (hostReset_reserved hfree (.inl hne)), effectIs_eq (hostReset_reserved hfree (.inl hne))⟩
  · exact effectIs_eq (hostReset_reserved hfree (.inr ⟨rfl, by rw [hunit]; rfl⟩))
  · refine effectIs_eq ((hostWrite_record s.reset_.countMode true hfree).trans ?_)
    rw [recModeSet_same, onlyIf_pos rfl, recClear]
  · refine effectIs_eq (Eq.trans (congrArg (hostWrite 0x10008 · s) (Nat.zero_add (b2n mode)).symm) ((hostWrite_record mode false hfree).trans ?_))
    rw [recModeSet_other hmode, onlyIf_neg rfl]
    rfl
  · refine effectIs_eq (Eq.trans (congrArg (hostWrite 0x10008 · s) (Nat.zero_add (b2n _)).symm)
      ((hostWrite_record s.reset_.countMode false hfree).trans ?_))
    rw [recModeSet_same, onlyIf_neg rfl]

end Sys2Proof.Proofs
end

section
/-! The end of a reset and BOOT (R386, R388, R395, R396, R399, R466). -/

namespace Sys2Proof.Proofs

open Sys2Proof Sys2Proof.Machine Sys2Proof.Laws

section
variable (s : State)

/-- What fault records, events and the loss of ring time leave of the hub that BOOT begins with. -/
structure BootKept (s t : State) : Prop where
  hub : t.hub = s.hub
  reset : t.reset_ = s.reset_
  up : t.time.up = s.time.up
  lost : s.time.holds = false → t.time.holds = false
  chans : t.chans = s.chans
  mnt : t.cmd.mntOut = s.cmd.mntOut

theorem BootKept.refl (s : State) : BootKept s s := ⟨rfl, rfl, rfl, id, rfl, rfl⟩

theorem BootKept.trans {s t u : State} (h : BootKept s t) (k : BootKept t u) : BootKept s u :=
  ⟨k.hub.trans h.hub, k.reset.trans h.reset, k.up.trans h.up, fun hl => k.lost (h.lost hl), k.chans.trans h.chans, k.mnt.trans h.mnt⟩

theorem bootKept_onlyIf {f : State → State} (b : Bool) (h : BootKept s (f s)) : BootKept s (onlyIf b f s) := by
  cases b
  · exact .refl s
  · exact h

theorem bootKept_foldl {β : Type} {f : State → β → State} (h : ∀ s b, BootKept s (f s b)) (l : List β) : BootKept s (l.foldl f s) := by
  induction l generalizing s with
  | nil => exact .refl s
  | cons b t ih => exact (h s b).trans (ih _)

theorem bootKept_detect (code : Nat) (r : Report) : BootKept s (detect code r s) :=
  ⟨by simp, by simp, by simp, by simp, by simp, by simp⟩

theorem bootKept_redetect : BootKept s (redetect s) := by
  unfold redetect
  exact (bootKept_foldl s (fun v b => bootKept_detect v _ _) _).trans
    (bootKept_foldl _ (fun v e => bootKept_onlyIf v _ (bootKept_detect v _ _)) _)

theorem bootKept_updateEvent (c k : Nat) : BootKept s (updateEvent c k s) := ⟨rfl, rfl, rfl, id, rfl, rfl⟩

theorem bootKept_tellFallBack : BootKept s (tellFallBack s) := by
  unfold tellFallBack
  split
  · exact BootKept.trans (t := bump 0x12010C (modUpd (fun u => { u with fellBack := none }) s)) ⟨rfl, rfl, rfl, id, rfl, rfl⟩
      (bootKept_updateEvent _ _ _)
  · exact .refl s

/-- A trip that waited for its record is recorded at the end of the reset (R361). -/
theorem bootKept_trip : BootKept s (if s.power.tripPend then detect 0x0101 {} (modPower (fun p => { p with tripPend := false }) s) else s) := by
  split
  · exact BootKept.trans (t := modPower _ s) ⟨rfl, rfl, rfl, id, rfl, rfl⟩ (bootKept_detect _ _ _)
  · exact .refl s

theorem bootKept_loseTime : BootKept s (loseTime s) := ⟨rfl, rfl, rfl, fun _ => rfl, rfl, rfl⟩

/-- The outbound queue of the maintenance port keeps its packets and numbers them from 0 again (R62). -/
theorem renumbered_packets {α β : Type} (g : Nat → β) (l : List (α × List Byte)) :
    (l.zipIdx.map (fun p => (g p.2, p.1.2))).map (·.2) = l.map (·.2) := by
  rw [List.map_map, show ((·.2) ∘ fun p : (α × List Byte) × Nat => (g p.2, p.1.2)) = (fun x => x.2) ∘ Prod.fst from rfl, ← List.map_map,
    List.zipIdx_map_fst]

/-- The end of the reset: BOOT begins, without ring time but after SERVICE, and the maintenance port numbers its packets anew (R62, R388). -/
theorem resetEnd_boots (hin : s.reset_.inReset = true) (hnone : s.reset_.asserted = []) (hdue : s.reset_.lastReleaseUp + 200 ≤ s.time.up) :
    (resetEnd s).reset_ = { s.reset_ with inReset := false, bootUp := s.time.up, bootStep := if s.reset_.reach = .service then 5 else 1 }
    ∧ (resetEnd s).hub = s.hub ∧ (resetEnd s).time.up = s.time.up ∧ (s.reset_.reach ≠ .service → (resetEnd s).time.holds = false)
    ∧ (resetEnd s).chans = s.chans ∧ (resetEnd s).cmd.mntOut.map (·.2) = s.cmd.mntOut.map (·.2) := by
  have hcond : s.reset_.inReset ∧ s.reset_.asserted.isEmpty ∧ since s.reset_.lastReleaseUp s ≥ 200 :=
    ⟨hin, by rw [hnone]; rfl, by unfold since; omega⟩
  unfold resetEnd
  dsimp only
  rw [if_pos hcond]
  generalize hb : modReset _ s = b
  have hbReset : b.reset_ = { s.reset_ with inReset := false, bootUp := s.time.up, bootStep := if s.reset_.reach = .service then 5 else 1 } := by
    rw [← hb]
    by_cases hr : s.reset_.reach = .service
    · simp [modReset, hr]
    · simp [modReset, hr]
  have hlost : BootKept b (onlyIf (decide (s.reset_.reach ≠ .service)) loseTime b) := bootKept_onlyIf b _ (bootKept_loseTime b)
  have htime : s.reset_.reach ≠ .service → (onlyIf (decide (s.reset_.reach ≠ .service)) loseTime b).time.holds = false := by
    intro hr
    rw [onlyIf_pos (decide_eq_true hr)]
    rfl
  generalize onlyIf (decide (s.reset_.reach ≠ .service)) loseTime b = c at hlost htime ⊢
  generalize hd : modCmd _ c = d
  have hmnt : d.cmd.mntOut.map (·.2) = c.cmd.mntOut.map (·.2) := by
    rw [← hd]
    exact renumbered_packets _ _
  have hdc : d.reset_ = c.reset_ ∧ d.hub = c.hub ∧ d.time = c.time ∧ d.chans = c.chans := by
    rw [← hd]
    exact ⟨rfl, rfl, rfl, rfl⟩
  obtain ⟨hdReset, hdHub, hdTime, hdChans⟩ := hdc
  have hrest := ((bootKept_onlyIf d (decide (s.reset_.reach ≠ .service)) (bootKept_redetect d)).trans (bootKept_trip _)).trans
    (bootKept_onlyIf _ (!decide (s.reset_.reach ≠ .service)) (bootKept_tellFallBack _))
  refine ⟨?_, ?_, ?_, fun hr => ?_, ?_, ?_⟩
  · exact ((hrest.reset.trans hdReset).trans hlost.reset).trans hbReset
  · exact ((hrest.hub.trans hdHub).trans hlost.hub).trans (by rw [← hb]; rfl)
  · exact ((hrest.up.trans (congrArg TimeState.up hdTime)).trans hlost.up).trans (by rw [← hb]; rfl)
  · exact hrest.lost ((congrArg TimeState.holds hdTime).trans (htime hr))
  · exact ((hrest.chans.trans hdChans).trans hlost.chans).trans (by rw [← hb]; rfl)
  · rw [hrest.mnt, hmnt, hlost.mnt, ← hb]
    rfl

/-! ## Steps of BOOT (R395) -/

variable {s}

/-- A step of a hub in BOOT runs where no earlier one failed. -/
theorem bootRuns (hhub : s.hub = .boot) (hin : s.reset_.inReset = false) (hfail : s.reset_.bootFail = 0) :
    ¬(s.hub ≠ .boot ∨ s.reset_.inReset ∨ s.reset_.bootFail ≠ 0) := by
  simp [hhub, hin, hfail]

/-- The first step loads K where its content verifies. -/
theorem bootNext_first {v : BitVec 4} (hhub : s.hub = .boot) (hin : s.reset_.inReset = false) (hfail : s.reset_.bootFail = 0)
    (hstep : s.reset_.bootStep = 1) (hgood : v.getLsbD 3 = true) (hnone : s.faults.backup = none) :
    (bootNext v s).reset_ = { s.reset_ with bootStep := 2 } ∧ (bootNext v s).upd.recovery = false ∧ (bootNext v s).hub = .boot := by
  rw [bootNext, if_neg (bootRuns hhub hin hfail), hstep]
  dsimp only
  rw [loadComp, if_pos hgood, if_pos rfl, bootLoad, if_pos rfl, writeCritical]
  dsimp only [identCheck, modUpd, modReset, modComp]
  rw [hnone]
  exact ⟨rfl, rfl, hhub⟩

theorem bootNext_passes {v : BitVec 4} (hhub : s.hub = .boot) (hin : s.reset_.inReset = false) (hfail : s.reset_.bootFail = 0)
    (hstep : s.reset_.bootStep = 2 ∨ s.reset_.bootStep = 6) : bootNext v s = modReset (fun r => { r with bootStep := s.reset_.bootStep + 1 }) s := by
  rw [bootNext, if_neg (bootRuns hhub hin hfail)]
  rcases hstep with h | h
  · rw [h]
    rfl
  · rw [h]
    rfl

/-- P does not verify, and its other slot holds none to load: the third step fails (R435). -/
theorem bootNext_stays {v : BitVec 4} (hhub : s.hub = .boot) (hin : s.reset_.inReset = false) (hfail : s.reset_.bootFail = 0)
    (hstep : s.reset_.bootStep = 3) (hbad : v.getLsbD 0 = false) (htrial : s.upd.trial = none) (hother : (othSlot (comp s 0)).st ≠ .valid) :
    bootNext v s = modReset (fun r => { r with bootStep := 4, bootFail := 4 }) s := by
  have hload : loadComp 0 (v.getLsbD 0) s = (false, s) := by
    rw [loadComp, if_neg (by rw [hbad]; decide), if_neg (by rw [htrial]; simp), if_neg hother]
  rw [bootNext, if_neg (bootRuns hhub hin hfail), hstep]
  dsimp only
  rw [hload]
  rfl

/-- A state change to HELD keeps the place of the fault and the step (R399, R54). -/
theorem toHub_held (cause : Option Nat) : (toHub .held cause s).hub = .held
    ∧ (toHub .held cause s).reset_.heldCause = s.reset_.heldCause ∧ (toHub .held cause s).reset_.bootStep = s.reset_.bootStep := by
  unfold toHub
  split
  · rename_i h
    exact ⟨h, rfl, rfl⟩
  · dsimp only
    have hleft : ∀ w : State, (if w.hub = .boot then
        modReset (fun x => { x with bootLastMs := if HubState.held = .off then x.bootLastMs else min 0xFFFF (since x.bootUp w / 2000) })
          (modCmd (fun x => { x with leftBootUp := w.time.up }) w) else w).reset_.heldCause = w.reset_.heldCause
        ∧ (if w.hub = .boot then
        modReset (fun x => { x with bootLastMs := if HubState.held = .off then x.bootLastMs else min 0xFFFF (since x.bootUp w / 2000) })
          (modCmd (fun x => { x with leftBootUp := w.time.up }) w) else w).reset_.bootStep = w.reset_.bootStep := by
      intro w
      split
      · exact ⟨rfl, rfl⟩
      · exact ⟨rfl, rfl⟩
    cases cause with
    | some c => exact ⟨rfl, hleft s⟩
    | none => exact ⟨rfl, hleft (draw s).2⟩

/-- A bad active configuration leads to HELD, with its cause (R399). -/
theorem bootNext_held {v : BitVec 4} (hhub : s.hub = .boot) (hin : s.reset_.inReset = false) (hfail : s.reset_.bootFail = 0)
    (hstep : s.reset_.bootStep = 5) (hbad : (validate s s.upd.active).cause ≠ 0) :
    (bootNext v s).hub = .held ∧ (bootNext v s).reset_.heldCause = (validate s s.upd.active).cause ∧ (bootNext v s).reset_.bootStep = 6 := by
  rw [bootNext, if_neg (bootRuns hhub hin hfail), hstep]
  show (bootValidate s).hub = _ ∧ (bootValidate s).reset_.heldCause = _ ∧ (bootValidate s).reset_.bootStep = 6
  rw [bootValidate]
  rw [if_neg hbad, enterHeld]
  have hkept := bootKept_detect (toHub .held (some (0x20 + (validate s s.upd.active).cause)) (modReset (fun r => { r with
    heldCause := (validate s s.upd.active).cause, heldSection := (validate s s.upd.active).sect
    heldOffset := (validate s s.upd.active).off, bootStep := 6 }) (cvNoteImage s.upd.active (validate s s.upd.active) s))) 0x0A01 {}
  obtain ⟨hheld, hcause, hsix⟩ := toHub_held (s := modReset (fun r => { r with
    heldCause := (validate s s.upd.active).cause, heldSection := (validate s s.upd.active).sect
    heldOffset := (validate s s.upd.active).off, bootStep := 6 }) (cvNoteImage s.upd.active (validate s s.upd.active) s))
    (some (0x20 + (validate s s.upd.active).cause))
  exact ⟨hkept.hub.trans hheld, (congrArg ResetState.heldCause hkept.reset).trans hcause,
    (congrArg ResetState.bootStep hkept.reset).trans hsix⟩

/-- A source whose condition has ended is released (R386). -/
theorem resetRelease_ended {c : Nat} {t : Nat} (hasserted : s.reset_.asserted.find? (fun a => a.1 == c) = some (c, t)) (hoff : s.hub ≠ .off)
    (hended : c ≤ 2 ∧ s.power.pwrgd = true ∨ c = 3 ∧ s.power.junctionDeciC ≤ (if orderCode s = 2 then 1250 else 1150)
      ∨ c = 4 ∨ c = 5 ∨ 6 ≤ c ∧ t + 200 ≤ s.time.up) :
    resetRelease c s = modReset (fun r => { r with asserted := r.asserted.filter (fun a => a.1 != c), lastReleaseUp := s.time.up }) s := by
  have hmay : (if c ≤ 2 then s.power.pwrgd else if c = 3 then decide (s.power.junctionDeciC ≤ thermalLimit s - 200)
      else if 6 ≤ c then decide (since t s ≥ 200) else true) = true := by
    rcases hended with ⟨hc, hgood⟩ | ⟨rfl, hcool⟩ | rfl | rfl | ⟨hc, hlong⟩
    · rw [if_pos hc, hgood]
    · rw [if_neg (by decide), if_pos rfl, decide_eq_true_iff, thermalLimit]
      split at hcool
      · rename_i h
        rw [if_pos h]
        omega
      · rename_i h
        rw [if_neg h]
        omega
    · rfl
    · rfl
    · rw [if_neg (by omega), if_neg (by omega), if_pos hc, decide_eq_true_iff, since]
      omega
  unfold resetRelease
  rw [hasserted]
  dsimp only
  rw [hmay, if_neg (by decide)]
  exact if_neg fun h => hoff h.2

end

/-- Settles O28: each release, step and time-out is the case of its function that the hypotheses name. -/
theorem startUp : Obligations.StartUp := by
  unfold Obligations.StartUp
  intro s
  refine ⟨fun c t hasserted hoff hended => ?_, fun hin hnone hdue => ?_, fun v hhub hin hfail => ⟨?_, ?_, ?_, ?_⟩, fun p hstep hdown hdue => ?_,
    fun t hfirst hhub hnone hdue hsrc => ?_⟩
  · exact effectIs_eq (resetRelease_ended hasserted hoff hended)
  · obtain ⟨hreset, hhub, hup, hholds, hchans, hmnt⟩ := resetEnd_boots s hin hnone hdue
    exact ⟨_, commit_goOn s _, congrArg ResetState.inReset hreset, congrArg ResetState.bootStep hreset, congrArg ResetState.bootUp hreset,
      hhub, hup, hholds, hchans, hmnt⟩
  · exact fun hstep hgood hnone => ⟨_, commit_goOn s _, bootNext_first hhub hin hfail hstep hgood hnone⟩
  · exact fun hstep => effectIs_eq (bootNext_passes hhub hin hfail hstep)
  · exact fun hstep hbad htrial hother => effectIs_eq (bootNext_stays hhub hin hfail hstep hbad htrial hother)
  · exact fun hstep hbad => ⟨_, commit_goOn s _, bootNext_held hhub hin hfail hstep hbad⟩
  · exact effectIs_eq (if_pos ⟨hstep, by rw [hdown]; rfl, by unfold since; omega⟩)
  · refine effectIs_eq ?_
    rw [bootBeaconTimeout, hfirst]
    exact if_pos ⟨hhub, hnone, by unfold since; omega, hsrc⟩

end Sys2Proof.Proofs
end

section
/-! The input stage and PWRGD (R360 to R362, R364). -/

namespace Sys2Proof.Proofs

open Sys2Proof Sys2Proof.Machine Sys2Proof.Laws

theorem supply_eq {p q : PowerState} (h : supply p = supply q) : p.stageOn = q.stageOn ∧ p.pwrgd = q.pwrgd ∧ p.ovLock = q.ovLock
    ∧ p.ov = q.ov ∧ p.trips = q.trips ∧ p.tripUp = q.tripUp ∧ p.rails = q.rails := by
  simpa [supply, and_assoc] using h

section
variable {s : State}

/-- A source of the supply is asserted from a hub whose supply has moved (R360, R361, R364). -/
theorem effectIs_asserts {i : Instr} {c : Nat} {p : PowerState} {P : PowerState → Prop} (hc : causeReach c ≠ .service)
    (hfirst : s.reset_.asserted.any (fun a => a.1 == c) = false)
    (hexec : exec i s = commit s (assertSource c { s with power := p }))
    (hsupplied : ∀ q : PowerState, supply q = supply p → P q) : EffectIs (exec i s) s (fun u => AssertedBy c s u ∧ P u.power) := by
  obtain ⟨hasserts, -, hrest⟩ := assertSource_asserts { s with power := p } (c := c) hfirst
  obtain ⟨-, -, -, -, hsupply⟩ := hrest hc
  rw [hexec]
  exact ⟨_, commit_goOn s _, hasserts, hsupplied _ hsupply⟩

/-- A start that the input voltage allows: the stage switches on, or is gated by its hot FET (R360, R362). -/
theorem vinStageOn_allowed {mv : Nat} {fet : Int} (hoff : s.power.stageOn = false) (hlow : 17000 ≤ mv) (hhigh : mv < 33000)
    (hwaited : ∀ t, s.power.tripUp = some t → t + 2000000 ≤ s.time.up) : vinStageOn mv fet s = { s with power :=
      if 1000 ≤ fet then { s.power with vinMv := mv, fetDeciC := fet, ovLock := false, gated := true, gateWait := true }
      else { s.power with vinMv := mv, fetDeciC := fet, ovLock := false, stageOn := true, stepUp := s.time.up, railsUp := s.time.up
                          gated := s.power.gateWait, gateWait := false, tripUp := none } } := by
  have hlock : (s.power.ovLock && decide (mv ≥ 33000)) = false := by
    rw [decide_eq_false (by omega), Bool.and_false]
  have hwait : (match s.power.tripUp with | some t => decide (since t s ≥ 2000000) | none => true) = true := by
    cases h : s.power.tripUp with
    | none => rfl
    | some t => exact decide_eq_true (by have := hwaited t h; unfold since; omega)
  unfold vinStageOn
  dsimp only [modPower]
  rw [hlock]
  refine (if_neg ?_).trans ?_
  · rintro (h | h | h | h)
    · exact Bool.false_ne_true (hoff.symm.trans h)
    · omega
    · exact Bool.false_ne_true h
    · exact Bool.false_ne_true ((congrArg not hwait).symm.trans h)
  · by_cases hhot : 1000 ≤ fet
    · exact (if_pos hhot).trans (by rw [if_pos hhot])
    · exact (if_neg hhot).trans (by rw [if_neg hhot])

end

/-- Settles O29: an assertion keeps what the event did to the supply; the other events are one case of their function each. -/
theorem supplyEvents : Obligations.SupplyEvents := by
  unfold Obligations.SupplyEvents
  intro s
  refine ⟨fun mv us hlow hlong hon hfirst => ?brownOut, fun mv us hhigh hlong hon hfirst => ?overvoltage, fun fet hon hcause hfirst => ?trip,
    fun mv fet hoff hlow hhigh hwaited => ⟨fun hcool => ?starts, fun hhot => ?gated⟩, fun hon hfree => ?limitBegins, fun hon hlimit => ?limitEnds,
    fun hon hbad hfree hrails hlong => ?rises, fun hnot => ?stays, fun rails hgood hrails hhub hfirst => ?falls⟩
  case brownOut =>
    refine effectIs_asserts (P := fun q => q.stageOn = false ∧ q.pwrgd = false) (by decide) hfirst
      (congrArg (commit s) (if_pos ⟨hlow, hlong, hon⟩)) fun q hq => ?_
    obtain ⟨hstage, hpwrgd, -⟩ := supply_eq hq
    exact ⟨hstage, hpwrgd⟩
  case overvoltage =>
    refine effectIs_asserts (P := fun q => q.stageOn = false ∧ q.ovLock = true ∧ q.ov = min 255 (s.power.ov + 1)) (by decide) hfirst
      (congrArg (commit s) (if_pos ⟨hhigh, hlong, hon⟩)) fun q hq => ?_
    obtain ⟨hstage, -, hlock, hov, -⟩ := supply_eq hq
    exact ⟨hstage, hlock, hov⟩
  case trip =>
    have hcause' : s.power.limit = true ∧ since s.power.limitUp s ≥ 80000 ∨ fet > 1500 :=
      hcause.imp (fun h => ⟨h.1, by unfold since; omega⟩) id
    refine effectIs_asserts (P := fun q => q.stageOn = false ∧ q.trips = min 255 (s.power.trips + 1) ∧ q.tripUp = some s.time.up) (by decide) hfirst
      (congrArg (commit s) (if_pos ⟨hon, hcause'⟩)) fun q hq => ?_
    obtain ⟨hstage, -, -, -, htrips, htrip, -⟩ := supply_eq hq
    exact ⟨hstage, htrips, htrip⟩
  case starts =>
    refine ⟨_, commit_goOn s _, ?_⟩
    rw [vinStageOn_allowed hoff hlow hhigh hwaited, if_neg (by omega)]
    exact ⟨rfl, rfl, rfl, rfl, rfl⟩
  case gated =>
    refine ⟨_, commit_goOn s _, ?_⟩
    rw [vinStageOn_allowed hoff hlow hhigh hwaited, if_pos hhot]
    exact ⟨hoff, rfl, rfl⟩
  case limitBegins =>
    exact effectIs_eq ((if_neg (by simp [hon, hfree])).trans (if_pos rfl))
  case limitEnds =>
    exact effectIs_eq ((if_neg (by simp [hon, hlimit])).trans (if_neg (by decide)))
  case rises =>
    exact effectIs_eq (if_pos ⟨hon, by simp [hbad], by simp [hfree], hrails, by unfold since; omega⟩)
  case stays =>
    refine effectIs_eq (if_neg ?_)
    rintro ⟨-, -, hfree, hrails, hlong⟩
    rcases hnot with h | h | h
    · exact h hrails
    · simp [h] at hfree
    · unfold since at hlong
      omega
  case falls =>
    have hact : pwrgdFall rails s = assertSource 1 (modPower (fun p => { p with
        pwrgd := false, rails := rails, stepUp := s.time.up, railsUp := s.time.up }) s) := by
      unfold pwrgdFall
      rw [if_neg hhub]
      exact if_pos ⟨hgood, by simpa using hrails⟩
    refine effectIs_asserts (P := fun q => q.pwrgd = false ∧ q.rails = rails) (by decide) hfirst (congrArg (commit s) hact) fun q hq => ?_
    obtain ⟨-, hpwrgd, -, -, -, -, hrailsNow⟩ := supply_eq hq
    exact ⟨hpwrgd, hrailsNow⟩

end Sys2Proof.Proofs
end

section
/-! Field outlets (R368 to R370). -/

namespace Sys2Proof.Proofs

open Sys2Proof Sys2Proof.Machine Sys2Proof.Laws

/-! ## Register words that an event leaves as they are -/

theorem slook_sdel_other {α : Type} (m : Sparse α) {k j : Nat} (h : j ≠ k) : slook (sdel m k) j = slook m j := by
  induction m with
  | nil => rfl
  | cons e t ih =>
    unfold sdel
    split
    · rename_i hk
      simp [slook, hk, Ne.symm h]
    · simp [slook, ih]

/-- The word at `b`, and what its reset value hangs on, are as they were. -/
structure SameWord (b : Nat) (s t : State) : Prop where
  word : slook t.csr b = slook s.csr b
  cfg : t.cfgRegs = s.cfgRegs
  ident : t.upd.ident = s.upd.ident

section
variable {b : Nat}

theorem SameWord.refl (s : State) : SameWord b s s := ⟨rfl, rfl, rfl⟩

theorem SameWord.trans {s t u : State} (h : SameWord b s t) (k : SameWord b t u) : SameWord b s u :=
  ⟨k.word.trans h.word, k.cfg.trans h.cfg, k.ident.trans h.ident⟩

variable (s : State)

theorem sameWord_bumpBy {a : Nat} (n : Nat) (h : b ≠ a) : SameWord b s (bumpBy a n s) := by
  refine ⟨?_, rfl, rfl⟩
  unfold bumpBy
  dsimp only
  split
  · exact slook_sdel_other s.csr h
  · exact slook_sins_other s.csr a b _ h

theorem sameWord_bump {a : Nat} (h : b ≠ a) : SameWord b s (bump a s) := sameWord_bumpBy s 1 h

theorem sameWord_onlyIf {f : State → State} (c : Bool) (h : SameWord b s (f s)) : SameWord b s (onlyIf c f s) := by
  cases c
  · exact .refl s
  · exact h

theorem sameWord_newRecord (hb : b < 0x110200) (code mask : Nat) (r : Report) (cond : Bool) : SameWord b s (newRecord code mask r cond s) := by
  unfold newRecord
  extract_lets seq idx tv e u g full v
  have hu : SameWord b s u := sameWord_onlyIf s _ (sameWord_bump s (by omega))
  have hv : SameWord b u v := ⟨rfl, rfl, rfl⟩
  exact ((hu.trans hv).trans (u := modSrc code _ v) ⟨rfl, rfl, rfl⟩).trans (sameWord_bump _ (by omega))

theorem sameWord_mergeInto (hb : b < 0x110200) (code idx : Nat) (r : Report) (cond : Bool) : SameWord b s (mergeInto code idx r cond s) := by
  unfold mergeInto
  extract_lets same u
  split
  · exact ⟨rfl, rfl, rfl⟩
  · exact SameWord.trans (t := modSrc code _ u) ⟨rfl, rfl, rfl⟩ (sameWord_bump _ (by omega))

/-- A fault record changes no register below the counters of the fault block. -/
theorem sameWord_detect (hb : b < 0x110200) (code : Nat) (r : Report) : SameWord b s (detect code r s) := by
  unfold detect
  split
  · exact .refl s
  · extract_lets cond react mask
    split
    · exact SameWord.trans (t := modFaults _ s) ⟨rfl, rfl, rfl⟩ (sameWord_bump _ (by omega))
    · split
      · split
        · exact sameWord_mergeInto s hb _ _ _ _
        · exact sameWord_newRecord s hb _ _ _ _
      · exact sameWord_newRecord s hb _ _ _ _

end

/-- The field rows of the outlets' block hang on the order code alone. -/
theorem rowsAt_outlet {a : Nat} (s : State) (ha : a / 0x10000 = 3) : rowsAt s a = outFields (itripMax s) (a % 0x10000) := by
  rw [rowsAt, fieldsOf]
  dsimp only
  rw [ha]
  rfl

theorem csr_outlet {a : Nat} {s t : State} (ha : a / 0x10000 = 3) (h : SameWord a s t) : csr t a = csr s a := by
  rw [csr, csr, h.word, resetOf, resetOf, h.cfg, rowsAt_outlet t ha, rowsAt_outlet s ha, itripMax, itripMax, orderCode, orderCode, h.ident]

/-! ## What an event of an outlet leaves alone -/

/-- Nothing of the other outlets, the channels or the commands in flight moves. -/
structure OutletMoved (o : Nat) (s u : State) : Prop where
  others : ∀ k, k ≠ o → outlet u k = outlet s k
  chans : u.chans = s.chans
  inflight : u.cmd.inflight = s.cmd.inflight

theorem OutletMoved.trans {o : Nat} {s t u : State} (h : OutletMoved o s t) (k : OutletMoved o t u) : OutletMoved o s u :=
  ⟨fun n hn => (k.others n hn).trans (h.others n hn), k.chans.trans h.chans, k.inflight.trans h.inflight⟩

theorem outlet_of_power {s u : State} (h : u.power = s.power) (o : Nat) : outlet u o = outlet s o := by rw [outlet, outlet, h]

theorem OutletMoved.of_power {o : Nat} {s u : State} (hpower : u.power = s.power) (hchans : u.chans = s.chans)
    (hin : u.cmd.inflight = s.cmd.inflight) : OutletMoved o s u := ⟨fun k _ => outlet_of_power hpower k, hchans, hin⟩

section
variable (o : Nat) (s : State)

theorem outletMoved_mod (f : Outlet → Outlet) : OutletMoved o s (modOutlet o f s) :=
  ⟨fun k hk => outlet_modOutlet_other s o k f hk, rfl, rfl⟩

theorem outletMoved_bump (a : Nat) : OutletMoved o s (bump a s) := .of_power rfl rfl rfl

theorem outletMoved_detect (code : Nat) (r : Report) : OutletMoved o s (detect code r s) := .of_power (by simp) (by simp) (by simp)

theorem outletMoved_event (kind : Nat) : OutletMoved o s (outletEvent o kind s) := .of_power rfl rfl rfl

theorem sameWord_event {b : Nat} (hb : b < 0x110200) (kind : Nat) : SameWord b s (outletEvent o kind s) := by
  have hne : b ≠ 0x140024 := by omega
  unfold outletEvent emit
  exact ⟨(sameWord_bumpBy _ _ hne).word, rfl, rfl⟩

theorem outletMoved_to (st : OutSt) : OutletMoved o s (outTo o st s) := outletMoved_mod o s _

variable {o s}

theorem outlet_modOutlet_on {f : Outlet → Outlet} (h : (f (outlet s o)).st ≠ .supplyOff) : outlet (modOutlet o f s) o = f (outlet s o) :=
  outlet_modOutlet s o f fun hdef => h (congrArg Outlet.st hdef)

theorem outlet_outTo {st : OutSt} (h : st ≠ .supplyOff) : outlet (outTo o st s) o = { outlet s o with
    st := st, sinceUp := s.time.up, okUp := s.time.up, waitCool := false, cooling := false, ma := if outDrives st then (outlet s o).ma else 0 } :=
  outlet_modOutlet_on h

theorem outRetries_of_word {t : State} (ho : o < 32) (h : SameWord (0x30000 + o * 0x10) s t) : outRetries t o = outRetries s o :=
  congrArg (fun w => bits w 24 3) (csr_outlet (by omega) h)

/-- The count of a trip, its fault and its event come before the outlet's own change (R369). -/
def tripTold (o : Nat) (s : State) : State := outletEvent o 0 (unitFault 0x0104 2 o (bump 0x30304 s))

theorem tripTold_same (ho : o < 32) : (tripTold o s).power = s.power ∧ (tripTold o s).time = s.time
    ∧ SameWord (0x30000 + o * 0x10) s (tripTold o s) ∧ OutletMoved o s (tripTold o s) := by
  have hword : SameWord (0x30000 + o * 0x10) s (unitFault 0x0104 2 o (bump 0x30304 s)) :=
    (sameWord_bump s (by omega)).trans (sameWord_detect _ (by omega) _ _)
  have hmoved : OutletMoved o s (unitFault 0x0104 2 o (bump 0x30304 s)) := (outletMoved_bump o s _).trans (outletMoved_detect o _ _ _)
  refine ⟨?_, ?_, hword.trans (sameWord_event _ _ (by omega) 0), hmoved.trans (outletMoved_event o _ 0)⟩
  · show (detect 0x0104 _ (bump 0x30304 s)).power = _
    simp
  · show (detect 0x0104 _ (bump 0x30304 s)).time = _
    simp

/-- A trip of an outlet: in COOLDOWN while retries are left, else LATCHED (R369). -/
theorem outTripNow_trips (ho : o < 32) : TripOf o s (outTripNow o s) := by
  obtain ⟨hpower, htime, hword, htold⟩ := tripTold_same (s := s) ho
  have hret := outRetries_of_word ho hword
  have hsame : outlet (tripTold o s) o = outlet s o := outlet_of_power hpower o
  have hup : (tripTold o s).time.up = s.time.up := congrArg TimeState.up htime
  have hact : outTripNow o s = if (outlet (tripTold o s) o).used < outRetries (tripTold o s) o then outTo o .cooldown (tripTold o s)
    else outletEvent o 2 (unitFault 0x0105 2 o (bump 0x30310 (modOutlet o (fun x => { x with latched := true })
      (outTo o .latched (tripTold o s))))) := rfl
  rw [hact, hsame, hret]
  split
  · rename_i hleft
    have hmoved := htold.trans (outletMoved_to o (tripTold o s) .cooldown)
    have hat := outlet_outTo (s := tripTold o s) (o := o) (st := .cooldown) (by decide)
    rw [TripOf, hat, hsame, hup]
    exact ⟨(if_pos hleft).symm, rfl, rfl, rfl, fun h => absurd hleft (by omega), hmoved.others, hmoved.chans, hmoved.inflight⟩
  · rename_i hleft
    generalize hv : modOutlet o (fun x => { x with latched := true }) (outTo o .latched (tripTold o s)) = v
    have hvMoved : OutletMoved o s v := by
      rw [← hv]
      exact (htold.trans (outletMoved_to o _ _)).trans (outletMoved_mod o _ _)
    have hmoved := ((hvMoved.trans (outletMoved_bump o v 0x30310)).trans
      (outletMoved_detect o _ 0x0105 { detail := unitDetail 2 o, initiator := o })).trans (outletMoved_event o _ 2)
    have hat : outlet (outletEvent o 2 (unitFault 0x0105 2 o (bump 0x30310 v))) o = outlet v o := by
      refine outlet_of_power (s := v) ?_ o
      show (detect 0x0105 _ (bump 0x30310 v)).power = _
      simp
    have hlatched := outlet_outTo (s := tripTold o s) (o := o) (st := .latched) (by decide)
    have hvAt : outlet v o = { outlet (outTo o .latched (tripTold o s)) o with latched := true } := by
      rw [← hv]
      exact outlet_modOutlet_on (by rw [hlatched]; simp)
    rw [TripOf, hat, hvAt, hlatched, hsame, hup]
    exact ⟨(if_neg hleft).symm, rfl, rfl, rfl, fun _ => rfl, hmoved.others, hmoved.chans, hmoved.inflight⟩

end

/-- A trip of a hub in which nothing but the outlet's figures moved is a trip of the hub before. -/
theorem tripOf_of_moved {o : Nat} {s v u : State} (ho : o < 32) (hmoved : OutletMoved o s v) (hused : (outlet v o).used = (outlet s o).used)
    (hcmd : (outlet v o).cmd = (outlet s o).cmd) (hup : v.time.up = s.time.up) (hword : SameWord (0x30000 + o * 0x10) s v)
    (h : TripOf o v u) : TripOf o s u := by
  obtain ⟨hst, hu, hc, hsince, hlatch, hothers, hchans, hin⟩ := h
  have hret := outRetries_of_word ho hword
  rw [hused, hret] at hst hlatch
  exact ⟨hst, hu.trans hused, hc.trans hcmd, hsince.trans hup, hlatch, fun k hk => (hothers k hk).trans (hmoved.others k hk),
    hchans.trans hmoved.chans, hin.trans hmoved.inflight⟩

/-- An outlet that drives trips when its FET is too hot (R368). -/
theorem outletTempTrip_trips {o : Nat} {s : State} {t : Int} (ho : o < 32) (hhot : 1500 < t)
    (hst : (outlet s o).st = .starting ∨ (outlet s o).st = .on ∨ (outlet s o).st = .limit) : TripOf o s (outletTempTrip o t s) := by
  have hne : (outlet s o).st ≠ .supplyOff := by
    rcases hst with h | h | h <;> simp [h]
  generalize hv : bump 0x30308 (modOutlet o (fun x => { x with deciC := t }) s) = v
  have hmod : outlet (modOutlet o (fun x => { x with deciC := t }) s) o = { outlet s o with deciC := t } := outlet_modOutlet_on hne
  have hat : outlet v o = { outlet s o with deciC := t } := by
    rw [← hv]
    exact hmod
  have hact : outletTempTrip o t s = outTripNow o v := by
    unfold outletTempTrip
    dsimp only
    rw [hmod, hv]
    rcases hst with h | h | h
    · simp [h, hhot]
    · simp [h, hhot]
    · simp [h, hhot]
  have hmoved : OutletMoved o s v := by
    rw [← hv]
    exact (outletMoved_mod o s _).trans (outletMoved_bump o _ _)
  have hword : SameWord (0x30000 + o * 0x10) s v := by
    rw [← hv]
    exact SameWord.trans (t := modOutlet o _ s) ⟨rfl, rfl, rfl⟩ (sameWord_bump _ (by omega))
  rw [hact]
  exact tripOf_of_moved ho hmoved (by rw [hat]) (by rw [hat]) (by rw [← hv]; rfl) hword (outTripNow_trips ho)

/-- A retry starts: STARTING, one more used (R369). -/
theorem outRetry_starts (o : Nat) (s : State) : (outlet (outRetry o s) o).st = .starting ∧ (outlet (outRetry o s) o).used = (outlet s o).used + 1
    ∧ OutletMoved o s (outRetry o s) := by
  have hto := outlet_outTo (s := s) (o := o) (st := .starting) (by decide)
  have hmod : outlet (modOutlet o (fun x => { x with used := x.used + 1 }) (outTo o .starting s)) o
      = { outlet (outTo o .starting s) o with used := (outlet (outTo o .starting s) o).used + 1 } := outlet_modOutlet_on (by rw [hto]; simp)
  have hat : outlet (outRetry o s) o = outlet (modOutlet o (fun x => { x with used := x.used + 1 }) (outTo o .starting s)) o :=
    outlet_of_power rfl o
  rw [hat, hmod, hto]
  exact ⟨rfl, rfl, (((outletMoved_to o s _).trans (outletMoved_mod o _ _)).trans (outletMoved_bump o _ _)).trans (outletMoved_event o _ _)⟩

theorem bump_power_frame (s : State) (a : Nat) (p : PowerState) :
    { bump a { s with power := p } with power := s.power, csr := s.csr, totals := s.totals } = s := rfl

/-- The current of an outlet that drives, never above its limit (R368). -/
theorem outlet_current {o ma : Nat} {s : State} (h : (outlet s o).st ≠ .supplyOff) :
    outlet (modOutlet o (fun x => { x with ma := min ma (outLimit s o) }) s) o = { outlet s o with ma := min ma (outLimit s o) } :=
  outlet_modOutlet_on h

theorem outletOvercurrent_on {o ma : Nat} {s : State} (hst : (outlet s o).st = .on) (hhigh : outTrip s o < ma) :
    outletOvercurrent o ma s = bump 0x30300 (outTo o .limit (modOutlet o (fun x => { x with ma := min ma (outLimit s o) }) s)) := by
  unfold outletOvercurrent
  dsimp only
  rw [hst]
  exact if_pos (decide_eq_true hhigh)

theorem outletOvercurrent_limit {o ma : Nat} {s : State} (hst : (outlet s o).st = .limit) (hlow : ma ≤ outTrip s o) :
    outletOvercurrent o ma s = outTo o .on (modOutlet o (fun x => { x with ma := min ma (outLimit s o) }) s) := by
  unfold outletOvercurrent
  dsimp only
  rw [hst]
  exact if_neg (by simpa using hlow)

/-- Settles O30: each event of an outlet is one change of it; a trip is `outTripNow`. -/
theorem outletEvents : Obligations.OutletEvents := by
  unfold Obligations.OutletEvents
  intro o s
  refine ⟨fun hst hlong => ?startOk, fun ma hst hhigh => ?entersLimit, fun ma hst hlow => ?leavesLimit, fun hst hover => ?fltOver,
    fun hst hover => ?startOver, fun t hhot hst => ?hot, fun hst hover hcool => ?retries, fun hst hlong hused => ?forgives⟩
  case startOk =>
    refine ⟨_, commit_goOn s _, ?_⟩
    rw [outletStartOk]
    dsimp only
    rw [if_pos ⟨hst, by unfold since; omega⟩]
    have hmod : outlet (modOutlet o.val (fun x => { x with ma := min x.ma (outTrip s o.val) }) s) o.val
        = { outlet s o.val with ma := min (outlet s o.val).ma (outTrip s o.val) } := outlet_modOutlet_on (by rw [hst]; decide)
    have hat := outlet_outTo (s := modOutlet o.val (fun x => { x with ma := min x.ma (outTrip s o.val) }) s) (o := o.val) (st := .on) (by decide)
    rw [hat, hmod]
    exact ⟨rfl, rfl, ((outletMoved_mod o.val s _).trans (outletMoved_to o.val _ .on)).others, rfl⟩
  case entersLimit =>
    refine ⟨_, commit_goOn s _, ?_⟩
    rw [outletOvercurrent_on hst hhigh]
    have hat := outlet_outTo (s := modOutlet o.val (fun x => { x with ma := min ma (outLimit s o.val) }) s) (o := o.val) (st := .limit) (by decide)
    rw [outlet_current (by rw [hst]; decide)] at hat
    have hsame : outlet (bump 0x30300 (outTo o.val .limit (modOutlet o.val (fun x => { x with ma := min ma (outLimit s o.val) }) s))) o.val
        = outlet (outTo o.val .limit (modOutlet o.val (fun x => { x with ma := min ma (outLimit s o.val) }) s)) o.val := outlet_of_power rfl _
    dsimp only
    rw [hsame, hat]
    exact ⟨rfl, rfl, Nat.min_le_right _ _,
      (((outletMoved_mod o.val s _).trans (outletMoved_to o.val _ .limit)).trans (outletMoved_bump o.val _ 0x30300)).others,
      bump_power_frame s 0x30300 (outTo o.val .limit (modOutlet o.val (fun x => { x with ma := min ma (outLimit s o.val) }) s)).power⟩
  case leavesLimit =>
    refine ⟨_, commit_goOn s _, ?_⟩
    rw [outletOvercurrent_limit hst hlow]
    have hat := outlet_outTo (s := modOutlet o.val (fun x => { x with ma := min ma (outLimit s o.val) }) s) (o := o.val) (st := .on) (by decide)
    dsimp only
    rw [hat]
    exact ⟨rfl, ((outletMoved_mod o.val s _).trans (outletMoved_to o.val _ .on)).others, rfl⟩
  case fltOver =>
    refine ⟨_, commit_goOn s _, ?_⟩
    rw [tFltExpiry, if_pos ⟨hst, by unfold since; omega⟩]
    exact outTripNow_trips o.isLt
  case startOver =>
    refine ⟨_, commit_goOn s _, ?_⟩
    rw [tStartExpiry, if_pos ⟨hst, by unfold since; omega⟩]
    exact outTripNow_trips o.isLt
  case hot => exact ⟨_, commit_goOn s _, outletTempTrip_trips o.isLt hhot hst⟩
  case retries =>
    refine ⟨_, commit_goOn s _, ?_⟩
    rw [cooldownEnd]
    dsimp only
    rw [if_pos ⟨hst, by unfold since; omega, hcool⟩]
    obtain ⟨hstarts, hused, hmoved⟩ := outRetry_starts o.val s
    exact ⟨hstarts, hused, hmoved.others, hmoved.chans, hmoved.inflight⟩
  case forgives =>
    refine ⟨_, commit_goOn s _, ?_⟩
    rw [tForgiveExpiry]
    dsimp only
    rw [if_pos ⟨hst, by unfold since; omega, hused⟩]
    generalize hv : modOutlet o.val (fun x => { x with used := 0 }) s = v
    have hat : outlet v o.val = { outlet s o.val with used := 0 } := by
      rw [← hv]
      exact outlet_modOutlet_on (by rw [hst]; decide)
    have hmoved : OutletMoved o.val s v := by
      rw [← hv]
      exact outletMoved_mod _ _ _
    have hall := (hmoved.trans (outletMoved_bump _ v 0x30314)).trans (outletMoved_event _ _ 3)
    have hsame : outlet (outletEvent o.val 3 (bump 0x30314 v)) o.val = outlet v o.val := outlet_of_power rfl _
    rw [hsame, hat]
    exact ⟨hst, rfl, hall.others, hall.chans, hall.inflight⟩

end Sys2Proof.Proofs
end

section
/-! Banks, the junction and performance levels (R365, R374, R375, R382). -/

namespace Sys2Proof.Proofs

open Sys2Proof Sys2Proof.Machine Sys2Proof.Laws

/-- An outlet without supply, at own tick `up` (R365). -/
def unsupplied (up : Nat) (x : Outlet) : Outlet := { x with
  latched := x.latched || x.st == .latched, cooling := x.cooling || x.st == .cooldown
  sinceUp := if x.st = .cooldown ∨ x.cooling then x.sinceUp else up
  waitCool := false, ma := 0, st := .supplyOff }

theorem forEach_supplyOff {up : Nat} (l : List Nat) {v : State} (hup : v.time.up = up) :
    forEach l outSupplyOff v = forEach l (fun o => modOutlet o (unsupplied up)) v := by
  induction l generalizing v with
  | nil => rfl
  | cons o t ih =>
    have hone : outSupplyOff o v = modOutlet o (unsupplied up) v := by rw [← hup]; rfl
    show forEach t outSupplyOff (outSupplyOff o v) = forEach t _ (modOutlet o (unsupplied up) v)
    rw [hone]
    exact ih hup

section
variable {s : State}

/-- A bank that falls below 16 V stands in SUPPLY_OFF whole (R365). -/
theorem vfbUv_low {b mv : Nat} (hlow : mv < 16000) (hnew : s.power.vfbLow.contains b = false) : vfbUv b mv s =
    forEach (upFrom (8 * b) 8) outSupplyOff
      (unitFault 0x0102 4 b (modPower (fun p => { p with vfbMv := sput 24000 p.vfbMv b mv, vfbLow := b :: p.vfbLow }) s)) := by
  unfold vfbUv
  exact if_pos ⟨hlow, (congrArg not hnew).trans rfl⟩

theorem junctionTempHigh_raised {t : Int} (hhot : (if orderCode s = 2 then 1200 else 1100) ≤ t) (hnew : s.power.tjHigh = false) :
    junctionTempHigh t s = detect 0x0103 {} (modPower (fun p => { p with junctionDeciC := t, tjHigh := true }) s) := by
  unfold junctionTempHigh
  exact if_pos ⟨hhot, congrArg not hnew⟩

theorem junctionTempHigh_cleared {t : Int} (hcool : t ≤ (if orderCode s = 2 then 1200 else 1100) - 50) (hhigh : s.power.tjHigh = true) :
    junctionTempHigh t s = condEnd 0x0103 false (modPower (fun p => { p with junctionDeciC := t, tjHigh := false }) s) := by
  unfold junctionTempHigh
  exact (if_neg fun h => Bool.false_ne_true ((congrArg not hhigh).symm.trans h.2)).trans (if_pos ⟨hcool, hhigh⟩)

/-- The transition goes on until both of its steps are made (R374). -/
theorem plTransitionStep_goesOn {st : PlStep} {u : State} (hstep : plStep st s = u) (hhalf : (u.power.plClocks && u.power.plVcore) = false) :
    plTransitionStep st s = u := by
  unfold plTransitionStep
  rw [hstep]
  exact if_neg (by rw [Bool.and_assoc, hhalf, Bool.and_false]; decide)

/-- A step down: the clocks switch first, and set the level (R374). -/
theorem plTransitionStep_down {t : Nat} (htarget : s.power.plTarget = some t) (hdown : s.power.level < t) (hclocks : s.power.plClocks = false)
    (hvcore : s.power.plVcore = false) :
    plTransitionStep .clocks s = bump 0x20100 (modPower (fun p => { p with level := t, plClocks := true }) s)
    ∧ plTransitionStep .vcore s = s := by
  have hfirst : plStep .clocks s = bump 0x20100 (modPower (fun p => { p with level := t, plClocks := true }) s) := by
    rw [plStep, htarget]
    exact if_pos (by simp [hclocks, hdown])
  have hwait : plStep .vcore s = s := by
    rw [plStep, htarget]
    exact if_neg (by simp [hclocks, hdown])
  exact ⟨plTransitionStep_goesOn hfirst hvcore, plTransitionStep_goesOn hwait (by rw [hclocks]; rfl)⟩

/-- A step up: the core voltage arrives first (R374). -/
theorem plTransitionStep_up {t : Nat} (htarget : s.power.plTarget = some t) (hup : t < s.power.level) (hclocks : s.power.plClocks = false)
    (hvcore : s.power.plVcore = false) :
    plTransitionStep .vcore s = bump 0x20100 (modPower (fun p => { p with plVcore := true }) s) ∧ plTransitionStep .clocks s = s := by
  have hnot : ¬s.power.level < t := by omega
  have hfirst : plStep .vcore s = bump 0x20100 (modPower (fun p => { p with plVcore := true }) s) := by
    rw [plStep, htarget]
    exact if_pos (by simp [hclocks, hvcore, hnot])
  have hwait : plStep .clocks s = s := by
    rw [plStep, htarget]
    exact if_neg (by simp [hclocks, hvcore, hnot])
  refine ⟨plTransitionStep_goesOn hfirst ?_, plTransitionStep_goesOn hwait (by rw [hclocks]; rfl)⟩
  show (s.power.plClocks && true) = false
  rw [hclocks]
  rfl

end

/-- Settles O31: one case of its function for each event. -/
theorem powerEvents : Obligations.PowerEvents := by
  unfold Obligations.PowerEvents
  intro s
  refine ⟨fun b mv hlow hnew => ?_, fun t hhot hnew => ?_, fun t hcool hhigh => ?_, fun t htarget hdown hclocks hvcore => ?_,
    fun t htarget hup hclocks hvcore => ?_, fun hfree => ?_⟩
  · refine effectIs_eq ((vfbUv_low hlow hnew).trans (forEach_supplyOff _ ?_))
    exact congrArg TimeState.up (detect_time _ _ _)
  · exact effectIs_eq (junctionTempHigh_raised hhot hnew)
  · exact effectIs_eq (junctionTempHigh_cleared hcool hhigh)
  · obtain ⟨hstep, hwait⟩ := plTransitionStep_down htarget hdown hclocks hvcore
    exact ⟨effectIs_eq hstep, effectIs_eq hwait⟩
  · obtain ⟨hstep, hwait⟩ := plTransitionStep_up htarget hup hclocks hvcore
    exact ⟨effectIs_eq hstep, effectIs_eq hwait⟩
  · exact effectIs_eq (if_pos hfree)

end Sys2Proof.Proofs
end

section
/-! Reactions to a committed fault record (R409). -/

namespace Sys2Proof.Proofs

open Sys2Proof Sys2Proof.Machine Sys2Proof.Laws

/-- The record that BOOT writes of a critical-state error (R415): its reaction CHIP was the reset that CRITICAL made. -/
def criticalRecord : LogEntry :=
  { seq := 1, source := 0x0A01, flags := 32, reaction := 8, time := 0, address := 0, initiator := 0, initKind := 0, access := 0
    merges := 0, detail := 0xFFFF }

/-- A command that has been issued and waits for its end. -/
def issuedCmd : Cmd :=
  { path := .pcie, session := 1, tag := 0, opcode := 0x0101, flags := 0, target := 0, effc := none, params := [], tick := 0, up := 0
    rev := 1, phase := .issued, repeats := 0, effected := false }

/-- A hub that runs, with that record still to be committed. -/
def hubOfCriticalRecord : State := { State.reset with
  hub := .run, reset_ := { bootStep := 8 }
  faults := { commits := [(0, 0)], log := [(0, criticalRecord)] }
  cmd := { inflight := [issuedCmd] } }

/-- The commands in flight after an outcome. -/
def inflightAfter : Host.Outcome State Fault Refusal → Option Nat
  | .next t => some t.cmd.inflight.length
  | _ => none

theorem inflightAfter_criticalRecord : inflightAfter (exec .faultLogCommit hubOfCriticalRecord) = some 1 := by decide +kernel

/-- Refutes O33: the commit of the record that BOOT writes of a critical-state error asserts nothing, although its mask holds CHIP,
because the reset was CRITICAL's (R415); the command in flight stays, where FAULT_CHIP would leave none. -/
theorem not_faultEvents : ¬ Obligations.FaultEvents := by
  unfold Obligations.FaultEvents
  intro h
  obtain ⟨-, hcommit, -⟩ := h
  obtain ⟨-, -, -, hchip⟩ := hcommit 0 0 [] criticalRecord hubOfCriticalRecord rfl rfl (by decide)
  obtain ⟨u, hnext, -, -, -, -, -, -, -, hreset, -⟩ := hchip (by decide) (by decide) (by decide) (by decide)
  obtain ⟨-, -, -, hbeyond, -⟩ := hreset (.inl rfl)
  obtain ⟨-, -, -, -, -, hnone, -⟩ := hbeyond (by decide)
  have hone := inflightAfter_criticalRecord
  rw [hnext, inflightAfter, goOn_cmd, settle_inflight_nil hnone] at hone
  exact absurd hone (by decide)

end Sys2Proof.Proofs
end

section
/-! Scrubbing and the verification of stored images (R356, R357). -/

namespace Sys2Proof.Proofs

open Sys2Proof Sys2Proof.Machine Sys2Proof.Laws

section
variable {s : State}

theorem since_due {t d : Nat} (h : t + d ≤ s.time.up) : decide (since t s < d) = false :=
  decide_eq_false (by unfold since; omega)

/-- The state in which the content of the step in turn is read: the scrub has moved on, and a pass that ends is counted. -/
def scrubOn (s : State) : State :=
  onlyIf (s.cv.next == 287) (bump 0x103010)
    (modCv (fun c => { c with next := (c.next + 1) % 288, lastScrubUp := s.time.up, abandoned := false }) s)

theorem scrubOn_eq {v w : State} (hgo : s.cv.abandoned = false)
    (hv : v = { s with cv := { s.cv with next := (s.cv.next + 1) % 288, lastScrubUp := s.time.up } })
    (hw : w = (if s.cv.next = 287 then bump 0x103010 v else v)) : scrubOn s = w := by
  have hmoved : modCv (fun c => { c with next := (c.next + 1) % 288, lastScrubUp := s.time.up, abandoned := false }) s = v := by
    rw [hv, ← hgo]; rfl
  rw [scrubOn, hmoved, hw, onlyIf]
  simp

theorem scrubStep_due (good : Bool) (hlive : fieldLive s = true) (hon : fld s 0x103000 10 1 = 1)
    (hdue : s.cv.lastScrubUp + fld s 0x103000 0 10 * 2000 ≤ s.time.up) :
    (s.cv.abandoned = true → scrubStep good s = scrubOn s)
    ∧ (s.cv.abandoned = false → scrubStep good s =
      (let w := scrubOn s
       let want := crcCompute (cvSet w (scrubUnit w s.cv.next)) (scrubBytes w s.cv.next)
       if good then cvNote (scrubUnit w s.cv.next) want want w
       else
         let x := detect 0x0903 {} (bump 0x103014 (cvNote (scrubUnit w s.cv.next) (draw w).1 want (draw w).2))
         if s.cv.next < 256 then modMaps (fun m => { m with badBlocks := m.badBlocks ++ [(s.cv.next, m.cycle + 1)] }) x
         else engineReset (s.cv.next - 256) x)) := by
  have hguard : ¬ (!fieldLive s || fld s 0x103000 10 1 == 0 || decide (since s.cv.lastScrubUp s < fld s 0x103000 0 10 * 2000)) = true := by
    simp [hlive, hon, since_due hdue]
  constructor
  · intro hdropped
    unfold scrubStep
    exact (if_neg hguard).trans (if_pos hdropped)
  · intro hgo
    unfold scrubStep
    exact (if_neg hguard).trans (if_neg (by rw [hgo]; decide))

theorem scrubOn_fresh : (scrubOn s).fresh = s.fresh := by
  unfold scrubOn onlyIf
  split <;> rfl

theorem scrubOn_cv : (scrubOn s).cv = { s.cv with next := (s.cv.next + 1) % 288, lastScrubUp := s.time.up, abandoned := false } := by
  unfold scrubOn onlyIf
  split <;> rfl

theorem scrubOn_only : { scrubOn s with cv := s.cv, csr := s.csr, totals := s.totals } = s := by
  unfold scrubOn onlyIf
  split <;> rfl

theorem imageVerify_due {image want : Nat} (good : Bool) (hlive : fieldLive s = true) (hdue : s.cv.lastImageUp + 120000000 ≤ s.time.up)
    (hwant : storedCrc s image = some want) : imageVerify image good s =
      (let v := modCv (fun c => { c with lastImageUp := s.time.up }) s
       if good then cvNote 0 want want v
       else slotBad image (detect 0x0902 {} (bump 0x103018 (cvNote 0 (draw v).1 want (draw v).2)))) := by
  unfold imageVerify
  rw [hwant]
  exact if_neg (by simp [hlive, since_due hdue])

end

/-- Settles O34, by what a scrub step, and a verification, that is due does. -/
theorem scrubs : Obligations.Scrubs := by
  unfold Obligations.Scrubs
  refine ⟨fun good s v w hawake hlive hon hdue hgo hv hw => ?step, fun good s hawake hlive hon hdue hdropped => ?abandoned,
    fun image want s hlive hdue hwant => ?image⟩
  case step =>
    have hturn := (scrubStep_due good hlive hon hdue).2 hgo
    have hfresh : w.fresh = s.fresh := by rw [← scrubOn_eq hgo hv hw]; exact scrubOn_fresh
    rw [scrubOn_eq hgo hv hw] at hturn
    refine ⟨fun hgood => ?_, fun hbad => ?_⟩
    · subst hgood
      exact effectIs_eq ((if_pos hawake).trans hturn)
    · subst hbad
      refine ⟨_, commit_goOn s _, _, rfl, fun hblock => ?_, fun htable => ?_⟩
      · refine ((if_pos hawake).trans hturn).trans ?_
        simp only [draw, hfresh]
        exact if_pos hblock
      · refine ((if_pos hawake).trans hturn).trans ?_
        simp only [draw, hfresh]
        exact if_neg (Nat.not_lt.mpr htable)
  case abandoned =>
    have hturn := (scrubStep_due good hlive hon hdue).1 hdropped
    have hdone : onField (scrubStep good) s = scrubOn s := (if_pos hawake).trans hturn
    exact ⟨_, commit_goOn s _, by rw [hdone]; exact scrubOn_cv, by rw [hdone]; exact scrubOn_only⟩
  case image =>
    exact ⟨effectIs_eq (imageVerify_due true hlive hdue hwant), effectIs_eq (imageVerify_due false hlive hdue hwant)⟩

end Sys2Proof.Proofs
end

section
/-! Releases of outputs and the poll rounds of the Modbus master (R174, R244, R330). -/

namespace Sys2Proof.Proofs

open Sys2Proof Sys2Proof.Machine Sys2Proof.Laws

/-! ## Lines that a mask names (R330) -/

theorem line_modLine {s : State} (hwf : swf {} s.dl.lines = true) (l : Nat) (f : Line → Line) :
    swf {} (modLine l f s).dl.lines = true ∧ ∀ k, line (modLine l f s) k = if k = l then f (line s l) else line s k := by
  refine ⟨swf_sput _ _ _ _ hwf, fun k => ?_⟩
  split
  · rename_i hk
    subst hk
    exact sget_sput _ _ _ _ hwf
  · rename_i hk
    exact sget_sput_other _ _ _ _ _ hk

theorem commanded_forEach (b value : Nat) (l : List Nat) (hl : ∀ i ∈ l, i < 16) {s : State} (hwf : swf {} s.dl.lines = true) (k : Nat) :
    (line (forEach l (fun i => modLine (16 * b + i) (fun x => { x with commanded := bit value i })) s) k).commanded
      = if k / 16 = b ∧ k % 16 ∈ l then bit value (k % 16) else (line s k).commanded := by
  induction l generalizing s with
  | nil => exact (if_neg fun h => List.not_mem_nil h.2).symm
  | cons i t ih =>
    have hi : i < 16 := hl i List.mem_cons_self
    obtain ⟨hkept, hone⟩ := line_modLine hwf (16 * b + i) (fun x => { x with commanded := bit value i })
    refine (ih (fun j hj => hl j (List.mem_cons_of_mem _ hj)) hkept).trans ?_
    rw [hone k]
    by_cases hk : k = 16 * b + i
    · have hunit : k / 16 = b := by omega
      have hpin : k % 16 = i := by omega
      rw [if_pos hk, if_pos (⟨hunit, by rw [hpin]; exact List.mem_cons_self⟩ : k / 16 = b ∧ k % 16 ∈ i :: t), hpin]
      exact ite_self _
    · rw [if_neg hk]
      have hsame : (k / 16 = b ∧ k % 16 ∈ i :: t) ↔ (k / 16 = b ∧ k % 16 ∈ t) := by
        refine and_congr_right fun hunit => ⟨fun hmem => ?_, List.mem_cons_of_mem _⟩
        exact (List.mem_cons.mp hmem).resolve_left (by omega)
      rw [ite_of_iff hsame]

theorem commanded_setLines (b value mask : Nat) {s : State} (hwf : swf {} s.dl.lines = true) (l : Nat) :
    (line (setLines b value mask s) l).commanded = if l / 16 = b ∧ bit mask (l % 16) = true then bit value (l % 16) else (line s l).commanded := by
  have hmem : l % 16 ∈ (List.range 16).filter (fun i => bit mask i) ↔ bit mask (l % 16) = true := by
    rw [List.mem_filter, List.mem_range]
    exact and_iff_right (Nat.mod_lt _ (by decide))
  refine (commanded_forEach b value _ (fun i hi => List.mem_range.mp (List.mem_filter.mp hi).1) hwf l).trans ?_
  rw [ite_of_iff (and_congr_right fun _ => hmem)]

section
variable (b v m : Nat) (s : State)

theorem setLines_chans : (setLines b v m s).chans = s.chans := forEach_keeps (g := State.chans) _ s fun _ _ => rfl
theorem setLines_engines : (setLines b v m s).engines = s.engines := forEach_keeps (g := State.engines) _ s fun _ _ => rfl
theorem setLines_maps : (setLines b v m s).maps = s.maps := forEach_keeps (g := State.maps) _ s fun _ _ => rfl
theorem setLines_pend : (setLines b v m s).dl.pend = s.dl.pend := forEach_keeps (g := fun t => t.dl.pend) _ s fun _ _ => rfl

end

/-! ## Instances and scheduled writes -/

section
variable {s : State}

theorem dlRelease_nothing (h : s.dl.pend = []) : dlRelease s = s := by
  unfold dlRelease
  dsimp only
  rw [h]
  show ({ s with dl := { s.dl with pend := [] } } : State) = s
  rw [← h]

/-- The instances that stay, where they are known. -/
theorem instances_left {l : List Instance_} (h : s.maps.instances.filter (fun i => !decide (i.release ≤ nsNow s)) = l) :
    modMaps (fun m => { m with instances := m.instances.filter (fun i => !decide (i.release ≤ nsNow s)) }) s
      = modMaps (fun m => { m with instances := l }) s := by
  subst h; rfl

theorem outputRelease_due {i : Instance_} (hone : s.maps.instances = [i]) (hdue : i.release ≤ nsNow s) :
    outputRelease s = dlRelease (releaseInst i (modMaps (fun m => { m with instances := [] }) s)) := by
  have hyes : s.maps.instances.filter (fun i => decide (i.release ≤ nsNow s)) = [i] := by simp [hone, hdue]
  unfold outputRelease
  dsimp only
  rw [hyes, instances_left (l := []) (by simp [hone, hdue])]
  exact congrArg dlRelease List.foldl_cons

theorem instances_same {l : List Instance_} (h : s.maps.instances = l) : modMaps (fun m => { m with instances := l }) s = s := by
  subst h; rfl

theorem outputRelease_waits {i : Instance_} (hone : s.maps.instances = [i]) (hpend : s.dl.pend = []) (hlate : nsNow s < i.release) :
    outputRelease s = s := by
  have hno : s.maps.instances.filter (fun i => decide (i.release ≤ nsNow s)) = [] := by simp [hone, hlate]
  unfold outputRelease
  dsimp only
  rw [hno, instances_left (l := [i]) (by simp [hone, hlate]), instances_same hone]
  exact dlRelease_nothing hpend

theorem outputRelease_noInstance (hnone : s.maps.instances = []) : outputRelease s = dlRelease s := by
  have hno : s.maps.instances.filter (fun i => decide (i.release ≤ nsNow s)) = [] := by rw [hnone]; rfl
  unfold outputRelease
  dsimp only
  rw [hno, instances_left (l := []) (by rw [hnone]; rfl), instances_same hnone]
  rfl

theorem dlRelease_due {p : DlPend} (hone : s.dl.pend = [p]) (hdue : p.tick ≤ tickNow s) :
    dlRelease s = setLines p.bank p.value p.mask { s with dl := { s.dl with pend := [] } } := by
  have hyes : [p].filter (fun p => decide (p.tick ≤ tickNow s)) = [p] := by simp [hdue]
  have hno : [p].filter (fun p => decide (p.tick > tickNow s)) = [] := by simp [hdue]
  unfold dlRelease
  dsimp only
  rw [hone, hyes, hno]
  rfl

theorem dlRelease_waits {p : DlPend} (hone : s.dl.pend = [p]) (hlate : tickNow s < p.tick) : dlRelease s = s := by
  have hyes : [p].filter (fun p => decide (p.tick > tickNow s)) = [p] := by simp [hlate]
  have hno : [p].filter (fun p => decide (p.tick ≤ tickNow s)) = [] := by simp [hlate]
  unfold dlRelease
  dsimp only
  rw [hone, hyes, hno]
  show ({ s with dl := { s.dl with pend := [p] } } : State) = s
  rw [← hone]

end

/-- What a release changes of the hub is its own output: the lines of a bank (R330). -/
theorem released_lines {i : Instance_} {s : State} (hone : s.maps.instances = [i]) (hpend : s.dl.pend = []) (hdue : i.release ≤ nsNow s)
    (hkind : descKind i.target = 3) :
    outputRelease s = setLines (descUnit i.target) (leVal i.bytes) i.mask (modMaps (fun m => { m with instances := [] }) s) := by
  have hinst : ∀ v, releaseInst i v = setLines (descUnit i.target) (leVal i.bytes) i.mask v := by
    intro v; simp only [releaseInst, hkind]
  rw [outputRelease_due hone hdue, hinst]
  exact dlRelease_nothing ((setLines_pend _ _ _ _).trans hpend)

/-- … the PD out of a port (R272). -/
theorem released_port {i : Instance_} {s : State} (hone : s.maps.instances = [i]) (hpend : s.dl.pend = []) (hdue : i.release ≤ nsNow s)
    (hkind : descKind i.target = 2) :
    outputRelease s = iolRelease (descUnit i.target) i.bytes i.valid (modMaps (fun m => { m with instances := [] }) s) := by
  have hinst : ∀ v, releaseInst i v = iolRelease (descUnit i.target) i.bytes i.valid v := by
    intro v; simp only [releaseInst, hkind]
  rw [outputRelease_due hone hdue, hinst]
  exact dlRelease_nothing hpend

/-- … or the pull FIFO of an engine (R335). -/
theorem released_engine {i : Instance_} {s : State} (hone : s.maps.instances = [i]) (hpend : s.dl.pend = []) (hdue : i.release ≤ nsNow s)
    (hkind : descKind i.target = 4) :
    outputRelease s = packEngine (descUnit i.target) (leVal i.bytes) (modMaps (fun m => { m with instances := [] }) s) := by
  have hinst : ∀ v, releaseInst i v = packEngine (descUnit i.target) (leVal i.bytes) v := by
    intro v; simp only [releaseInst, hkind]
  rw [outputRelease_due hone hdue, hinst]
  exact dlRelease_nothing hpend

/-! ## Poll rounds (R244) -/

/-- The entries of a channel's polls that are due in cycle `k`. -/
def dueRound (s : State) (ch k : Nat) : List RoundEntry :=
  ((polls s ch).zipIdx.filter (fun x => x.1.period != 0 && (k + x.1.period - x.1.phase) % x.1.period == 0)).map (roundEntry s)

theorem mem_dueRound {s : State} {ch k i : Nat} : i ∈ (dueRound s ch k).map (·.entry)
    ↔ ∃ p, (polls s ch)[i]? = some p ∧ p.period ≠ 0 ∧ (k + p.period - p.phase) % p.period = 0 := by
  have hentry : (dueRound s ch k).map (·.entry)
      = ((polls s ch).zipIdx.filter (fun x => x.1.period != 0 && (k + x.1.period - x.1.phase) % x.1.period == 0)).map Prod.snd := by
    rw [dueRound, List.map_map]
    rfl
  rw [hentry, List.mem_map]
  simp only [List.mem_filter, Prod.exists, List.mk_mem_zipIdx_iff_getElem?, Bool.and_eq_true, bne_iff_ne, beq_iff_eq,
    exists_eq_right]

/-- A round whose cycle has come opens. -/
theorem mbRoundOpen_due {ch k : Nat} {s v : State} (hon : mbOn s ch = true) (hmap : s.maps.active = true) (hhears : serialHears s ch = true)
    (hpast : mapDout s ≤ tickNow s) (hk : k = (tickNow s - mapDout s) / s.maps.n) (hnew : (chan s ch).mb.roundCycle < k)
    (hv : v = bumpBy (chnAddr ch 0x2A0) (chan s ch).mb.round.length s) :
    mbRoundOpen ch s = if (lockedBy v ch).isSome
      then bumpBy (chnAddr ch 0x2A0) (dueRound v ch k).length (modMb ch (fun m => { m with round := [], roundCycle := k }) v)
      else modMb ch (fun m => { m with round := dueRound v ch k, roundCycle := k }) v := by
  subst hk hv
  unfold mbRoundOpen
  refine (if_neg ?_).trans rfl
  simp [hon, hmap, hhears, hpast, hnew]

theorem chan_modMb_round {ch k : Nat} {f : MbState → MbState} {s : State} (hnew : 0 < k) (hf : (f (chan s ch).mb).roundCycle = k) :
    chan (modMb ch f s) ch = { chan s ch with mb := f (chan s ch).mb } :=
  chan_modChan s ch _ fun hdef => by
    have hzero : (f (chan s ch).mb).roundCycle = 0 := congrArg (fun c : Chan => c.mb.roundCycle) hdef
    omega

/-- Settles O38, by what a release, a scheduled write and a round that are due, or not yet, do. -/
theorem releasesAndRounds : Obligations.ReleasesAndRounds := by
  unfold Obligations.ReleasesAndRounds
  refine ⟨fun i s hone hpend hwf => ⟨fun hdue hkind => ?lines, fun hdue hkind hvalid hbytes => ?port, fun hdue hkind hroom => ?engine,
    fun hlate => effectIs_eq (outputRelease_waits hone hpend hlate)⟩, fun p s hnone hone => ⟨fun hdue => ?pend, fun hlate => ?pendWaits⟩,
    fun ch k s v hawake hon hmap hhears hpast hk hnew hv => ?round⟩
  case lines =>
    refine ⟨_, commit_goOn s _, ?_⟩
    dsimp only
    rw [released_lines hone hpend hdue hkind]
    exact ⟨by rw [setLines_maps]; rfl, commanded_setLines _ _ _ hwf, setLines_chans _ _ _ _, setLines_engines _ _ _ _⟩
  case port =>
    refine ⟨_, commit_goOn s _, ?_⟩
    dsimp only
    rw [released_port hone hpend hdue hkind, hvalid]
    unfold iolRelease modIol
    refine ⟨rfl, ?_, rfl, rfl, fun k hk => chan_modChan_other _ _ _ _ hk⟩
    rw [chan_modChan _ _ _ fun hdef => hbytes (congrArg (fun c : Chan => c.iol.pdOut) hdef)]
    rfl
  case engine =>
    refine ⟨_, commit_goOn s _, ?_⟩
    dsimp only
    rw [released_engine hone hpend hdue hkind]
    generalize hv : modMaps (fun m => { m with instances := [] }) s = v
    have hsame : ∀ e, engine v e = engine s e := fun e => by rw [← hv]; rfl
    have hfits : (engine v (descUnit i.target)).pull.length < 16 := by rw [hsame]; exact hroom
    unfold packEngine
    refine ⟨by rw [← hv]; rfl, ?_, by rw [← hv]; rfl, by rw [← hv]; rfl,
      fun k hk => (engine_modEngine_other _ _ _ _ hk).trans (hsame k)⟩
    rw [engine_modEngine _ _ _ fun hdef => ?_, if_pos hfits, hsame, ← hv]
    · rfl
    · rw [if_pos hfits] at hdef
      exact List.append_ne_nil_of_right_ne_nil _ (List.cons_ne_nil _ _) (congrArg Engine.pull hdef)
  case pend => exact effectIs_eq ((outputRelease_noInstance hnone).trans (dlRelease_due hone hdue))
  case pendWaits => exact effectIs_eq ((outputRelease_noInstance hnone).trans (dlRelease_waits hone hlate))
  case round =>
    have hopen := mbRoundOpen_due hon hmap hhears hpast hk hnew hv
    have hexec : onField (mbRoundOpen ch.val) s = mbRoundOpen ch.val s := if_pos hawake
    have hlock : lockedBy v ch.val = lockedBy s ch.val := by rw [hv]; rfl
    have hothers : ∀ f, ∀ j, j ≠ ch.val → chan (modMb ch.val f v) j = chan s j := fun f j hj =>
      (chan_modChan_other _ _ _ _ hj).trans (by rw [hv]; rfl)
    rw [hlock] at hopen
    refine ⟨fun hfree => ⟨_, commit_goOn s _, ?_⟩, fun hheld => ⟨_, commit_goOn s _, ?_⟩⟩ <;> dsimp only
    · rw [hexec, hopen, hfree, if_neg (by decide)]
      have hchan := chan_modMb_round (s := v) (ch := ch.val) (f := fun m => { m with round := dueRound v ch.val k, roundCycle := k })
        (Nat.zero_lt_of_lt hnew) rfl
      exact ⟨by rw [hchan], fun i => by rw [hchan]; exact mem_dueRound, hothers _, rfl⟩
    · rw [hexec, hopen, if_pos hheld]
      have hchan := chan_modMb_round (s := v) (ch := ch.val) (f := fun m => { m with round := [], roundCycle := k })
        (Nat.zero_lt_of_lt hnew) rfl
      have hcounted : ∀ w n j, chan (bumpBy (chnAddr ch.val 0x2A0) n w) j = chan w j := fun _ _ _ => rfl
      rw [hcounted]
      exact ⟨congrArg (fun c : Chan => c.mb.roundCycle) hchan, congrArg (fun c : Chan => c.mb.round) hchan,
        fun j hj => (hcounted _ _ j).trans (hothers _ j hj)⟩

end Sys2Proof.Proofs
end

section
/-! Multicast items and their delivery reports (R117 to R119). -/

namespace Sys2Proof.Proofs

open Sys2Proof Sys2Proof.Machine Sys2Proof.Laws

section
variable {s : State} {f : Frame}

/-- Two changes of the switch that agree on it are the same. -/
theorem modSw_congr {g h : SwState → SwState} (hsame : g s.sw = h s.sw) : modSw g s = modSw h s :=
  congrArg (fun w => { s with sw := w }) hsame

theorem modCmd_congr {g h : CmdState → CmdState} (hsame : g s.cmd = h s.cmd) : modCmd g s = modCmd h s :=
  congrArg (fun q => { s with cmd := q }) hsame

/-- The one delivered frame is taken. -/
theorem takeDelivered_one {p : Frame → Bool} (k : Frame → State → State) (hone : s.sw.delivered = [f]) (hp : p f = true) :
    takeDelivered p k s = k f (modSw (fun w => { w with delivered := [] }) s) := by
  have htaken : modSw (fun w => { w with delivered := w.delivered.erase f }) s = modSw (fun w => { w with delivered := [] }) s := by
    refine modSw_congr ?_
    rw [hone, List.erase_cons_head f []]
  unfold takeDelivered
  rw [hone, List.find?_cons_of_pos hp]
  exact congrArg (k f) htaken

theorem takeItem_repeated {x : Word × Nat} (hdone : (sget [] s.sw.mcDone f.src).find? (fun x => x.1.toNat == rd f.payload 0 4) = some x) :
    takeItem f s = sendReport f.src (rd f.payload 0 4) x.2 (bump 0x60434 s) := by
  unfold takeItem
  dsimp only
  rw [hdone]

/-- The command that a first item of its ID becomes. -/
def itemCmd (f : Frame) (s : State) : Cmd :=
  let a := arrivalOf (.ring (Fin.ofNat 256 f.src)) (f.payload.drop 8)
  let c := carriedCmd (itemSession f.src a.session) (rd f.payload 0 4) (slice a.params 0 7 ++ [0] ++ a.params.drop 8) a s
  if a.sizeOk && a.crcOk && a.opcode == 0x0008 && decide (bits (rd a.params 0 7) 52 4 ≤ 1) then c
  else { c with phase := .ready (if a.sizeOk && a.crcOk then .denied else .badCrc) [], effected := true }

theorem takeItem_first (hdone : sget [] s.sw.mcDone f.src = []) (hin : s.cmd.inflight = []) (hhead : headGood (f.payload.drop 8) = true)
    (hformat : formatGood (f.payload.drop 8) = true) : takeItem f s = modCmd (fun q => { q with inflight := [itemCmd f s] }) s := by
  have hput : ∀ c, modCmd (fun q => { q with inflight := q.inflight ++ [c] }) s = modCmd (fun q => { q with inflight := [c] }) s :=
    fun c => modCmd_congr (by rw [hin, List.nil_append])
  unfold takeItem
  dsimp only
  rw [hdone]
  dsimp only [List.find?_nil]
  rw [hin, hhead, hformat]
  exact hput _

theorem itemCmd_carries : (itemCmd f s).opcode = rd (f.payload.drop 8) 2 2 ∧ (itemCmd f s).target = rd f.payload 0 4
    ∧ isItem (itemCmd f s) = true := by
  have hitem : ∀ (st : Nat), 65792 ≤ itemSession f.src st := fun st => by unfold itemSession; omega
  unfold itemCmd
  extract_lets a c
  split
  · exact ⟨rfl, rfl, decide_eq_true (hitem _)⟩
  · exact ⟨rfl, rfl, decide_eq_true (hitem _)⟩

end

/-! ## Rounds (R119) -/

section
variable {s : State} {m : McItem}

theorem foundItem (hone : s.sw.mcItems = [m]) : s.sw.mcItems.find? (fun x => x.id == m.id) = some m := by
  rw [hone]
  exact List.find?_cons_of_pos (beq_self_eq_true m.id)

theorem multicastRoundEnd_early (hone : s.sw.mcItems = [m]) (hearly : since m.sentUp s < fld s 0x60000 8 8 * 2000) :
    multicastRoundEnd m.id s = s := by
  unfold multicastRoundEnd
  rw [foundItem hone]
  exact if_pos hearly

theorem multicastRoundEnd_last (hone : s.sw.mcItems = [m]) (hdue : m.sentUp + fld s 0x60000 8 8 * 2000 ≤ s.time.up)
    (hlast : mcMissing m = [] ∨ fld s 0x60000 16 3 ≤ m.rounds) :
    multicastRoundEnd m.id s = complete m.session m.tag .ok (mcResults m) (modSw (fun w => { w with mcItems := [] }) s) := by
  have hgone : s.sw.mcItems.filter (fun x => x.id != m.id) = [] := by rw [hone]; simp
  unfold multicastRoundEnd
  rw [foundItem hone]
  refine ((if_neg (of_decide_eq_false (since_due hdue))).trans (if_pos ?_)).trans ?_
  · exact hlast.imp (fun h => by rw [h]; rfl) id
  · exact congrArg (complete _ _ _ _) (modSw_congr (by rw [hgone]))

theorem multicastRoundEnd_again {n : Nat} (hone : s.sw.mcItems = [m]) (hdue : m.sentUp + fld s 0x60000 8 8 * 2000 ≤ s.time.up)
    (hsilent : mcMissing m = [n]) (hmore : m.rounds < fld s 0x60000 16 3) : multicastRoundEnd m.id s = sendPacket 1 n m.payload
      (bump 0x60430 (modSw (fun w => { w with mcItems := [{ m with rounds := m.rounds + 1, sentUp := s.time.up }] }) s)) := by
  have hnoted : s.sw.mcItems.map (fun x => if x.id = m.id then { x with rounds := x.rounds + 1, sentUp := s.time.up } else x)
      = [{ m with rounds := m.rounds + 1, sentUp := s.time.up }] := by rw [hone]; simp
  unfold multicastRoundEnd
  rw [foundItem hone]
  refine ((if_neg (of_decide_eq_false (since_due hdue))).trans (if_neg ?_)).trans ?_
  · rw [hsilent]
    exact fun h => h.elim (fun hnone => Bool.false_ne_true hnone) (Nat.not_le.mpr hmore)
  · dsimp only
    rw [hsilent]
    exact congrArg (fun t => sendPacket 1 n m.payload (bump 0x60430 t)) (modSw_congr (by rw [hnoted]))

end

/-- Settles O42, by what becomes of the one item, report or round that is due. -/
theorem multicastItems : Obligations.MulticastItems := by
  unfold Obligations.MulticastItems
  refine ⟨fun f s v hone hitem hserves hv => ?item, fun f m s hone hreport hm hid => ?report,
    fun m x s hone => ⟨fun hdue hlast hin hse htag hphase => ?last, fun n hdue hsilent hmore => ?again,
      fun hearly => effectIs_eq (multicastRoundEnd_early hone hearly)⟩⟩
  case item =>
    have htaken : multicastReqRx s = takeItem f v := by
      rw [hv]
      exact (if_pos hserves).trans (takeDelivered_one _ hone hitem)
    refine ⟨fun x hdone => effectIs_eq (htaken.trans (takeItem_repeated (by rw [hv]; exact hdone))),
      fun hdone hin hhead hformat hop => ?_⟩
    have hcmd : v.cmd = s.cmd := by rw [hv]; rfl
    have hfirst : takeItem f v = _ := takeItem_first (by rw [hv]; exact hdone) (by rw [hcmd]; exact hin) hhead hformat
    obtain ⟨hopcode, htarget, hkind⟩ := itemCmd_carries (s := v) (f := f)
    refine ⟨_, commit_goOn s _, itemCmd f v, ?_⟩
    rw [htaken, hfirst]
    exact ⟨by rw [← hcmd]; rfl, hopcode.trans hop, htarget, hkind, rfl, by rw [hv]; rfl⟩
  case report =>
    have htaken : deliveryReportRx s = mcReport (BitVec.ofNat 32 (rd f.payload 4 4)) f.src (rd f.payload 2 2)
        (modSw (fun w => { w with delivered := [] }) s) := takeDelivered_one _ hone hreport
    refine ⟨_, commit_goOn s _, ?_⟩
    dsimp only
    rw [htaken]
    refine ⟨rfl, ?_, rfl⟩
    show s.sw.mcItems.map _ = _
    simp only [hm, List.map_cons, List.map_nil, hid, true_and, Bool.not_eq_true']
  case last =>
    have hready : isReady x = false := by rw [isReady, hphase]
    refine ⟨_, commit_goOn s _, ?_⟩
    dsimp only
    rw [multicastRoundEnd_last hone hdue hlast, ← hse, ← htag]
    exact ⟨rfl, congrArg State.cmd (complete_alone (s := modSw _ s) hin hready)⟩
  case again => exact effectIs_eq (multicastRoundEnd_again hone hdue hsilent hmore)

end Sys2Proof.Proofs
end

section
/-! Replay, acknowledgement and gaps (R132 to R134, R136). -/

namespace Sys2Proof.Proofs

open Sys2Proof Sys2Proof.Machine Sys2Proof.Laws

/-! ## A frame taken from a queue -/

/-- What taking a frame off a queue leaves alone: everything but the switch, and the replay buffers there. -/
structure Taken (s v : State) : Prop where
  only : v = { s with sw := v.sw }
  replayCw : v.sw.replayCw = s.sw.replayCw
  replayCcw : v.sw.replayCcw = s.sw.replayCcw

theorem Taken.cmd {s v : State} (h : Taken s v) : v.cmd = s.cmd := by rw [h.only]
theorem Taken.ring {s v : State} (h : Taken s v) : v.ring = s.ring := by rw [h.only]

theorem taken_dequeue (o : Output) (c : Nat) (s : State) : Taken s (dequeue o c s) := by
  unfold dequeue
  split
  · exact ⟨rfl, rfl, rfl⟩
  · exact ⟨rfl, rfl, rfl⟩

theorem takeCtl_head {t n : Nat} {f : Frame} {s : State} (k : Frame → State → State) (hhead : ctlHead s t n = some f) :
    takeCtl t n k s = k f (dequeue .local 4 s) := by
  unfold takeCtl
  rw [hhead]

/-! ## Acknowledgements (R132 to R134) -/

/-- What an ACK makes of a copy: freed below NEXT and where reported lost. -/
def ackedCopy (k : Nat) (next : Word) (lost : Word → Bool) (advanced : Bool) (c : Copy) : Option Copy :=
  if copyKey c = k then
    (if seqBefore c.frame.seq next || lost c.frame.seq then none else some (if advanced then { c with sends := 0 } else c))
  else some c

section
variable {k : Nat} {next : Word} {lost : Word → Bool} {advanced : Bool} {c d : Copy}

theorem ackedCopy_key (hkept : ackedCopy k next lost advanced c = some d) :
    copyKey d = copyKey c ∧ (copyKey d = k → seqBefore d.frame.seq next = false) := by
  unfold ackedCopy at hkept
  split at hkept
  · split at hkept
    · exact absurd hkept.symm (Option.some_ne_none _)
    · rename_i hbehind
      have hnext : seqBefore c.frame.seq next = false := (Bool.or_eq_false_iff.mp (Bool.eq_false_iff.mpr hbehind)).1
      obtain rfl := Option.some.inj hkept
      split
      · exact ⟨rfl, fun _ => hnext⟩
      · exact ⟨rfl, fun _ => hnext⟩
  · rename_i hkey
    obtain rfl := Option.some.inj hkept
    exact ⟨rfl, fun h => absurd h hkey⟩

theorem ackedCopy_other (hkey : copyKey c ≠ k) : ackedCopy k next lost advanced c = some c := if_neg hkey

theorem ackedCopy_behind (hnext : seqBefore c.frame.seq next = false) (hlost : lost c.frame.seq = false) :
    ∃ d, ackedCopy k next lost advanced c = some d ∧ d.frame = c.frame ∧ d.sentUp = c.sentUp := by
  unfold ackedCopy
  split
  · rw [hnext, hlost]
    refine ⟨_, if_neg Bool.false_ne_true, ?_⟩
    split
    · exact ⟨rfl, rfl⟩
    · exact ⟨rfl, rfl⟩
  · exact ⟨c, rfl, rfl, rfl⟩

end

/-- The state of the copies after an ACK, and of their clock where NEXT advanced. -/
def afterAck (k : Nat) (next : Word) (lost : Word → Bool) (s : State) : State :=
  let advanced := (copiesOf s k).any (fun c => seqBefore c.frame.seq next)
  onlyIf advanced (modSw (fun w => { w with advanceUp := sput 0 w.advanceUp k s.time.up }))
    (mapCopies (ackedCopy k next lost advanced) s)

theorem afterAck_same (k : Nat) (next : Word) (lost : Word → Bool) (s : State) :
    let adv := (copiesOf s k).any (fun c => seqBefore c.frame.seq next)
    (afterAck k next lost s).sw.replayCw = s.sw.replayCw.filterMap (ackedCopy k next lost adv)
    ∧ (afterAck k next lost s).sw.replayCcw = s.sw.replayCcw.filterMap (ackedCopy k next lost adv)
    ∧ (afterAck k next lost s).cmd = s.cmd ∧ (afterAck k next lost s).ring = s.ring := by
  unfold afterAck onlyIf
  dsimp only
  split
  · exact ⟨rfl, rfl, rfl, rfl⟩
  · exact ⟨rfl, rfl, rfl, rfl⟩

/-- The places that an ACK reports lost. -/
def lostPlaces (flags : Nat) (first : Word) (count : Nat) (q : Word) : Bool := bit flags 1 && decide ((q - first).toNat < count)

theorem takeAck_noGap {k flags count : Nat} {next first : Word} (s : State) (hgap : bit flags 0 = false) :
    takeAck k flags next first count s = completeAllLost
      ((((copiesOf s k).filter (fun c => seqBefore c.frame.seq next || lostPlaces flags first count c.frame.seq)).filter
        (fun c => lostPlaces flags first count c.frame.seq)).map (·.frame)) (afterAck k next (lostPlaces flags first count) s) := by
  unfold takeAck
  exact if_neg (by rw [hgap]; exact Bool.false_ne_true)

/-- An ACK without a gap and without lost places completes nothing. -/
theorem takeAck_plain {k count : Nat} {next first : Word} (s : State) :
    takeAck k 0 next first count s = afterAck k next (fun _ => false) s := by
  have hnone : lostPlaces 0 first count = fun _ => false := rfl
  rw [takeAck_noGap s rfl, hnone]
  have hempty : ∀ l : List Copy, l.filter (fun _ => false) = [] := fun l => List.filter_eq_nil_iff.mpr fun _ _ => Bool.false_ne_true
  rw [hempty]
  rfl

theorem copiesOf_one {k : Nat} {c : Copy} {s : State} (hcw : s.sw.replayCw = [c]) (hccw : s.sw.replayCcw = []) (hkey : copyKey c = k) :
    copiesOf s k = [c] := by
  unfold copiesOf
  rw [hcw, hccw, List.append_nil, List.filter_cons_of_pos (by simp [hkey])]
  rfl

/-- A REQ of one frame that is lost completes its command with LOST (R134). -/
theorem completeAllLost_command {f : Frame} {se : Nat} {tag : Tag} {op : Nat} (s : State) (hcls : f.cls = 1)
    (hpacket : packetOf f.head = some (se, tag, op)) : completeAllLost [f] s = complete se tag .lost [] s := by
  have hkept : [f].filter (fun f' => f'.first || !([f].any (fun g => g.first && !g.last
      && seqKey g.cls g.dst g.mgroup == seqKey f'.cls f'.dst f'.mgroup && g.seq + 1 == f'.seq))) = [f] := by
    simp
  unfold completeAllLost
  rw [hkept]
  show completeLost f s = _
  unfold completeLost
  rw [if_pos hcls, hpacket]

/-! ## The timers (R132, R133, R136) -/

section
variable {s : State} {h : HoldBack}

theorem since_reached {t d : Nat} : d ≤ since t s ↔ t + d ≤ s.time.up ∨ d = 0 := by unfold since; omega

theorem ackTimer_due (hone : s.sw.holdBack = [h]) (hgroup : h.group = none) (hopen : h.uncovered ≠ 0) (hdue : h.timerUp + 100 ≤ s.time.up) :
    ackTimer h.src h.cls s = ackNow h 0 0 s := by
  unfold ackTimer
  rw [hone, List.find?_cons_of_pos (by simp [hgroup, hopen, since_reached, hdue])]

theorem ackTimer_early {src cls : Nat} (hone : s.sw.holdBack = [h]) (hearly : h.uncovered = 0 ∨ s.time.up < h.timerUp + 100) :
    ackTimer src cls s = s := by
  have hnot : ¬ (h.uncovered ≠ 0 ∧ 100 ≤ since h.timerUp s) := fun hboth =>
    hearly.elim hboth.1 fun hlt => by
      have := since_reached.mp hboth.2
      omega
  unfold ackTimer
  rw [hone, List.find?_cons_of_neg (by simp only [Bool.and_eq_true, decide_eq_true_eq, bne_iff_ne]; exact fun hall => hnot ⟨hall.1.2, hall.2⟩)]
  rfl

theorem replayNoAdvance_due {dst cls : Nat} (hsome : copiesOf s (seqKey cls dst 0) ≠ [])
    (hdue : sget 0 s.sw.advanceUp (seqKey cls dst 0) + 400 ≤ s.time.up) :
    replayNoAdvance dst cls s = resendOrGiveUp (seqKey cls dst 0) (copiesOf s (seqKey cls dst 0))
      (modSw (fun w => { w with advanceUp := sput 0 w.advanceUp (seqKey cls dst 0) s.time.up }) s) := by
  unfold replayNoAdvance
  refine if_neg fun hnot => hnot.elim (fun hempty => hsome (List.isEmpty_iff.mp hempty)) fun hlt => ?_
  unfold since at hlt
  omega

theorem replayNoAdvance_early {dst cls : Nat} (hearly : copiesOf s (seqKey cls dst 0) = []
    ∨ s.time.up < sget 0 s.sw.advanceUp (seqKey cls dst 0) + 400) : replayNoAdvance dst cls s = s := by
  unfold replayNoAdvance
  refine if_pos (hearly.imp (fun hnone => List.isEmpty_iff.mpr hnone) fun hlt => ?_)
  unfold since
  omega

/-- The gap below the one frame held (R136). -/
theorem lostGap_one {g : Frame} {n : Nat} (hheld : h.held = [g]) (hn : n = (g.seq - h.expected).toNat) : lostGap h s =
    ((List.range n).map (fun i => Handed.lost h.src h.dst h.group h.cls (h.expected + BitVec.ofNat 32 i)) ++ [.frame g],
      ackNow { h with expected := g.seq + 1, held := [] } h.expected n (bumpBy 0x50644 n s)) := by
  have hfirst : firstHeld h = some g.seq := by rw [firstHeld, hheld]; rfl
  have hreleased : releaseHeld h.held.length { h with expected := g.seq } = ([g], { h with expected := g.seq + 1, held := [] }) := by
    rw [hheld]
    show releaseHeld 1 _ = _
    simp [releaseHeld]
  unfold lostGap
  rw [hfirst]
  dsimp only
  rw [hreleased, ← hn]
  rfl

theorem gapTimeout_due {g : Frame} {n : Nat} (hone : s.sw.holdBack = [h]) (hheld : h.held = [g])
    (hn : n = (g.seq - h.expected).toNat) (hdue : h.gapUp + 1000 ≤ s.time.up) : gapTimeout h.src h.cls h.group s =
    deliverAll ((List.range n).map (fun i => Handed.lost h.src h.dst h.group h.cls (h.expected + BitVec.ofNat 32 i)) ++ [.frame g])
      (ackNow { h with expected := g.seq + 1, held := [] } h.expected n (bumpBy 0x50644 n s)) := by
  unfold gapTimeout
  rw [hone, List.find?_cons_of_pos (by simp [hheld, since_reached, hdue])]
  dsimp only
  rw [lostGap_one hheld hn]

theorem gapTimeout_early {src cls : Nat} {group : Option Nat} (hone : s.sw.holdBack = [h]) (hearly : s.time.up < h.gapUp + 1000) :
    gapTimeout src cls group s = s := by
  have hnot : ¬ 1000 ≤ since h.gapUp s := fun hge => by
    have := since_reached.mp hge
    omega
  unfold gapTimeout
  rw [hone, List.find?_cons_of_neg (by simp only [Bool.and_eq_true, decide_eq_true_eq]; exact fun hall => hnot hall.2)]
  rfl

end

/-- Settles O43, by what an ACK makes of each copy, and by what each timer does when it is due. -/
theorem replayEvents : Obligations.ReplayEvents := by
  unfold Obligations.ReplayEvents
  refine ⟨fun f s hhead _ hflags => ?ack, fun f c x s hhead _ hflags hcw hccw hkey hcls hclass hseq hcount hin hphase hpacket => ?lost,
    fun src cls h s hone hsrc hgroup hcls => ⟨fun hopen hdue => ?timer, fun hearly => effectIs_eq (ackTimer_early hone hearly)⟩,
    fun dst cls k s v hk hv => ⟨fun hsome hdue => ?advance, fun hearly => ?quiet⟩,
    fun src cls group h g n s hone hsrc hgroup hcls hheld hn _ =>
      ⟨fun hdue => ?gap, fun hearly => effectIs_eq (gapTimeout_early hone hearly)⟩⟩
  case ack =>
    have htaken := taken_dequeue .local 4 s
    have hcmd := htaken.cmd
    have hring := htaken.ring
    have hacked : ackRx s = afterAck (seqKey (rd f.payload 1 1) f.src 0) (BitVec.ofNat 32 (rd f.payload 4 4)) (fun _ => false)
        (dequeue .local 4 s) := by
      refine (takeCtl_head _ hhead).trans ?_
      dsimp only
      rw [hflags]
      exact takeAck_plain _
    refine ⟨_, commit_goOn s _, ?_⟩
    dsimp only
    rw [hacked]
    generalize seqKey (rd f.payload 1 1) f.src 0 = k
    generalize BitVec.ofNat 32 (rd f.payload 4 4) = next
    obtain ⟨hcw', hccw', hcmd', hring'⟩ := afterAck_same k next (fun _ => false) (dequeue .local 4 s)
    rw [hcw', hccw', hcmd', hring', htaken.replayCw, htaken.replayCcw]
    refine ⟨fun c hc hkey => ?_, fun c hc hkey => ?_, fun c hc hkey => ?_, fun c hc hnext => ?_, hcmd, hring⟩
    · rw [← List.filterMap_append] at hc
      obtain ⟨d, -, hd⟩ := List.mem_filterMap.mp hc
      exact (ackedCopy_key hd).2 hkey
    · exact List.mem_filterMap.mpr ⟨c, hc, ackedCopy_other hkey⟩
    · exact List.mem_filterMap.mpr ⟨c, hc, ackedCopy_other hkey⟩
    · obtain ⟨d, hd, hframe, hsent⟩ := ackedCopy_behind (k := _) (advanced := _) (lost := fun _ => false) hnext rfl
      exact ⟨d, List.mem_filterMap.mpr ⟨c, hc, hd⟩, hframe, hsent⟩
  case lost =>
    have htaken := taken_dequeue .local 4 s
    have hcmd := htaken.cmd
    obtain ⟨-, htcw, htccw⟩ := htaken
    have hcopies : copiesOf (dequeue .local 4 s) (seqKey 1 f.src 0) = [c] := copiesOf_one (htcw.trans hcw) (htccw.trans hccw) hkey
    have hlost : lostPlaces 2 (BitVec.ofNat 32 (rd f.payload 8 4)) (rd f.payload 12 2) c.frame.seq = true := by
      rw [lostPlaces, hseq]
      simpa [bit] using hcount
    have hgone : ackedCopy (seqKey 1 f.src 0) (BitVec.ofNat 32 (rd f.payload 4 4))
        (lostPlaces 2 (BitVec.ofNat 32 (rd f.payload 8 4)) (rd f.payload 12 2))
        ([c].any (fun c => seqBefore c.frame.seq (BitVec.ofNat 32 (rd f.payload 4 4)))) c = none := by
      unfold ackedCopy
      rw [if_pos hkey, hlost, Bool.or_true]
      rfl
    have hacked : ackRx s = complete x.session x.tag .lost [] (afterAck (seqKey 1 f.src 0) (BitVec.ofNat 32 (rd f.payload 4 4))
        (lostPlaces 2 (BitVec.ofNat 32 (rd f.payload 8 4)) (rd f.payload 12 2)) (dequeue .local 4 s)) := by
      refine (takeCtl_head _ hhead).trans ?_
      dsimp only
      have hreported : ([c].filter (fun c => seqBefore c.frame.seq (BitVec.ofNat 32 (rd f.payload 4 4))
          || lostPlaces 2 (BitVec.ofNat 32 (rd f.payload 8 4)) (rd f.payload 12 2) c.frame.seq)).filter
          (fun c => lostPlaces 2 (BitVec.ofNat 32 (rd f.payload 8 4)) (rd f.payload 12 2) c.frame.seq) = [c] := by
        simp [hlost]
      rw [hflags, hclass, takeAck_noGap _ rfl, hcopies, hreported]
      exact completeAllLost_command _ hcls hpacket
    obtain ⟨hcw', -, hcmd', -⟩ := afterAck_same (seqKey 1 f.src 0) (BitVec.ofNat 32 (rd f.payload 4 4))
      (lostPlaces 2 (BitVec.ofNat 32 (rd f.payload 8 4)) (rd f.payload 12 2)) (dequeue .local 4 s)
    rw [hcopies, htcw, hcw, List.filterMap_cons_none hgone] at hcw'
    refine ⟨_, commit_goOn s _, ?_⟩
    dsimp only
    rw [hacked]
    refine ⟨hcw', ?_⟩
    generalize afterAck _ _ _ _ = t at hcmd'
    have hsame : t.cmd = s.cmd := hcmd'.trans hcmd
    rw [complete_alone (by rw [hsame]; exact hin) (by rw [isReady, hphase]), ← hsame]
    rfl
  case timer =>
    have hturn := ackTimer_due hone hgroup hopen hdue
    rw [hsrc, hcls] at hturn
    exact effectIs_eq hturn
  case advance =>
    subst hk hv
    have hturn := replayNoAdvance_due hsome hdue
    refine ⟨fun hfew => effectIs_eq (hturn.trans (if_neg ?_)), fun hmany => effectIs_eq (hturn.trans (if_pos hmany))⟩
    simpa using hfew
  case quiet =>
    subst hk
    exact effectIs_eq (replayNoAdvance_early hearly)
  case gap =>
    have hturn := gapTimeout_due hone hheld hn hdue
    rw [hsrc, hcls, hgroup] at hturn
    refine effectIs_eq (hturn.trans ?_)
    rw [hsrc, hcls, hgroup]

end Sys2Proof.Proofs
end

section
/-! What ports, wraps and outgoing frames leave alone. -/

namespace Sys2Proof.Proofs

open Sys2Proof Sys2Proof.Machine Sys2Proof.Laws

/-! ## Ports -/

section
variable (p : Port) (f : PortSt → PortSt) (s : State)

@[simp] theorem portSt_modPort : portSt (modPort p f s) p = f (portSt s p) := by cases p <;> rfl

@[simp] theorem portSt_modPort_other : portSt (modPort p f s) (otherPort p) = portSt s (otherPort p) := by cases p <;> rfl

theorem portSt_modPort_ne {q : Port} (h : q ≠ p) : portSt (modPort p f s) q = portSt s q := by
  have hother : q = otherPort p := by
    cases p <;> cases q
    · exact absurd rfl h
    · rfl
    · rfl
    · exact absurd rfl h
  rw [hother]
  exact portSt_modPort_other p f s

@[simp] theorem modPort_light : (modPort p f s).ring.light = s.ring.light := by cases p <;> rfl
@[simp] theorem modPort_node : (modPort p f s).ring.node = s.ring.node := by cases p <;> rfl

variable {f s}

/-- A change of a port that leaves it as it is. -/
theorem modPort_same (h : f (portSt s p) = portSt s p) : modPort p f s = s := by
  unfold modPort
  rw [h]
  cases p <;> rfl

theorem portSt_of_ring {t : State} (h : t.ring = s.ring) : portSt t p = portSt s p := by
  cases p
  · exact congrArg RingState.east h
  · exact congrArg RingState.west h

end

/-! ## Wraps -/

/-- The wrap and drain bits of both ports. -/
def wrapBits (s : State) : (Bool × Bool) × Bool × Bool := ((s.sw.eastWrap, s.sw.westWrap), (s.sw.eastDrain, s.sw.westDrain))

theorem wrapped_of_bits {s t : State} (h : wrapBits t = wrapBits s) (p : Port) : wrapped t p = wrapped s p := by
  have hw := congrArg Prod.fst h
  cases p
  · exact congrArg Prod.fst hw
  · exact congrArg Prod.snd hw

theorem draining_of_bits {s t : State} (h : wrapBits t = wrapBits s) (p : Port) : draining t p = draining s p := by
  have hd := congrArg Prod.snd h
  cases p
  · exact congrArg Prod.fst hd
  · exact congrArg Prod.snd hd

theorem modPort_bits (p : Port) (f : PortSt → PortSt) (s : State) : wrapBits (modPort p f s) = wrapBits s := by
  unfold wrapBits
  rw [modPort_sw]

section
variable (p : Port) (w d : Bool) (s : State)

@[simp] theorem wrapped_setWrap : wrapped (setWrap p w d s) p = w := by cases p <;> rfl
@[simp] theorem draining_setWrap : draining (setWrap p w d s) p = d := by cases p <;> rfl
@[simp] theorem wrapped_setWrap_other : wrapped (setWrap p w d s) (otherPort p) = wrapped s (otherPort p) := by cases p <;> rfl
@[simp] theorem draining_setWrap_other : draining (setWrap p w d s) (otherPort p) = draining s (otherPort p) := by cases p <;> rfl

end

/-! ## Frames that this hub sends -/

/-- What the sending of a frame leaves alone: everything but the switch and its counters, and of the switch the wraps. -/
structure Sent (s t : State) : Prop where
  view : hubView t = hubView s
  cmd : t.cmd = s.cmd
  wraps : wrapBits t = wrapBits s

theorem Sent.refl (s : State) : Sent s s := ⟨rfl, rfl, rfl⟩

theorem Sent.trans {s t u : State} (h : Sent s t) (k : Sent t u) : Sent s u :=
  ⟨k.view.trans h.view, k.cmd.trans h.cmd, k.wraps.trans h.wraps⟩

section
variable {s t : State} (h : Sent s t)
include h

theorem Sent.ring : t.ring = s.ring := view_ring h.view
theorem Sent.time : t.time = s.time := by
  have hview := congrArg State.time h.view
  exact hview
theorem Sent.chans : t.chans = s.chans := view_chans h.view
theorem Sent.hub : t.hub = s.hub := by
  have hview := congrArg State.hub h.view
  exact hview
theorem Sent.power : t.power = s.power := view_power h.view
theorem Sent.maps : t.maps = s.maps := view_maps h.view
theorem Sent.reset : t.reset_ = s.reset_ := by
  have hview := congrArg State.reset_ h.view
  exact hview
theorem Sent.port (p : Port) : portSt t p = portSt s p := portSt_of_ring p h.ring

end

theorem sent_foldl {α : Type} {f : State → α → State} (h : ∀ s a, Sent s (f s a)) (l : List α) (s : State) : Sent s (l.foldl f s) := by
  induction l generalizing s with
  | nil => exact .refl s
  | cons a t ih => exact (h s a).trans (ih _)

section
variable (s : State)

theorem sent_onlyIf {f : State → State} (b : Bool) (h : Sent s (f s)) : Sent s (onlyIf b f s) := by
  cases b
  · exact .refl s
  · exact h

theorem sent_bump {a : Nat} (h : offSwitch a = false) : Sent s (bump a s) := ⟨hubView_bump s a h, rfl, rfl⟩

theorem sent_csrPut {a : Nat} (w : Nat) (h : offSwitch a = false) : Sent s (csrPut a w s) := ⟨hubView_csrPut s a w h, rfl, rfl⟩

theorem sent_notePoolMin : Sent s (notePoolMin s) := sent_onlyIf s _ (sent_csrPut s _ (by decide))

theorem sent_setQueue (o : Output) (c : Nat) (l : List Frame) : Sent s (setQueue o c l s) := ⟨rfl, rfl, rfl⟩

theorem sent_giveCells (f : Frame) : Sent s (giveCells f s).2 := ⟨rfl, rfl, rfl⟩

theorem sent_enqueue (o : Output) (f : Frame) : Sent s (enqueue o f s) := by
  unfold enqueue
  exact ((sent_giveCells s _).trans (sent_setQueue _ _ _ _)).trans (sent_notePoolMin _)

theorem sent_putOut (p : Port) (g : Frame) : Sent s (putOut p g s) := by
  unfold putOut
  split
  · exact ((sent_giveCells s _).trans (sent_setQueue _ _ _ _)).trans (sent_notePoolMin _)
  · exact sent_enqueue s _ g

theorem sent_launch (f : Frame) : Sent s (launch f s) := by
  unfold launch
  extract_lets u
  have hcopy : Sent s u := sent_onlyIf s _ ⟨hubView_addCopy s f, rfl, rfl⟩
  split
  · exact (hcopy.trans (sent_onlyIf u _ (sent_bump u (by decide)))).trans (sent_putOut _ _ _)
  · exact hcopy.trans (sent_bump u (by decide))

theorem sent_holdOut (f : Frame) : Sent s (holdOut f s) := by
  unfold holdOut
  extract_lets u
  have hcount : Sent s u := sent_onlyIf s _ (sent_bump s (by decide))
  have hheld : Sent u (modSw (fun w => { w with heldOut := if f.replay then insertAhead f w.heldOut else w.heldOut ++ [f] }) u) :=
    ⟨rfl, rfl, rfl⟩
  exact (hcount.trans hheld).trans (sent_bump _ (by decide))

theorem sent_originate (f : Frame) : Sent s (originate f s) := by
  unfold originate offer
  have hseq : Sent s (withSeq f s).2 := ⟨rfl, rfl, rfl⟩
  dsimp only
  split
  · exact hseq.trans (sent_launch _ _)
  · exact hseq.trans (sent_holdOut _ _)

theorem sent_sendCtl (dst mgroup cycle : Nat) (ccw : Bool) (payload : List Byte) : Sent s (sendCtl dst mgroup cycle ccw payload s) :=
  sent_originate s _

theorem sent_wrapNotice (p : Port) (kind cycle : Nat) : Sent s (wrapNotice p kind cycle s) := by
  unfold wrapNotice
  split
  · exact .refl s
  · exact sent_sendCtl s _ _ _ _ _

end

end Sys2Proof.Proofs
end

section
/-! Wrap notices, the hold-off and the unwrap (R133, R138 to R140). -/

namespace Sys2Proof.Proofs

open Sys2Proof Sys2Proof.Machine Sys2Proof.Laws

/-! ## Wrap notices (R133, R138) -/

section
variable {s v : State} {f : Frame} {p : Port}

theorem Taken.neighbour (h : Taken s v) (p : Port) : neighbour v p = neighbour s p :=
  congrArg PortSt.neighbour (portSt_of_ring p h.ring)

theorem Taken.holdElapsed (h : Taken s v) (p : Port) : holdElapsed v p = holdElapsed s p := by rw [h.only]; rfl

/-- What a notice for the span beyond port `p` does. -/
theorem takeWrapNotice_kind {src : Nat} {b : List Byte} (hp : p = portOf (1 - min 1 (rd b 2 1))) :
    (rd b 1 1 = 0 → takeWrapNotice src b v = replaySpan src (rd b 3 1) v)
    ∧ (rd b 1 1 = 1 → rd b 3 1 = v.ring.node ∨ rd b 3 1 = 0 → neighbour v p = src → takeWrapNotice src b v =
        if holdElapsed v p then modPort p (fun q => { q with unwrapAt := some (rd b 16 8) }) v else bump 0x5064C (wrapNotice p 3 0 v))
    ∧ (rd b 1 1 = 3 → rd b 3 1 = v.ring.node → neighbour v p = src → takeWrapNotice src b v =
        modPort p (fun q => { q with unwrapAt := none, holdUp := if isUp v p && q.peerUp then some v.time.up else none }) v)
    ∧ (rd b 1 1 ≠ 0 → rd b 3 1 ≠ v.ring.node → rd b 3 1 ≠ 0 → takeWrapNotice src b v = v) := by
  subst hp
  refine ⟨fun hkind => ?_, fun hkind hmine hnear => ?_, fun hkind hmine hnear => ?_, fun hkind hother hany => ?_⟩
  · unfold takeWrapNotice
    exact if_pos hkind
  · have hours : (rd b 3 1 == v.ring.node || rd b 3 1 == 0) = true := by simpa using hmine
    unfold takeWrapNotice
    dsimp only
    rw [hkind, hours, hnear]
    exact (if_neg (by decide)).trans (if_pos ⟨rfl, by simp⟩)
  · have hours : (rd b 3 1 == v.ring.node || rd b 3 1 == 0) = true := by simp [hmine]
    unfold takeWrapNotice
    dsimp only
    rw [hkind, hours, hnear]
    exact ((if_neg (by decide)).trans (if_neg (fun h => absurd h.1 (by decide)))).trans (if_pos ⟨rfl, by simp⟩)
  · have hnot : (rd b 3 1 == v.ring.node || rd b 3 1 == 0) = false := by simp [hother, hany]
    unfold takeWrapNotice
    dsimp only
    rw [hnot, Bool.false_and]
    exact ((if_neg hkind).trans (if_neg fun h => Bool.false_ne_true h.2)).trans (if_neg fun h => Bool.false_ne_true h.2)

end

/-! ## Hold-off and drain (R138 to R140) -/

section
variable {s : State}

theorem unwrapHoldoffElapse_plans (hdone : s.ring.east.unwrapDone = false) (helapsed : holdElapsed s .east = true)
    (hnone : s.ring.east.unwrapAt = none) : unwrapHoldoffElapse .east s =
      wrapNotice .east 1 (cycleNow s + 2) (modPort .east (fun q => { q with unwrapAt := some (cycleNow s + 2) }) s) := by
  unfold unwrapHoldoffElapse
  exact if_pos ⟨rfl, by simp [portSt, hdone], helapsed, hnone⟩

theorem sent_sendDrain (p : Port) (k c : Nat) (t : State) : Sent t (sendDrain p k c t) := sent_originate t _

theorem unwrapStart_due {p : Port} {k : Nat} (hplan : (portSt s p).unwrapAt = some k) (hdue : k ≤ cycleNow s) (hup : isUp s p = true) :
    ∃ t, Sent s t ∧ unwrapStart p s = modPort p (fun q => { q with
      unwrapAt := none, holdUp := none, unwrapDone := true, drainDone := [], drainTick := tickNow t }) (setWrap p (wrapped t p) true t) := by
  refine ⟨(drainClasses s).foldl (fun s c => sendDrain p k c s) s, sent_foldl (fun t c => sent_sendDrain p k c t) _ s, ?_⟩
  unfold unwrapStart
  rw [hplan]
  exact if_pos ⟨hdue, hup⟩

theorem unwrapStart_early {p : Port} {k : Nat} (hplan : (portSt s p).unwrapAt = some k) (hearly : cycleNow s < k) : unwrapStart p s = s := by
  unfold unwrapStart
  rw [hplan]
  exact if_neg fun h => absurd h.1 (by omega)

theorem drainRx_taken {f : Frame} {p : Port} (hone : s.sw.delivered = [f]) (hdrain : isDrain f = true)
    (hp : p = otherPort (portOf (rd f.payload 1 1))) (hdraining : draining s p = true) (hnear : neighbour s p = f.src)
    (hplan : (portSt s p).unwrapAt = none) (hclass : (drainClasses s).contains f.cls = true)
    (hopen : (portSt s p).drainDone.contains f.cls = false) :
    drainRx s = releaseDrain p f.cls (modSw (fun w => { w with delivered := [] }) s) := by
  subst hp
  have hfound : s.sw.delivered.find? isDrain = some f := by rw [hone, List.find?_cons_of_pos hdrain]
  have htaken : modSw (fun w => { w with delivered := w.delivered.erase f }) s = modSw (fun w => { w with delivered := [] }) s :=
    modSw_congr (by rw [hone, List.erase_cons_head f []])
  unfold drainRx
  rw [hfound]
  dsimp only
  rw [hplan, htaken]
  generalize hv : modSw (fun w => { w with delivered := [] }) s = v
  refine (if_neg Bool.false_ne_true).trans (if_pos ?_)
  subst hv
  exact ⟨hdraining, hnear, hclass, by rw [Bool.not_eq_true']; exact hopen⟩

/-- A class that is released while others still drain, with no copy held: only its mark is set (R139). -/
theorem releaseDrain_more {p : Port} {c : Nat} (hmore : (drainClasses s).all (fun k => ((portSt s p).drainDone ++ [c]).contains k) = false)
    (hheld : (portSt s p).drainHeld = []) : releaseDrain p c s = modPort p (fun q => { q with drainDone := q.drainDone ++ [c] }) s := by
  have hnone : (portSt (modPort p (fun q => { q with drainDone := q.drainDone ++ [c] }) s) p).drainHeld = [] := by
    rw [portSt_modPort]; exact hheld
  have hclasses : drainClasses (modPort p (fun q => { q with drainDone := q.drainDone ++ [c] }) s) = drainClasses s := by
    unfold drainClasses reduced
    rw [modPort_light]
  have hletGo : ∀ (u : State) which, (portSt u p).drainHeld = [] → letGo p which u = u := by
    intro u which hu
    unfold letGo
    dsimp only
    rw [hu]
    exact modPort_same p (by rw [hu]; exact congrArg (fun l => { portSt u p with drainHeld := l }) hu.symm)
  unfold releaseDrain finishDrain
  dsimp only
  rw [hletGo _ _ hnone, hclasses, portSt_modPort, hmore]
  exact if_neg Bool.false_ne_true

theorem drainTimeout_due {p : Port} {c : Nat} (hdraining : draining s p = true) (hclass : (drainClasses s).contains c = true)
    (hopen : (portSt s p).drainDone.contains c = false) (hdue : (portSt s p).drainTick + 1000 ≤ tickNow s) :
    drainTimeout p c s = releaseDrain p c (bump 0x50648 s) := by
  unfold drainTimeout
  exact if_pos ⟨hdraining, hclass, by rw [Bool.not_eq_true']; exact hopen, hdue⟩

theorem drainTimeout_early {p : Port} {c : Nat} (hearly : tickNow s < (portSt s p).drainTick + 1000) : drainTimeout p c s = s := by
  unfold drainTimeout
  exact if_neg fun h => absurd h.2.2.2 (by omega)

end

/-- Settles O44, by what each notice does, and by what the hold-off, the drain and its end do when they are due. -/
theorem unwrapEvents : Obligations.UnwrapEvents := by
  unfold Obligations.UnwrapEvents
  refine ⟨fun f p s v hhead hv hp => ?notice, fun s => ⟨fun hdone helapsed hnone => effectIs_eq (unwrapHoldoffElapse_plans hdone helapsed hnone),
      fun hearly => effectIs_eq (if_neg fun h => ?early), effectIs_eq (if_neg fun h => absurd h.1 (by decide))⟩,
    fun p k s hplan => ⟨fun hdue hup => ?start, fun hearly => effectIs_eq (unwrapStart_early hplan hearly)⟩,
    fun f p s hone hdrain hp hdraining hnear hplan hclass hopen => ?drain,
    fun p c s hdraining hclass hopen => ⟨fun hdue => effectIs_eq (drainTimeout_due hdraining hclass hopen hdue),
      fun hearly => effectIs_eq (drainTimeout_early hearly)⟩⟩
  case notice =>
    have htaken : Taken s v := by rw [hv]; exact taken_dequeue _ _ s
    have hrx : wrapNoticeRx s = takeWrapNotice f.src f.payload v := by rw [hv]; exact takeCtl_head _ hhead
    obtain ⟨hreplay, hplan, hwithdraw, hother⟩ := takeWrapNotice_kind (src := f.src) (v := v) hp
    have hnode : v.ring.node = s.ring.node := congrArg RingState.node htaken.ring
    rw [hnode, htaken.neighbour] at hwithdraw hplan
    rw [hnode] at hother
    rw [htaken.holdElapsed] at hplan
    refine ⟨fun hkind => effectIs_eq (hrx.trans (hreplay hkind)), fun hkind hmine hnear => ⟨fun helapsed => effectIs_eq ?_, fun hearly => effectIs_eq ?_⟩,
      fun hkind hmine hnear => ⟨_, commit_goOn s _, ?_⟩, fun hkind hnot hany => effectIs_eq (hrx.trans (hother hkind hnot hany))⟩
    · exact (hrx.trans (hplan hkind hmine hnear)).trans (if_pos helapsed)
    · exact (hrx.trans (hplan hkind hmine hnear)).trans (if_neg (by rw [hearly]; exact Bool.false_ne_true))
    · dsimp only
      rw [hrx, hwithdraw hkind hmine hnear, portSt_modPort, portSt_modPort_other, modPort_sw]
      exact ⟨rfl, portSt_of_ring _ htaken.ring, rfl⟩
  case early => exact absurd h.2.2.1 (by rw [hearly]; exact Bool.false_ne_true)
  case start =>
    obtain ⟨t, hsent, hstart⟩ := unwrapStart_due hplan hdue hup
    have hport : ∀ q, portSt (setWrap p (wrapped t p) true t) q = portSt s q := fun q => by rw [← hsent.port]; rfl
    have htick : tickNow t = tickNow s := by unfold tickNow ringNs; rw [hsent.time]
    refine ⟨_, commit_goOn s _, ?_⟩
    dsimp only
    rw [hstart, portSt_modPort, portSt_modPort_other, hport, hport, htick]
    refine ⟨(draining_of_bits (modPort_bits p _ _) p).trans (draining_setWrap p _ _ t),
      ((wrapped_of_bits (modPort_bits p _ _) p).trans (wrapped_setWrap p _ _ t)).trans (wrapped_of_bits hsent.wraps p),
      ((draining_of_bits (modPort_bits p _ _) _).trans (draining_setWrap_other p _ _ t)).trans (draining_of_bits hsent.wraps _), rfl, rfl⟩
  case drain =>
    have hrx := drainRx_taken hone hdrain hp hdraining hnear hplan hclass hopen
    refine ⟨effectIs_eq hrx, fun hmore hheld => effectIs_eq (hrx.trans (releaseDrain_more (s := modSw _ s) hmore hheld))⟩

end Sys2Proof.Proofs
end

section
/-! Ends of trials and of ownership, the start of a component, and words of the tag area (R424, R428, R434, R441, R442). -/

namespace Sys2Proof.Proofs

open Sys2Proof Sys2Proof.Machine Sys2Proof.Laws

/-! ## The end of ownership (R428) -/

section
variable (u : State)

theorem setOth_active (v : FwSlot) (x : FwComp) : (setOth v x).active = x.active := by
  unfold setOth
  split
  · rfl
  · rfl

/-- A change of a component that leaves the mark of its active slot leaves that mark in every component. -/
theorem active_modComp {k j : Nat} {f : FwComp → FwComp} (hk : k < u.upd.comps.length) (hf : ∀ x, (f x).active = x.active) :
    (comp (modComp j f u) k).active = (comp u k).active := by
  by_cases hj : k = j
  · subst hj
    rw [comp_modComp hk, hf]
  · rw [comp_modComp_other hj]

theorem endOwner_active {k : Nat} (hk : k < u.upd.comps.length) : (comp (endOwner u) k).active = (comp u k).active := by
  have hdrop : ∀ x, (if (othSlot x).st = .receiving then setOth {} x else x).active = x.active := by
    intro x
    split
    · exact setOth_active _ _
    · rfl
  unfold endOwner onlyIf
  split
  · split
    · rfl
    · rfl
  · exact active_modComp u (f := fun x => if (othSlot x).st = .receiving then setOth {} x else x) hk hdrop
  · rfl

theorem endOwner_owner : (endOwner u).upd.owner = none ∧ (endOwner u).upd.recv = none ∧ (endOwner u).upd.recvCount = 0
    ∧ (endOwner u).upd.active = u.upd.active := by
  unfold endOwner onlyIf
  split
  · split
    · exact ⟨rfl, rfl, rfl, rfl⟩
    · exact ⟨rfl, rfl, rfl, rfl⟩
  · exact ⟨rfl, rfl, rfl, rfl⟩
  · exact ⟨rfl, rfl, rfl, rfl⟩

variable {u}

theorem endOwner_lehr (h : u.upd.lehrSt ≠ .receiving) : (endOwner u).upd.lehr = u.upd.lehr ∧ (endOwner u).upd.lehrSt = u.upd.lehrSt := by
  unfold endOwner onlyIf
  split
  · rw [if_neg (by simpa using h)]
    exact ⟨rfl, rfl⟩
  · exact ⟨rfl, rfl⟩
  · exact ⟨rfl, rfl⟩

theorem endOwner_partial {n : Nat} (hrecv : u.upd.recv = some (4, n)) (h : u.upd.lehrSt = .receiving) :
    (endOwner u).upd.lehr = [] ∧ (endOwner u).upd.lehrSt = .empty := by
  unfold endOwner onlyIf
  rw [hrecv, h]
  exact ⟨rfl, rfl⟩

theorem updMoved_cmd {s t : State} (h : UpdMoved s t) : t.cmd = s.cmd ∧ t.chans = s.chans := by
  rw [h.eq]
  exact ⟨rfl, rfl⟩

theorem ownerLapse_due {s : State} (howner : s.upd.owner.isSome = true) (htrial : s.upd.trial = none)
    (hdue : s.upd.lastBlockUp + 120000000 ≤ s.time.up) :
    ownerLapse s = updateEvent (ownerComp s) 3 (bump 0x120110 (endOwner s)) := by
  unfold ownerLapse
  refine if_pos ⟨howner, by rw [htrial]; rfl, ?_⟩
  unfold since
  omega

theorem updateEvent_keeps (c kind : Nat) (t : State) : (updateEvent c kind t).upd = t.upd ∧ (updateEvent c kind t).cmd.inflight = t.cmd.inflight
    ∧ (updateEvent c kind t).chans = t.chans := ⟨emit_upd _ _ t, emit_inflight _ _ t, emit_chans t _ _⟩

end

/-! ## Fall-back (R434) -/

/-- A component that falls back: the older slot is active again, and the trial image is VALID. -/
def fellComp (x : FwComp) : FwComp :=
  let y := if (actSlot x).st = .trial then { x with active := !x.active } else x
  { y with a := if y.a.st = .trial then { y.a with st := .valid } else y.a, b := if y.b.st = .trial then { y.b with st := .valid } else y.b }

theorem fellComp_active (x : FwComp) : (fellComp x).active = if (actSlot x).st = .trial then !x.active else x.active := by
  unfold fellComp
  split
  · rfl
  · rfl

/-- The configuration that a trial kept aside comes back. -/
def keptBack (s : State) : State := if s.upd.lehrSt = .kept then exchangeCfg .valid s else s

section
variable {s : State}

theorem fallAndRestart_trial {c e : Nat} (htrial : s.upd.trial = some (c, e)) : fallAndRestart s = scheduleStart c (modUpd (fun u => { u with
    trial := none, start := none, fellBack := some c }) (endOwner (keptBack (modComp c fellComp s)))) := by
  unfold fallAndRestart fallBack
  rw [htrial]
  rfl

theorem keptBack_upd : (keptBack s).upd.comps = s.upd.comps
    ∧ (s.upd.lehrSt = .kept → (keptBack s).upd.active = s.upd.lehr ∧ (keptBack s).upd.lehr = s.upd.active ∧ (keptBack s).upd.lehrSt = .valid) := by
  unfold keptBack
  split
  · exact ⟨rfl, fun _ => ⟨rfl, rfl, rfl⟩⟩
  · rename_i hnot
    exact ⟨rfl, fun h => absurd h hnot⟩

theorem updMoved_keptBack : UpdMoved s (keptBack s) := by
  unfold keptBack
  split
  · exact updMoved_exchange s _
  · exact .refl s

theorem trialExpiry_due {c e : Nat} (htrial : s.upd.trial = some (c, e)) (hhub : s.hub ≠ .off) (hdue : e ≤ s.time.up) :
    trialExpiry s = fallAndRestart s := by
  unfold trialExpiry
  rw [htrial]
  exact if_pos ⟨hhub, hdue⟩

theorem trialExpiry_early {c e : Nat} (htrial : s.upd.trial = some (c, e)) (hearly : s.time.up < e) : trialExpiry s = s := by
  unfold trialExpiry
  rw [htrial]
  exact if_neg fun h => absurd h.2 (by omega)

/-! ## The start of a component (R424) -/

theorem componentStart_owed (howed : commitOwed s = true) : componentStart s = s := by
  unfold componentStart
  split
  · rfl
  · exact if_pos howed

theorem enterTrial_upd (c : Nat) : (enterTrial c s).upd.start = s.upd.start ∧ (enterTrial c s).upd.fellBack = s.upd.fellBack
    ∧ (c < s.upd.comps.length → (comp (enterTrial c s) c).active = if (othSlot (comp s c)).st = .trial then !(comp s c).active else (comp s c).active) := by
  unfold enterTrial
  extract_lets u
  have hactive : c < s.upd.comps.length → (comp u c).active = if (othSlot (comp s c)).st = .trial then !(comp s c).active else (comp s c).active := by
    intro hc
    unfold u
    rw [comp_modComp hc]
    split
    · rfl
    · rfl
  split
  · exact ⟨rfl, rfl, hactive⟩
  · exact ⟨rfl, rfl, hactive⟩

variable {due : Nat} (howed : commitOwed s = false)
include howed

theorem componentStart_port (hstart : s.upd.start = some (0, due)) (hport : s.upd.startPort = 0) :
    componentStart s = portBlock .east (modUpd (fun u => { u with startPort := 1 }) (enterTrial 0 s)) := by
  unfold componentStart
  rw [hstart]
  exact (if_neg (by rw [howed]; exact Bool.false_ne_true)).trans (if_pos hport)

theorem componentStart_engine (hstart : s.upd.start = some (1, due)) (hdue : due ≤ cycleNow s) :
    componentStart s = tellFallBack (enterTrial 1 (modUpd (fun u => { u with start := none }) s)) := by
  unfold componentStart
  rw [hstart]
  exact (if_neg (by rw [howed]; exact Bool.false_ne_true)).trans (if_pos hdue)

theorem componentStart_reset (hdue : due ≤ s.time.up) : (s.upd.start = some (2, due) → componentStart s = assertSource 9 s)
    ∧ (s.upd.start = some (3, due) → componentStart s = assertSource 8 s) := by
  refine ⟨fun hstart => ?_, fun hstart => ?_⟩
  · unfold componentStart
    rw [hstart]
    exact (if_neg (by rw [howed]; exact Bool.false_ne_true)).trans (if_pos hdue)
  · unfold componentStart
    rw [hstart]
    exact (if_neg (by rw [howed]; exact Bool.false_ne_true)).trans (if_pos hdue)

end

/-! ## Words of the tag area (R441, R442) -/

theorem spaceWrite_tagWord {off : Nat} {bs : List Byte} {s : State} (hlen : bs.length = 4) (hoff : off < 4096) (halign : off % 4 = 0)
    (hcontent : off % 256 < 252) : spaceWrite 0 4 off bs s = if bit s.upd.tagLocks (off / 256) then (.denied, sysErr 2 s)
      else (.ok, tagStore off (leBytes 4 (rd bs 0 4)) s) := by
  have hrange : rangeBad 4 off bs.length s = none := by
    rw [hlen]
    unfold rangeBad spaceSize spaceUnit
    simp only [halign]
    exact (if_neg (by omega)).trans ((if_neg (by decide)).trans (if_neg (by decide)))
  have hwords : wordsIn off bs.length = [off] := by rw [hlen]; simp [wordsIn]
  have hword : ∀ v, tagWord off v s = if bit s.upd.tagLocks (off / 256) then none else some (tagStore off (leBytes 4 v) s) := by
    intro v
    unfold tagWord tagLocked
    refine ite_of_iff ⟨fun h => ?_, fun h => .inr (.inr (.inr h))⟩ _ _
    exact (h.resolve_left (by omega)).resolve_left (by omega) |>.resolve_left (by omega)
  unfold spaceWrite
  rw [hrange]
  dsimp only
  unfold writeTags
  rw [hwords]
  cases hlock : bit s.upd.tagLocks (off / 256) with
  | true => simp [hword, hlock]
  | false => simp [hword, hlock]

/-- Settles O35, by what each timer, start and write does when it is due. -/
theorem updateEvents : Obligations.UpdateEvents := by
  unfold Obligations.UpdateEvents
  refine ⟨fun c e s htrial hhub hdue hc _ => ?expiry, fun c e s htrial hearly => effectIs_eq (trialExpiry_early htrial hearly),
    fun s howner htrial hdue => ?lapse, fun s howed => effectIs_eq (componentStart_owed howed), fun due s howed hstart hport => ?port,
    fun due s howed hstart hfell hc hdue => ?engine, fun due s howed hdue => ⟨fun hstart hfirst => ?service, fun hstart hfirst => ?warm⟩,
    fun off v s hserves hoff halign hcontent => ?word⟩
  case expiry =>
    refine ⟨_, commit_goOn s _, ?_⟩
    dsimp only
    rw [(trialExpiry_due htrial hhub hdue).trans (fallAndRestart_trial htrial)]
    have hmoved : UpdMoved s (endOwner (keptBack (modComp c fellComp s))) :=
      ((updMoved_modComp s c fellComp).trans updMoved_keptBack).trans (updMoved_endOwner _)
    obtain ⟨hcomps, hkept⟩ := keptBack_upd (s := modComp c fellComp s)
    have hlength : c < (keptBack (modComp c fellComp s)).upd.comps.length := by
      rw [hcomps]
      simpa [modComp, modUpd, setAt_eq_set] using hc
    have hactive : (comp (endOwner (keptBack (modComp c fellComp s))) c).active
        = if (actSlot (comp s c)).st = .trial then !(comp s c).active else (comp s c).active := by
      rw [endOwner_active _ hlength, comp_of_upd hcomps, comp_modComp hc, fellComp_active]
    obtain ⟨howner, hrecv, -, hcfg⟩ := endOwner_owner (keptBack (modComp c fellComp s))
    have hdue' : startDue c (endOwner (keptBack (modComp c fellComp s))) = startDue c s := by rw [hmoved.eq]; rfl
    have hback : s.upd.lehrSt = .kept → (endOwner (keptBack (modComp c fellComp s))).upd.active = s.upd.lehr
        ∧ (endOwner (keptBack (modComp c fellComp s))).upd.lehr = s.upd.active
        ∧ (endOwner (keptBack (modComp c fellComp s))).upd.lehrSt = .valid := by
      intro hst
      obtain ⟨h1, h2, h3⟩ := hkept hst
      obtain ⟨hlehr, hst'⟩ := endOwner_lehr (u := keptBack (modComp c fellComp s)) (by rw [h3]; decide)
      exact ⟨hcfg.trans h1, hlehr.trans h2, hst'.trans h3⟩
    generalize endOwner (keptBack (modComp c fellComp s)) = t at hmoved hactive howner hrecv hdue' hback
    refine ⟨rfl, howner, hrecv, rfl, ?_, hactive, hback, hmoved.tags, ?_⟩
    · rw [← hdue']; rfl
    · rw [hmoved.eq]; rfl
  case lapse =>
    refine ⟨_, commit_goOn s _, ?_⟩
    dsimp only
    rw [ownerLapse_due howner htrial hdue]
    obtain ⟨hupd, hin, hchans⟩ := updateEvent_keeps (ownerComp s) 3 (bump 0x120110 (endOwner s))
    have hmoved := updMoved_endOwner s
    rw [hupd, hin, hchans]
    obtain ⟨hnone, hrecv, hcount, hactive⟩ := endOwner_owner s
    refine ⟨hnone, hrecv, hcount, fun n hpart hst => endOwner_partial hpart hst, fun n _ hst => ?_, hactive, ?_, ?_⟩
    · obtain ⟨hlehr, hst'⟩ := endOwner_lehr (u := s) (by rw [hst]; decide)
      exact ⟨hlehr, hst'.trans hst⟩
    · exact congrArg CmdState.inflight (updMoved_cmd hmoved).1
    · exact (updMoved_cmd hmoved).2
  case port =>
    have hmoved := updMoved_enterTrial s 0
    refine ⟨_, commit_goOn s _, modUpd (fun u => { u with startPort := 1 }) (enterTrial 0 s), rfl, (enterTrial_upd 0).1, ?_, ?_⟩
    · rw [hmoved.eq]; rfl
    · have hup : (modUpd (fun u => { u with startPort := 1 }) (enterTrial 0 s)).time.up = s.time.up := by rw [hmoved.eq]; rfl
      rw [componentStart_port howed hstart hport, portBlock, hup]
  case engine =>
    obtain ⟨hstart', hfell', hactive⟩ := enterTrial_upd (s := modUpd (fun u => { u with start := none }) s) 1
    have hmoved := updMoved_enterTrial (modUpd (fun u => { u with start := none }) s) 1
    have hquiet : componentStart s = enterTrial 1 (modUpd (fun u => { u with start := none }) s) := by
      rw [componentStart_engine howed hstart hdue, tellFallBack, hfell'.trans hfell]
    refine ⟨_, commit_goOn s _, ?_⟩
    dsimp only
    rw [hquiet]
    exact ⟨hstart', hactive hc, by rw [hmoved.eq]; rfl⟩
  case service =>
    exact ⟨_, commit_goOn s _, by rw [(componentStart_reset howed hdue).1 hstart]; exact (assertSource_asserts s hfirst).1⟩
  case warm =>
    exact ⟨_, commit_goOn s _, by rw [(componentStart_reset howed hdue).2 hstart]; exact (assertSource_asserts s hfirst).1⟩
  case word =>
    have hwrite := spaceWrite_tagWord (bs := leBytes 4 v.toNat) (s := s) (length_leBytes _ _) hoff halign hcontent
    have hvalue : rd (leBytes 4 v.toNat) 0 4 = v.toNat := by
      simpa using rd_leBytes_toNat 4 v [] (by decide)
    rw [hvalue] at hwrite
    refine ⟨fun hopen => effectIs_eq ((if_pos hserves).trans ?_), fun hlocked => ⟨_, commit_goOn s _, ?_⟩⟩
    · rw [hwrite, hopen]
      rfl
    · dsimp only
      rw [if_pos hserves, hwrite, hlocked]
      exact ⟨rfl, rfl⟩

end Sys2Proof.Proofs
end

section
/-! What the failure of items and the end of waiters leave of a channel (R188, R190, R197, R198). -/

namespace Sys2Proof.Proofs

open Sys2Proof Sys2Proof.Machine Sys2Proof.Laws

/-! ## Reports -/

/-- Between the states only the reports of channel `ch` and the words of its RX queue changed, among all channels. -/
structure Reported (ch : Nat) (s t : State) : Prop where
  others : ∀ k, k ≠ ch → chan t k = chan s k
  own : ∃ r p w, chan t ch = { chan s ch with rxq := r, pendRpt := p, rptWaits := w }

section
variable {ch : Nat} {s t u : State}

theorem Reported.of_chans (h : t.chans = s.chans) : Reported ch s t :=
  ⟨fun k _ => chan_of_chans h k, _, _, _, chan_of_chans h ch⟩

theorem Reported.trans (h : Reported ch s t) (k : Reported ch t u) : Reported ch s u := by
  obtain ⟨r, p, w, hown⟩ := k.own
  obtain ⟨r', p', w', hown'⟩ := h.own
  exact ⟨fun n hn => (k.others n hn).trans (h.others n hn), r, p, w, by rw [hown, hown']⟩

theorem Reported.st (h : Reported ch s t) : (chan t ch).st = (chan s ch).st := by
  obtain ⟨r, p, w, hown⟩ := h.own
  rw [hown]

theorem reported_modChan (hon : (chan s ch).st ≠ .off) (r : List DWord) (p : Option StatusWord) (w : List StatusWord) {f : Chan → Chan}
    (hf : f (chan s ch) = { chan s ch with rxq := r, pendRpt := p, rptWaits := w }) : Reported ch s (modChan ch f s) := by
  refine ⟨fun k hk => chan_modChan_other s ch k f hk, r, p, w, ?_⟩
  rw [chan_modChan_on (by rw [hf]; exact hon), hf]

theorem reported_flushReport (hon : (chan s ch).st ≠ .off) : Reported ch s (flushReport ch s) := by
  unfold flushReport
  split
  · split
    · exact reported_modChan hon _ _ _ rfl
    · exact .of_chans rfl
  · exact .of_chans rfl

theorem reported_report (hon : (chan s ch).st ≠ .off) (st : Status) (seq : Nat) : Reported ch s (report ch st seq s) := by
  unfold report
  extract_lets joins v
  have hv : Reported ch s v := by
    unfold v onlyIf
    split
    · exact reported_flushReport hon
    · exact .of_chans rfl
  exact hv.trans (reported_modChan (by rw [hv.st]; exact hon) _ _ _ rfl)

theorem reported_answerItem (i : TxItem) (st : Status) (res : List Byte) : Reported ch s (answerItem i st res s) := by
  unfold answerItem
  split
  · exact .of_chans rfl
  · exact .of_chans rfl
  · exact .of_chans rfl

theorem reported_failItem (hon : (chan s ch).st ≠ .off) (i : TxItem) (st : Status) : Reported ch s (failItem ch i st s) := by
  unfold failItem
  extract_lets v w
  have hv : v.chans = s.chans := by
    unfold v
    split
    · rfl
    · rfl
    · rfl
    · rfl
  have hw : w.chans = s.chans := by
    unfold w
    split
    · exact (detect_chans v _ _).trans hv
    · exact hv
  have hsame : chan w ch = chan s ch := chan_of_chans hw ch
  exact ((Reported.of_chans hw).trans (reported_report (by rw [hsame]; exact hon) _ _)).trans (reported_answerItem _ _ _)

/-! ## Items taken out of the queue -/

theorem chan_removeItem (hon : (chan s ch).st ≠ .off) (seq : Nat) : chan (removeItem ch seq s) ch = { chan s ch with
    txq := (chan s ch).txq.filter (fun i => i.seq != seq), onWire := if (chan s ch).onWire = some seq then none else (chan s ch).onWire } :=
  chan_modChan_on (s := s) hon

theorem removeItem_others {k : Nat} (hk : k ≠ ch) (seq : Nat) : chan (removeItem ch seq s) k = chan s k := chan_modChan_other s ch k _ hk

/-- Between the states items of channel `ch` have failed: those of the sequences `qs` have left the queue. -/
structure Failed (ch : Nat) (qs : List Nat) (s t : State) : Prop where
  others : ∀ k, k ≠ ch → chan t k = chan s k
  own : ∃ o r p w, chan t ch = { chan s ch with
    txq := (chan s ch).txq.filter (fun i => !qs.contains i.seq), onWire := o, rxq := r, pendRpt := p, rptWaits := w }

theorem Failed.st {qs : List Nat} (h : Failed ch qs s t) : (chan t ch).st = (chan s ch).st := by
  obtain ⟨o, r, p, w, hown⟩ := h.own
  rw [hown]

theorem failed_nil (h : t.chans = s.chans) : Failed ch [] s t := by
  refine ⟨fun k _ => chan_of_chans h k, (chan s ch).onWire, (chan s ch).rxq, (chan s ch).pendRpt, (chan s ch).rptWaits, ?_⟩
  have hall : (chan s ch).txq.filter (fun i => !([] : List Nat).contains i.seq) = (chan s ch).txq :=
    List.filter_eq_self.mpr fun _ _ => rfl
  rw [hall, chan_of_chans h]

theorem failed_one (hon : (chan s ch).st ≠ .off) (i : TxItem) (st : Status) : Failed ch [i.seq] s (failItem ch i st (removeItem ch i.seq s)) := by
  have hgone := chan_removeItem hon i.seq
  have hst : (chan (removeItem ch i.seq s) ch).st ≠ .off := by rw [hgone]; exact hon
  obtain ⟨hothers, r, p, w, hown⟩ := reported_failItem hst i st
  have hsame : (chan s ch).txq.filter (fun j => j.seq != i.seq) = (chan s ch).txq.filter (fun j => !([i.seq].contains j.seq)) :=
    List.filter_congr fun j _ => by
      rw [List.contains_cons, List.contains_nil, Bool.or_false]
      rfl
  exact ⟨fun k hk => (hothers k hk).trans (removeItem_others hk _), _, r, p, w, by rw [hown, hgone, hsame]⟩

theorem Failed.trans {qs rs : List Nat} (h : Failed ch qs s t) (k : Failed ch rs t u) : Failed ch (qs ++ rs) s u := by
  obtain ⟨o, r, p, w, hown⟩ := k.own
  obtain ⟨o', r', p', w', hown'⟩ := h.own
  refine ⟨fun n hn => (k.others n hn).trans (h.others n hn), o, r, p, w, ?_⟩
  rw [hown, hown']
  dsimp only
  rw [List.filter_filter]
  have hboth : (chan s ch).txq.filter (fun i => (!rs.contains i.seq) && (!qs.contains i.seq))
      = (chan s ch).txq.filter (fun i => !(qs ++ rs).contains i.seq) :=
    List.filter_congr fun j _ => by
      rw [List.contains_append, Bool.not_or, Bool.and_comm]
  rw [hboth]

theorem failed_failAll (st : Status) (is : List TxItem) (hon : (chan s ch).st ≠ .off) : Failed ch (is.map (·.seq)) s (failAll ch is st s) := by
  induction is generalizing s with
  | nil => exact failed_nil rfl
  | cons i t ih =>
    have hone := failed_one hon i st
    exact hone.trans (ih (by rw [hone.st]; exact hon))

/-- Where the whole queue fails, nothing is left of it. -/
theorem failAll_queue (st : Status) (hon : (chan s ch).st ≠ .off) : (∀ k, k ≠ ch → chan (failAll ch (chan s ch).txq st s) k = chan s k)
    ∧ ∃ o r p w, chan (failAll ch (chan s ch).txq st s) ch = { chan s ch with txq := [], onWire := o, rxq := r, pendRpt := p, rptWaits := w } := by
  obtain ⟨hothers, o, r, p, w, hown⟩ := failed_failAll st (chan s ch).txq hon
  refine ⟨hothers, o, r, p, w, ?_⟩
  have hnone : (chan s ch).txq.filter (fun i => !((chan s ch).txq.map (·.seq)).contains i.seq) = [] :=
    List.filter_eq_nil_iff.mpr fun i hi => by
      rw [Bool.not_eq_true, Bool.not_eq_false', List.contains_iff_mem]
      exact List.mem_map_of_mem hi
  rw [hown, hnone]

/-! ## Waiters -/

theorem completes_chans {α : Type} (se : α → Nat) (tag : α → Tag) (st : Status) (res : List Byte) (l : List α) (v : State) :
    (l.foldl (fun u w => complete (se w) (tag w) st res u) v).chans = v.chans := foldl_keep State.chans (fun u w => complete (se w) (tag w) st res u) (fun _ _ => rfl) l v

/-- Offers that end before they are queued take numbers of the channel and are reported. -/
structure Refused (ch : Nat) (s t : State) : Prop where
  others : ∀ k, k ≠ ch → chan t k = chan s k
  own : ∃ q r p w, chan t ch = { chan s ch with txSeq := q, rxq := r, pendRpt := p, rptWaits := w }

theorem Refused.st (h : Refused ch s t) : (chan t ch).st = (chan s ch).st := by
  obtain ⟨q, r, p, w, hown⟩ := h.own
  rw [hown]

theorem Refused.of_chans (h : t.chans = s.chans) : Refused ch s t :=
  ⟨fun k _ => chan_of_chans h k, _, _, _, _, chan_of_chans h ch⟩

theorem Refused.trans (h : Refused ch s t) (k : Refused ch t u) : Refused ch s u := by
  obtain ⟨q, r, p, w, hown⟩ := k.own
  obtain ⟨q', r', p', w', hown'⟩ := h.own
  exact ⟨fun n hn => (k.others n hn).trans (h.others n hn), q, r, p, w, by rw [hown, hown']⟩

theorem refused_failOffer (hon : (chan s ch).st ≠ .off) (i : TxItem) (st : Status) : Refused ch s (failOffer ch i st s) := by
  unfold failOffer
  extract_lets q
  have hnext : chan (modChan ch (fun c => { c with txSeq := (q + 1) % 2 ^ 32 }) s) ch = { chan s ch with txSeq := (q + 1) % 2 ^ 32 } :=
    chan_modChan_on (s := s) hon
  obtain ⟨hothers, r, p, w, hown⟩ := reported_failItem (s := modChan ch (fun c => { c with txSeq := (q + 1) % 2 ^ 32 }) s)
    (by rw [hnext]; exact hon) { i with seq := q } st
  exact ⟨fun k hk => (hothers k hk).trans (chan_modChan_other s ch k _ hk), _, r, p, w, by rw [hown, hnext]⟩

theorem refused_offers (l : List (TxItem × Nat)) (hon : (chan s ch).st ≠ .off) :
    Refused ch s (l.foldl (fun v x => failOffer ch x.1 .aborted v) s) := by
  induction l generalizing s with
  | nil => exact .of_chans rfl
  | cons x t ih =>
    have hone := refused_failOffer hon x.1 .aborted
    exact hone.trans (ih (by rw [hone.st]; exact hon))

theorem abortWaiters_chan (hon : (chan s ch).st ≠ .off) : (∀ k, k ≠ ch → chan (abortWaiters ch s) k = chan s k)
    ∧ (∃ q r p w, chan (abortWaiters ch s) ch = { waitersGone (chan s ch) with txSeq := q, rxq := r, pendRpt := p, rptWaits := w })
    ∧ ((chan s ch).stalled = [] → chan (abortWaiters ch s) ch = waitersGone (chan s ch)) := by
  unfold abortWaiters
  extract_lets c v1 v2 v3 v4 v5 v6 v7
  have h2 : v2.chans = s.chans := by
    have h1 : v1.chans = s.chans := by unfold v1; split <;> rfl
    refine Eq.trans ?_ h1
    unfold v2
    split <;> rfl
  have hon2 : (chan v2 ch).st ≠ .off := by rw [chan_of_chans h2]; exact hon
  have h7 : v7.chans = v3.chans := by
    have h4 : v4.chans = v3.chans := completes_chans CanReq.session CanReq.tag .aborted [] _ v3
    have h5 : v5.chans = v4.chans := by
      unfold v5
      split
      · split <;> rfl
      · rfl
    have h6 : v6.chans = v5.chans := completes_chans Prod.fst Prod.snd .aborted [] _ v5
    exact (((completes_chans Prod.fst Prod.snd .aborted [] _ v6).trans h6).trans h5).trans h4
  have h3 : Refused ch s v3 := (Refused.of_chans h2).trans (refused_offers _ hon2)
  have hon7 : (chan v7 ch).st ≠ .off := by rw [chan_of_chans h7, h3.st]; exact hon
  have hown : chan (modChan ch waitersGone v7) ch = waitersGone (chan v7 ch) := chan_modChan_on (s := v7) hon7
  refine ⟨fun k hk => ?_, ?_, fun hnone => ?_⟩
  · exact (chan_modChan_other v7 ch k _ hk).trans ((chan_of_chans h7 k).trans (h3.others k hk))
  · obtain ⟨q, r, p, w, h⟩ := h3.own
    exact ⟨q, r, p, w, hown.trans (by rw [chan_of_chans h7, h]; rfl)⟩
  · have hnothing : v3 = v2 := by unfold v3 c; rw [hnone]; rfl
    exact hown.trans (by rw [chan_of_chans h7, hnothing, chan_of_chans h2])

theorem enterDisabled_chan : (∀ k, k ≠ ch → chan (enterDisabled ch s) k = chan s k)
    ∧ chan (enterDisabled ch s) ch = disabledChan (chan s ch) := by
  unfold enterDisabled
  extract_lets c v
  have hv : v.chans = s.chans := completes_chans Prod.fst Prod.snd .ok (leBytes 4 c.drainAborted) _ s
  refine ⟨fun k hk => (chan_modChan_other v ch k _ hk).trans (chan_of_chans hv k), ?_⟩
  have hown : chan (modChan ch disabledChan v) ch = disabledChan (chan v ch) :=
    chan_modChan_on (show ChState.disabled ≠ ChState.off by decide)
  exact hown.trans (by rw [chan_of_chans hv])

end

end Sys2Proof.Proofs
end

section
/-! CHN_CTL, the join, the drain and the end of a block reset (R186 to R190). -/

namespace Sys2Proof.Proofs

open Sys2Proof Sys2Proof.Machine Sys2Proof.Laws

/-! ## CHN_CTL (R189) -/

/-- A write of a channel's register goes to the channel's table. -/
theorem csrWrite_channel {ch off : Nat} (hch : ch < 128) (hoff : off < 0x800) (v : Nat) (s : State) :
    csrWrite (chnAddr ch off) v s = writeChn ch off v s := by
  have hunit : (chnAddr ch off - 0x80000) / 0x800 = ch := by unfold chnAddr; omega
  have hrest : (chnAddr ch off - 0x80000) % 0x800 = off := by unfold chnAddr; omega
  have hblock : chnAddr ch off / 0x10000 = 8 ∨ chnAddr ch off / 0x10000 = 9 ∨ chnAddr ch off / 0x10000 = 10 ∨ chnAddr ch off / 0x10000 = 11 := by
    unfold chnAddr; omega
  unfold csrWrite
  obtain h | h | h | h := hblock
  all_goals
    simp only [h, hunit, hrest]
    exact if_pos (by decide)

/-- A write of CHN_CTL acts by its highest bit. -/
theorem chnCtl_written {ch : Nat} (hch : ch < 128) (v : Nat) {s : State} (hbar : barFree s = true) :
    hostWrite (chnAddr ch 0x008) v s = chnCtl ch v s :=
  (if_pos hbar).trans (csrWrite_channel hch (by decide) v s)

/-- How many actions a write of CHN_CTL asks for. -/
def actionCount (w : Nat) : Nat := b2n (bit w 0) + b2n (bit w 1) + b2n (bit w 2) + b2n (bit w 3)

/-- A write that adds a lower action to RESET, or to ABORT. -/
theorem severalActions : ∀ v : BitVec 4,
    (v.getLsbD 3 = true → ∀ b ∈ [1, 2, 4], 1 < actionCount (Nat.lor v.toNat b) ∧ bit (Nat.lor v.toNat b) 3 = true)
    ∧ (v.getLsbD 3 = false → v.getLsbD 2 = true → ∀ b ∈ [1, 2], 1 < actionCount (Nat.lor v.toNat b)
        ∧ bit (Nat.lor v.toNat b) 3 = false ∧ bit (Nat.lor v.toNat b) 2 = true) := by decide

section
variable {ch : Nat} {s : State}

theorem chnCtl_several {w : Nat} (h : 1 < actionCount w) : chnCtl ch w s =
    if bit w 3 then (chanReset ch (sysErr 0 s)).2 else if bit w 2 then (chanAbort ch (sysErr 0 s)).2
    else if bit w 1 then drainComplete ch (chanDrain ch (sysErr 0 s))
    else if bit w 0 then onlyIf ((chan (sysErr 0 s) ch).st == .disabled) (chanEnable ch) (sysErr 0 s) else sysErr 0 s := by
  have hbad : onlyIf (decide (b2n (bit w 0) + b2n (bit w 1) + b2n (bit w 2) + b2n (bit w 3) > 1)) (sysErr 0) s = sysErr 0 s :=
    if_pos (decide_eq_true h)
  unfold chnCtl
  dsimp only
  rw [hbad]

theorem chanEnable_disabled (hst : (chan s ch).st = .disabled) : chanEnable ch s = modChan ch (fun x => { x with
    st := if x.resetting = true then .disabled else .joining, enabled := true, busIdle := false }) s := by
  unfold chanEnable
  exact modChan_congr (by rw [hst])

theorem chanDrain_open (hst : (chan s ch).st = .active ∨ (chan s ch).st = .joining ∨ (chan s ch).st = .alone) :
    chanDrain ch s = modChan ch (fun x => { x with st := .draining }) s := by
  unfold chanDrain
  dsimp only
  obtain h | h | h := hst
  · rw [h]
  · rw [h]
  · rw [h]

theorem drainComplete_holds (h : (chan s ch).st ≠ .draining ∨ (chan s ch).txq ≠ []) : drainComplete ch s = s := by
  unfold drainComplete
  exact if_neg fun hall => h.elim (fun hst => hst hall.1) (fun hq => hq (List.isEmpty_iff.mp hall.2.1))

/-- A channel that stops new items while some are queued, or that is disabled, stays so. -/
theorem chnCtl_drain_queued (hst : (chan s ch).st = .active ∨ (chan s ch).st = .joining ∨ (chan s ch).st = .alone) (hq : (chan s ch).txq ≠ []) :
    chnCtl ch 2 s = modChan ch (fun x => { x with st := .draining }) s := by
  have hdrain : chnCtl ch 2 s = drainComplete ch (chanDrain ch s) := rfl
  rw [hdrain, chanDrain_open hst]
  refine drainComplete_holds (.inr ?_)
  rw [chan_modChan_on (s := s) (show ChState.draining ≠ ChState.off by decide)]
  exact hq

theorem chnCtl_drain_disabled (hst : (chan s ch).st = .disabled) : chnCtl ch 2 s = modChan ch (fun x => { x with enabled := false }) s := by
  have hdrain : chnCtl ch 2 s = drainComplete ch (chanDrain ch s) := rfl
  have hnow : chanDrain ch s = modChan ch (fun x => { x with enabled := false }) s := by
    unfold chanDrain
    dsimp only
    rw [hst]
  rw [hdrain, hnow]
  refine drainComplete_holds (.inl ?_)
  rw [chan_modChan_on (s := s) (by dsimp only; rw [hst]; decide)]
  exact fun h => absurd (hst.symm.trans h) (by decide)

/-! ## The ends of a channel -/

theorem waitersGone_st (c : Chan) : (waitersGone c).st = c.st := rfl

/-- What an abort, a reset or a drain's end makes of a channel's queue and waiters: it is disabled. -/
theorem ended_chan (hon : (chan s ch).st ≠ .off) :
    (∀ k, k ≠ ch → chan (enterDisabled ch (abortWaiters ch (cutPartial ch s))) k = chan s k)
    ∧ (∃ q r p w, chan (enterDisabled ch (abortWaiters ch (cutPartial ch s))) ch
        = disabledChan { waitersGone (chan s ch) with txSeq := q, rxq := r, pendRpt := p, rptWaits := w })
    ∧ ((chan s ch).stalled = [] → chan (enterDisabled ch (abortWaiters ch (cutPartial ch s))) ch = disabledChan (waitersGone (chan s ch))) := by
  have hcut : ∀ k, chan (cutPartial ch s) k = chan s k := fun k => chan_cutPartial ch k s
  obtain ⟨hothers, ⟨q, r, p, w, hown⟩, hquiet⟩ := abortWaiters_chan (ch := ch) (s := cutPartial ch s) (by rw [hcut]; exact hon)
  obtain ⟨hothers', hown'⟩ := enterDisabled_chan (ch := ch) (s := abortWaiters ch (cutPartial ch s))
  rw [hcut] at hown hquiet
  exact ⟨fun k hk => (hothers' k hk).trans ((hothers k hk).trans (hcut k)), ⟨q, r, p, w, by rw [hown', hown]⟩, fun hnone => by
    rw [hown', hquiet hnone]⟩

/-- The abort of a channel without a frame on the bus (R188). -/
theorem chanAbort_open (hst : (chan s ch).st = .active ∨ (chan s ch).st = .joining) (hbus : (chan s ch).can.onBus = none) :
    (chanAbort ch s).2 = enterDisabled ch (abortWaiters ch (cutPartial ch
      (modChan ch (fun c => { c with drainAborted := c.drainAborted + (chan s ch).txq.length }) (failAll ch (chan s ch).txq .aborted s)))) := by
  have hall : (chan s ch).txq.filter (fun i => (chan s ch).can.onBus != some i.seq) = (chan s ch).txq := by
    rw [hbus]
    exact List.filter_eq_self.mpr fun _ _ => rfl
  have hnobus : ∀ n, ¬ ((chan s ch).can.onBus.isSome = true ∧ n = 3) := fun n h => by
    rw [hbus] at h
    exact Bool.false_ne_true h.1
  unfold chanAbort
  dsimp only
  rw [hall]
  obtain h | h := hst
  · rw [h]
    dsimp only
    rw [if_neg (hnobus _)]
  · rw [h]
    dsimp only
    rw [if_neg (hnobus _)]

theorem chanAbort_disables (hst : (chan s ch).st = .active ∨ (chan s ch).st = .joining) (hbus : (chan s ch).can.onBus = none) :
    (∀ k, k ≠ ch → chan (chanAbort ch s).2 k = chan s k) ∧ (chan (chanAbort ch s).2 ch).st = .disabled
    ∧ (chan (chanAbort ch s).2 ch).enabled = false ∧ (chan (chanAbort ch s).2 ch).txq = []
    ∧ ((chan s ch).stalled = [] → (chan (chanAbort ch s).2 ch).txSeq = (chan s ch).txSeq) := by
  have hon : (chan s ch).st ≠ .off := by
    obtain h | h := hst
    · rw [h]; decide
    · rw [h]; decide
  rw [chanAbort_open hst hbus]
  obtain ⟨hothers, o, r, p, w, hown⟩ := failAll_queue .aborted hon
  generalize failAll ch (chan s ch).txq .aborted s = t at hothers hown
  generalize hv : modChan ch (fun c => { c with drainAborted := c.drainAborted + (chan s ch).txq.length }) t = v
  have hont : (chan t ch).st ≠ .off := by rw [hown]; exact hon
  have hown' : chan v ch = { chan t ch with drainAborted := (chan t ch).drainAborted + (chan s ch).txq.length } := by
    rw [← hv]; exact chan_modChan_on (s := t) hont
  have hothers' : ∀ k, k ≠ ch → chan v k = chan s k := fun k hk => by
    rw [← hv, chan_modChan_other t ch k _ hk]; exact hothers k hk
  obtain ⟨hends, ⟨q, r', p', w', hend⟩, hquiet⟩ := ended_chan (s := v) (ch := ch) (by rw [hown']; exact hont)
  refine ⟨fun k hk => (hends k hk).trans (hothers' k hk), by rw [hend]; rfl, by rw [hend]; rfl, by rw [hend, hown', hown]; rfl, fun hnone => ?_⟩
  rw [hquiet (by rw [hown', hown]; exact hnone), hown', hown]
  rfl

/-- The channel's state, its enable and its queue stay, and every other channel. -/
structure ChanHeld (ch : Nat) (s t : State) : Prop where
  others : ∀ k, k ≠ ch → chan t k = chan s k
  st : (chan t ch).st = (chan s ch).st
  enabled : (chan t ch).enabled = (chan s ch).enabled
  txq : (chan t ch).txq = (chan s ch).txq

theorem ChanHeld.trans {t u : State} (h : ChanHeld ch s t) (k : ChanHeld ch t u) : ChanHeld ch s u :=
  ⟨fun n hn => (k.others n hn).trans (h.others n hn), k.st.trans h.st, k.enabled.trans h.enabled, k.txq.trans h.txq⟩

theorem ChanHeld.of_chans {t : State} (h : t.chans = s.chans) : ChanHeld ch s t := by
  have hsame := chan_of_chans h
  exact ⟨fun k _ => hsame k, by rw [hsame], by rw [hsame], by rw [hsame]⟩

theorem Refused.held {t : State} (h : Refused ch s t) : ChanHeld ch s t := by
  obtain ⟨q, r, p, w, hown⟩ := h.own
  exact ⟨h.others, by rw [hown], by rw [hown], by rw [hown]⟩

theorem held_cutPush (hon : (chan s ch).st ≠ .off) : ChanHeld ch s (cutPush ch s) := by
  unfold cutPush
  extract_lets ws i
  split
  · exact .of_chans rfl
  · have hown : chan (modChan ch (fun c => { c with partPush := [], dropPush := true }) s) ch
        = { chan s ch with partPush := [], dropPush := true } := chan_modChan_on (s := s) hon
    have hdropped : ChanHeld ch s (modChan ch (fun c => { c with partPush := [], dropPush := true }) s) :=
      ⟨fun k hk => chan_modChan_other s ch k _ hk, by rw [hown], by rw [hown], by rw [hown]⟩
    exact hdropped.trans (refused_failOffer (by rw [hdropped.st]; exact hon) i .aborted).held

theorem held_abortWaiters (hon : (chan s ch).st ≠ .off) : ChanHeld ch s (abortWaiters ch s) := by
  obtain ⟨hothers, ⟨q, r, p, w, hown⟩, -⟩ := abortWaiters_chan hon
  exact ⟨hothers, by rw [hown]; rfl, by rw [hown]; rfl, by rw [hown]; rfl⟩

/-- A block reset (R190), from a channel in use. -/
theorem chanReset_disables (hon : (chan s ch).st ≠ .off) (hpartner : (chan s ch).st ≠ .partner) :
    (∀ k, k ≠ ch → chan (chanReset ch s).2 k = chan s k) ∧ (chan (chanReset ch s).2 ch).st = .disabled
    ∧ (chan (chanReset ch s).2 ch).resetting = true
    ∧ (chan (chanReset ch s).2 ch).enabled = (if (chan s ch).st = .draining then false else (chan s ch).enabled)
    ∧ (chan (chanReset ch s).2 ch).txq = [] ∧ (chan (chanReset ch s).2 ch).can = {} := by
  obtain ⟨hothers, o, r, p, w, hown⟩ := failAll_queue .aborted hon
  generalize hfailed : failAll ch (chan s ch).txq .aborted s = v at hothers hown
  have honv : (chan v ch).st ≠ .off := by rw [hown]; exact hon
  have hcut := held_cutPush honv
  have hpartial : ChanHeld ch (cutPush ch v) (cutPartial ch (cutPush ch v)) := .of_chans (cutPartial_chans ch _)
  have hwaiters := (hcut.trans hpartial).trans (held_abortWaiters (by rw [(hcut.trans hpartial).st]; exact honv))
  generalize ht : abortWaiters ch (cutPartial ch (cutPush ch v)) = t at hwaiters
  have hreset : ∀ k, chan (chanReset ch s).2 k
      = chan (modChan ch resetChan (onlyIf ((chan s ch).st == .draining) (enterDisabled ch) t)) k := by
    intro k
    unfold chanReset
    dsimp only
    rw [if_neg (fun h => h.elim hon hpartner)]
    simp only [chan_condEnd]
    rw [hfailed, ht]
    rfl
  have hdrain : (∀ k, k ≠ ch → chan (onlyIf ((chan s ch).st == .draining) (enterDisabled ch) t) k = chan t k)
      ∧ (chan (onlyIf ((chan s ch).st == .draining) (enterDisabled ch) t) ch).txq = (chan t ch).txq
      ∧ (chan (onlyIf ((chan s ch).st == .draining) (enterDisabled ch) t) ch).enabled
        = (if (chan s ch).st = .draining then false else (chan t ch).enabled) := by
    obtain ⟨hrest, hdisabled⟩ := enterDisabled_chan (ch := ch) (s := t)
    by_cases hst : (chan s ch).st = .draining
    · rw [hst, onlyIf_pos (by decide), hdisabled]
      exact ⟨hrest, rfl, (if_pos rfl).symm⟩
    · rw [onlyIf_neg (by simpa using hst)]
      exact ⟨fun _ _ => rfl, rfl, (if_neg hst).symm⟩
  obtain ⟨hrest, hqueue, henabled⟩ := hdrain
  generalize onlyIf ((chan s ch).st == .draining) (enterDisabled ch) t = d at hreset hrest hqueue henabled
  have hfinal : chan (modChan ch resetChan d) ch = resetChan (chan d ch) :=
    chan_modChan_on (show ChState.disabled ≠ ChState.off by decide)
  refine ⟨fun k hk => ?_, ?_, ?_, ?_, ?_, ?_⟩
  · rw [hreset, chan_modChan_other d ch k _ hk, hrest k hk, hwaiters.others k hk, hothers k hk]
  · rw [hreset, hfinal]; rfl
  · rw [hreset, hfinal]; rfl
  · rw [hreset, hfinal]
    show (chan d ch).enabled = _
    rw [henabled, hwaiters.enabled, hown]
  · rw [hreset, hfinal]
    show (chan d ch).txq = _
    rw [hqueue, hwaiters.txq, hown]
  · rw [hreset, hfinal]; rfl

/-! ## Join and drain (R186 to R188) -/

/-- A channel that joins at tick `t`. -/
def joinedChan (t : Nat) (c : Chan) : Chan :=
  { c with st := .active, busIdle := true, joinTick := t, enabling := none, aliveSync := false }

/-- The hub behind a join whose enable, if one waits, is still to be answered. -/
def joinedHub (ch : Nat) (s : State) : State :=
  let u := modChan ch (joinedChan (tickNow s)) s
  channelEvent ch 3 (bump (chnAddr ch 0xA8) (condEnd 0x0604 ((List.range 128).any (fun i => (chan u i).can.busOff)) u))

theorem joinedHub_keeps : (joinedHub ch s).chans = (modChan ch (joinedChan (tickNow s)) s).chans
    ∧ (joinedHub ch s).cmd.inflight = s.cmd.inflight ∧ (joinedHub ch s).time = s.time := by
  unfold joinedHub channelEvent
  extract_lets u
  obtain ⟨f, hf⟩ := condEnd_frame 0x0604 ((List.range 128).any (fun i => (chan u i).can.busOff)) u
  rw [hf]
  generalize hb : bump (chnAddr ch 0xA8) { u with faults := f } = b
  have hchans : b.chans = u.chans := by rw [← hb]; rfl
  have hin : b.cmd.inflight = s.cmd.inflight := by rw [← hb]; rfl
  have htime : b.time = s.time := by rw [← hb]; rfl
  exact ⟨(emit_chans b _ _).trans hchans, (emit_inflight _ _ b).trans hin, (emit_time b _ _).trans htime⟩

theorem chan_joinedHub : (∀ k, k ≠ ch → chan (joinedHub ch s) k = chan s k)
    ∧ chan (joinedHub ch s) ch = joinedChan (tickNow s) (chan s ch) := by
  obtain ⟨hchans, -, -⟩ := joinedHub_keeps (ch := ch) (s := s)
  have hown : chan (modChan ch (joinedChan (tickNow s)) s) ch = joinedChan (tickNow s) (chan s ch) :=
    chan_modChan_on (show ChState.active ≠ ChState.off by decide)
  exact ⟨fun k hk => (chan_of_chans hchans k).trans (chan_modChan_other s ch k _ hk), (chan_of_chans hchans ch).trans hown⟩

/-- A channel whose bus is not off joins, and answers the enable that waits. -/
theorem channelJoin_joins (hst : (chan s ch).st = .joining) (hreset : (chan s ch).resetting = false) (hpers : pers s ch ≠ 4)
    (hbus : (chan s ch).can.busOff = false) :
    ((chan s ch).enabling = none → channelJoin ch s = joinedHub ch s)
    ∧ (∀ se tag up, (chan s ch).enabling = some (se, tag, up) → channelJoin ch s = complete se tag .ok
        (leBytes 8 (if since up (joinedHub ch s) ≤ 2000 then tickNow s else 0)) (joinedHub ch s)) := by
  have hnow : channelJoin ch s = joinNow ch s := by
    unfold channelJoin
    dsimp only
    rw [hbus, Bool.and_false, if_pos ⟨hst, by rw [hreset]; rfl, hpers⟩]
    rfl
  have hjoined : ∀ v, v = modChan ch (fun c => { c with
      st := .active, busIdle := true, joinTick := tickNow s, enabling := none, aliveSync := false
      can := if (pers s ch == 3 && (chan s ch).can.busOff) = true then { c.can with busOff := false, tec := 0, rec_ := 0 } else c.can }) s →
      channelEvent ch 3 (bump (chnAddr ch 0xA8) (condEnd 0x0604 ((List.range 128).any (fun i => (chan v i).can.busOff)) v)) = joinedHub ch s := by
    intro v hv
    have hsame : v = modChan ch (joinedChan (tickNow s)) s := by
      rw [hv, hbus, Bool.and_false]
      rfl
    rw [hsame]
    rfl
  rw [hnow]
  refine ⟨fun hnone => ?_, fun se tag up hsome => ?_⟩
  · unfold joinNow
    dsimp only
    rw [hjoined _ rfl, hnone]
  · unfold joinNow
    dsimp only
    rw [hjoined _ rfl, hsome]

theorem drainComplete_drained (hst : (chan s ch).st = .draining) (hq : (chan s ch).txq = []) (hbus : (chan s ch).can.onBus = none) :
    drainComplete ch s = enterDisabled ch (abortWaiters ch (cutPartial ch s)) := by
  unfold drainComplete
  exact if_pos ⟨hst, List.isEmpty_iff.mpr hq, by rw [hbus]; rfl⟩

/-- Where nothing but disables waits for the channel, `abortWaiters` answers none. -/
theorem abortWaiters_none (hdetect : (chan s ch).detect = none) (henabling : (chan s ch).enabling = none) (hstalled : (chan s ch).stalled = [])
    (hreqs : (chan s ch).can.reqs = []) (hexchange : (chan s ch).mb.exchange = none) (hwaiting : (chan s ch).mb.waiting = [])
    (hisdu : (chan s ch).iol.isdu = []) : abortWaiters ch s = modChan ch waitersGone s := by
  unfold abortWaiters
  simp only [hdetect, henabling, hstalled, hreqs, hexchange, hwaiting, hisdu, List.foldl_nil]
  rfl

/-- The one CH_DISABLE that waited is answered with the items aborted (R188). -/
theorem enterDisabled_answers {x : Cmd} {c : Chan} {v : State} (hown : chan v ch = waitersGone c) (hdrains : c.draining = [(x.session, x.tag)])
    (hin : v.cmd.inflight = [x]) (hphase : x.phase = .issued) :
    (enterDisabled ch v).cmd.inflight = [{ x with phase := .ready .ok (leBytes 4 c.drainAborted), effected := true }] := by
  have hone : enterDisabled ch v = modChan ch disabledChan (complete x.session x.tag .ok (leBytes 4 c.drainAborted) v) := by
    unfold enterDisabled
    dsimp only
    rw [hown]
    have hlist : (waitersGone c).draining = [(x.session, x.tag)] := hdrains
    rw [hlist]
    rfl
  rw [hone, complete_alone hin (by rw [isReady, hphase])]
  rfl

end

/-- Settles O51, by what the highest bit of CHN_CTL, a join, a drain and a reset's end make of the channel. -/
theorem channelControl : Obligations.ChannelControl := by
  unfold Obligations.ChannelControl
  refine fun ch s => ⟨fun hbar => ?control, fun hawake => ?field⟩
  case control =>
    have hwrite : ∀ v, hostWrite (chnAddr ch.val 0x008) v s = chnCtl ch.val v s := fun v => chnCtl_written ch.isLt v hbar
    refine ⟨fun hst => effectIs_eq ((hwrite 1).trans ?_), fun hst => effectIs_eq ((hwrite 1).trans ?_),
      fun hst hq => effectIs_eq ((hwrite 2).trans (chnCtl_drain_queued hst hq)), fun hst => effectIs_eq ((hwrite 2).trans (chnCtl_drain_disabled hst)),
      fun hst hbus => ⟨_, commit_goOn s _, ?_⟩, fun hon hpartner => ⟨_, commit_goOn s _, ?_⟩,
      fun hst => effectIs_eq ((hwrite 8).trans ?_), fun v hv i hi => ?_, fun v hv hv' i hi => ?_⟩
    · have henable : chnCtl ch.val 1 s = onlyIf ((chan s ch.val).st == .disabled) (chanEnable ch.val) s := rfl
      rw [henable, onlyIf_pos (by rw [hst]; decide)]
      exact chanEnable_disabled hst
    · have henable : chnCtl ch.val 1 s = onlyIf ((chan s ch.val).st == .disabled) (chanEnable ch.val) s := rfl
      rw [henable]
      exact onlyIf_neg (by simpa using hst)
    · have habort : hostWrite (chnAddr ch.val 0x008) (Nat.lor (0 : BitVec 4).toNat 4) s = (chanAbort ch.val s).2 := hwrite 4
      dsimp only
      rw [habort]
      obtain ⟨hothers, hdis, hen, hq, hseq⟩ := chanAbort_disables hst hbus
      exact ⟨hdis, hen, hq, hseq, hothers⟩
    · have hreset : hostWrite (chnAddr ch.val 0x008) (Nat.lor (0 : BitVec 4).toNat 8) s = (chanReset ch.val s).2 := hwrite 8
      dsimp only
      rw [hreset]
      obtain ⟨hothers, hdis, hres, hen, hq, hcan⟩ := chanReset_disables hon hpartner
      exact ⟨hdis, hres, hen, hq, hcan, hothers⟩
    · have hreset : chnCtl ch.val 8 s = (chanReset ch.val s).2 := rfl
      rw [hreset]
      unfold chanReset
      exact congrArg Prod.snd (if_pos hst)
    · have hbits := (severalActions v).1 hv
      have hact : ∀ b ∈ [1, 2, 4], hostWrite (chnAddr ch.val 0x008) (Nat.lor v.toNat b) s = (chanReset ch.val (setFld 0x008 0 1 1 s)).2 := by
        intro b hb
        obtain ⟨hmany, hbit⟩ := hbits b hb
        exact (hwrite _).trans ((chnCtl_several hmany).trans (if_pos hbit))
      obtain rfl | rfl | rfl := hi
      · exact effectIs_eq (hact 1 (by decide))
      · exact effectIs_eq (hact 2 (by decide))
      · exact effectIs_eq (hact 4 (by decide))
    · have hbits := (severalActions v).2 hv hv'
      have hact : ∀ b ∈ [1, 2], hostWrite (chnAddr ch.val 0x008) (Nat.lor v.toNat b) s = (chanAbort ch.val (setFld 0x008 0 1 1 s)).2 := by
        intro b hb
        obtain ⟨hmany, hlow, hbit⟩ := hbits b hb
        exact (hwrite _).trans ((chnCtl_several hmany).trans ((if_neg (by rw [hlow]; exact Bool.false_ne_true)).trans (if_pos hbit)))
      obtain rfl | rfl := hi
      · exact effectIs_eq (hact 1 (by decide))
      · exact effectIs_eq (hact 2 (by decide))
  case field =>
    have hfield : ∀ f : State → State, onField f s = f s := fun f => if_pos hawake
    refine ⟨fun hst hreset hpers hnone hbus => ⟨_, commit_goOn s _, ?_⟩, fun x up hst hreset hpers hin hphase hsome hbus => ⟨_, commit_goOn s _, ?_⟩,
      fun hst => effectIs_eq ((hfield _).trans (if_neg fun h => hst h.1)), fun hreset => effectIs_eq ((hfield _).trans ?_),
      fun hst hq hbus => ⟨_, commit_goOn s _, ?_⟩, fun x hst hq hbus hin hphase hdrains hen hdet hstall hreqs hex hwait hisdu => ⟨_, commit_goOn s _, ?_⟩,
      fun hq => effectIs_eq ((hfield _).trans (drainComplete_holds (.inr hq)))⟩
    · dsimp only
      rw [hfield, (channelJoin_joins hst hreset hpers hbus).1 hnone]
      obtain ⟨hothers, hown⟩ := chan_joinedHub (ch := ch.val) (s := s)
      rw [hown]
      exact ⟨rfl, rfl, rfl, rfl, joinedHub_keeps.2.1, hothers⟩
    · dsimp only
      rw [hfield, (channelJoin_joins hst hreset hpers hbus).2 _ _ _ hsome]
      obtain ⟨-, hown⟩ := chan_joinedHub (ch := ch.val) (s := s)
      obtain ⟨-, hflight, htime⟩ := joinedHub_keeps (ch := ch.val) (s := s)
      have hsince : (since up (joinedHub ch.val s) ≤ 2000) = (s.time.up ≤ up + 2000) := by
        unfold since
        rw [htime]
        exact propext (by omega)
      rw [complete_alone (by rw [hflight]; exact hin) (by rw [isReady, hphase])]
      refine ⟨?_, ?_, ?_⟩
      · exact congrArg Chan.st hown
      · exact congrArg Chan.enabling hown
      · simp only [hsince]
        rfl
    · unfold channelResetEnd
      exact modChan_congr (by rw [if_pos hreset])
    · dsimp only
      rw [hfield, drainComplete_drained hst hq hbus]
      obtain ⟨hothers, ⟨q, r, p, w, hown⟩, hquiet⟩ := ended_chan (ch := ch.val) (s := s) (by rw [hst]; decide)
      exact ⟨by rw [hown]; rfl, by rw [hown]; rfl, by rw [hown]; rfl, fun hnone => by rw [hquiet hnone]; rfl, hothers⟩
    · dsimp only
      rw [hfield, drainComplete_drained hst hq hbus]
      have hcut : chan (cutPartial ch.val s) ch.val = chan s ch.val := chan_cutPartial ch.val ch.val s
      have hgone : abortWaiters ch.val (cutPartial ch.val s) = modChan ch.val waitersGone (cutPartial ch.val s) := by
        refine abortWaiters_none ?_ ?_ ?_ ?_ ?_ ?_ ?_ <;> rw [hcut] <;> assumption
      have hown : chan (modChan ch.val waitersGone (cutPartial ch.val s)) ch.val = waitersGone (chan s ch.val) := by
        rw [chan_modChan_on (s := cutPartial ch.val s) (by rw [waitersGone_st, hcut, hst]; decide), hcut]
      rw [hgone]
      exact enterDisabled_answers hown hdrains hin hphase

end Sys2Proof.Proofs
end

section
/-! Items on a serial line, reports and stalled writes, and frames received in GAP mode (R173, R195 to R198, R230, R233). -/

namespace Sys2Proof.Proofs

open Sys2Proof Sys2Proof.Machine Sys2Proof.Laws

/-! ## What an item's end leaves of the registers -/

section
variable {b : Nat} (s : State)

theorem sameWord_failItem {ch : Nat} (hch : ch < 128) (hlow : b = chnAddr ch 0) (i : TxItem) (st : Status) : SameWord b s (failItem ch i st s) := by
  have hne : ∀ off, 0 < off → off < 0x800 → b ≠ chnAddr ch off := fun off h0 h1 => by rw [hlow]; unfold chnAddr; omega
  have hb : b < 0x110200 := by rw [hlow]; unfold chnAddr; omega
  have hflush : ∀ v, SameWord b v (flushReport ch v) := by
    intro v
    unfold flushReport
    split
    · split
      · exact ⟨rfl, rfl, rfl⟩
      · exact .refl v
    · exact .refl v
  have hreport : ∀ v, SameWord b v (report ch st i.seq v) := by
    intro v
    unfold report
    extract_lets joins u
    exact (sameWord_onlyIf v _ (hflush v)).trans (t := u) ⟨rfl, rfl, rfl⟩
  unfold failItem
  extract_lets v w
  have hv : SameWord b s v := by
    unfold v
    split
    · exact sameWord_bump s (hne _ (by decide) (by decide))
    · exact sameWord_bump s (hne _ (by decide) (by decide))
    · exact sameWord_bump s (hne _ (by decide) (by decide))
    · exact .refl s
  have hw : SameWord b v w := by
    unfold w
    split
    · exact sameWord_detect v hb _ _
    · exact .refl v
  have hanswer : ∀ t : State, SameWord b t (answerItem i st [] t) := by
    intro t
    unfold answerItem
    split
    · exact ⟨rfl, rfl, rfl⟩
    · exact ⟨rfl, rfl, rfl⟩
    · exact .refl t
  exact ((hv.trans hw).trans (hreport w)).trans (hanswer _)

variable {s}

theorem pers_of_word {ch : Nat} {t : State} (h : SameWord (chnAddr ch 0) s t) : pers t ch = pers s ch := by
  unfold pers wordOr
  rw [h.word, h.cfg]

end

/-! ## Reports of a channel with none written yet (R197) -/

section
variable {ch : Nat} {s : State}

/-- The channel whose first report stands to be written. -/
def toldChan (st : Status) (seq : Nat) (c : Chan) : Chan := { c with pendRpt := some ⟨st, seq, 1⟩, rptWaits := [] }

theorem report_first (hpend : (chan s ch).pendRpt = none) (hwaits : (chan s ch).rptWaits = []) (st : Status) (seq : Nat) :
    report ch st seq s = modChan ch (toldChan st seq) s := by
  have hwords : rptWords (chan s ch) = [] := by rw [rptWords, hpend, hwaits]; rfl
  unfold report
  dsimp only
  rw [hwords]
  show modChan ch (fun c => { c with pendRpt := (addReport st seq (rptWords c)).head?, rptWaits := (addReport st seq (rptWords c)).drop 1 }) s = _
  exact modChan_congr (by rw [hwords]; rfl)

theorem chan_failItem_first (hon : (chan s ch).st ≠ .off) (hpend : (chan s ch).pendRpt = none) (hwaits : (chan s ch).rptWaits = [])
    (i : TxItem) (st : Status) : chan (failItem ch i st s) ch = toldChan st i.seq (chan s ch) := by
  unfold failItem
  extract_lets v w
  have hv : v.chans = s.chans := by
    unfold v
    split <;> rfl
  have hw : chan w ch = chan s ch := by
    refine chan_of_chans (Eq.trans ?_ hv) ch
    unfold w
    split
    · exact detect_chans v _ _
    · rfl
  have hanswer : ∀ t, (answerItem i st [] t).chans = t.chans := by
    intro t
    unfold answerItem
    split <;> rfl
  rw [chan_of_chans (hanswer _), report_first (by rw [hw]; exact hpend) (by rw [hw]; exact hwaits)]
  exact (chan_modChan_on (s := w) (by rw [hw]; exact hon)).trans (by rw [hw])

/-- An item that ends where no report stands. -/
theorem endItem_first (hpend : (chan s ch).pendRpt = none) (i : TxItem) (st : Status) :
    endItem ch i st s = failItem ch i st (removeItem ch i.seq s) := by
  have hmay : mayFail (chan s ch) st i.seq = true := by rw [mayFail, hpend]; rfl
  unfold endItem
  dsimp only
  rw [flushReport_none hpend, hmay]
  rfl

theorem canOffer_serial (hpers : pers s ch ≠ 3) : canOffer ch s = s := by
  unfold canOffer
  exact if_pos (.inl hpers)

/-- The head of the queue has left it. -/
theorem queue_behind {i : TxItem} {t : List TxItem} (hothers : ∀ j ∈ t, j.seq ≠ i.seq) : (i :: t).filter (fun j => j.seq != i.seq) = t := by
  rw [List.filter_cons_of_neg (by simp)]
  exact List.filter_eq_self.mpr fun j hj => bne_iff_ne.mpr (hothers j hj)

/-- What the end of the head item with a first report makes of its channel. -/
theorem headEnds {i : TxItem} {t : List TxItem} (hch : ch < 128) (hon : (chan s ch).st ≠ .off) (hq : (chan s ch).txq = i :: t)
    (hothers : ∀ j ∈ t, j.seq ≠ i.seq) (hpend : (chan s ch).pendRpt = none) (hwaits : (chan s ch).rptWaits = []) (st : Status) :
    (chan (endItem ch i st s) ch).txq = t ∧ (chan (endItem ch i st s) ch).pendRpt = some ⟨st, i.seq, 1⟩
    ∧ (∀ k, k ≠ ch → chan (endItem ch i st s) k = chan s k) ∧ pers (endItem ch i st s) ch = pers s ch
    ∧ (i.producer = .push → (endItem ch i st s).cmd.inflight = s.cmd.inflight) := by
  have hgone := chan_removeItem hon i.seq
  have honr : (chan (removeItem ch i.seq s) ch).st ≠ .off := by rw [hgone]; exact hon
  have hfail := chan_failItem_first honr (by rw [hgone]; exact hpend) (by rw [hgone]; exact hwaits) i st
  rw [endItem_first hpend]
  refine ⟨?_, ?_, fun k hk => ?_, ?_, fun hpush => ?_⟩
  · rw [hfail, hgone]
    show (chan s ch).txq.filter _ = t
    rw [hq, queue_behind hothers]
  · rw [hfail]; rfl
  · exact ((reported_failItem honr i st).others k hk).trans (removeItem_others hk _)
  · exact (pers_of_word (sameWord_failItem _ hch rfl i st)).trans rfl
  · exact failItem_inflight (s := removeItem ch i.seq s) (fun x _ => by rw [hpush]; exact ⟨Producer.noConfusion, Producer.noConfusion⟩)

/-! ## The head of a serial queue (R173, R231) -/

/-- What a raw serial channel's queue is: its head, and that no later item has its sequence. -/
structure SerialHead (s : State) (ch : Nat) (i : TxItem) (t : List TxItem) : Prop where
  range : ch < 128
  line : pers s ch = 1 ∨ pers s ch = 2
  raw : mbOn s ch = false
  queue : (chan s ch).txq = i :: t
  later : ∀ j ∈ t, j.seq ≠ i.seq
  framed : delimDefect s ch i = false
  reports : (chan s ch).rptWaits = []

section
variable {i : TxItem} {t : List TxItem} (h : SerialHead s ch i t)
include h

theorem SerialHead.notCan : pers s ch ≠ 3 := by
  obtain hp | hp := h.line
  · rw [hp]; decide
  · rw [hp]; decide

theorem SerialHead.offered (hfree : (chan s ch).onWire = none) :
    (if serialSends s ch && (chan s ch).onWire.isNone then (chan s ch).txq.head? else none) = some i := by
  have hsends : serialSends s ch = true := by
    unfold serialSends
    rw [h.raw]
    obtain hp | hp := h.line
    · rw [hp]; rfl
    · rw [hp]; rfl
  rw [hsends, hfree, h.queue]
  rfl

theorem SerialHead.whole (hgood : i.bad = none) : serialDefect s ch i = none := by
  unfold serialDefect
  rw [hgood, h.framed]
  rfl

/-- The item on the wire leaves (R197, R231). -/
theorem itemComplete_sent {ns : Nat} {x : Cmd} (hprod : i.producer = .send x.session x.tag) (hin : s.cmd.inflight = [x]) (hphase : x.phase = .issued)
    (hwire : (chan s ch).onWire = some i.seq) (hon : (chan s ch).st ≠ .off) :
    (chan (itemComplete ch ns s) ch).txq = t ∧ (chan (itemComplete ch ns s) ch).onWire = none
    ∧ (chan (itemComplete ch ns s) ch).rxq = (chan s ch).rxq ∧ (∀ k, k ≠ ch → chan (itemComplete ch ns s) k = chan s k)
    ∧ (itemComplete ch ns s).cmd.inflight = [{ x with phase := .ready .ok (leBytes 4 i.seq ++ leBytes 8 ns), effected := true }] := by
  have hitem : wireItem (chan s ch) = some i := by
    unfold wireItem
    rw [hwire, h.queue]
    show (i :: t).find? (fun j => j.seq == i.seq) = some i
    exact List.find?_cons_of_pos (beq_self_eq_true i.seq)
  generalize hv : modChan ch (fun c => { c with turnUntil := nsNow s + turnNs s ch }) s = v
  have hown : chan v ch = { chan s ch with turnUntil := nsNow s + turnNs s ch } := by rw [← hv]; exact chan_modChan_on (s := s) hon
  have hothers : ∀ k, k ≠ ch → chan v k = chan s k := fun k hk => by rw [← hv]; exact chan_modChan_other s ch k _ hk
  have hflight : v.cmd.inflight = [x] := by rw [← hv]; exact hin
  have hgone := chan_removeItem (s := v) (ch := ch) (by rw [hown]; exact hon) i.seq
  have hdone : itemComplete ch ns s = complete x.session x.tag .ok (leBytes 4 i.seq ++ leBytes 8 ns) (bump (chnAddr ch 0x80) (removeItem ch i.seq v)) := by
    unfold itemComplete
    rw [hitem]
    dsimp only
    rw [hv]
    unfold sentItem
    rw [hprod]
  have hchans : ∀ k, chan (itemComplete ch ns s) k = chan (removeItem ch i.seq v) k := fun k => by
    rw [hdone]
    exact chan_of_chans (t := complete _ _ _ _ _) rfl k
  refine ⟨?_, ?_, ?_, fun k hk => ?_, ?_⟩
  · rw [hchans, hgone, hown]
    show (chan s ch).txq.filter _ = t
    rw [h.queue, queue_behind h.later]
  · rw [hchans, hgone, hown]
    exact if_pos hwire
  · rw [hchans, hgone, hown]
  · rw [hchans, removeItem_others hk, hothers k hk]
  · have hend := complete_alone (s := bump (chnAddr ch 0x80) (removeItem ch i.seq v)) (x := x) (st := .ok)
      (res := leBytes 4 i.seq ++ leBytes 8 ns) hflight (by rw [isReady, hphase])
    rw [hdone, hend]
    rfl

/-- A head with a defect is reported in its place. -/
theorem serialOffer_bad {st : Status} (quiet : Bool) (hbad : i.bad = some st) (hfree : (chan s ch).onWire = none) (hsend : sending (chan s ch) = true) :
    serialOffer ch quiet s = endItem ch i st s := by
  have hdefect : serialDefect s ch i = some st := by unfold serialDefect; rw [hbad]
  unfold serialOffer
  dsimp only
  rw [h.offered hfree]
  dsimp only
  rw [hdefect]
  exact if_pos hsend

/-- A timed head in its instant, before it and behind it (R173). -/
theorem serialOffer_timed {r : Nat} (quiet : Bool) (hgood : i.bad = none) (hrel : i.release = some r) (hfree : (chan s ch).onWire = none) :
    serialOffer ch quiet s = if onGrid r < nsNow s then endItem ch i .tooLate s else if nextNs s ≤ onGrid r then s
      else if lineReady s ch (onGrid r) then putOnWire ch i s else endItem ch i .tooLate s := by
  unfold serialOffer
  dsimp only
  rw [h.offered hfree]
  dsimp only
  rw [h.whole hgood, hrel]

theorem serialOffer_waits {r : Nat} (quiet : Bool) (hgood : i.bad = none) (hrel : i.release = some r) (hnow : nsNow s ≤ onGrid r)
    (hlater : nextNs s ≤ onGrid r) : serialOffer ch quiet s = s := by
  cases hw : (chan s ch).onWire with
  | none =>
    rw [serialOffer_timed h quiet hgood hrel hw]
    exact (if_neg (by omega)).trans (if_pos hlater)
  | some q =>
    unfold serialOffer
    dsimp only
    rw [hw]
    simp

/-- What the release of an item that ends, or starts, makes of the channel: no CAN offer follows on a serial line. -/
theorem releaseItem_ends {st : Status} (hend : serialOffer ch false s = endItem ch i st s) (hon : (chan s ch).st ≠ .off)
    (hpend : (chan s ch).pendRpt = none) : releaseItem ch s = endItem ch i st s := by
  obtain ⟨-, -, -, hpers, -⟩ := headEnds h.range hon h.queue h.later hpend h.reports st
  unfold releaseItem
  rw [hend]
  exact canOffer_serial (by rw [hpers]; exact h.notCan)

theorem releaseItem_late (hoffer : serialOffer ch false s = endItem ch i .tooLate s) (hon : (chan s ch).st ≠ .off)
    (hpend : (chan s ch).pendRpt = none) : (chan (releaseItem ch s) ch).txq = t
    ∧ (chan (releaseItem ch s) ch).pendRpt = some ⟨.tooLate, i.seq, 1⟩ ∧ ∀ k, k ≠ ch → chan (releaseItem ch s) k = chan s k := by
  rw [releaseItem_ends h hoffer hon hpend]
  obtain ⟨hq, hrpt, hothers, -, -⟩ := headEnds h.range hon h.queue h.later hpend h.reports .tooLate
  exact ⟨hq, hrpt, hothers⟩

theorem releaseItem_starts (hoffer : serialOffer ch false s = putOnWire ch i s) (hon : (chan s ch).st ≠ .off) :
    (chan (releaseItem ch s) ch).onWire = some i.seq ∧ (chan (releaseItem ch s) ch).txq = i :: t
    ∧ (chan (releaseItem ch s) ch).lastSent = lineBytes s ch i.data ∧ ∀ k, k ≠ ch → chan (releaseItem ch s) k = chan s k := by
  have hstart : ∃ a, (∀ k, k ≠ ch → chan (startSerial ch i s) k = chan s k)
      ∧ chan (startSerial ch i s) ch = { chan s ch with lastSent := lineBytes s ch i.data, aliveTx := a }
      ∧ pers (startSerial ch i s) ch = pers s ch := by
    unfold startSerial
    extract_lets bs v d
    have hown : ∃ a, chan v ch = { chan s ch with lastSent := bs, aliveTx := a } := ⟨_, chan_modChan_on (s := s) hon⟩
    have hothers : ∀ k, k ≠ ch → chan v k = chan s k := fun k hk => chan_modChan_other s ch k _ hk
    obtain ⟨a, hown⟩ := hown
    refine ⟨a, ?_⟩
    split
    · have hword : SameWord (chnAddr ch 0) d.2 (bumpBy (chnAddr ch 0x19C) (d.1 % (bs.length + 1)) d.2) :=
        sameWord_bumpBy _ _ (by unfold chnAddr; omega)
      exact ⟨hothers, hown, pers_of_word (SameWord.trans (t := d.2) ⟨rfl, rfl, rfl⟩ hword)⟩
    · exact ⟨hothers, hown, rfl⟩
  obtain ⟨a, hothers, hown, hpers⟩ := hstart
  have hwire : chan (putOnWire ch i s) ch = { chan s ch with
      lastSent := lineBytes s ch i.data, aliveTx := a, onWire := some i.seq, busIdle := false } := by
    unfold putOnWire
    rw [chan_modChan_on (s := startSerial ch i s) (by rw [hown]; exact hon), hown]
  have hdone : releaseItem ch s = putOnWire ch i s := by
    unfold releaseItem
    rw [hoffer]
    refine canOffer_serial ?_
    have hsame : pers (putOnWire ch i s) ch = pers (startSerial ch i s) ch := rfl
    rw [hsame, hpers]
    exact h.notCan
  rw [hdone, hwire]
  exact ⟨rfl, h.queue, rfl, fun k hk => (chan_modChan_other (startSerial ch i s) ch k _ hk).trans (hothers k hk)⟩

end

/-! ## Reception in GAP mode (R230, R233) -/

/-- What a run of characters gives in GAP mode: one frame, or its fault. -/
def gapRun (ch idle : Nat) (bs : List Byte) (fault : Option (Nat × LineFault)) (s : State) : State :=
  match fault.filter (fun x => decide (x.1 < spanOf (parseFrame s ch bs) bs.length)) with
  | some (_, kind) => rejectFault ch kind s
  | none =>
    match parseFrame s ch bs with
    | .frame f _ => takeSerial ch f idle s
    | .cut => bump (chnAddr ch 0x90) (bump (chnAddr ch 0x194) s)
    | .tooLong => bump (chnAddr ch 0x90) (bump (chnAddr ch 0x18C) s)
    | .nothing => s

theorem takeRun_gap {idle n : Nat} {bs : List Byte} {ts : List Nat} {fault : Option (Nat × LineFault)} (hgap : serMode s ch = 0) :
    takeRun ch idle (n + 1) bs ts fault s = gapRun ch idle bs fault s := by
  have hframed : (sofEn s ch && serMode s ch != 0) = false := by rw [hgap]; exact Bool.and_false _
  have hfault : (fault.bind fun x => if x.1 < 0 then none else some (x.1 - 0, x.2)) = fault := by
    cases fault
    · rfl
    · rfl
  unfold takeRun
  dsimp only
  rw [hframed]
  simp only [Bool.false_eq_true, if_false, List.drop_zero, gt_iff_lt, Nat.lt_irrefl, decide_false, onlyIf]
  rw [hfault, hgap]
  rfl

theorem parseFrame_gap {bs : List Byte} (hgap : serMode s ch = 0) (hsome : bs ≠ []) :
    parseFrame s ch bs = if bs.length > maxLen s ch then .tooLong else .frame bs [] := by
  unfold parseFrame
  rw [if_neg (by simpa using hsome), if_pos hgap]

theorem serialFrameRx_gap {idle : Nat} {bs : List Byte} {ts : List Nat} {fault : Option (Nat × LineFault)} (hhears : serialHears s ch = true)
    (hraw : mbOn s ch = false) (hgap : serMode s ch = 0) (hsome : bs ≠ []) : serialFrameRx ch bs ts idle fault s = gapRun ch idle bs fault s := by
  obtain ⟨n, hn⟩ : ∃ n, bs.length = n + 1 := Nat.exists_eq_succ_of_ne_zero (by simpa using hsome)
  unfold serialFrameRx
  rw [hn, takeRun_gap hgap]
  exact if_neg (by rw [hhears, hraw]; decide)

/-- A faulty character of the run rejects the frame whole (R230). -/
theorem gapRun_fault {idle k : Nat} {bs : List Byte} {kind : LineFault} (hgap : serMode s ch = 0) (hk : k < bs.length) :
    gapRun ch idle bs (some (k, kind)) s = rejectFault ch kind s := by
  have hsome : bs ≠ [] := fun h => by rw [h] at hk; exact Nat.not_lt_zero k hk
  have hspan : spanOf (parseFrame s ch bs) bs.length = bs.length := by
    rw [parseFrame_gap hgap hsome]
    split
    · rfl
    · rfl
  have hin : (some (k, kind)).filter (fun x => decide (x.1 < bs.length)) = some (k, kind) := by simp [hk]
  unfold gapRun
  rw [hspan, hin]

theorem gapRun_long {idle : Nat} {bs : List Byte} (hgap : serMode s ch = 0) (hsome : bs ≠ []) (hlong : maxLen s ch < bs.length) :
    gapRun ch idle bs none s = bump (chnAddr ch 0x90) (bump (chnAddr ch 0x18C) s) := by
  unfold gapRun
  rw [parseFrame_gap hgap hsome, if_pos hlong]
  rfl

theorem gapRun_whole {idle : Nat} {bs : List Byte} (hgap : serMode s ch = 0) (hsome : bs ≠ []) (hfits : bs.length ≤ maxLen s ch)
    (hplain : cvEn s ch = false) : gapRun ch idle bs none s = storeRx ch bs idle s := by
  have htake : takeSerial ch bs idle s = storeRx ch bs idle s := by
    unfold takeSerial
    exact if_pos (by rw [hplain]; rfl)
  unfold gapRun
  rw [parseFrame_gap hgap hsome, if_neg (Nat.not_lt.mpr hfits)]
  exact htake

theorem serialHears_on (hhears : serialHears s ch = true) : (chan s ch).st ≠ .off := by
  intro hoff
  simp [serialHears, hoff] at hhears

/-- A packet that has room is placed whole; else its place is reported (R196, R198). -/
theorem storeRx_placed {bs : List Byte} {stamp : Nat} (hon : (chan s ch).st ≠ .off) (hpend : (chan s ch).pendRpt = none)
    (hfits : rxFits s ch (packetWords stamp bs).length = true) :
    chan (storeRx ch bs stamp s) ch = { chan s ch with
      rxq := (chan s ch).rxq ++ packetWords stamp bs, rxSeq := ((chan s ch).rxSeq + 1) % 2 ^ 32 }
    ∧ ∀ k, k ≠ ch → chan (storeRx ch bs stamp s) k = chan s k := by
  have hstore : storeRx ch bs stamp s = bump (chnAddr ch 0x84)
      (modChan ch (fun c => { c with rxq := c.rxq ++ packetWords stamp bs, rxSeq := (c.rxSeq + 1) % 2 ^ 32 }) s) := by
    unfold storeRx
    dsimp only
    rw [flushReport_none hpend, hpend, hfits]
    rfl
  have hchans : ∀ (n : Nat) (v : State) k, chan (bump n v) k = chan v k := fun _ _ _ => rfl
  rw [hstore]
  exact ⟨(hchans _ _ ch).trans (chan_modChan_on (s := s) hon), fun k hk => (hchans _ _ k).trans (chan_modChan_other s ch k _ hk)⟩

theorem storeRx_full {bs : List Byte} {stamp : Nat} (hon : (chan s ch).st ≠ .off) (hpend : (chan s ch).pendRpt = none)
    (hwaits : (chan s ch).rptWaits = []) (hfull : rxFits s ch (packetWords stamp bs).length = false) :
    (chan (storeRx ch bs stamp s) ch).rxq = (chan s ch).rxq
    ∧ (chan (storeRx ch bs stamp s) ch).pendRpt = some ⟨.queueFull, (chan s ch).rxSeq, 1⟩
    ∧ ∀ k, k ≠ ch → chan (storeRx ch bs stamp s) k = chan s k := by
  generalize hv : modChan ch (fun c => { c with rxSeq := ((chan s ch).rxSeq + 1) % 2 ^ 32 }) (bump (chnAddr ch 0x88) s) = v
  have hown : chan v ch = { chan s ch with rxSeq := ((chan s ch).rxSeq + 1) % 2 ^ 32 } := by
    rw [← hv]; exact chan_modChan_on (s := bump (chnAddr ch 0x88) s) hon
  have hothers : ∀ k, k ≠ ch → chan v k = chan s k := fun k hk => by rw [← hv]; exact chan_modChan_other (bump (chnAddr ch 0x88) s) ch k _ hk
  have hstore : storeRx ch bs stamp s = modChan ch (toldChan .queueFull (chan s ch).rxSeq) v := by
    unfold storeRx
    dsimp only
    rw [flushReport_none hpend, hpend, hfull, if_neg (by decide)]
    unfold dropRx
    dsimp only
    rw [hv]
    exact report_first (by rw [hown]; exact hpend) (by rw [hown]; exact hwaits) _ _
  have htold : chan (modChan ch (toldChan .queueFull (chan s ch).rxSeq) v) ch = toldChan .queueFull (chan s ch).rxSeq (chan v ch) :=
    chan_modChan_on (s := v) (by rw [hown]; exact hon)
  rw [hstore]
  refine ⟨?_, ?_, fun k hk => (chan_modChan_other v ch k _ hk).trans (hothers k hk)⟩
  · rw [htold, hown]; rfl
  · rw [htold]; rfl

end

/-- Settles O52, by what the head of the queue, a report, a stalled write and a received frame do. -/
theorem channelItems : Obligations.ChannelItems := by
  unfold Obligations.ChannelItems
  refine fun ch s hawake => ⟨fun i t hline hraw hq hlater hframed hreports => ?items, fun w hpend hfits => ?report, fun hnone => ?noReport,
    fun i n t hstalled => ⟨fun hfits => ?resume, fun hfull => ?stays⟩, fun hhears hraw => ?rx, fun bs ticks idle f hdeaf => ?deaf⟩
  all_goals have hfield : ∀ f : State → State, onField f s = f s := fun f => if_pos hawake
  case items =>
    have h : SerialHead s ch.val i t := ⟨ch.isLt, hline, hraw, hq, hlater, hframed, hreports⟩
    have htx : ∀ ns, (if fieldAwake s || (chan s ch.val).onWire.isSome then itemComplete ch.val ns s else s) = itemComplete ch.val ns s :=
      fun ns => if_pos (by rw [hawake]; rfl)
    refine ⟨fun ns x hprod hin hphase hwire hon => ⟨_, commit_goOn s _, ?_⟩, fun ns st hbad hprod hfree hpend hsend => ⟨_, commit_goOn s _, ?_⟩,
      fun r hgood hrel hnow hsoon => ⟨fun hready => ⟨_, commit_goOn s _, ?_⟩, fun hbusy hfree hon hprod hpend => ⟨_, commit_goOn s _, ?_⟩⟩,
      fun r hgood hrel hpast hfree hon hprod hpend => ⟨_, commit_goOn s _, ?_⟩, fun r hgood hrel hnow hlate => effectIs_eq ?_⟩
    · dsimp only
      rw [htx]
      exact itemComplete_sent h hprod hin hphase hwire hon
    · have hon : (chan s ch.val).st ≠ .off := fun hoff => by simp [sending, hoff] at hsend
      have hnone : wireItem (chan s ch.val) = none := by unfold wireItem; rw [hfree]; rfl
      have hdone : itemComplete ch.val ns s = endItem ch.val i st s := by
        unfold itemComplete
        rw [hnone]
        exact serialOffer_bad h false hbad hfree hsend
      dsimp only
      rw [htx, hdone]
      obtain ⟨hqueue, hrpt, hothers, -, hin⟩ := headEnds ch.isLt hon hq hlater hpend hreports st
      exact ⟨hqueue, hrpt, hothers, hin hprod⟩
    · have hline' := hready
      unfold lineReady at hline'
      simp only [Bool.and_eq_true, Option.isNone_iff_eq_none] at hline'
      obtain ⟨⟨⟨hsend, hfree⟩, -⟩, -⟩ := hline'
      have hon : (chan s ch.val).st ≠ .off := fun hoff => by simp [sending, hoff] at hsend
      dsimp only
      rw [hfield]
      refine releaseItem_starts h ?_ hon
      rw [serialOffer_timed h false hgood hrel hfree]
      exact ((if_neg (by omega)).trans (if_neg (by omega))).trans (if_pos hready)
    · dsimp only
      rw [hfield]
      refine releaseItem_late h ?_ hon hpend
      rw [serialOffer_timed h false hgood hrel hfree]
      exact ((if_neg (by omega)).trans (if_neg (by omega))).trans (if_neg (by rw [hbusy]; exact Bool.false_ne_true))
    · dsimp only
      rw [hfield]
      refine releaseItem_late h ?_ hon hpend
      rw [serialOffer_timed h false hgood hrel hfree]
      exact if_pos hpast
    · rw [hfield]
      unfold releaseItem
      rw [serialOffer_waits h false hgood hrel hnow hlate]
      exact canOffer_serial h.notCan
  case report =>
    refine effectIs_eq ((hfield _).trans ?_)
    unfold flushReport
    rw [hpend]
    exact if_pos hfits
  case noReport =>
    refine effectIs_eq ((hfield _).trans ?_)
    obtain hnone | hfull := hnone
    · exact flushReport_none hnone
    · unfold flushReport
      split
      · exact if_neg (by rw [hfull]; exact Bool.false_ne_true)
      · rfl
  case resume =>
    refine effectIs_eq ((hfield _).trans ?_)
    unfold producerWriteResume
    rw [hstalled]
    exact if_pos hfits
  case stays =>
    refine effectIs_eq ((hfield _).trans ?_)
    unfold producerWriteResume
    rw [hstalled]
    exact if_neg (by rw [hfull]; exact Bool.false_ne_true)
  case rx =>
    have hon := serialHears_on hhears
    refine ⟨fun bs ticks idle k hgap hk => ?_, fun bs ticks idle hgap hplain hsome hlen => ⟨fun hpend hfits => ⟨_, commit_goOn s _, ?_⟩,
      fun hpend hwaits hfull => ⟨_, commit_goOn s _, ?_⟩⟩, fun bs ticks idle hgap hsome hlong => effectIs_eq ?_⟩
    · have hsome : bs ≠ [] := fun h => by rw [h] at hk; exact Nat.not_lt_zero k hk
      have hreject : ∀ kind, onField (serialFrameRx ch.val bs ticks idle (some (k, kind))) s = rejectFault ch.val kind s := fun kind =>
        ((hfield _).trans (serialFrameRx_gap hhears hraw hgap hsome)).trans (gapRun_fault hgap hk)
      exact ⟨effectIs_eq (hreject .framing), effectIs_eq (hreject .parity), effectIs_eq (hreject .break_)⟩
    · dsimp only
      rw [hfield, serialFrameRx_gap hhears hraw hgap hsome, gapRun_whole hgap hsome hlen hplain]
      obtain ⟨hown, hothers⟩ := storeRx_placed hon hpend hfits
      rw [hown]
      exact ⟨rfl, rfl, hothers⟩
    · dsimp only
      rw [hfield, serialFrameRx_gap hhears hraw hgap hsome, gapRun_whole hgap hsome hlen hplain]
      exact storeRx_full hon hpend hwaits hfull
    · exact ((hfield _).trans (serialFrameRx_gap hhears hraw hgap hsome)).trans (gapRun_long hgap hsome hlong)
  case deaf =>
    refine effectIs_eq ((hfield _).trans (if_pos ?_))
    rw [hdeaf]
    rfl

end Sys2Proof.Proofs
end

section
/-! Rate detection (R201 to R203, R226). -/

namespace Sys2Proof.Proofs

open Sys2Proof Sys2Proof.Machine Sys2Proof.Laws

section
variable {c : Ctx} {s u : State}

theorem runDetect_starts {params : List Byte} (hlow : 10 ≤ rd params 0 4) (hhigh : rd params 0 4 ≤ 600000)
    (hst : (chan u c.target.toNat).st = .disabled) (hreset : (chan u c.target.toNat).resetting = false)
    (hpers : pers u c.target.toNat = 1 ∨ pers u c.target.toNat = 2 ∨ pers u c.target.toNat = 3) (hpair : isPartner (pers u) c.target.toNat = false) :
    runDetect (taken c 0x0203 params s) u = .later (modChan c.target.toNat (fun x => { x with
      st := .detect, detect := some { session := c.session.val, tag := c.tag, startUp := u.time.up, timeoutMs := rd params 0 4 }
      can := { x.can with nominalFound := none, nominalUp := 0, brsSeen := false } }) u) := by
  have hdetects : (pers u c.target.toNat == 1 || pers u c.target.toNat == 2 || pers u c.target.toNat == 3) = true := by
    simpa [or_assoc] using hpers
  have hmay : ¬ ((chan u c.target.toNat).st ≠ .disabled ∨ (chan u c.target.toNat).resetting = true
      ∨ (!(pers u c.target.toNat == 1 || pers u c.target.toNat == 2 || pers u c.target.toNat == 3)) = true
      ∨ isPartner (pers u) c.target.toNat = true ∨ rd params 0 4 < 10 ∨ 600000 < rd params 0 4) := by
    rw [hreset, hdetects, hpair, hst]
    simp only [ne_eq, not_true_eq_false, Bool.false_eq_true, Bool.not_true, false_or]
    omega
  unfold runDetect
  exact if_neg hmay

end

section
variable {ch : Nat} {d : Detect} {x : Cmd} {s : State}

/-- The command of a detection is the one in flight. -/
structure Detecting (s : State) (ch : Nat) (d : Detect) (x : Cmd) : Prop where
  detect : (chan s ch).detect = some d
  inflight : s.cmd.inflight = [x]
  session : x.session = d.session
  tag : x.tag = d.tag
  phase : x.phase = .issued

/-- What ends a detection: the channel is disabled, its event sent, its command answered. -/
def detectEnds (ch : Nat) (f : Chan → Chan) (kind : Nat) (st : Status) (res : List Byte) (d : Detect) (s : State) : State :=
  complete d.session d.tag st res (channelEvent ch kind (modChan ch f s))

theorem detectEnds_answers {f : Chan → Chan} {kind : Nat} {st : Status} {res : List Byte} {v : State} (h : Detecting s ch d x)
    (hf : (f (chan s ch)).st = .disabled) (hchans : v.chans = s.chans) (hcmd : v.cmd = s.cmd) :
    chan (detectEnds ch f kind st res d v) ch = f (chan s ch)
    ∧ (detectEnds ch f kind st res d v).cmd.inflight = [{ x with phase := .ready st res, effected := true }]
    ∧ ∀ k, k ≠ ch → chan (detectEnds ch f kind st res d v) k = chan s k := by
  have hsame : ∀ k, chan v k = chan s k := chan_of_chans hchans
  have hevent : (channelEvent ch kind (modChan ch f v)).chans = (modChan ch f v).chans := emit_chans _ _ _
  have hown : chan (modChan ch f v) ch = f (chan v ch) := chan_modChan_on (by rw [hsame, hf]; decide)
  have hflight : (channelEvent ch kind (modChan ch f v)).cmd.inflight = [x] := by
    refine (emit_inflight _ _ _).trans ?_
    show v.cmd.inflight = [x]
    rw [hcmd, h.inflight]
  unfold detectEnds
  rw [← h.session, ← h.tag, complete_alone hflight (by rw [isReady, h.phase])]
  generalize channelEvent ch kind (modChan ch f v) = e at hevent
  refine ⟨(chan_of_chans (s := modChan ch f v) hevent ch).trans (by rw [hown, hsame]), rfl, fun k hk => ?_⟩
  exact (chan_of_chans (s := modChan ch f v) hevent k).trans ((chan_modChan_other v ch k f hk).trans (hsame k))

theorem serialRateConfirm_known {rate : Nat} (h : Detecting s ch d x) (hrate : rate ∈ serialRates) (hpers : pers s ch = 1 ∨ pers s ch = 2) :
    serialRateConfirm ch rate s = detectEnds ch (fun c => { c with st := .disabled, detect := none, rateFound := rate }) 1 .ok
      (leBytes 4 rate ++ leBytes 4 0) d (setFld (chnAddr ch 0x104) 0 25 rate s) := by
  have hknown : serialRates.contains rate = true := List.contains_iff_mem.mpr hrate
  unfold serialRateConfirm
  dsimp only
  rw [h.detect]
  exact if_pos ⟨hknown, hpers⟩

theorem serialRateConfirm_unknown {rate : Nat} (hrate : rate ∉ serialRates) : serialRateConfirm ch rate s = s := by
  unfold serialRateConfirm
  dsimp only
  split
  · exact if_neg fun hall => hrate (List.contains_iff_mem.mp hall.1)
  · rfl

/-- The channel whose rates on CAN are found. -/
def foundChan (nominal : Nat) (c : Chan) : Chan :=
  { c with st := .disabled, detect := none, rateFound := nominal, can := { c.can with nominalFound := none, brsSeen := false } }

theorem detectOk_ends (nominal : Nat) (data : Option Nat) : detectOk ch nominal data d s =
    detectEnds ch (foundChan nominal) 1 .ok (leBytes 4 nominal ++ leBytes 4 (data.getD 0)) d (writeTimings ch nominal data s) := rfl

theorem writeTimings_keeps (nominal : Nat) (data : Option Nat) : (writeTimings ch nominal data s).chans = s.chans
    ∧ (writeTimings ch nominal data s).cmd = s.cmd := by
  unfold writeTimings
  extract_lets v
  have hv : v.chans = s.chans ∧ v.cmd = s.cmd := by
    unfold v
    split
    · exact ⟨csrPut_chans .., csrPut_cmd ..⟩
    · exact ⟨rfl, rfl⟩
  split
  · rw [setFld_chans, setFld_cmd, csrPut_chans, csrPut_cmd]
    exact hv
  · exact hv

/-- A detection on CAN that ends OK (R226). -/
theorem detectOk_answers (h : Detecting s ch d x) (nominal : Nat) (data : Option Nat) :
    (chan (detectOk ch nominal data d s) ch).st = .disabled ∧ (chan (detectOk ch nominal data d s) ch).rateFound = nominal
    ∧ (detectOk ch nominal data d s).cmd.inflight = [{ x with phase := .ready .ok (leBytes 4 nominal ++ leBytes 4 (data.getD 0)), effected := true }] := by
  obtain ⟨hchans, hcmd⟩ := writeTimings_keeps (ch := ch) (s := s) nominal data
  obtain ⟨hown, hin, -⟩ := detectEnds_answers (f := foundChan nominal) (kind := 1) (st := .ok)
    (res := leBytes 4 nominal ++ leBytes 4 (data.getD 0)) h rfl hchans hcmd
  rw [detectOk_ends, hown]
  exact ⟨rfl, rfl, hin⟩

theorem canRateConfirm_nominal {nominal : Nat} (h : Detecting s ch d x) (hpers : pers s ch = 3) (hknown : (nomTiming nominal).isSome = true)
    (hfirst : (chan s ch).can.nominalFound = none) : canRateConfirm ch nominal none s =
      modCan ch (fun c => { c with nominalFound := some nominal, nominalUp := s.time.up, brsSeen := false }) s := by
  unfold canRateConfirm
  rw [h.detect]
  refine (if_pos ⟨hpers, hknown, rfl⟩).trans ?_
  unfold modCan
  exact modChan_congr (by dsimp only; rw [hfirst]; rfl)

theorem canRateConfirm_both {nominal r : Nat} (h : Detecting s ch d x) (hpers : pers s ch = 3) (hknown : (nomTiming nominal).isSome = true)
    (hdata : (dataTiming r).isSome = true) : canRateConfirm ch nominal (some r) s = detectOk ch nominal (some r) d s := by
  unfold canRateConfirm
  rw [h.detect]
  exact if_pos ⟨hpers, hknown, hdata⟩

theorem brsWaitExpiry_due {n : Nat} (h : Detecting s ch d x) (hfound : (chan s ch).can.nominalFound = some n)
    (hseen : (chan s ch).can.brsSeen = false) (hdue : (chan s ch).can.nominalUp + 200000 ≤ s.time.up) :
    brsWaitExpiry ch s = detectOk ch n none d s := by
  unfold brsWaitExpiry
  dsimp only
  rw [h.detect, hfound]
  exact if_pos ⟨by rw [hseen]; rfl, by unfold since; omega⟩

theorem brsWaitExpiry_early (hearly : since (chan s ch).can.nominalUp s < 200000) : brsWaitExpiry ch s = s := by
  unfold brsWaitExpiry
  dsimp only
  split
  · exact if_neg fun hall => absurd hall.2 (by omega)
  · rfl

theorem rateDetectTimeout_due (h : Detecting s ch d x) (hdue : d.startUp + d.timeoutMs * 2000 ≤ s.time.up)
    (hnone : (chan s ch).can.nominalFound = none) : rateDetectTimeout ch s =
      channelEvent ch 2 (complete d.session d.tag .timeout [] (modChan ch (fun c => { c with st := .disabled, detect := none }) s)) := by
  unfold rateDetectTimeout
  dsimp only
  rw [h.detect, hnone]
  exact if_pos (by unfold since; omega)

theorem rateDetectTimeout_early (h : Detecting s ch d x) (hearly : since d.startUp s < d.timeoutMs * 2000) : rateDetectTimeout ch s = s := by
  unfold rateDetectTimeout
  dsimp only
  rw [h.detect]
  exact if_neg (by omega)

end

/-- Settles O53, by the command's start, its confirmations and its times. -/
theorem rateDetection : Obligations.RateDetection := by
  unfold Obligations.RateDetection
  refine ⟨fun ms hlow hhigh => ?start, fun ch d x s hawake hdetect hin hse htag hphase => ?ends⟩
  case start =>
    refine hostStands_run (by decide) (fun _ _ => rfl) (fun c s hgood => ?_) (fun _ _ => rfl)
    obtain ⟨hst, hreset, hpers, hpair⟩ := hgood
    have hms : rd (leBytes 4 ms.toNat) 0 4 = ms.toNat := by simpa using rd_leBytes_toNat 4 ms [] (by decide)
    have hrun := runDetect_starts (s := s) (params := leBytes 4 ms.toNat) (by rw [hms]; exact hlow) (by rw [hms]; exact hhigh) hst hreset hpers hpair
    rw [hms] at hrun
    exact hrun
  case ends =>
    have h : Detecting s ch.val d x := ⟨hdetect, hin, hse, htag, hphase⟩
    have hfield : ∀ f : State → State, onField f s = f s := fun f => if_pos hawake
    refine ⟨fun rate hrate hpers => ⟨_, commit_goOn s _, ?_⟩, fun rate hrate => effectIs_eq ((hfield _).trans (serialRateConfirm_unknown hrate)),
      fun nominal hpers hknown => ⟨fun hfirst => effectIs_eq ((hfield _).trans (canRateConfirm_nominal h hpers hknown hfirst)),
        fun r hdata => ⟨_, commit_goOn s _, ?_⟩⟩,
      fun n hfound hseen => ⟨fun hdue => ⟨_, commit_goOn s _, ?_⟩, fun hearly => effectIs_eq ((hfield _).trans (brsWaitExpiry_early hearly))⟩,
      fun hdue hnone => ⟨_, commit_goOn s _, ?_⟩, fun hearly => effectIs_eq ((hfield _).trans (rateDetectTimeout_early h hearly))⟩
    · dsimp only
      rw [hfield, serialRateConfirm_known h hrate hpers]
      obtain ⟨hown, hanswer, hothers⟩ := detectEnds_answers (f := fun c => { c with st := .disabled, detect := none, rateFound := rate })
        (kind := 1) (st := .ok) (res := leBytes 4 rate ++ leBytes 4 0) (v := setFld (chnAddr ch.val 0x104) 0 25 rate s) h rfl rfl rfl
      rw [hown]
      exact ⟨rfl, rfl, rfl, hanswer, hothers⟩
    · dsimp only
      rw [hfield, canRateConfirm_both h hpers hknown hdata]
      exact detectOk_answers h nominal (some r)
    · dsimp only
      rw [hfield, brsWaitExpiry_due h hfound hseen hdue]
      exact detectOk_answers h n none
    · dsimp only
      rw [hfield, rateDetectTimeout_due h hdue hnone, ← hse, ← htag]
      have hown : chan (modChan ch.val (fun c => { c with st := .disabled, detect := none }) s) ch.val
          = { chan s ch.val with st := .disabled, detect := none } := chan_modChan_on (show ChState.disabled ≠ ChState.off by decide)
      rw [complete_alone (s := modChan ch.val _ s) hin (by rw [isReady, hphase])]
      generalize modChan ch.val (fun c => { c with st := .disabled, detect := none }) s = v at hown
      have hchan : chan (channelEvent ch.val 2 (modCmd (fun q => { q with inflight := [{ x with phase := .ready .timeout [], effected := true }] }) v)) ch.val
          = chan v ch.val := chan_of_chans (emit_chans _ _ _) _
      rw [hchan, hown]
      exact ⟨rfl, rfl, emit_inflight _ _ _⟩

end Sys2Proof.Proofs
end

section
/-! CAN: reception, attempts, bus-off and its recovery, ONCE windows and request times (R213 to R225, R304). -/

namespace Sys2Proof.Proofs

open Sys2Proof Sys2Proof.Machine Sys2Proof.Laws

/-! ## Settings of a channel -/

section
variable {ch : Nat} {s t u : State}

theorem rowsAt_channel {off : Nat} (hch : ch < 128) (hoff : off < 0x800) (s : State) :
    rowsAt s (chnAddr ch off) = channelFields (pers s ch) (mbOn s ch) off := by
  have hunit : (chnAddr ch off - 0x80000) / 0x800 = ch := by unfold chnAddr; omega
  have hrest : (chnAddr ch off - 0x80000) % 0x800 = off := by unfold chnAddr; omega
  have hblock : chnAddr ch off / 0x10000 = 8 ∨ chnAddr ch off / 0x10000 = 9 ∨ chnAddr ch off / 0x10000 = 10 ∨ chnAddr ch off / 0x10000 = 11 := by
    unfold chnAddr; omega
  unfold rowsAt fieldsOf
  obtain h | h | h | h := hblock
  all_goals
    simp only [h, hunit, hrest]
    exact if_pos (by decide)

/-- The personality, the Modbus service and the CAN configuration of the channel stay as they were set. -/
def SettingsKept (ch : Nat) (s t : State) : Prop := ∀ off, off = 0 ∨ off = 0x100 ∨ off = 0x200 → SameWord (chnAddr ch off) s t

theorem SettingsKept.refl (s : State) : SettingsKept ch s s := fun _ _ => .refl s

theorem SettingsKept.trans (h : SettingsKept ch s t) (k : SettingsKept ch t u) : SettingsKept ch s u :=
  fun off hoff => (h off hoff).trans (k off hoff)

theorem SettingsKept.of_regs (hcsr : t.csr = s.csr) (hcfg : t.cfgRegs = s.cfgRegs) (hupd : t.upd = s.upd) : SettingsKept ch s t :=
  fun _ _ => ⟨by rw [hcsr], hcfg, by rw [hupd]⟩

theorem settings_bump {off : Nat} (hne : off < 0x800 ∧ off ≠ 0 ∧ off ≠ 0x100 ∧ off ≠ 0x200) : SettingsKept ch s (bump (chnAddr ch off) s) :=
  fun b hb => sameWord_bump s (by unfold chnAddr; omega)

theorem settings_unitFault (hch : ch < 128) (code kind n : Nat) : SettingsKept ch s (unitFault code kind n s) :=
  fun b hb => sameWord_detect s (by unfold chnAddr; omega) _ _

theorem SettingsKept.pers (h : SettingsKept ch s t) : pers t ch = pers s ch := pers_of_word (h 0 (.inl rfl))

theorem SettingsKept.mbOn (h : SettingsKept ch s t) : mbOn t ch = mbOn s ch := by
  have hword := h 0x200 (.inr (.inr rfl))
  unfold Machine.mbOn wordOr
  rw [hword.word, hword.cfg]

theorem SettingsKept.canCfg (hch : ch < 128) (h : SettingsKept ch s t) (lo w : Nat) : fld t (canAddr ch 0x100) lo w = fld s (canAddr ch 0x100) lo w := by
  have hword := h 0x100 (.inr (.inl rfl))
  have hrows : rowsAt t (chnAddr ch 0x100) = rowsAt s (chnAddr ch 0x100) := by
    rw [rowsAt_channel hch (by decide), rowsAt_channel hch (by decide), h.pers, h.mbOn]
  have hcsr : csr t (chnAddr ch 0x100) = csr s (chnAddr ch 0x100) := by
    rw [csr, csr, hword.word, resetOf, resetOf, hword.cfg, hrows]
  unfold fld canAddr
  rw [hcsr]

theorem chan_modCan_on (hon : (chan s ch).st ≠ .off) (f : CanState → CanState) :
    chan (modCan ch f s) ch = { chan s ch with can := f (chan s ch).can } := chan_modChan_on (s := s) hon

theorem modCan_others {k : Nat} (hk : k ≠ ch) (f : CanState → CanState) : chan (modCan ch f s) k = chan s k := chan_modChan_other s ch k _ hk

end

/-! ## Reception -/

section
variable {ch : Nat} {s : State}

theorem canHears_on (h : canHears (chan s ch) = true) : (chan s ch).st ≠ .off := fun hoff => by simp [canHears, hoff] at h

/-- The channel behind a frame received without error. -/
def heardChan (idle : Nat) (c : Chan) : Chan :=
  { c with
    st := if c.st = .alone then .active else c.st, busIdle := false
    can := { c.can with ackRun := 0, idleFrom := idle, rec_ := c.can.rec_ - 1 } }

theorem recDown_low (hon : (chan s ch).st ≠ .off) (hrec : (chan s ch).can.rec_ ≤ 127) : ∃ cs, recDown ch s = { s with chans := cs }
    ∧ chan (recDown ch s) ch = { chan s ch with can := { (chan s ch).can with rec_ := (chan s ch).can.rec_ - 1 } }
    ∧ ∀ k, k ≠ ch → chan (recDown ch s) k = chan s k := by
  unfold recDown
  dsimp only
  split
  · next hzero =>
    refine ⟨s.chans, rfl, ?_, fun _ _ => rfl⟩
    have hsame : { (chan s ch).can with rec_ := (chan s ch).can.rec_ - 1 } = (chan s ch).can := by rw [hzero, Nat.zero_sub, ← hzero]
    rw [hsame]
  · exact ⟨_, rfl, chan_modCan_on hon _, fun k hk => modCan_others hk _⟩

theorem backToBus_none (h : ∀ i ∈ (chan s ch).txq, isOnce i = false) : backToBus ch s = s := by
  have hnone : (chan s ch).txq.filter (onceGone s ch) = [] := List.filter_eq_nil_iff.mpr fun i hi => by
    rw [onceGone, h i hi]
    exact Bool.false_ne_true
  unfold backToBus
  rw [hnone]
  rfl

theorem giveReqs_none (record : List Byte) (h : (chan s ch).can.reqs = []) : ∃ f, giveReqs ch record s = (false, modCan ch f s)
    ∧ f (chan s ch).can = (chan s ch).can := by
  unfold giveReqs
  rw [h]
  refine ⟨_, rfl, ?_⟩
  dsimp only
  generalize (chan s ch).can = c at h
  cases c
  dsimp only at h
  rw [h]
  rfl

/-- A frame that no request and no object takes reaches ALL, or is counted (R214). -/
theorem canFrameRx_unclaimed {record : List Byte} {stamp : Nat} (hpers : pers s ch = 3) (hhears : canHears (chan s ch) = true)
    (hlen : record.length = 8 + recLen record) (hfd : recFdf record = true → fdEn s ch = true) (hrec : (chan s ch).can.rec_ ≤ 127)
    (hreqs : (chan s ch).can.reqs = []) (hobjects : ∀ m, m < 64 → moMatches s ch m record = false) (honce : ∀ i ∈ (chan s ch).txq, isOnce i = false) :
    ∃ cs idle, chan { s with chans := cs } ch = heardChan idle (chan s ch) ∧ (∀ k, k ≠ ch → chan { s with chans := cs } k = chan s k)
      ∧ canFrameRx ch record stamp s = if fld s (canAddr ch 0x100) 2 1 = 1 then storeRx ch (setAt record 5 0xFF) stamp { s with chans := cs }
        else bump (canAddr ch 0x1A4) { s with chans := cs } := by
  have hon := canHears_on hhears
  have hactive : ∀ c : Chan, c.st ≠ .off → (if c.st = .alone then ChState.active else c.st) ≠ .off := fun c hc => by
    split
    · decide
    · exact hc
  generalize hv : modChan ch (fun c => { c with
      st := (if c.st = .alone then .active else c.st), busIdle := false
      can := { c.can with ackRun := 0, idleFrom := nsNow s + 4 * nomBitNs s ch } }) s = v
  have hown : chan v ch = { chan s ch with
      st := (if (chan s ch).st = .alone then .active else (chan s ch).st), busIdle := false
      can := { (chan s ch).can with ackRun := 0, idleFrom := nsNow s + 4 * nomBitNs s ch } } := by
    rw [← hv]; exact chan_modChan_on (s := s) (hactive _ hon)
  have hothers : ∀ k, k ≠ ch → chan v k = chan s k := fun k hk => by rw [← hv]; exact chan_modChan_other s ch k _ hk
  have hframe : ∃ cs, v = { s with chans := cs } := ⟨_, hv.symm⟩
  have hdown := recDown_low (ch := ch) (s := v) (by rw [hown]; exact hactive _ hon) (by rw [hown]; exact hrec)
  obtain ⟨cs, hw, hownw, hothersw⟩ := hdown
  obtain ⟨cs', hv'⟩ := hframe
  have hback : ∀ b, onlyIf b (backToBus ch) (recDown ch v) = recDown ch v := fun b => by
    cases b
    · rfl
    · exact backToBus_none (by rw [hownw, hown]; exact honce)
  obtain ⟨f, hgive, hf⟩ := giveReqs_none (ch := ch) (s := recDown ch v) record (by rw [hownw, hown]; exact hreqs)
  have honw : (chan (recDown ch v) ch).st ≠ .off := by rw [hownw, hown]; exact hactive _ hon
  obtain ⟨cs'', hx⟩ : ∃ cs, modCan ch f (recDown ch v) = { s with chans := cs } := ⟨_, by rw [hw, hv']; rfl⟩
  refine ⟨cs'', nsNow s + 4 * nomBitNs s ch, ?_, fun k hk => ?_, ?_⟩
  · rw [← hx, chan_modCan_on honw, hf, hownw, hown]
    rfl
  · rw [← hx, modCan_others hk, hothersw k hk, hothers k hk]
  · have hnone : (List.range 64).find? (fun m => moMatches { s with chans := cs'' } ch m record) = none :=
      List.find?_eq_none.mpr fun m hm => by
        have hmiss : moMatches { s with chans := cs'' } ch m record = false := hobjects m (List.mem_range.mp hm)
        rw [hmiss]
        exact Bool.false_ne_true
    unfold canFrameRx
    dsimp only
    rw [if_neg (by rw [hpers, hhears]; decide), if_neg (fun h => by rw [hfd h.1] at h; exact Bool.false_ne_true h.2), if_neg (not_not_intro hlen), hv, hback, hgive]
    dsimp only
    rw [hx, hnone]
    rfl

theorem rxFits_heard {cs : Sparse Chan} {idle n : Nat} (hown : chan { s with chans := cs } ch = heardChan idle (chan s ch))
    (hothers : ∀ k, k ≠ ch → chan { s with chans := cs } k = chan s k) : rxFits { s with chans := cs } ch n = rxFits s ch n := by
  have hqueues : ∀ k, (chan { s with chans := cs } k).txq = (chan s k).txq ∧ (chan { s with chans := cs } k).rxq = (chan s k).rxq
      ∧ (chan { s with chans := cs } k).partPush = (chan s k).partPush := fun k => by
    by_cases hk : k = ch
    · rw [hk, hown]; exact ⟨rfl, rfl, rfl⟩
    · rw [hothers k hk]; exact ⟨rfl, rfl, rfl⟩
  have hused : ∀ k, sharedUsed { s with chans := cs } k = sharedUsed s k := fun k => by
    obtain ⟨ht, hr, hp⟩ := hqueues k
    unfold sharedUsed txCells txWords rxCells
    dsimp only
    rw [ht, hr, hp]
    rfl
  have hfree : chPoolFree { s with chans := cs } = chPoolFree s := by
    unfold chPoolFree
    simp only [hused]
    rfl
  unfold rxFits rxCells
  dsimp only
  rw [(hqueues ch).2.1, hfree]
  rfl

/-- What is noted of an error in its phase (R228). -/
def notedCan (k : CanErr) (dp : Bool) (x : CanState) : CanState := if dp then { x with dlec := errCode k } else { x with lec := errCode k }

theorem noteErr_chan (hon : (chan s ch).st ≠ .off) (k : CanErr) (dp : Bool) : (∀ j, j ≠ ch → chan (noteErr ch k dp s) j = chan s j)
    ∧ chan (noteErr ch k dp s) ch = { chan s ch with can := notedCan k dp (chan s ch).can } := by
  have hchans : (noteErr ch k dp s).chans = (modCan ch (notedCan k dp) s).chans := rfl
  exact ⟨fun j hj => (chan_of_chans hchans j).trans (modCan_others hj _), (chan_of_chans hchans ch).trans (chan_modCan_on hon _)⟩

theorem canReceiveError_counts {k : CanErr} {dp : Bool} {n : Nat} (hpers : pers s ch = 3) (hhears : canHears (chan s ch) = true) :
    (∀ j, j ≠ ch → chan (canReceiveError ch k dp n s) j = chan s j)
    ∧ chan (canReceiveError ch k dp n s) ch = { chan s ch with can := { notedCan k dp (chan s ch).can with
        rec_ := min 255 ((chan s ch).can.rec_ + 1 + 8 * n), idleFrom := 0 } } := by
  have hon := canHears_on hhears
  have hkeep : (notedCan k dp (chan s ch).can).rec_ = (chan s ch).can.rec_ := by cases dp <;> rfl
  obtain ⟨hothers, hown⟩ := noteErr_chan (s := bump (chnAddr ch 0x90) s) hon k dp
  unfold canReceiveError
  rw [if_pos ⟨hpers, hhears⟩]
  generalize noteErr ch k dp (bump (chnAddr ch 0x90) s) = v at hothers hown
  have hownv : chan v ch = { chan s ch with can := notedCan k dp (chan s ch).can } := hown
  refine ⟨fun j hj => (modCan_others hj _).trans (hothers j hj), ?_⟩
  rw [chan_modCan_on (by rw [hownv]; exact hon), hownv, ← hkeep]

end

/-! ## Starting -/

section
variable {ch : Nat} {s : State}

/-- The channel behind the start of an item. -/
def startedChan (i : TxItem) (c : Chan) : Chan :=
  { c with
    busIdle := false, lastSent := wireRecord c i.data
    txq := c.txq.map (fun j => if j.seq = i.seq then { j with attempts := j.attempts + 1 } else j)
    can := { c.can with onBus := some i.seq } }

theorem sending_on (h : sending (chan s ch) = true) : (chan s ch).st ≠ .off := fun hoff => by simp [sending, hoff] at h

theorem releaseItem_can (hpers : pers s ch = 3) : releaseItem ch s = canOffer ch s := by
  have hsends : serialSends s ch = false := by
    unfold serialSends
    rw [hpers]
    rfl
  unfold releaseItem serialOffer
  dsimp only
  rw [hsends]
  rfl

theorem canOffer_held (h : (chan s ch).can.onBus.isSome = true ∨ (chan s ch).can.busOff = true) : canOffer ch s = s := by
  unfold canOffer
  exact if_pos (h.elim (fun hbus => .inr (.inl hbus)) fun hoff => .inr (.inr (.inr hoff)))

theorem canOffer_starts {i h : TxItem} (hpers : pers s ch = 3) (hchoice : canChoose s ch = some i) (hhead : (chan s ch).txq.head? = some h)
    (hheadGood : canDefect s ch h = none) (hgood : canDefect s ch i = none) (hidle : (chan s ch).busIdle = true)
    (hbus : (chan s ch).can.onBus = none) (hon : (chan s ch).can.busOff = false) (hpend : (chan s ch).pendRpt = none)
    (hsend : sending (chan s ch) = true) : canOffer ch s = canStart ch i s := by
  have hfree : ¬ (pers s ch ≠ 3 ∨ (chan s ch).can.onBus.isSome = true ∨ (!sending (chan s ch)) = true ∨ (chan s ch).can.busOff = true) := by
    rw [hbus, hon, hsend, hpers]
    simp
  have hfirst : (chan s ch).txq.head?.bind (fun i => (canDefect s ch i).map (fun st => (i, st))) = none := by
    rw [hhead]
    show (canDefect s ch h).map _ = none
    rw [hheadGood]
    rfl
  unfold canOffer
  dsimp only
  rw [if_neg hfree, hfirst]
  dsimp only
  rw [if_neg (by rw [hidle, hpend]; simp), hchoice]
  dsimp only
  rw [hgood]
  rfl

theorem canStart_chan (i : TxItem) (hon : (chan s ch).st ≠ .off) : (∀ k, k ≠ ch → chan (canStart ch i s) k = chan s k)
    ∧ chan (canStart ch i s) ch = startedChan i (chan s ch) := by
  have hchans : (onlyIf (decide (i.attempts > 0)) (bump (canAddr ch 0x198)) s).chans = s.chans := by
    unfold onlyIf
    split
    · rfl
    · rfl
  have hstart : canStart ch i s = modChan ch (startedChan i) (onlyIf (decide (i.attempts > 0)) (bump (canAddr ch 0x198)) s) := rfl
  rw [hstart]
  generalize onlyIf (decide (i.attempts > 0)) (bump (canAddr ch 0x198)) s = v at hchans
  have hsame := chan_of_chans hchans
  have hown := chan_modChan_on (s := v) (f := startedChan i) (ch := ch) (by rw [hsame]; exact hon)
  exact ⟨fun k hk => (chan_modChan_other v ch k _ hk).trans (hsame k), hown.trans (by rw [hsame])⟩

end

/-! ## The end of an attempt -/

/-- An item at the head of an active channel stands on the bus. -/
structure OnBus (s : State) (ch : Nat) (i : TxItem) (t : List TxItem) : Prop where
  range : ch < 128
  can : pers s ch = 3
  queue : (chan s ch).txq = i :: t
  bus : (chan s ch).can.onBus = some i.seq
  later : ∀ j ∈ t, j.seq ≠ i.seq
  active : (chan s ch).st = .active
  lasting : (chan s ch).aborting = false

theorem onceOver_plain {ch : Nat} {i : TxItem} {s : State} (hplain : isOnce i = false) : onceOver s ch i = false := by
  unfold onceOver
  rw [hplain]
  split
  · rfl
  · rfl

/-- An item that left in full answers its command (R197, R205). -/
theorem sentItem_answers {ch ns : Nat} {i : TxItem} {x : Cmd} {s : State} (hon : (chan s ch).st ≠ .off) (hprod : i.producer = .send x.session x.tag)
    (hin : s.cmd.inflight = [x]) (hphase : x.phase = .issued) : (∀ k, k ≠ ch → chan (sentItem ch i ns s) k = chan s k)
    ∧ (∃ o, chan (sentItem ch i ns s) ch = { chan s ch with txq := (chan s ch).txq.filter (fun j => j.seq != i.seq), onWire := o })
    ∧ (sentItem ch i ns s).cmd.inflight = [{ x with phase := .ready .ok (leBytes 4 i.seq ++ leBytes 8 ns), effected := true }] := by
  have hdone : sentItem ch i ns s = complete x.session x.tag .ok (leBytes 4 i.seq ++ leBytes 8 ns) (bump (chnAddr ch 0x80) (removeItem ch i.seq s)) := by
    unfold sentItem
    rw [hprod]
  have hchans : (sentItem ch i ns s).chans = (removeItem ch i.seq s).chans := by rw [hdone]; rfl
  refine ⟨fun k hk => (chan_of_chans hchans k).trans (removeItem_others hk _), ⟨_, (chan_of_chans hchans ch).trans (chan_removeItem hon _)⟩, ?_⟩
  rw [hdone, complete_alone (s := bump (chnAddr ch 0x80) (removeItem ch i.seq s)) (x := x) hin (by rw [isReady, hphase])]
  rfl

/-- What a frame that left makes of the CAN state: TEC falls, requests of the item begin to wait for their answers. -/
def leftCan (up : Nat) (i : TxItem) (x : CanState) : CanState :=
  { x with
    tec := x.tec - 1, ackRun := 0
    reqs := x.reqs.map (fun r => if r.itemSeq = i.seq then { r with left := true, startUp := up } else r) }

/-- What an error of an attempt adds. -/
def erredCan (step : Nat) (k : CanErr) (x : CanState) : CanState :=
  { x with tec := x.tec + step, ackRun := if k = .ack then min 255 (x.ackRun + 1) else x.ackRun }

theorem settings_noteErr {ch : Nat} (s : State) (k : CanErr) (dp : Bool) : SettingsKept ch s (noteErr ch k dp s) := by
  refine SettingsKept.trans (t := modCan ch (notedCan k dp) s) (.of_regs rfl rfl rfl) ?_
  exact settings_bump (s := modCan ch (notedCan k dp) s) (off := errOff k) (by cases k <;> decide)

section
variable {ch : Nat} {s : State} {i : TxItem} {t : List TxItem} (h : OnBus s ch i t)
include h

theorem OnBus.item : (if pers s ch = 3 then (chan s ch).can.onBus.bind (fun q => (chan s ch).txq.find? (fun i => i.seq == q)) else none) = some i := by
  rw [if_pos h.can, h.bus, h.queue]
  show (i :: t).find? (fun j => j.seq == i.seq) = some i
  exact List.find?_cons_of_pos (beq_self_eq_true i.seq)

theorem OnBus.on : (chan s ch).st ≠ .off := by rw [h.active]; decide

/-- The hub once the item has left the bus. -/
theorem OnBus.freed : ∃ v, modCan ch (fun x => { x with onBus := none, idleFrom := 0 }) s = v
    ∧ chan v ch = { chan s ch with can := { (chan s ch).can with onBus := none, idleFrom := 0 } } ∧ (∀ j, j ≠ ch → chan v j = chan s j)
    ∧ v.cmd = s.cmd ∧ SettingsKept ch s v :=
  ⟨_, rfl, chan_modCan_on h.on _, fun _ hj => modCan_others hj _, rfl, .of_regs rfl rfl rfl⟩

/-- The item left (R219, R222). -/
theorem OnBus.left {ns : Nat} {x : Cmd} (hprod : i.producer = .send x.session x.tag) (hin : s.cmd.inflight = [x]) (hphase : x.phase = .issued) :
    (chan (canAttemptEnd ch (.left ns) s) ch).txq = t ∧ (chan (canAttemptEnd ch (.left ns) s) ch).can.tec = (chan s ch).can.tec - 1
    ∧ (chan (canAttemptEnd ch (.left ns) s) ch).can.ackRun = 0 ∧ (chan (canAttemptEnd ch (.left ns) s) ch).can.onBus = none
    ∧ (canAttemptEnd ch (.left ns) s).cmd.inflight = [{ x with phase := .ready .ok (leBytes 4 i.seq ++ leBytes 8 ns), effected := true }]
    ∧ ∀ k, k ≠ ch → chan (canAttemptEnd ch (.left ns) s) k = chan s k := by
  obtain ⟨v, hv, hown, hothers, hcmd, -⟩ := h.freed
  have honv : (chan v ch).st ≠ .off := by rw [hown]; exact h.on
  have hend : ∃ n, canAttemptEnd ch (.left ns) s = modCan ch (fun x => { x with idleFrom := n }) (sentItem ch i ns (modCan ch (leftCan v.time.up i) v)) := by
    unfold canAttemptEnd
    dsimp only
    rw [h.item]
    dsimp only
    rw [hv]
    exact ⟨_, rfl⟩
  have hownw := chan_modCan_on honv (leftCan v.time.up i)
  obtain ⟨hsent, ⟨o, hsentOwn⟩, hflight⟩ := sentItem_answers (s := modCan ch (leftCan v.time.up i) v) (ns := ns) (by rw [hownw]; exact honv) hprod
    ((congrArg CmdState.inflight hcmd).trans hin) hphase
  obtain ⟨n, hn⟩ := hend
  generalize sentItem ch i ns (modCan ch (leftCan v.time.up i) v) = w at hsent hsentOwn hflight hn
  have hfinal : chan (canAttemptEnd ch (.left ns) s) ch = { chan w ch with can := { (chan w ch).can with idleFrom := n } } := by
    rw [hn]
    exact chan_modCan_on (by rw [hsentOwn, hownw]; exact honv) _
  have hqueue : (chan w ch).txq = t := by
    rw [hsentOwn, hownw, hown]
    show (chan s ch).txq.filter _ = t
    rw [h.queue, queue_behind h.later]
  have hcan : (chan w ch).can = leftCan v.time.up i (chan v ch).can := by rw [hsentOwn, hownw]
  rw [hfinal]
  refine ⟨hqueue, ?_, ?_, ?_, by rw [hn]; exact hflight, fun k hk => ?_⟩
  · show (chan w ch).can.tec = _
    rw [hcan, hown]
    rfl
  · show (chan w ch).can.ackRun = _
    rw [hcan]
    rfl
  · show (chan w ch).can.onBus = _
    rw [hcan, hown]
    rfl
  · rw [hn, modCan_others hk, hsent k hk, modCan_others hk, hothers k hk]

/-- The arbitration is lost: the item waits for its next attempt. -/
theorem OnBus.arbLost (hplain : isOnce i = false) : (chan (canAttemptEnd ch .arbLost s) ch).txq = i :: t
    ∧ (chan (canAttemptEnd ch .arbLost s) ch).can.onBus = none ∧ (chan (canAttemptEnd ch .arbLost s) ch).can.tec = (chan s ch).can.tec
    ∧ ∀ k, k ≠ ch → chan (canAttemptEnd ch .arbLost s) k = chan s k := by
  obtain ⟨v, hv, hown, hothers, -, -⟩ := h.freed
  have hend : canAttemptEnd ch .arbLost s = bump (canAddr ch 0x194) v := by
    unfold canAttemptEnd
    dsimp only
    rw [h.item]
    dsimp only
    rw [hv, h.lasting, onceOver_plain hplain]
    rfl
  have hsame : ∀ k, chan (canAttemptEnd ch .arbLost s) k = chan v k := fun k => by rw [hend]; rfl
  rw [hsame, hown]
  exact ⟨h.queue, rfl, rfl, fun k hk => (hsame k).trans (hothers k hk)⟩

/-- The error of an attempt is noted and counted up TEC (R222, R228). -/
theorem OnBus.erred (k : CanErr) (place : CanPlace) (dom : Bool) (n step : Nat)
    (hstep : step = tecStep (decide ((chan s ch).can.tec > 127) || decide ((chan s ch).can.rec_ > 127)) k place dom n) :
    ∃ w x, chan w ch = { chan s ch with can := x } ∧ x.tec = (chan s ch).can.tec + step ∧ x.busOff = (chan s ch).can.busOff ∧ x.onBus = none
      ∧ SettingsKept ch s w ∧ (255 < x.tec → canAttemptEnd ch (.error k place dom n) s = busOffEnter ch w)
      ∧ (x.tec ≤ 255 → k ≠ .ack → isOnce i = false → canAttemptEnd ch (.error k place dom n) s = w) := by
  obtain ⟨v, hv, hown, -, -, hkept⟩ := h.freed
  have honv : (chan v ch).st ≠ .off := by rw [hown]; exact h.on
  obtain ⟨-, hnoted⟩ := noteErr_chan honv k (place == .dataPhase)
  have hnote : (notedCan k (place == .dataPhase) (chan v ch).can).tec = (chan s ch).can.tec
      ∧ (notedCan k (place == .dataPhase) (chan v ch).can).busOff = (chan s ch).can.busOff
      ∧ (notedCan k (place == .dataPhase) (chan v ch).can).onBus = none := by
    rw [hown]
    unfold notedCan
    split
    · exact ⟨rfl, rfl, rfl⟩
    · exact ⟨rfl, rfl, rfl⟩
  obtain ⟨htec, hoff, hbus⟩ := hnote
  have hpassive : step = tecStep (decide ((chan v ch).can.tec > 127) || decide ((chan v ch).can.rec_ > 127)) k place dom n := by
    rw [hown]
    exact hstep
  have hlasts : (chan v ch).aborting = false := by rw [hown]; exact h.lasting
  have hend : canAttemptEnd ch (.error k place dom n) s = canAttemptError ch i k place dom n v := by
    unfold canAttemptEnd
    dsimp only
    rw [h.item]
    dsimp only
    rw [hv]
  have hkeptn : SettingsKept ch s (noteErr ch k (place == .dataPhase) v) := hkept.trans (settings_noteErr v k _)
  have herror : canAttemptError ch i k place dom n v =
      if (chan (modCan ch (erredCan step k) (noteErr ch k (place == .dataPhase) v)) ch).can.tec > 255
      then busOffEnter ch (onlyIf (chan v ch).aborting (canAborted ch i) (modCan ch (erredCan step k) (noteErr ch k (place == .dataPhase) v)))
      else if k = .ack ∧ (chan (modCan ch (erredCan step k) (noteErr ch k (place == .dataPhase) v)) ch).can.ackRun
          ≥ fld (modCan ch (erredCan step k) (noteErr ch k (place == .dataPhase) v)) (canAddr ch 0x100) 8 8 then
        channelEvent ch 0 (modChan ch (fun c => { c with st := if c.st = .draining then c.st else .alone })
          (canEnd ch i .noAck (modCan ch (erredCan step k) (noteErr ch k (place == .dataPhase) v))))
      else if onceOver (modCan ch (erredCan step k) (noteErr ch k (place == .dataPhase) v)) ch i then
        canEnd ch i .tooLate (modCan ch (erredCan step k) (noteErr ch k (place == .dataPhase) v))
      else if (chan v ch).aborting then canAborted ch i (modCan ch (erredCan step k) (noteErr ch k (place == .dataPhase) v))
      else modCan ch (erredCan step k) (noteErr ch k (place == .dataPhase) v) := by
    rw [hpassive]
    rfl
  generalize noteErr ch k (place == .dataPhase) v = y at hnoted hkeptn herror
  have hony : (chan y ch).st ≠ .off := by rw [hnoted]; exact honv
  have hownw := chan_modCan_on hony (erredCan step k)
  have hcany : (chan y ch).can = notedCan k (place == .dataPhase) (chan v ch).can := by rw [hnoted]
  refine ⟨modCan ch (erredCan step k) y, erredCan step k (chan y ch).can, ?_, ?_, ?_, ?_, hkeptn.trans (.of_regs rfl rfl rfl), fun hbig => ?_,
    fun hsmall hk hplain => ?_⟩
  · rw [hownw, hnoted, hown]
  · show (chan y ch).can.tec + step = _
    rw [hcany, htec]
  · show (chan y ch).can.busOff = _
    rw [hcany, hoff]
  · show (chan y ch).can.onBus = _
    rw [hcany, hbus]
  · rw [hend, herror, if_pos (by rw [hownw]; exact hbig), hlasts]
    rfl
  · rw [hend, herror, if_neg (by rw [hownw]; exact Nat.not_lt.mpr hsmall), if_neg (fun hall => hk hall.1), onceOver_plain hplain, hlasts]
    rfl

end

theorem busOffEnter_chan {ch : Nat} {s : State} (hch : ch < 128) (hon : (chan s ch).st ≠ .off) :
    (chan (busOffEnter ch s) ch).can = { (chan s ch).can with busOff := true, tec := 255, onBus := none }
    ∧ (chan (busOffEnter ch s) ch).txq = (chan s ch).txq ∧ (fld s (canAddr ch 0x100) 1 1 = 0 → (chan (busOffEnter ch s) ch).st = .disabled)
    ∧ (fld s (canAddr ch 0x100) 1 1 = 1 → (chan (busOffEnter ch s) ch).st = (chan s ch).st) := by
  have hown := chan_modCan_on hon (fun x => { x with busOff := true, tec := 255, onBus := none })
  unfold busOffEnter
  dsimp only
  generalize hv : modCan ch (fun x => { x with busOff := true, tec := 255, onBus := none }) s = v
  rw [hv] at hown
  have hcounted : SettingsKept ch v (bump (canAddr ch 0x1A0) v) := settings_bump (by decide)
  have hkept : SettingsKept ch s v := by rw [← hv]; exact .of_regs rfl rfl rfl
  have hfld : ∀ w, w = unitFault 0x0604 0 ch (bump (canAddr ch 0x1A0) v) → fld w (canAddr ch 0x100) 1 1 = fld s (canAddr ch 0x100) 1 1 ∧ chan w ch = chan v ch := by
    intro w hw
    rw [hw]
    refine ⟨((hkept.trans hcounted).trans (settings_unitFault hch _ _ _)).canCfg hch 1 1, ?_⟩
    exact chan_of_chans (s := v) (detect_chans (bump (canAddr ch 0x1A0) v) _ _) ch
  generalize unitFault 0x0604 0 ch (bump (canAddr ch 0x1A0) v) = w at hfld
  obtain ⟨hset, hsame⟩ := hfld w rfl
  rw [hset]
  split
  · next hauto =>
    rw [hsame, hown]
    exact ⟨rfl, rfl, fun h => absurd (h.symm.trans hauto) (by decide), fun _ => rfl⟩
  · next hman =>
    obtain ⟨-, hend⟩ := enterDisabled_chan (ch := ch) (s := w)
    rw [hend, hsame, hown]
    exact ⟨rfl, rfl, fun _ => rfl, fun h => absurd h hman⟩

theorem busOffRecovery_back {ch : Nat} {s : State} (hoff : (chan s ch).can.busOff = true) (hauto : fld s (canAddr ch 0x100) 1 1 = 1)
    (hon : (chan s ch).st ≠ .off) (honce : ∀ i ∈ (chan s ch).txq, isOnce i = false) : (∀ k, k ≠ ch → chan (busOffRecovery ch s) k = chan s k)
    ∧ chan (busOffRecovery ch s) ch = { chan s ch with can := { (chan s ch).can with busOff := false, tec := 0, rec_ := 0 } } := by
  unfold busOffRecovery
  rw [if_pos ⟨hoff, hauto⟩]
  generalize (List.range 128).any (fun i => i != ch && (chan s i).can.busOff) = others
  have hown := chan_modCan_on hon (fun x => { x with busOff := false, tec := 0, rec_ := 0 })
  generalize hv : modCan ch (fun x => { x with busOff := false, tec := 0, rec_ := 0 }) s = v at hown
  have hsame := chan_condEnd 0x0604 others v
  generalize condEnd 0x0604 others v = w at hsame
  rw [backToBus_none (by rw [hsame, hown]; exact honce)]
  exact ⟨fun k hk => by rw [hsame, ← hv, modCan_others hk], by rw [hsame, hown]⟩

/-! ## ONCE windows and requests -/

section
variable {ch : Nat} {s : State}

theorem onceWindowEnd_over {i : TxItem} {t : List TxItem} {r : Nat} (hpers : pers s ch = 3) (hst : (chan s ch).st ≠ .alone)
    (hon : (chan s ch).can.busOff = false) (hq : (chan s ch).txq = i :: t) (honce : isOnce i = true) (hrel : i.release = some r)
    (hbus : (chan s ch).can.onBus = none) (hpast : onGrid r + onceWin s ch * 1000 < nsNow s) :
    onceWindowEnd ch s = endItem ch i .tooLate s := by
  have hgone : onceGone s ch i = true := by
    unfold onceGone
    rw [honce, hbus, hrel]
    exact decide_eq_true hpast
  unfold onceWindowEnd
  dsimp only
  rw [if_neg (by rw [hpers, hon]; simpa using hst), hq, List.find?_cons_of_pos hgone]

theorem onceWindowEnd_alone (hst : (chan s ch).st = .alone) : onceWindowEnd ch s = s := by
  unfold onceWindowEnd
  exact if_pos (.inr (.inl hst))

theorem onceWindowEnd_empty (hq : (chan s ch).txq = []) : onceWindowEnd ch s = s := by
  unfold onceWindowEnd
  dsimp only
  split
  · rfl
  · rw [hq]
    rfl

theorem canReqTimeout_due {r : CanReq} {x : Cmd} (hon : (chan s ch).st ≠ .off) (hreqs : (chan s ch).can.reqs = [r]) (hleft : r.left = true)
    (hdue : r.startUp + r.timeoutMs * 2000 ≤ s.time.up) (hq : (chan s ch).txq = []) (hstalled : (chan s ch).stalled = [])
    (hin : s.cmd.inflight = [x]) (hse : x.session = r.session) (htag : x.tag = r.tag) (hphase : x.phase = .issued) :
    (chan (canReqTimeout ch s) ch).can.reqs = [] ∧ (canReqTimeout ch s).cmd.inflight = [{ x with phase := .ready .timeout [], effected := true }] := by
  have hlate : ((r.left || ((chan s ch).st == .joining || (chan s ch).st == .alone)) && decide (since r.startUp s ≥ r.timeoutMs * 2000)) = true := by
    rw [hleft, Bool.true_or, Bool.true_and]
    exact decide_eq_true (by unfold since; omega)
  have hfind : [r].find? (fun r => (r.left || ((chan s ch).st == .joining || (chan s ch).st == .alone))
      && decide (since r.startUp s ≥ r.timeoutMs * 2000)) = some r := List.find?_cons_of_pos hlate
  have hown := chan_modCan_on hon (fun x => { x with reqs := x.reqs.filter (fun q => !(q.session == r.session && q.tag == r.tag)) })
  unfold canReqTimeout
  dsimp only
  rw [hreqs, hfind]
  dsimp only
  generalize hv : modCan ch (fun x => { x with reqs := x.reqs.filter (fun q => !(q.session == r.session && q.tag == r.tag)) }) s = v at hown
  have hqueue : (chan v ch).txq = [] := by rw [hown]; exact hq
  have hwrites : (chan v ch).stalled = [] := by rw [hown]; exact hstalled
  have hgone : (chan v ch).can.reqs = [] := by
    rw [hown]
    dsimp only
    rw [hreqs]
    simp
  have hflight : v.cmd.inflight = [x] := by rw [← hv]; exact hin
  rw [hqueue, List.find?_nil]
  dsimp only
  rw [hwrites, List.find?_nil, ← hse, ← htag]
  refine ⟨hgone, ?_⟩
  rw [complete_alone hflight (by rw [isReady, hphase])]
  rfl

theorem canReqTimeout_early {r : CanReq} (hreqs : (chan s ch).can.reqs = [r]) (hearly : since r.startUp s < r.timeoutMs * 2000) :
    canReqTimeout ch s = s := by
  unfold canReqTimeout
  dsimp only
  rw [hreqs, List.find?_cons_of_neg (by simp only [Bool.and_eq_true, decide_eq_true_eq, not_and]; omega)]
  rfl

end

/-- Settles O54, by the frames received, the attempts, the error counters and the times of a CAN channel. -/
theorem canEvents : Obligations.CanEvents := by
  unfold Obligations.CanEvents
  refine fun ch s hawake hpers => ⟨fun hhears => ⟨?received, fun k dp n => ⟨_, commit_goOn s _, ?rxError⟩⟩, fun hdeaf record stamp k dp n => ?deaf,
    fun i h hchoice hhead hheadGood hgood hidle hbus hon hpend hsend => ⟨_, commit_goOn s _, ?starts⟩, fun hheld => effectIs_eq ?held, ?attempt,
    ?steps, fun hoff hauto hon honce => ⟨_, commit_goOn s _, ?recovers⟩, fun hon => effectIs_eq ?noRecovery, ?window, fun hq => effectIs_eq ?noWindow,
    fun r x hon hreqs hleft hdue hq hstalled hin hse htag hphase => ⟨_, commit_goOn s _, ?late⟩, fun r hreqs hearly => effectIs_eq ?early⟩
  all_goals have hfield : ∀ f : State → State, onField f s = f s := fun f => if_pos hawake
  case received =>
    intro record stamp hlen hfd hrec hreqs hpend hobjects honce
    obtain ⟨cs, idle, hown, hothers, hdone⟩ := canFrameRx_unclaimed (stamp := stamp) hpers hhears hlen hfd hrec hreqs hobjects honce
    have hon := canHears_on hhears
    have honw : (chan { s with chans := cs } ch.val).st ≠ .off := by
      rw [hown]
      unfold heardChan
      dsimp only
      split
      · decide
      · exact hon
    refine ⟨fun hall hfits => ⟨_, commit_goOn s _, ?_⟩, fun hsome => ⟨_, commit_goOn s _, ?_⟩⟩
    · dsimp only
      rw [hfield, hdone, if_pos hall]
      obtain ⟨hplaced, hkeep⟩ := storeRx_placed (bs := setAt record 5 0xFF) (stamp := stamp) honw (by rw [hown]; exact hpend)
        (by rw [rxFits_heard hown hothers]; exact hfits)
      rw [hplaced, hown]
      exact ⟨rfl, rfl, rfl, rfl, fun k hk => (hkeep k hk).trans (hothers k hk)⟩
    · dsimp only
      rw [hfield, hdone, if_neg (by rw [hsome]; decide)]
      have hsame : ∀ k, chan (bump (canAddr ch.val 0x1A4) { s with chans := cs }) k = chan { s with chans := cs } k := fun _ => rfl
      rw [hsame, hown]
      exact ⟨rfl, rfl, fun k hk => (hsame k).trans (hothers k hk)⟩
  case rxError =>
    dsimp only
    rw [hfield]
    obtain ⟨hothers, hown⟩ := canReceiveError_counts (k := k) (dp := dp) (n := n) hpers hhears
    rw [hown]
    cases dp
    · exact ⟨rfl, rfl, rfl, rfl, rfl, rfl, hothers⟩
    · exact ⟨rfl, rfl, rfl, rfl, rfl, rfl, hothers⟩
  case deaf =>
    refine ⟨effectIs_eq ((hfield _).trans ?_), effectIs_eq ((hfield _).trans ?_)⟩
    · unfold canFrameRx
      exact if_pos (.inr (by rw [hdeaf]; rfl))
    · unfold canReceiveError
      exact if_neg fun hall => Bool.false_ne_true (hdeaf.symm.trans hall.2)
  case starts =>
    dsimp only
    rw [hfield, releaseItem_can hpers, canOffer_starts hpers hchoice hhead hheadGood hgood hidle hbus hon hpend hsend]
    obtain ⟨hothers, hown⟩ := canStart_chan i (sending_on hsend)
    rw [hown]
    exact ⟨rfl, rfl, rfl, rfl, hothers⟩
  case held => exact (hfield _).trans ((releaseItem_can hpers).trans (canOffer_held hheld))
  case attempt =>
    intro i t hq hbus hlater hst hlasting
    have h : OnBus s ch.val i t := ⟨ch.isLt, hpers, hq, hbus, hlater, hst, hlasting⟩
    have hrun : ∀ how, (if fieldAwake s || (chan s ch.val).can.onBus.isSome then canAttemptEnd ch.val how s else s) = canAttemptEnd ch.val how s :=
      fun how => if_pos (by rw [hawake]; rfl)
    refine ⟨fun ns x hprod hin hphase => ⟨_, commit_goOn s _, ?_⟩, fun hplain => ⟨_, commit_goOn s _, ?_⟩, fun k place dom n step hstep => ?_⟩
    · dsimp only
      rw [hrun]
      exact h.left hprod hin hphase
    · dsimp only
      rw [hrun]
      exact h.arbLost hplain
    · obtain ⟨w, x, hown, htec, hoff, hfree, hkept, hbig, hsmall⟩ := h.erred k place dom n step hstep
      refine ⟨fun hk hlow hplain => ⟨_, commit_goOn s _, ?_⟩, fun hhigh => ⟨_, commit_goOn s _, ?_⟩⟩
      · dsimp only
        rw [hrun, hsmall (by rw [htec]; exact hlow) hk hplain, hown]
        exact ⟨hq, htec, hoff, hst, hfree⟩
      · dsimp only
        rw [hrun, hbig (by rw [htec]; exact hhigh)]
        obtain ⟨hcan, hqueue, hman, hauto⟩ := busOffEnter_chan (s := w) ch.isLt (by rw [hown, hst]; decide)
        rw [hcan, hqueue, hown]
        rw [hkept.canCfg ch.isLt] at hman hauto
        exact ⟨rfl, rfl, hq, hman, fun h1 => (hauto h1).trans (by rw [hown]; exact hst)⟩
  case steps =>
    refine fun k dom => ⟨?_, rfl, rfl, fun passive => rfl⟩
    unfold tecStep
    rw [if_neg (by rintro (⟨-, h, -⟩ | ⟨-, h⟩) <;> cases h)]
  case recovers =>
    dsimp only
    rw [hfield]
    obtain ⟨hothers, hown⟩ := busOffRecovery_back hoff hauto hon honce
    rw [hown]
    exact ⟨rfl, rfl, rfl, rfl, hothers⟩
  case noRecovery =>
    refine (hfield _).trans ?_
    unfold busOffRecovery
    exact if_neg fun hall => Bool.false_ne_true (hon.symm.trans hall.1)
  case window =>
    intro i t r hq hlater honce hrel hprod hpast hbus hpend hwaits hon hst
    refine ⟨fun halone => ⟨_, commit_goOn s _, ?_⟩, fun halone => effectIs_eq ((hfield _).trans (onceWindowEnd_alone halone))⟩
    dsimp only
    rw [hfield, onceWindowEnd_over hpers halone hon hq honce hrel hbus hpast]
    obtain ⟨hqueue, hrpt, hothers, -, -⟩ := headEnds ch.isLt hst hq hlater hpend hwaits .tooLate
    exact ⟨hqueue, hrpt, hothers⟩
  case noWindow => exact (hfield _).trans (onceWindowEnd_empty hq)
  case late =>
    dsimp only
    rw [hfield]
    exact canReqTimeout_due hon hreqs hleft hdue hq hstalled hin hse htag hphase
  case early => exact (hfield _).trans (canReqTimeout_early hreqs hearly)

end Sys2Proof.Proofs
end

section
/-! The Modbus RTU master service (R237, R240 to R242, R246). -/

namespace Sys2Proof.Proofs

open Sys2Proof Sys2Proof.Machine Sys2Proof.Laws

/-! ## The bytes of a frame -/

theorem reflect_lt (w v : Nat) : reflect w v < 2 ^ w := by
  have hfold : ∀ n, (List.range n).foldl (fun acc i => acc * 2 + bits v i 1) 0 < 2 ^ n := by
    intro n
    induction n with
    | zero => exact Nat.one_pos
    | succ n ih =>
      have hbit : bits v n 1 < 2 := Nat.mod_lt _ (by decide)
      rw [List.range_succ, List.foldl_append, List.foldl_cons, List.foldl_nil, Nat.pow_succ]
      omega
  exact hfold w

theorem crcModbus_lt (bs : List Byte) : crcModbus bs < 2 ^ 16 := by
  show Nat.xor (reflect 16 _) 0 < 2 ^ 16
  have hzero : ∀ n : Nat, Nat.xor n 0 = n := Nat.xor_zero
  rw [hzero]
  exact reflect_lt 16 _

/-- What a frame whose CRC was sent after it reads. -/
theorem sealed_crc (head : List Byte) : rd (head ++ leBytes 2 (crcModbus head)) ((head ++ leBytes 2 (crcModbus head)).length - 2) 2
    = crcModbus ((head ++ leBytes 2 (crcModbus head)).take ((head ++ leBytes 2 (crcModbus head)).length - 2)) := by
  have hlen : (head ++ leBytes 2 (crcModbus head)).length - 2 = head.length := by rw [List.length_append, length_leBytes, Nat.add_sub_cancel]
  rw [hlen, List.take_left, rd_append_right _ _ _ _ (Nat.le_refl _), Nat.sub_self, rd_leBytes]
  exact Nat.mod_eq_of_lt (crcModbus_lt head)

theorem rd_byte {n : Nat} (h : n < 256) (t : List Byte) : rd (BitVec.ofNat 8 n :: t) 0 1 = n := by
  rw [rd_cons_byte, BitVec.toNat_ofNat]
  exact Nat.mod_eq_of_lt h

/-! ## What a channel of the service reads back -/

section
variable {ch : Nat} {s : State}

theorem chan_modMb_on (hon : (chan s ch).st ≠ .off) (f : MbState → MbState) :
    chan (modMb ch f s) ch = { chan s ch with mb := f (chan s ch).mb } := chan_modChan_on (s := s) hon

theorem modMb_others {k : Nat} (hk : k ≠ ch) (f : MbState → MbState) : chan (modMb ch f s) k = chan s k := chan_modChan_other s ch k _ hk

/-- The service runs on a channel that hears. -/
structure Master (s : State) (ch : Nat) : Prop where
  service : mbOn s ch = true
  hears : serialHears s ch = true

theorem Master.on (h : Master s ch) : (chan s ch).st ≠ .off := serialHears_on h.hears

theorem Master.runs (h : Master s ch) : (!mbOn s ch || !serialHears s ch) = false := by rw [h.service, h.hears]; rfl

theorem Master.joined (h : Master s ch) : (chan s ch).st ≠ .joining := fun hst => by
  have hhears := h.hears
  simp [serialHears, hst] at hhears

/-- The exchange that a request opens. -/
def sentExchange (s : State) (ch : Nat) (user : MbUser) (r : MbReq) : MbExchange :=
  { user := user, slave := r.slave, func := r.func, request := mbBytes r, addr := r.addr, qty := r.qty, timeoutMs := (mbTimes s ch r.slave).1
    retries := if r.slave = 0 then 0 else (mbTimes s ch r.slave).2, startUp := s.time.up, broadcast := r.slave == 0, sent := true }

theorem mbSend_chan (hon : (chan s ch).st ≠ .off) (user : MbUser) (r : MbReq) : (∀ k, k ≠ ch → chan (mbSend ch user r s) k = chan s k)
    ∧ chan (mbSend ch user r s) ch = { chan s ch with mb := { (chan s ch).mb with exchange := some (sentExchange s ch user r) } }
    ∧ (mbSend ch user r s).cmd = s.cmd := by
  have hsend : mbSend ch user r s = bump (chnAddr ch 0x280) (modMb ch (fun m => { m with exchange := some (sentExchange s ch user r) }) s) := rfl
  have hchans : (mbSend ch user r s).chans = (modMb ch (fun m => { m with exchange := some (sentExchange s ch user r) }) s).chans := by rw [hsend]; rfl
  exact ⟨fun k hk => (chan_of_chans hchans k).trans (modMb_others hk _), (chan_of_chans hchans ch).trans (chan_modMb_on hon _), by rw [hsend]; rfl⟩

/-! ## Starting (R237, R244, R246) -/

theorem mbRequestStart_txn (h : Master s ch) (hfree : (chan s ch).mb.exchange = none) (hround : (chan s ch).mb.round = [])
    (hopen : lockedBy s ch = none) : mbRequestStart ch s = startTxn ch s := by
  unfold mbRequestStart
  dsimp only
  rw [h.runs, hfree, hopen, hround]
  rfl

theorem startTxn_first {x : Cmd} {t : List (Nat × Tag)} (h : Master s ch) (hwait : (chan s ch).mb.waiting = (x.session, x.tag) :: t)
    (hin : s.cmd.inflight = [x]) : (∀ k, k ≠ ch → chan (startTxn ch s) k = chan s k)
    ∧ chan (startTxn ch s) ch = { chan s ch with mb := { (chan s ch).mb with
        waiting := t, pollLast := false, exchange := some (sentExchange s ch (.txn x.session x.tag) (mbReqOf x.opcode x.params)) } }
    ∧ (startTxn ch s).cmd = s.cmd := by
  generalize hv : modMb ch (fun m => { m with waiting := t, pollLast := false }) s = v
  have hown : chan v ch = { chan s ch with mb := { (chan s ch).mb with waiting := t, pollLast := false } } := by
    rw [← hv]; exact chan_modMb_on h.on _
  have hothers : ∀ k, k ≠ ch → chan v k = chan s k := fun k hk => by rw [← hv]; exact modMb_others hk _
  have hcmd : v.cmd = s.cmd := by rw [← hv]; rfl
  have hsame : sentExchange v ch (.txn x.session x.tag) (mbReqOf x.opcode x.params) = sentExchange s ch (.txn x.session x.tag) (mbReqOf x.opcode x.params) := by
    rw [← hv]; rfl
  have hfind : cmdOf v x.session x.tag = some x := by
    unfold cmdOf
    rw [hcmd, hin]
    exact List.find?_cons_of_pos (by rw [beq_self_eq_true, beq_self_eq_true]; rfl)
  have hstart : startTxn ch s = mbSend ch (.txn x.session x.tag) (mbReqOf x.opcode x.params) v := by
    unfold startTxn
    rw [hwait]
    dsimp only
    rw [hv, hfind]
  obtain ⟨hsend, hsendOwn, hsendCmd⟩ := mbSend_chan (s := v) (ch := ch) (by rw [hown]; exact h.on) (.txn x.session x.tag) (mbReqOf x.opcode x.params)
  rw [hstart]
  exact ⟨fun k hk => (hsend k hk).trans (hothers k hk), by rw [hsendOwn, hown, hsame], hsendCmd.trans hcmd⟩

theorem mbRequestStart_poll {e : RoundEntry} {t : List RoundEntry} {p : Poll} (h : Master s ch) (hfree : (chan s ch).mb.exchange = none)
    (hround : (chan s ch).mb.round = e :: t) (hwait : (chan s ch).mb.waiting = []) (hopen : lockedBy s ch = none)
    (hpoll : (polls s ch)[e.entry]? = some p) (hheld : e.held = false) :
    (∀ k, k ≠ ch → chan (mbRequestStart ch s) k = chan s k) ∧ ∃ y, y.user = .poll e.entry ∧ y.request = mbBytes (pollReq p e.data) ∧ y.sent = true
      ∧ chan (mbRequestStart ch s) ch = { chan s ch with mb := { (chan s ch).mb with round := t, pollLast := true, exchange := some y } } := by
  generalize hv : modMb ch (fun m => { m with round := t }) s = v
  generalize hw : modMb ch (fun m => { m with pollLast := true }) v = w
  have hown : chan v ch = { chan s ch with mb := { (chan s ch).mb with round := t } } := by rw [← hv]; exact chan_modMb_on h.on _
  have honv : (chan v ch).st ≠ .off := by rw [hown]; exact h.on
  have hownw : chan w ch = { chan s ch with mb := { (chan s ch).mb with round := t, pollLast := true } } := by
    rw [← hw, chan_modMb_on honv, hown]
  have hothers : ∀ k, k ≠ ch → chan w k = chan s k := fun k hk => by rw [← hw, modMb_others hk, ← hv, modMb_others hk]
  have hpollv : (polls v ch)[e.entry]? = some p := by rw [← hv]; exact hpoll
  have hstart : mbRequestStart ch s = mbSend ch (.poll e.entry) (pollReq p e.data) w := by
    unfold mbRequestStart
    dsimp only
    rw [h.runs, hfree, hopen, hround, hwait]
    show startPoll ch (t.length + 1) s = _
    unfold startPoll
    rw [hround]
    dsimp only
    rw [hv, hpollv, hheld, ← hw]
    rfl
  obtain ⟨hsend, hsendOwn, -⟩ := mbSend_chan (s := w) (ch := ch) (by rw [hownw]; exact h.on) (.poll e.entry) (pollReq p e.data)
  rw [hstart]
  exact ⟨fun k hk => (hsend k hk).trans (hothers k hk), sentExchange w ch (.poll e.entry) (pollReq p e.data), rfl, rfl, rfl, by rw [hsendOwn, hownw]⟩

theorem mbRequestStart_retry {e : MbExchange} (h : Master s ch) (hex : (chan s ch).mb.exchange = some e) (hunsent : e.sent = false) :
    (∀ k, k ≠ ch → chan (mbRequestStart ch s) k = chan s k) ∧ (mbRequestStart ch s).cmd = s.cmd
    ∧ chan (mbRequestStart ch s) ch = { chan s ch with mb := { (chan s ch).mb with exchange := some { e with sent := true, startUp := s.time.up } } } := by
  have hstart : mbRequestStart ch s = bump (chnAddr ch 0x284) (bump (chnAddr ch 0x280)
      (modMb ch (fun m => { m with exchange := some { e with sent := true, startUp := s.time.up } }) s)) := by
    unfold mbRequestStart
    dsimp only
    rw [h.runs, hex]
    dsimp only
    rw [hunsent]
    rfl
  have hchans : (mbRequestStart ch s).chans = (modMb ch (fun m => { m with exchange := some { e with sent := true, startUp := s.time.up } }) s).chans := by
    rw [hstart]; rfl
  exact ⟨fun k hk => (chan_of_chans hchans k).trans (modMb_others hk _), by rw [hstart]; rfl, (chan_of_chans hchans ch).trans (chan_modMb_on h.on _)⟩

theorem mbRequestStart_sent {e : MbExchange} (h : Master s ch) (hex : (chan s ch).mb.exchange = some e) (hsent : e.sent = true) :
    mbRequestStart ch s = s := by
  unfold mbRequestStart
  dsimp only
  rw [h.runs, hex]
  dsimp only
  rw [hsent]
  rfl

/-! ## The end of an exchange (R241, R242) -/

/-- The status and results that an exchange gives its transaction. -/
def endAnswer : MbEnd → Status × List Byte
  | .ok d => (.ok, d)
  | .exception c => (.farError, [BitVec.ofNat 8 c])
  | .timeout => (.timeout, [])

/-- The exchange of one transaction stands, its command alone in flight. -/
structure Exchanging (s : State) (ch : Nat) (e : MbExchange) (x : Cmd) : Prop where
  exchange : (chan s ch).mb.exchange = some e
  user : e.user = .txn x.session x.tag
  inflight : s.cmd.inflight = [x]
  phase : x.phase = .issued

/-- What the end of the exchange leaves: nothing stands, the command has its answer, and no other channel moved. -/
structure Answered (s u : State) (ch : Nat) (x : Cmd) (st : Status) (res : List Byte) : Prop where
  exchange : (chan u ch).mb.exchange = none
  inflight : u.cmd.inflight = [{ x with phase := .ready st res, effected := true }]
  others : ∀ k, k ≠ ch → chan u k = chan s k

theorem mbFinish_answers {e : MbExchange} {x : Cmd} {v : State} (h : Exchanging s ch e x) (hon : (chan s ch).st ≠ .off) (hchans : v.chans = s.chans)
    (hcmd : v.cmd = s.cmd) (how : MbEnd) (stamp : Nat) : Answered s (mbFinish ch e how stamp v) ch x (endAnswer how).1 (endAnswer how).2 := by
  have honv : (chan v ch).st ≠ .off := by rw [chan_of_chans hchans]; exact hon
  generalize hw : modMb ch (fun m => { m with exchange := none }) v = w
  have hown : (chan w ch).mb.exchange = none := by rw [← hw, chan_modMb_on honv]
  have hothers : ∀ k, k ≠ ch → chan w k = chan s k := fun k hk => by rw [← hw, modMb_others hk]; exact chan_of_chans hchans k
  have hflight : w.cmd.inflight = [x] := by rw [← hw]; exact (congrArg CmdState.inflight hcmd).trans h.inflight
  have hend : ∃ y : State, y.chans = w.chans ∧ y.cmd = w.cmd
      ∧ mbFinish ch e how stamp v = complete x.session x.tag (endAnswer how).1 (endAnswer how).2 y := by
    unfold mbFinish
    dsimp only
    rw [hw, h.user]
    cases how with
    | ok d => exact ⟨w, rfl, rfl, rfl⟩
    | exception c => exact ⟨bump (chnAddr ch 0x28C) w, rfl, rfl, rfl⟩
    | timeout => exact ⟨bump (chnAddr ch 0x288) w, rfl, rfl, rfl⟩
  obtain ⟨y, hyc, hycmd, hy⟩ := hend
  have hflighty : y.cmd.inflight = [x] := (congrArg CmdState.inflight hycmd).trans hflight
  rw [hy, complete_alone hflighty (by rw [isReady, h.phase])]
  refine ⟨?_, rfl, fun k hk => ?_⟩
  · exact (congrArg (fun c : Chan => c.mb.exchange) (chan_of_chans (s := w) hyc ch)).trans hown
  · exact (chan_of_chans (s := w) hyc k).trans (hothers k hk)

theorem mbFail_spent {e : MbExchange} (hspent : e.retries = 0) (how : MbEnd) (stamp : Nat) (v : State) :
    mbFail ch e how stamp v = mbFinish ch e how stamp v := by
  unfold mbFail
  exact if_neg (by omega)

theorem mbFail_retries {e : MbExchange} {v : State} (hon : (chan s ch).st ≠ .off) (hchans : v.chans = s.chans) (hmore : 0 < e.retries)
    (how : MbEnd) (stamp : Nat) : (mbFail ch e how stamp v).cmd = v.cmd
    ∧ (chan (mbFail ch e how stamp v) ch).mb.exchange = some { e with retries := e.retries - 1, sent := false }
    ∧ ∀ k, k ≠ ch → chan (mbFail ch e how stamp v) k = chan s k := by
  have hsame := chan_of_chans hchans
  unfold mbFail
  rw [if_pos hmore]
  refine ⟨rfl, ?_, fun k hk => (modMb_others hk _).trans (hsame k)⟩
  rw [chan_modMb_on (by rw [hsame]; exact hon)]

/-! ## Replies (R240) -/

/-- A frame after a request that is out, on time. -/
theorem mbReplyRx_checked {e : MbExchange} {bs : List Byte} (h : Master s ch) (hex : (chan s ch).mb.exchange = some e) (hsent : e.sent = true)
    (huni : e.broadcast = false) (stamp : Nat) : mbReplyRx ch bs false stamp s =
      if bs.length < 4 ∨ rd bs (bs.length - 2) 2 ≠ crcModbus (bs.take (bs.length - 2)) then mbFail ch e .timeout stamp (bump (chnAddr ch 0x290) s)
      else if rd bs 0 1 ≠ e.slave then bump (chnAddr ch 0x298) s
      else match mbJudge e bs with
        | none => mbFail ch e .timeout stamp (bump (chnAddr ch 0x294) s)
        | some (.exception 6) => mbFail ch e (.exception 6) stamp (bump (chnAddr ch 0x84) s)
        | some how => mbFinish ch e how stamp (bump (chnAddr ch 0x84) s) := by
  unfold mbReplyRx
  rw [h.runs, hex]
  dsimp only
  rw [hsent, huni]
  rfl

theorem mbReplyRx_unasked {bs : List Byte} {gap : Bool} (h : Master s ch) (hfree : (chan s ch).mb.exchange = none) (stamp : Nat) :
    mbReplyRx ch bs gap stamp s = bump (chnAddr ch 0x298) s := by
  unfold mbReplyRx
  rw [h.runs, hfree]
  rfl

theorem mbReplyRx_judged {e : MbExchange} {head : List Byte} {how : MbEnd} (h : Master s ch) (hex : (chan s ch).mb.exchange = some e)
    (hsent : e.sent = true) (huni : e.broadcast = false) (hlen : 2 ≤ head.length) (hslave : rd head 0 1 = e.slave)
    (hjudge : mbJudge e (head ++ leBytes 2 (crcModbus head)) = some how) (hhow : how ≠ .exception 6) (stamp : Nat) :
    mbReplyRx ch (head ++ leBytes 2 (crcModbus head)) false stamp s = mbFinish ch e how stamp (bump (chnAddr ch 0x84) s) := by
  have hwhole : ¬ ((head ++ leBytes 2 (crcModbus head)).length < 4 ∨ rd (head ++ leBytes 2 (crcModbus head)) ((head ++ leBytes 2 (crcModbus head)).length - 2) 2
      ≠ crcModbus ((head ++ leBytes 2 (crcModbus head)).take ((head ++ leBytes 2 (crcModbus head)).length - 2))) := by
    rintro (hshort | hbad)
    · rw [List.length_append, length_leBytes] at hshort
      omega
    · exact hbad (sealed_crc head)
  rw [mbReplyRx_checked h hex hsent huni, if_neg hwhole, if_neg (by rw [rd_append_left _ _ _ _ (by omega)]; exact not_not_intro hslave), hjudge]
  split
  · next heq => cases heq
  · next heq => exact absurd (Option.some.inj heq) hhow
  · next heq => rw [Option.some.inj heq]

theorem rd_second {a b : Nat} (hb : b < 256) (t : List Byte) : rd (BitVec.ofNat 8 a :: BitVec.ofNat 8 b :: t) 1 1 = b :=
  (rd_cons_succ _ _ 0 1).trans (rd_byte hb t)

/-- A reply with registers is judged by its byte count. -/
theorem mbJudge_registers {e : MbExchange} {d : List Byte} (hfunc : e.func = 3 ∨ e.func = 4 ∨ e.func = 23) (hlen : d.length = 2 * e.qty)
    (hqty : e.qty < 128) (tail : List Byte) (htail : tail.length = 2) : mbJudge e
      (([BitVec.ofNat 8 e.slave, BitVec.ofNat 8 e.func, BitVec.ofNat 8 (2 * e.qty)] ++ d) ++ tail) = some (.ok (swapPairs d)) := by
  have hcode : rd (([BitVec.ofNat 8 e.slave, BitVec.ofNat 8 e.func, BitVec.ofNat 8 (2 * e.qty)] ++ d) ++ tail) 1 1 = e.func := rd_second (by omega) _
  have hcount : rd (([BitVec.ofNat 8 e.slave, BitVec.ofNat 8 e.func, BitVec.ofNat 8 (2 * e.qty)] ++ d) ++ tail) 2 1 = 2 * e.qty := rd_byte (by omega) _
  have hslice : slice (([BitVec.ofNat 8 e.slave, BitVec.ofNat 8 e.func, BitVec.ofNat 8 (2 * e.qty)] ++ d) ++ tail) 3 (2 * e.qty) = d := by
    rw [List.append_assoc]
    exact slice_append_prefix _ _ _ _ _ rfl hlen
  have htotal : (([BitVec.ofNat 8 e.slave, BitVec.ofNat 8 e.func, BitVec.ofNat 8 (2 * e.qty)] ++ d) ++ tail).length = 5 + 2 * e.qty := by
    rw [List.length_append, List.length_append, hlen, htail]
    show 3 + 2 * e.qty + 2 = _
    omega
  generalize (([BitVec.ofNat 8 e.slave, BitVec.ofNat 8 e.func, BitVec.ofNat 8 (2 * e.qty)] ++ d) ++ tail) = bs at *
  have hregisters : (if bs.length = 5 + 2 * e.qty ∧ rd bs 2 1 = 2 * e.qty then some (MbEnd.ok (swapPairs (slice bs 3 (2 * e.qty)))) else none)
      = some (.ok (swapPairs d)) := by rw [if_pos ⟨htotal, hcount⟩, hslice]
  unfold mbJudge
  dsimp only
  rw [hcode, if_neg (by omega), if_neg (by simp)]
  obtain h | h | h := hfunc
  · rw [h]
    exact hregisters
  · rw [h]
    exact hregisters
  · rw [h]
    exact hregisters

theorem mbJudge_exception {e : MbExchange} {code : Byte} (hhigh : e.func ≤ 23) (tail : List Byte) (htail : tail.length = 2) :
    mbJudge e ([BitVec.ofNat 8 e.slave, BitVec.ofNat 8 (e.func + 0x80), code] ++ tail) = some (.exception code.toNat) := by
  have hcode : rd ([BitVec.ofNat 8 e.slave, BitVec.ofNat 8 (e.func + 0x80), code] ++ tail) 1 1 = e.func + 0x80 := rd_second (by omega) _
  have hwhich : rd ([BitVec.ofNat 8 e.slave, BitVec.ofNat 8 (e.func + 0x80), code] ++ tail) 2 1 = code.toNat := rd_cons_byte code tail
  have htotal : ([BitVec.ofNat 8 e.slave, BitVec.ofNat 8 (e.func + 0x80), code] ++ tail).length = 5 := by
    rw [List.length_append, htail]
    rfl
  unfold mbJudge
  dsimp only
  rw [hcode, if_pos rfl, if_pos htotal, hwhich]

/-! ## Times (R241, R242) -/

theorem mbResponseTimeout_due {e : MbExchange} (h : Master s ch) (hex : (chan s ch).mb.exchange = some e) (hsent : e.sent = true)
    (huni : e.broadcast = false) (hdue : afterRequest s ch e (e.timeoutMs * 2000) ≤ s.time.up) :
    ∃ n, mbResponseTimeout ch s = mbFail ch e .timeout n s := by
  refine ⟨tickNow s - (s.time.up - afterRequest s ch e (e.timeoutMs * 2000)), ?_⟩
  unfold mbResponseTimeout
  rw [h.service, if_neg (by decide), if_neg h.joined, hex]
  dsimp only
  rw [hsent, huni, decide_eq_true hdue]
  rfl

theorem mbResponseTimeout_early {e : MbExchange} (h : Master s ch) (hex : (chan s ch).mb.exchange = some e)
    (hearly : s.time.up < afterRequest s ch e (e.timeoutMs * 2000)) : mbResponseTimeout ch s = s := by
  unfold mbResponseTimeout
  rw [h.service, if_neg (by decide), if_neg h.joined, hex]
  dsimp only
  exact if_neg (by simp only [Bool.and_eq_true, decide_eq_true_eq, not_and]; omega)

theorem mbBroadcastEnd_due {e : MbExchange} (h : Master s ch) (hex : (chan s ch).mb.exchange = some e) (hall : e.broadcast = true)
    (hdue : afterRequest s ch e (fld s (chnAddr ch 0x200) 16 10 * 2000) ≤ s.time.up) :
    mbBroadcastEnd ch s = mbFinish ch e (.ok []) (tickNow s) s := by
  unfold mbBroadcastEnd
  rw [h.service, if_neg (by decide), hex]
  dsimp only
  rw [hall, decide_eq_true hdue]
  rfl

theorem mbBroadcastEnd_early {e : MbExchange} (h : Master s ch) (hex : (chan s ch).mb.exchange = some e)
    (hearly : s.time.up < afterRequest s ch e (fld s (chnAddr ch 0x200) 16 10 * 2000)) : mbBroadcastEnd ch s = s := by
  unfold mbBroadcastEnd
  rw [h.service, if_neg (by decide), hex]
  dsimp only
  exact if_neg (by simp only [Bool.and_eq_true, decide_eq_true_eq, not_and]; omega)

end

/-- Settles O55, by the start, the reply, the failed attempt and the time of an exchange. -/
theorem modbusEvents : Obligations.ModbusEvents := by
  unfold Obligations.ModbusEvents
  intro ch s hawake hservice hhears
  have h : Master s ch.val := ⟨hservice, hhears⟩
  have hfield : ∀ f : State → State, onField f s = f s := fun f => if_pos hawake
  refine ⟨fun x t hfree hround hopen hin hwait => ⟨_, commit_goOn s _, ?txn⟩, fun e t p hfree hround hwait hopen hpoll hheld => ⟨_, commit_goOn s _, ?poll⟩,
    fun hfree hround hwait hopen => effectIs_eq ((hfield _).trans ?nothing), fun e hex hunsent => ⟨_, commit_goOn s _, ?retry⟩,
    fun e hex hsent => effectIs_eq ((hfield _).trans (mbRequestStart_sent h hex hsent)),
    fun bs gap stamp hfree => effectIs_eq ((hfield _).trans (mbReplyRx_unasked h hfree stamp)), fun e x hex hsent huni huser hin hphase stamp => ?replies,
    fun e x hex hall huser hin hphase => ⟨fun hdue => ⟨_, commit_goOn s _, ?broadcast⟩,
      fun hearly => effectIs_eq ((hfield _).trans (mbBroadcastEnd_early h hex hearly))⟩⟩
  case txn =>
    dsimp only
    rw [hfield, mbRequestStart_txn h hfree hround hopen]
    obtain ⟨hothers, hown, hcmd⟩ := startTxn_first h hwait hin
    rw [hown]
    exact ⟨rfl, rfl, by rw [hcmd, hin], rfl, hothers⟩
  case poll =>
    dsimp only
    rw [hfield]
    obtain ⟨hothers, y, huser, hreq, hsent, hown⟩ := mbRequestStart_poll h hfree hround hwait hopen hpoll hheld
    rw [hown]
    exact ⟨rfl, rfl, ⟨y, rfl, huser, hreq, hsent⟩, hothers⟩
  case nothing =>
    rw [mbRequestStart_txn h hfree hround hopen, startTxn, hwait]
  case retry =>
    dsimp only
    rw [hfield]
    obtain ⟨hothers, hcmd, hown⟩ := mbRequestStart_retry h hex hunsent
    rw [hown]
    exact ⟨rfl, rfl, rfl, hcmd, hothers⟩
  case replies =>
    have hexch : Exchanging s ch.val e x := ⟨hex, huser, hin, hphase⟩
    have hcrc : ∀ head : List Byte, (leBytes 2 (crcModbus head)).length = 2 := fun head => length_leBytes _ _
    refine ⟨fun d hfunc hlen hqty hslave head hhead => ⟨_, commit_goOn s _, ?_⟩, fun code hlow hhigh hcode hslave head hhead => ⟨_, commit_goOn s _, ?_⟩,
      fun bs hbad => ⟨fun hmore => ⟨_, commit_goOn s _, ?_⟩, fun hspent => ⟨_, commit_goOn s _, ?_⟩⟩,
      fun hdue hspent => ⟨_, commit_goOn s _, ?_⟩, fun hearly => effectIs_eq ((hfield _).trans (mbResponseTimeout_early h hex hearly))⟩
    · have hjudge : mbJudge e (head ++ leBytes 2 (crcModbus head)) = some (.ok (swapPairs d)) := by
        have hmeant := mbJudge_registers hfunc hlen hqty (leBytes 2 (crcModbus head)) (hcrc head)
        rwa [← hhead] at hmeant
      dsimp only
      rw [hfield, mbReplyRx_judged h hex hsent huni (by rw [hhead]; simp) (by rw [hhead]; exact rd_byte hslave _) hjudge (fun hex => MbEnd.noConfusion hex)]
      obtain ⟨hnone, hflight, hothers⟩ := mbFinish_answers (v := bump (chnAddr ch.val 0x84) s) hexch h.on rfl rfl (.ok (swapPairs d)) stamp
      exact ⟨hnone, hflight, hothers⟩
    · have hjudge : mbJudge e (head ++ leBytes 2 (crcModbus head)) = some (.exception code.toNat) := by
        have hmeant := mbJudge_exception (e := e) (code := code) hhigh (leBytes 2 (crcModbus head)) (hcrc head)
        rwa [← hhead] at hmeant
      have hother : MbEnd.exception code.toNat ≠ .exception 6 := fun heq =>
        hcode (BitVec.eq_of_toNat_eq (MbEnd.exception.inj heq))
      dsimp only
      rw [hfield, mbReplyRx_judged h hex hsent huni (by rw [hhead]; simp) (by rw [hhead]; exact rd_byte hslave _) hjudge hother]
      obtain ⟨hnone, hflight, hothers⟩ := mbFinish_answers (v := bump (chnAddr ch.val 0x84) s) hexch h.on rfl rfl (.exception code.toNat) stamp
      refine ⟨hnone, hflight.trans ?_, hothers⟩
      rw [endAnswer, BitVec.ofNat_toNat, BitVec.setWidth_eq]
    · dsimp only
      rw [hfield, mbReplyRx_checked h hex hsent huni, if_pos hbad]
      obtain ⟨hcmd, hnext, hothers⟩ := mbFail_retries (v := bump (chnAddr ch.val 0x290) s) h.on rfl hmore .timeout stamp
      exact ⟨hcmd, hnext, hothers⟩
    · dsimp only
      rw [hfield, mbReplyRx_checked h hex hsent huni, if_pos hbad, mbFail_spent hspent]
      obtain ⟨hnone, hflight, hothers⟩ := mbFinish_answers (v := bump (chnAddr ch.val 0x290) s) hexch h.on rfl rfl .timeout stamp
      exact ⟨hnone, hflight, hothers⟩
    · obtain ⟨n, hn⟩ := mbResponseTimeout_due h hex hsent huni hdue
      rw [hfield, hn, mbFail_spent hspent]
      obtain ⟨hnone, hflight, hothers⟩ := mbFinish_answers hexch h.on rfl rfl .timeout n
      exact ⟨hnone, hflight, hothers⟩
  case broadcast =>
    dsimp only
    rw [hfield, mbBroadcastEnd_due h hex hall hdue]
    obtain ⟨hnone, hflight, hothers⟩ := mbFinish_answers ⟨hex, huser, hin, hphase⟩ h.on rfl rfl (.ok []) (tickNow s)
    exact ⟨hnone, hflight, hothers⟩

end Sys2Proof.Proofs
end

section
/-! The IO-Link master port (R247 to R256). -/

namespace Sys2Proof.Proofs

open Sys2Proof Sys2Proof.Machine Sys2Proof.Laws

/-! ## Packets of the RX queue -/

/-- Between the states only the RX queue of channel `ch`, its sequence and its reports changed, among all channels, and no command. -/
structure RxMoved (ch : Nat) (s t : State) : Prop where
  others : ∀ k, k ≠ ch → chan t k = chan s k
  own : ∃ r q p w, chan t ch = { chan s ch with rxq := r, rxSeq := q, pendRpt := p, rptWaits := w }
  cmd : t.cmd = s.cmd

section
variable {ch : Nat} {s t u : State}

theorem RxMoved.of_same (hchans : t.chans = s.chans) (hcmd : t.cmd = s.cmd) : RxMoved ch s t :=
  ⟨fun k _ => chan_of_chans hchans k, ⟨_, _, _, _, chan_of_chans hchans ch⟩, hcmd⟩

theorem RxMoved.trans (h : RxMoved ch s t) (k : RxMoved ch t u) : RxMoved ch s u := by
  obtain ⟨r, q, p, w, hown⟩ := k.own
  obtain ⟨r', q', p', w', hown'⟩ := h.own
  exact ⟨fun n hn => (k.others n hn).trans (h.others n hn), ⟨r, q, p, w, by rw [hown, hown']⟩, k.cmd.trans h.cmd⟩

theorem RxMoved.st (h : RxMoved ch s t) : (chan t ch).st = (chan s ch).st := by
  obtain ⟨r, q, p, w, hown⟩ := h.own
  rw [hown]

theorem Reported.rxMoved (h : Reported ch s t) (hcmd : t.cmd = s.cmd) : RxMoved ch s t := by
  obtain ⟨r, p, w, hown⟩ := h.own
  exact ⟨h.others, ⟨r, _, p, w, hown⟩, hcmd⟩

theorem rxMoved_modChan (hon : (chan s ch).st ≠ .off) (r : List DWord) (q : Nat) {f : Chan → Chan}
    (hf : f (chan s ch) = { chan s ch with rxq := r, rxSeq := q }) : RxMoved ch s (modChan ch f s) := by
  refine ⟨fun k hk => chan_modChan_other s ch k f hk, ⟨r, q, (chan s ch).pendRpt, (chan s ch).rptWaits, ?_⟩, rfl⟩
  rw [chan_modChan_on (by rw [hf]; exact hon), hf]

theorem rxMoved_storeRx (hon : (chan s ch).st ≠ .off) (bs : List Byte) (stamp : Nat) : RxMoved ch s (storeRx ch bs stamp s) := by
  unfold storeRx
  extract_lets v ws
  have hv : RxMoved ch s v := (reported_flushReport hon).rxMoved (flushReport_cmd ch s)
  have honv : (chan v ch).st ≠ .off := by rw [hv.st]; exact hon
  split
  · have hplace : RxMoved ch v (modChan ch (fun c => { c with rxq := c.rxq ++ ws, rxSeq := (c.rxSeq + 1) % 2 ^ 32 }) v) :=
      rxMoved_modChan honv ((chan v ch).rxq ++ ws) (((chan v ch).rxSeq + 1) % 2 ^ 32) rfl
    exact (hv.trans hplace).trans (u := bump (chnAddr ch 0x84) _) (.of_same rfl rfl)
  · unfold dropRx
    extract_lets q w
    have hw : RxMoved ch v w := .of_same rfl rfl
    have honw : (chan w ch).st ≠ .off := by rw [hw.st]; exact honv
    have hseq : RxMoved ch w (modChan ch (fun c => { c with rxSeq := (q + 1) % 2 ^ 32 }) w) := rxMoved_modChan honw _ _ rfl
    exact ((hv.trans hw).trans hseq).trans ((reported_report (by rw [hseq.st]; exact honw) .queueFull q).rxMoved (report_cmd ch .queueFull q _))

theorem rxMoved_portEvent (hon : (chan s ch).st ≠ .off) (code : Nat) : RxMoved ch s (portEvent ch code s) := by
  have hcount : RxMoved ch s (bump (chnAddr ch 0x398) s) := .of_same rfl rfl
  exact hcount.trans (rxMoved_storeRx (by rw [hcount.st]; exact hon) _ _)

/-! ## A port's parts -/

theorem chan_modIol_on (hon : (chan s ch).st ≠ .off) (f : IolState → IolState) :
    chan (modIol ch f s) ch = { chan s ch with iol := f (chan s ch).iol } := chan_modChan_on (s := s) hon

theorem modIol_others {k : Nat} (hk : k ≠ ch) (f : IolState → IolState) : chan (modIol ch f s) k = chan s k := chan_modChan_other s ch k _ hk

/-- A channel that is no CAN channel joins. -/
theorem joinNow_chans (hpers : pers s ch ≠ 3) : (joinNow ch s).chans = (modChan ch (joinedChan (tickNow s)) s).chans := by
  have hback : (pers s ch == 3 && (chan s ch).can.busOff) = false := by rw [beq_false_of_ne hpers]; rfl
  unfold joinNow
  dsimp only
  rw [hback]
  have hsame : modChan ch (joinedChan (tickNow s)) s = modChan ch (fun c => { c with
      st := .active, busIdle := true, joinTick := tickNow s, enabling := none, aliveSync := false
      can := if (false = true) then { c.can with busOff := false, tec := 0, rec_ := 0 } else c.can }) s := rfl
  rw [← hsame]
  generalize modChan ch (joinedChan (tickNow s)) s = v
  obtain ⟨f, hf⟩ := condEnd_frame 0x0604 ((List.range 128).any (fun i => (chan v i).can.busOff)) v
  have hevent : (channelEvent ch 3 (bump (chnAddr ch 0xA8) (condEnd 0x0604 ((List.range 128).any (fun i => (chan v i).can.busOff)) v))).chans = v.chans := by
    rw [hf]
    exact emit_chans _ _ _
  generalize channelEvent ch 3 (bump (chnAddr ch 0xA8) (condEnd 0x0604 ((List.range 128).any (fun i => (chan v i).can.busOff)) v)) = w at hevent
  split
  · exact (complete_chans ..).trans hevent
  · exact hevent

theorem iolJoin_joins (hst : (chan s ch).st = .joining) (hpers : pers s ch ≠ 3) : (∀ k, k ≠ ch → chan (iolJoin ch s) k = chan s k)
    ∧ chan (iolJoin ch s) ch = joinedChan (tickNow s) (chan s ch) := by
  unfold iolJoin
  rw [if_pos hst]
  have hchans := joinNow_chans (ch := ch) hpers
  generalize joinNow ch s = u at hchans
  have hown : chan (modChan ch (joinedChan (tickNow s)) s) ch = joinedChan (tickNow s) (chan s ch) :=
    chan_modChan_on (show ChState.active ≠ ChState.off by decide)
  exact ⟨fun k hk => (chan_of_chans hchans k).trans (chan_modChan_other s ch k _ hk), (chan_of_chans hchans ch).trans hown⟩

/-- The port with no ISDU left. -/
def isduGone (x : IolState) : IolState := { x with isdu := [], isduRuns := false }

theorem abortIsdu_ends (hon : (chan s ch).st ≠ .off) : (∀ k, k ≠ ch → chan (abortIsdu ch s) k = chan s k)
    ∧ chan (abortIsdu ch s) ch = { chan s ch with iol := isduGone (chan s ch).iol }
    ∧ ∀ x, s.cmd.inflight = [x] → x.phase = .issued → (chan s ch).iol.isdu = [(x.session, x.tag)] →
        (abortIsdu ch s).cmd.inflight = [{ x with phase := .ready .aborted [], effected := true }] := by
  have hcount : ∃ v : State, onlyIf (chan s ch).iol.isduRuns (bump (chnAddr ch 0x394)) s = v ∧ v.chans = s.chans ∧ v.cmd = s.cmd := by
    refine ⟨_, rfl, ?_⟩
    unfold onlyIf
    split
    · exact ⟨rfl, rfl⟩
    · exact ⟨rfl, rfl⟩
  obtain ⟨v, hv, hchans, hcmd⟩ := hcount
  have hend : abortIsdu ch s = modIol ch isduGone ((chan s ch).iol.isdu.foldl (fun s w => complete w.1 w.2 .aborted [] s) v) := by
    unfold abortIsdu
    dsimp only
    rw [hv]
    rfl
  have hfold : ((chan s ch).iol.isdu.foldl (fun s w => complete w.1 w.2 .aborted [] s) v).chans = s.chans :=
    (completes_chans Prod.fst Prod.snd .aborted [] (chan s ch).iol.isdu v).trans hchans
  refine ⟨fun k hk => ?_, ?_, fun x hin hphase hone => ?_⟩
  · rw [hend, modIol_others hk, chan_of_chans hfold]
  · rw [hend, chan_modIol_on (by rw [chan_of_chans hfold]; exact hon), chan_of_chans hfold]
  · rw [hend, hone]
    show (complete x.session x.tag .aborted [] v).cmd.inflight = _
    rw [complete_alone ((congrArg CmdState.inflight hcmd).trans hin) (by rw [isReady, hphase])]
    rfl

/-- The channel of a port that returns to JOINING. -/
def backChan (st : IolSt) (c : Chan) : Chan :=
  { c with
    st := if c.st = .draining then .draining else .joining, busIdle := false
    iol := { c.iol with st := st, com := 0, wakes := 0, tryCom := 0, repeats := 0, failed := 0, pdInOk := false } }

theorem backChan_on (st : IolSt) (c : Chan) : (backChan st c).st ≠ .off := by
  unfold backChan
  dsimp only
  split
  · decide
  · decide

theorem iolBack_chan (st : IolSt) : (∀ k, k ≠ ch → chan (iolBack ch st s) k = chan s k) ∧ chan (iolBack ch st s) ch = backChan st (chan s ch) :=
  ⟨fun k hk => chan_modChan_other s ch k _ hk, chan_modChan_on (f := backChan st) (backChan_on st _)⟩

end

/-! ## What a live port does -/

section
variable {ch : Nat} {s : State} (hlive : iolLive s ch = true)
include hlive

theorem iolLive_on : (chan s ch).st ≠ .off := fun hoff => by simp [iolLive, hoff] at hlive

theorem iolLive_pers : pers s ch = 4 := by
  unfold iolLive at hlive
  simp only [Bool.and_eq_true, beq_iff_eq] at hlive
  exact hlive.1.1.1

theorem iolPowerGood_due (hst : iolSt s ch = .noPower) (hon : (outlet s (iolOutlet s ch)).st = .on)
    (hdue : (outlet s (iolOutlet s ch)).sinceUp + iolPwrDelay s ch * 2000 ≤ s.time.up) :
    (iolMode s ch = 1 ∨ iolMode s ch = 2 → iolPowerGood ch s = modIol ch (fun x => { x with st := .wake, wakes := 0, tryCom := 0 }) s)
    ∧ (iolMode s ch = 3 → iolPowerGood ch s = iolJoin ch (modIol ch (fun x => { x with st := .sioDi }) s))
    ∧ (iolMode s ch = 4 → iolPowerGood ch s = iolJoin ch (modIol ch (fun x => { x with st := .sioDq }) s)) := by
  have hlong : since (outlet s (iolOutlet s ch)).sinceUp s ≥ iolPwrDelay s ch * 2000 := by unfold since; omega
  unfold iolPowerGood
  dsimp only
  rw [if_pos ⟨hlive, hst, hon, hlong⟩]
  refine ⟨fun hmode => ?_, fun hmode => ?_, fun hmode => ?_⟩
  · obtain hmode | hmode := hmode
    · simp only [hmode]
    · simp only [hmode]
  · simp only [hmode]
  · simp only [hmode]

/-- A port in a mode without a device joins with its power (R248, R256). -/
theorem modeJoins (st : IolSt) (hjoining : (chan s ch).st = .joining) :
    (chan (iolJoin ch (modIol ch (fun x => { x with st := st }) s)) ch).st = .active
    ∧ (chan (iolJoin ch (modIol ch (fun x => { x with st := st }) s)) ch).iol.st = st
    ∧ ∀ k, k ≠ ch → chan (iolJoin ch (modIol ch (fun x => { x with st := st }) s)) k = chan s k := by
  have hown := chan_modIol_on (iolLive_on hlive) (fun x => { x with st := st })
  have hothers : ∀ k, k ≠ ch → chan (modIol ch (fun x => { x with st := st }) s) k = chan s k := fun k hk => modIol_others hk _
  have hpers : pers (modIol ch (fun x => { x with st := st }) s) ch ≠ 3 := fun hcan => by
    have hfour := iolLive_pers hlive
    have hsame : pers s ch = 3 := hcan
    omega
  generalize modIol ch (fun x => { x with st := st }) s = v at hown hothers hpers
  obtain ⟨hjoin, hjoinOwn⟩ := iolJoin_joins (ch := ch) (s := v) (by rw [hown]; exact hjoining) hpers
  rw [hjoinOwn, hown]
  exact ⟨rfl, rfl, fun k hk => (hjoin k hk).trans (hothers k hk)⟩

theorem iolPowerLost_loses (hpower : iolSt s ch ≠ .noPower) (hfault : iolSt s ch ≠ .compFault) (hover : iolSt s ch ≠ .dqOverload)
    (hoff : (outlet s (iolOutlet s ch)).st ≠ .on) : (chan (iolPowerLost ch s) ch).iol.st = .noPower ∧ (chan (iolPowerLost ch s) ch).iol.isdu = []
    ∧ (chan (iolPowerLost ch s) ch).iol.pdInOk = false
    ∧ (chan (iolPowerLost ch s) ch).st = (if (chan s ch).st = .draining then .draining else .joining)
    ∧ (∀ k, k ≠ ch → chan (iolPowerLost ch s) k = chan s k)
    ∧ ∀ x, s.cmd.inflight = [x] → x.phase = .issued → (chan s ch).iol.isdu = [(x.session, x.tag)] →
      (iolPowerLost ch s).cmd.inflight = [{ x with phase := .ready .aborted [], effected := true }] := by
  generalize hv : bumpBy (chnAddr ch 0x388) ((draw s).1 % 2) (draw s).2 = v
  have hchans : v.chans = s.chans := by rw [← hv]; rfl
  have hcmd : v.cmd = s.cmd := by rw [← hv]; rfl
  have hsame := chan_of_chans hchans
  have hend : iolPowerLost ch s = portEvent ch 5 (iolBack ch .noPower (abortIsdu ch v)) := by
    unfold iolPowerLost
    dsimp only
    rw [if_pos ⟨hlive, hpower, by rw [beq_false_of_ne hfault, beq_false_of_ne hover]; rfl, hoff⟩, hv]
  obtain ⟨habort, habortOwn, habortCmd⟩ := abortIsdu_ends (s := v) (ch := ch) (by rw [hsame]; exact iolLive_on hlive)
  generalize abortIsdu ch v = w at habort habortOwn habortCmd hend
  obtain ⟨hback, hbackOwn⟩ := iolBack_chan (s := w) (ch := ch) .noPower
  have hbackCmd : (iolBack ch .noPower w).cmd = w.cmd := rfl
  generalize iolBack ch .noPower w = y at hback hbackOwn hbackCmd hend
  obtain ⟨hevent, ⟨r, q, p, o, heventOwn⟩, heventCmd⟩ := rxMoved_portEvent (s := y) (ch := ch) (by rw [hbackOwn]; exact backChan_on _ _) 5
  rw [hend]
  generalize portEvent ch 5 y = z at hevent heventOwn heventCmd
  rw [heventOwn, hbackOwn, habortOwn, hsame]
  refine ⟨rfl, rfl, rfl, rfl, fun k hk => ?_, fun x hin hphase hone => ?_⟩
  · rw [hevent k hk, hback k hk, habort k hk, hsame]
  · rw [heventCmd, hbackCmd]
    exact habortCmd x ((congrArg CmdState.inflight hcmd).trans hin) hphase (by rw [hsame]; exact hone)

theorem iolComTryEnd_tried (htried : (chan s ch).iol.tryCom ≠ 0) : iolComTryEnd ch true s =
    modIol ch (fun x => { x with st := .startup, com := x.tryCom, tryCom := 0, wakes := 0 }) s := by
  unfold iolComTryEnd
  dsimp only
  rw [hlive, beq_false_of_ne htried]
  rfl

theorem iolComTryEnd_next (hmore : 2 ≤ (chan s ch).iol.tryCom) : iolComTryEnd ch false s = modIol ch (fun x => { x with tryCom := x.tryCom - 1 }) s := by
  unfold iolComTryEnd
  dsimp only
  rw [hlive, beq_false_of_ne (show (chan s ch).iol.tryCom ≠ 0 by omega), if_neg (by decide), if_neg (by decide), if_pos (by omega)]

theorem iolComTryEnd_last (hlast : (chan s ch).iol.tryCom = 1) (hwakes : 3 ≤ (chan s ch).iol.wakes) (hst : (chan s ch).iol.st = .wake) :
    (chan (iolComTryEnd ch false s) ch).iol.st = .noDevice ∧ (chan (iolComTryEnd ch false s) ch).iol.tryCom = 0
    ∧ (chan (iolComTryEnd ch false s) ch).st = (chan s ch).st ∧ ∀ k, k ≠ ch → chan (iolComTryEnd ch false s) k = chan s k := by
  generalize hv : modIol ch (fun x => { x with tryCom := 0, seqUp := s.time.up }) s = v
  have hown : chan v ch = { chan s ch with iol := { (chan s ch).iol with tryCom := 0, seqUp := s.time.up } } := by
    rw [← hv]; exact chan_modIol_on (iolLive_on hlive) _
  have hothers : ∀ k, k ≠ ch → chan v k = chan s k := fun k hk => by rw [← hv]; exact modIol_others hk _
  have honv : (chan v ch).st ≠ .off := by rw [hown]; exact iolLive_on hlive
  have hend : iolComTryEnd ch false s = portEvent ch 1 (channelEvent ch 2 (modIol ch (fun x => { x with st := .noDevice }) v)) := by
    unfold iolComTryEnd
    dsimp only
    rw [hlive, hlast, if_neg (by decide), if_neg (by decide), if_neg (by decide), if_pos ⟨hwakes, by rw [hst]; decide⟩, hv]
  have hownw := chan_modIol_on honv (fun x => { x with st := .noDevice })
  have hothersw : ∀ k, k ≠ ch → chan (modIol ch (fun x => { x with st := .noDevice }) v) k = chan v k := fun k hk => modIol_others hk _
  generalize modIol ch (fun x => { x with st := .noDevice }) v = w at hend hownw hothersw
  have hsame : ∀ k, chan (channelEvent ch 2 w) k = chan w k := chan_of_chans (emit_chans w _ _)
  generalize channelEvent ch 2 w = y at hend hsame
  obtain ⟨hevent, ⟨r, q, p, o, heventOwn⟩, -⟩ := rxMoved_portEvent (s := y) (ch := ch) (by rw [hsame, hownw]; exact honv) 1
  rw [hend, heventOwn, hsame, hownw, hown]
  exact ⟨rfl, rfl, rfl, fun k hk => by rw [hevent k hk, hsame, hothersw k hk, hothers k hk]⟩

/-- What the port has read of the device's parameters. -/
def pagedIol (cyc : Nat) (page : List Byte) (x : IolState) : IolState :=
  { x with
    rev := rd page 2 1, cycle := max cyc (minCycle (rd page 0 1)), vidRead := rd page 5 1 * 256 + rd page 6 1
    didRead := rd page 7 1 * 65536 + rd page 8 1 * 256 + rd page 9 1 }

theorem iolStartupDone_eq (hst : (chan s ch).iol.st = .startup) (page : List Byte) : iolStartupDone ch page s =
    if pdLen (rd page 3 1) != pdInLen s ch || pdLen (rd page 4 1) != pdOutLen s ch
      || (iolMode s ch == 1 && (rd page 5 1 * 256 + rd page 6 1 != fld s (chnAddr ch 0x308) 0 16
        || rd page 7 1 * 65536 + rd page 8 1 * 256 + rd page 9 1 != fld s (chnAddr ch 0x30C) 0 24))
    then portEvent ch 3 (modIol ch (fun x => { x with st := .compFault }) (modIol ch (pagedIol (fld s (chnAddr ch 0x300) 18 11) page) s))
    else portEvent ch 2 (iolJoin ch (modIol ch (fun x => { x with st := .preoperate, repeats := 0, failed := 0, seqUp := s.time.up })
      (modIol ch (pagedIol (fld s (chnAddr ch 0x300) 18 11) page) s))) := by
  unfold iolStartupDone
  rw [hlive, hst]
  rfl

theorem iolStartupDone_mismatch (hst : (chan s ch).iol.st = .startup) {page : List Byte} (hlen : pdLen (rd page 3 1) ≠ pdInLen s ch) :
    (chan (iolStartupDone ch page s) ch).iol.st = .compFault ∧ (chan (iolStartupDone ch page s) ch).st = (chan s ch).st
    ∧ ∀ k, k ≠ ch → chan (iolStartupDone ch page s) k = chan s k := by
  have hown := chan_modIol_on (iolLive_on hlive) (pagedIol (fld s (chnAddr ch 0x300) 18 11) page)
  have hothers : ∀ k, k ≠ ch → chan (modIol ch (pagedIol (fld s (chnAddr ch 0x300) 18 11) page) s) k = chan s k := fun k hk => modIol_others hk _
  rw [iolStartupDone_eq hlive hst, if_pos (by rw [bne_iff_ne.mpr hlen]; rfl)]
  generalize modIol ch (pagedIol (fld s (chnAddr ch 0x300) 18 11) page) s = v at hown hothers
  have honv : (chan v ch).st ≠ .off := by rw [hown]; exact iolLive_on hlive
  have hownw := chan_modIol_on honv (fun x => { x with st := .compFault })
  have hothersw : ∀ k, k ≠ ch → chan (modIol ch (fun x => { x with st := .compFault }) v) k = chan v k := fun k hk => modIol_others hk _
  generalize modIol ch (fun x => { x with st := .compFault }) v = w at hownw hothersw
  obtain ⟨hevent, ⟨r, q, p, o, heventOwn⟩, -⟩ := rxMoved_portEvent (s := w) (ch := ch) (by rw [hownw]; exact honv) 3
  rw [heventOwn, hownw, hown]
  exact ⟨rfl, rfl, fun k hk => by rw [hevent k hk, hothersw k hk, hothers k hk]⟩

theorem iolStartupDone_match (hst : (chan s ch).iol.st = .startup) {page : List Byte} (hmode : iolMode s ch = 2)
    (hin : pdLen (rd page 3 1) = pdInLen s ch) (hout : pdLen (rd page 4 1) = pdOutLen s ch) (hjoining : (chan s ch).st = .joining) :
    (chan (iolStartupDone ch page s) ch).iol.st = .preoperate ∧ (chan (iolStartupDone ch page s) ch).iol.rev = rd page 2 1
    ∧ (chan (iolStartupDone ch page s) ch).iol.vidRead = rd page 5 1 * 256 + rd page 6 1 ∧ (chan (iolStartupDone ch page s) ch).st = .active
    ∧ ∀ k, k ≠ ch → chan (iolStartupDone ch page s) k = chan s k := by
  have hown := chan_modIol_on (iolLive_on hlive) (pagedIol (fld s (chnAddr ch 0x300) 18 11) page)
  have hothers : ∀ k, k ≠ ch → chan (modIol ch (pagedIol (fld s (chnAddr ch 0x300) 18 11) page) s) k = chan s k := fun k hk => modIol_others hk _
  have hpers : pers (modIol ch (pagedIol (fld s (chnAddr ch 0x300) 18 11) page) s) ch = 4 :=
    Eq.trans (b := pers s ch) rfl (iolLive_pers hlive)
  rw [iolStartupDone_eq hlive hst, if_neg (by rw [hin, hout, hmode]; simp)]
  generalize modIol ch (pagedIol (fld s (chnAddr ch 0x300) 18 11) page) s = v at hown hothers hpers
  have honv : (chan v ch).st ≠ .off := by rw [hown]; exact iolLive_on hlive
  have hownw := chan_modIol_on honv (fun x => { x with st := .preoperate, repeats := 0, failed := 0, seqUp := s.time.up })
  have hothersw : ∀ k, k ≠ ch → chan (modIol ch (fun x => { x with st := .preoperate, repeats := 0, failed := 0, seqUp := s.time.up }) v) k = chan v k :=
    fun k hk => modIol_others hk _
  have hpersw : pers (modIol ch (fun x => { x with st := .preoperate, repeats := 0, failed := 0, seqUp := s.time.up }) v) ch ≠ 3 := fun hcan => by
    have hsame : pers v ch = 3 := hcan
    omega
  generalize modIol ch (fun x => { x with st := .preoperate, repeats := 0, failed := 0, seqUp := s.time.up }) v = w at hownw hothersw hpersw
  obtain ⟨hjoin, hjoinOwn⟩ := iolJoin_joins (ch := ch) (s := w) (by rw [hownw, hown]; exact hjoining) hpersw
  generalize iolJoin ch w = y at hjoin hjoinOwn
  obtain ⟨hevent, ⟨r, q, p, o, heventOwn⟩, -⟩ := rxMoved_portEvent (s := y) (ch := ch) (by rw [hjoinOwn]; exact (by decide : ChState.active ≠ ChState.off)) 2
  rw [heventOwn, hjoinOwn, hownw, hown]
  exact ⟨rfl, rfl, rfl, rfl, fun k hk => by rw [hevent k hk, hjoin k hk, hothersw k hk, hothers k hk]⟩

/-! ## M-sequences (R252, R253) -/

theorem operates (hst : (chan s ch).iol.st = .operate) :
    (!iolLive s ch || ((chan s ch).iol.st != .preoperate && (chan s ch).iol.st != .operate)) = false := by rw [hlive, hst]; rfl

theorem iolMSequence_good (hst : (chan s ch).iol.st = .operate) {pd : List Byte} {stamp : Nat} (hlen : pd.length = pdInLen s ch) :
    iolMSequence ch (.ok pd true stamp) s = modIol ch (fun x => { x with
      repeats := 0, failed := 0, pdIn := pd, pdInTick := some stamp, pdInOk := true
      pdBefore := x.pdInTick.map (fun t => (t, x.pdIn, x.pdInOk)) }) s := by
  have hwhole : padTo (pdInLen s ch) (pd.take (pdInLen s ch)) = pd := by
    rw [← hlen, List.take_length, padTo, Nat.sub_self]
    exact List.append_nil pd
  unfold iolMSequence
  dsimp only
  rw [operates hlive hst, if_neg (by decide), hwhole, hst]
  rfl

theorem iolMSequence_repeats (hst : (chan s ch).iol.st = .operate) (hfew : (chan s ch).iol.repeats < 2) : iolMSequence ch .repeat_ s =
    bump (chnAddr ch 0x384) (modIol ch (fun x => { x with repeats := x.repeats + 1 }) s) := by
  unfold iolMSequence
  dsimp only
  rw [operates hlive hst, if_neg (by decide), if_pos hfew]

/-- The hub behind a cycle that failed. -/
theorem iolMSequence_failed (hst : (chan s ch).iol.st = .operate) : ∃ v, iolMSequence ch .failed s = (if (chan s ch).iol.failed + 1 ≥ 3 then iolCommLost ch v else v)
    ∧ chan v ch = { chan s ch with iol := { (chan s ch).iol with repeats := 0, failed := (chan s ch).iol.failed + 1 } }
    ∧ ∀ k, k ≠ ch → chan v k = chan s k := by
  have hcount : ∃ b : State, bump (chnAddr ch 0x388) (bumpBy (chnAddr ch 0x384) (2 - (chan s ch).iol.repeats) s) = b ∧ b.chans = s.chans :=
    ⟨_, rfl, rfl⟩
  obtain ⟨b, hb, hchans⟩ := hcount
  have hsame := chan_of_chans hchans
  refine ⟨modIol ch (fun x => { x with repeats := 0, failed := x.failed + 1 }) b, ?_, ?_, fun k hk => (modIol_others hk _).trans (hsame k)⟩
  · unfold iolMSequence
    dsimp only
    rw [operates hlive hst, if_neg (by decide), hb]
  · rw [chan_modIol_on (by rw [hsame]; exact iolLive_on hlive), hsame]

end

theorem iolCommLost_chan {ch : Nat} {s : State} (hon : (chan s ch).st ≠ .off) : (∀ k, k ≠ ch → chan (iolCommLost ch s) k = chan s k)
    ∧ (chan (iolCommLost ch s) ch).iol.st = .wake ∧ (chan (iolCommLost ch s) ch).iol.isdu = []
    ∧ (chan (iolCommLost ch s) ch).st = (if (chan s ch).st = .draining then .draining else .joining) := by
  have hfault : ∀ k, chan (unitFault 0x0606 0 ch (bump (chnAddr ch 0x38C) s)) k = chan s k :=
    chan_of_chans (s := s) (detect_chans (bump (chnAddr ch 0x38C) s) _ _)
  unfold iolCommLost
  dsimp only
  generalize unitFault 0x0606 0 ch (bump (chnAddr ch 0x38C) s) = v at hfault
  obtain ⟨hevent, ⟨r, q, p, o, heventOwn⟩, -⟩ := rxMoved_portEvent (s := v) (ch := ch) (by rw [hfault]; exact hon) 4
  generalize portEvent ch 4 v = w at hevent heventOwn
  obtain ⟨habort, habortOwn, -⟩ := abortIsdu_ends (s := w) (ch := ch) (by rw [heventOwn, hfault]; exact hon)
  generalize abortIsdu ch w = y at habort habortOwn
  obtain ⟨hback, hbackOwn⟩ := iolBack_chan (s := y) (ch := ch) .wake
  rw [hbackOwn, habortOwn, heventOwn, hfault]
  exact ⟨fun k hk => by rw [hback k hk, habort k hk, hevent k hk, hfault], rfl, rfl, rfl⟩

/-! ## ISDU (R254) -/

section
variable {ch : Nat} {s : State}

/-- The first ISDU of the port has its answer. -/
theorem isdu_answered {x : Cmd} {t : List (Nat × Tag)} {st : Status} {res : List Byte} {v : State} (hon : (chan s ch).st ≠ .off)
    (hisdu : (chan s ch).iol.isdu = (x.session, x.tag) :: t) (hin : s.cmd.inflight = [x]) (hphase : x.phase = .issued)
    (hchans : v.chans = (popIsdu ch s).chans) (hcmd : v.cmd = s.cmd) : (chan (complete x.session x.tag st res v) ch).iol.isdu = t
    ∧ (chan (complete x.session x.tag st res v) ch).iol.isduRuns = false
    ∧ (complete x.session x.tag st res v).cmd.inflight = [{ x with phase := .ready st res, effected := true }]
    ∧ ∀ k, k ≠ ch → chan (complete x.session x.tag st res v) k = chan s k := by
  have hdone : (complete x.session x.tag st res v).chans = (popIsdu ch s).chans := hchans
  have hown : chan (popIsdu ch s) ch = { chan s ch with iol := { (chan s ch).iol with isdu := (chan s ch).iol.isdu.drop 1, isduRuns := false } } :=
    chan_modIol_on hon _
  have hothers : ∀ k, k ≠ ch → chan (popIsdu ch s) k = chan s k := fun k hk => modIol_others hk _
  have hflight : v.cmd.inflight = [x] := (congrArg CmdState.inflight hcmd).trans hin
  refine ⟨?_, ?_, ?_, fun k hk => (chan_of_chans hdone k).trans (hothers k hk)⟩
  · rw [chan_of_chans hdone, hown]
    show (chan s ch).iol.isdu.drop 1 = t
    rw [hisdu]
    rfl
  · rw [chan_of_chans hdone, hown]
  · rw [complete_alone hflight (by rw [isReady, hphase])]
    rfl

theorem isduComplete_idle (hidle : (chan s ch).iol.isduRuns = false) (how : IsduEnd) : isduComplete ch how s = s := by
  unfold isduComplete
  dsimp only
  rw [hidle]
  exact if_pos (by simp)

theorem isduComplete_read {x : Cmd} {t : List (Nat × Tag)} (hlive : iolLive s ch = true) (hruns : (chan s ch).iol.isduRuns = true)
    (hisdu : (chan s ch).iol.isdu = (x.session, x.tag) :: t) (hin : s.cmd.inflight = [x]) {data : List Byte} (hread : x.opcode = 0x0403)
    (hlen : data.length ≤ 232) : isduComplete ch (.ok data) s = complete x.session x.tag .ok data (popIsdu ch s) := by
  have hreads : isduReads s x.session x.tag = true := by
    unfold isduReads
    rw [hin, List.any_cons, hread, beq_self_eq_true, beq_self_eq_true]
    rfl
  unfold isduComplete
  dsimp only
  rw [hlive, hruns, if_neg (by decide), hisdu]
  dsimp only
  rw [hreads, if_pos rfl, List.take_of_length_le hlen]

theorem isduComplete_error {x : Cmd} {t : List (Nat × Tag)} (hlive : iolLive s ch = true) (hruns : (chan s ch).iol.isduRuns = true)
    (hisdu : (chan s ch).iol.isdu = (x.session, x.tag) :: t) (c a : Byte) :
    isduComplete ch (.deviceError c a) s = complete x.session x.tag .farError [c, a] (bump (chnAddr ch 0x394) (popIsdu ch s)) := by
  unfold isduComplete
  dsimp only
  rw [hlive, hruns, if_neg (by decide), hisdu]

theorem isduTimeout_due {x : Cmd} {t : List (Nat × Tag)} (hruns : (chan s ch).iol.isduRuns = true)
    (hisdu : (chan s ch).iol.isdu = (x.session, x.tag) :: t) (hdue : (chan s ch).iol.isduUp + 10000000 ≤ s.time.up) :
    isduTimeout ch s = complete x.session x.tag .timeout [] (bump (chnAddr ch 0x394) (popIsdu ch s)) := by
  unfold isduTimeout
  dsimp only
  rw [hisdu]
  dsimp only
  rw [if_pos ⟨hruns, by unfold since; omega⟩]

theorem isduTimeout_early (hearly : since (chan s ch).iol.isduUp s < 10000000) : isduTimeout ch s = s := by
  unfold isduTimeout
  dsimp only
  split
  · exact if_neg fun hall => absurd hall.2 (by omega)
  · rfl

/-! ## Device events (R255) -/

/-- A counter of one channel is no limit of another. -/
theorem rxFits_bump {off n : Nat} (hoff : off < 0x800) (hlow : 0x20 ≤ off) : rxFits (bump (chnAddr ch off) s) ch n = rxFits s ch n := by
  have hword : ∀ k low rst, low < 0x20 → wordOr (bump (chnAddr ch off) s) (chnAddr k low) rst = wordOr s (chnAddr k low) rst := fun k low rst h => by
    have hsame : SameWord (chnAddr k low) s (bump (chnAddr ch off) s) := sameWord_bump s (by unfold chnAddr; omega)
    unfold wordOr
    rw [hsame.word, hsame.cfg]
  have hfree : chPoolFree (bump (chnAddr ch off) s) = chPoolFree s := by
    unfold chPoolFree sharedUsed txResv rxResv
    simp only [hword _ 0x10 _ (by decide), hword _ 0x14 _ (by decide)]
    rfl
  unfold rxFits rxLimit rxResv
  rw [hfree, hword _ 0x14 _ (by decide)]
  rfl

theorem iolDeviceEvent_one {e : Byte × BitVec 16} {stamp : Nat} (hlive : iolLive s ch = true) (hst : (chan s ch).iol.st = .operate)
    (hidle : (chan s ch).iol.isduRuns = false) (hpend : (chan s ch).pendRpt = none) (hfits : rxFits s ch 2 = true) :
    (chan (iolDeviceEvent ch [e] stamp s) ch).rxq = (chan s ch).rxq ++ packetWords stamp
        [0, BitVec.ofNat 8 e.1.toNat, BitVec.ofNat 8 e.2.toNat, BitVec.ofNat 8 (e.2.toNat / 256)]
    ∧ (chan (iolDeviceEvent ch [e] stamp s) ch).iol.unconfirmed = 0 ∧ ∀ k, k ≠ ch → chan (iolDeviceEvent ch [e] stamp s) k = chan s k := by
  have hgo : (!iolLive s ch || ((chan s ch).iol.st != .preoperate && (chan s ch).iol.st != .operate) || (chan s ch).iol.isduRuns) = false := by
    rw [operates hlive hst, hidle]
    rfl
  have hroom : (((chan s ch).pendRpt.isNone && rxFits s ch (2 * ([e].take 6).length)) = true) := by
    rw [hpend]
    exact hfits
  have hend : iolDeviceEvent ch [e] stamp s = modIol ch (fun x => { x with unconfirmed := 0 })
      (storeRx ch [0, BitVec.ofNat 8 e.1.toNat, BitVec.ofNat 8 e.2.toNat, BitVec.ofNat 8 (e.2.toNat / 256)] stamp (bump (chnAddr ch 0x398) s)) := by
    unfold iolDeviceEvent
    dsimp only
    rw [hgo, if_neg (by decide), flushReport_none hpend, hroom]
    rfl
  have hon' : (chan s ch).st ≠ .off := iolLive_on hlive
  have hon : (chan (bump (chnAddr ch 0x398) s) ch).st ≠ .off := hon'
  obtain ⟨hown, hothers⟩ := storeRx_placed (s := bump (chnAddr ch 0x398) s) (stamp := stamp)
    (bs := [0, BitVec.ofNat 8 e.1.toNat, BitVec.ofNat 8 e.2.toNat, BitVec.ofNat 8 (e.2.toNat / 256)]) hon hpend
    ((rxFits_bump (by decide) (by decide)).trans hfits)
  rw [hend]
  generalize storeRx ch [0, BitVec.ofNat 8 e.1.toNat, BitVec.ofNat 8 e.2.toNat, BitVec.ofNat 8 (e.2.toNat / 256)] stamp (bump (chnAddr ch 0x398) s) = v
    at hown hothers
  rw [chan_modIol_on (by rw [hown]; exact hon), hown]
  exact ⟨rfl, rfl, fun k hk => (modIol_others hk _).trans (hothers k hk)⟩

end

/-- Settles O56, by the power, the start-up, the M-sequences, the ISDUs and the events of a live port. -/
theorem ioLinkEvents : Obligations.IoLinkEvents := by
  unfold Obligations.IoLinkEvents
  intro ch s hawake hlive
  have hfield : ∀ f : State → State, onField f s = f s := fun f => if_pos hawake
  have hon := iolLive_on hlive
  refine ⟨fun hst hpower => ⟨fun hdue => ?power, fun hearly => effectIs_eq ((hfield _).trans ?powerEarly)⟩,
    fun hpower hfault hover hoff => ⟨_, commit_goOn s _, ?lost⟩, fun hpower => effectIs_eq ((hfield _).trans ?kept),
    fun hdue => effectIs_eq ((hfield _).trans ?wake), fun hdue => effectIs_eq ((hfield _).trans ?noWake),
    fun htried => effectIs_eq ((hfield _).trans (iolComTryEnd_tried hlive htried)), fun hmore => effectIs_eq ((hfield _).trans (iolComTryEnd_next hlive hmore)),
    fun hlast hwakes hst => ⟨_, commit_goOn s _, ?noDevice⟩, fun hnone r => effectIs_eq ((hfield _).trans ?untried),
    fun hst page => ⟨fun hlen => ⟨_, commit_goOn s _, ?mismatch⟩, fun hmode hin hout hjoining => ⟨_, commit_goOn s _, ?startup⟩⟩,
    fun hst pd stamp hlen => effectIs_eq ((hfield _).trans (iolMSequence_good hlive hst hlen)),
    fun hst hfew => effectIs_eq ((hfield _).trans (iolMSequence_repeats hlive hst hfew)), fun hst hfew => ⟨_, commit_goOn s _, ?failed⟩,
    fun hst hthird => ⟨_, commit_goOn s _, ?commLost⟩, fun x t hruns hisdu hin hphase => ?isdu,
    fun hidle how => effectIs_eq ((hfield _).trans (isduComplete_idle hidle how)),
    fun e stamp hst hidle hpend hfits => ⟨_, commit_goOn s _, ?event⟩, fun lv stamp => effectIs_eq ((hfield _).trans ?ballB),
    fun lv stamp hmode => effectIs_eq ((hfield _).trans ?diEdge), fun lv stamp hmode => effectIs_eq ((hfield _).trans ?noEdge),
    fun hst => effectIs_eq ((hfield _).trans ?overload), fun hst => effectIs_eq ((hfield _).trans ?noOverload)⟩
  case power =>
    obtain ⟨hwake, hdi, hdq⟩ := iolPowerGood_due hlive hst hpower hdue
    refine ⟨fun hmode => effectIs_eq ((hfield _).trans (hwake hmode)), fun hmode hjoining => ⟨_, commit_goOn s _, ?_⟩,
      fun hmode hjoining => ⟨_, commit_goOn s _, ?_⟩⟩
    · dsimp only
      rw [hfield, hdi hmode]
      exact modeJoins hlive .sioDi hjoining
    · dsimp only
      rw [hfield, hdq hmode]
      exact modeJoins hlive .sioDq hjoining
  case powerEarly =>
    unfold iolPowerGood
    exact if_neg fun hall => absurd hall.2.2.2 (by omega)
  case lost =>
    dsimp only
    rw [hfield]
    exact iolPowerLost_loses hlive hpower hfault hover hoff
  case kept =>
    unfold iolPowerLost
    exact if_neg fun hall => hall.2.2.2 hpower
  case wake =>
    unfold iolWakeUp
    rw [hlive, hdue]
    rfl
  case noWake =>
    unfold iolWakeUp
    rw [hlive, hdue]
    rfl
  case noDevice =>
    dsimp only
    rw [hfield]
    exact iolComTryEnd_last hlive hlast hwakes hst
  case untried =>
    unfold iolComTryEnd
    dsimp only
    rw [hlive, hnone]
    rfl
  case mismatch =>
    dsimp only
    rw [hfield]
    exact iolStartupDone_mismatch hlive hst hlen
  case startup =>
    dsimp only
    rw [hfield]
    exact iolStartupDone_match hlive hst hmode hin hout hjoining
  case failed =>
    obtain ⟨v, hend, hown, hothers⟩ := iolMSequence_failed hlive hst
    rw [hfield, hend, if_neg (by omega), hown]
    exact ⟨rfl, hst, rfl, hothers⟩
  case commLost =>
    obtain ⟨v, hend, hown, hothers⟩ := iolMSequence_failed hlive hst
    obtain ⟨hlost, hwake, hnone, hback⟩ := iolCommLost_chan (ch := ch.val) (s := v) (by rw [hown]; exact hon)
    rw [hfield, hend, if_pos (by omega), hback, hown]
    exact ⟨hwake, hnone, rfl, fun k hk => (hlost k hk).trans (hothers k hk)⟩
  case isdu =>
    refine ⟨fun data hread hlen => ⟨_, commit_goOn s _, ?_⟩, fun c a => ⟨_, commit_goOn s _, ?_⟩, fun hdue => ⟨_, commit_goOn s _, ?_⟩,
      fun hearly => effectIs_eq ((hfield _).trans (isduTimeout_early hearly))⟩
    · dsimp only
      rw [hfield, isduComplete_read hlive hruns hisdu hin hread hlen]
      exact isdu_answered hon hisdu hin hphase rfl rfl
    · dsimp only
      rw [hfield, isduComplete_error hlive hruns hisdu]
      obtain ⟨hrest, -, hflight, hothers⟩ := isdu_answered (v := bump (chnAddr ch.val 0x394) (popIsdu ch.val s)) (st := .farError) (res := [c, a])
        hon hisdu hin hphase rfl rfl
      exact ⟨hrest, hflight, hothers⟩
    · dsimp only
      rw [hfield, isduTimeout_due hruns hisdu hdue]
      obtain ⟨hrest, -, hflight, hothers⟩ := isdu_answered (v := bump (chnAddr ch.val 0x394) (popIsdu ch.val s)) (st := .timeout) (res := [])
        hon hisdu hin hphase rfl rfl
      exact ⟨hrest, hflight, hothers⟩
  case event =>
    dsimp only
    rw [hfield]
    exact iolDeviceEvent_one hlive hst hidle hpend hfits
  case ballB =>
    unfold iolDiEdge
    rw [hlive]
    rfl
  case diEdge =>
    unfold iolDiEdge
    rw [hlive, if_neg (by decide), if_neg (by decide), if_pos hmode]
  case noEdge =>
    unfold iolDiEdge
    rw [hlive, if_neg (by decide), if_neg (by decide), if_neg hmode]
  case overload =>
    unfold iolDqOverload
    exact if_pos ⟨hlive, hst⟩
  case noOverload =>
    unfold iolDqOverload
    exact if_neg fun hall => hst hall.2

end Sys2Proof.Proofs
end

section
/-! Lines and engines: edges, glitches, trips and supply (R323 to R327); start, step, halt and reset of engines (R331 to R343). -/

namespace Sys2Proof.Proofs

open Sys2Proof Sys2Proof.Machine Sys2Proof.Laws

/-! ## Lines -/

section
variable {s : State}

theorem lineDrive_tripped {l : Nat} (h : (line s l).tripped = true) : lineDrive s l = none := by
  unfold lineDrive
  rw [h]
  exact if_neg (by simp)

theorem lineDrive_bankFault {l : Nat} (h : bankFault s (l / 16) = true) : lineDrive s l = none := by
  unfold lineDrive
  rw [h]
  exact if_neg (by simp)

theorem lineLimit_eq : lineLimit s = if orderCode s = 2 then 600 else 750 := by
  unfold lineLimit lineRating
  split
  · rfl
  · rfl

theorem lineGlitch_counts {l held : Nat} (hmode : dlMode s l ≠ 0) (hup : s.reset_.inReset = false) (hshort : held < filterNs s l) :
    lineGlitch l held s = bump 0xE0300 s := by
  unfold lineGlitch
  rw [bne_iff_ne.mpr hmode, decide_eq_true hshort, hup]
  rfl

theorem lineGlitch_none {l held : Nat} (h : dlMode s l = 0 ∨ s.reset_.inReset = true ∨ filterNs s l ≤ held) : lineGlitch l held s = s := by
  unfold lineGlitch
  refine if_neg ?_
  obtain h | h | h := h
  · rw [h]; simp
  · rw [h]; simp
  · rw [decide_eq_false (Nat.not_lt.mpr h)]; simp

/-- An edge, as the line's level and mode have it (R323, R327). -/
theorem discreteEdge_cases (l : Nat) (lv : Bool) (t held : Nat) :
    ((line s l).level = lv → discreteEdge l lv t held s = s)
    ∧ ((line s l).level ≠ lv → dlMode s l ≠ 0 → s.reset_.inReset = false →
      (filterNs s l ≤ held → discreteEdge l lv t held s = modLine l (fun x => { x with
        level := lv, before := if x.edgeTick = t then x.before else x.level, edgeTick := t
        rises := if lv then x.rises ++ [t] else x.rises }) s)
      ∧ (held < filterNs s l → discreteEdge l lv t held s = bump 0xE0300 s))
    ∧ ((line s l).level ≠ lv → dlMode s l = 0 ∨ s.reset_.inReset = true →
      discreteEdge l lv t held s = modLine l (fun x => { x with level := lv, before := lv }) s) := by
  unfold discreteEdge
  refine ⟨fun h => if_pos h, fun h hmode hup => ⟨fun hlong => ?_, fun hshort => ?_⟩, fun h hoff => ?_⟩
  · rw [if_neg h, if_neg (by rw [hup]; simpa using hmode), if_neg (by omega)]
  · rw [if_neg h, if_neg (by rw [hup]; simpa using hmode), if_pos hshort]
    exact lineGlitch_counts hmode hup hshort
  · rw [if_neg h, if_pos hoff]

theorem dlLineTrip_trips {l ma us fetC : Nat} (hout : isOutput s l = true) (hopen : (line s l).tripped = false)
    (hwhy : 150 < fetC ∨ (lineDrive s l).isSome = true ∧ lineLimit s ≤ ma ∧ 1000 ≤ us) :
    lineDrive (dlLineTrip l ma us fetC s) l = none ∧ (line (dlLineTrip l ma us fetC s) l).tripped = true
    ∧ (line (dlLineTrip l ma us fetC s) l).commanded = (line s l).commanded
    ∧ (∀ k, k ≠ l → line (dlLineTrip l ma us fetC s) k = line s k) ∧ (dlLineTrip l ma us fetC s).dl.banks = s.dl.banks := by
  have hcond : (isOutput s l && !(line s l).tripped && (decide (150 < fetC)
      || ((lineDrive s l).isSome && decide (lineLimit s ≤ ma) && decide (1000 ≤ us)))) = true := by
    rw [hout, hopen]
    obtain hhot | ⟨hdrive, hload, hlong⟩ := hwhy
    · rw [decide_eq_true hhot]; rfl
    · rw [hdrive, decide_eq_true hload, decide_eq_true hlong]; simp
  have htrip : dlLineTrip l ma us fetC s = unitFault 0x0801 3 l (bump 0xE0304 (modLine l (fun x => { x with tripped := true }) s)) := by
    unfold dlLineTrip
    exact if_pos hcond
  have hdl : (dlLineTrip l ma us fetC s).dl = (modLine l (fun x => { x with tripped := true }) s).dl := by
    rw [htrip]
    exact detect_dl (s := bump 0xE0304 (modLine l (fun x => { x with tripped := true }) s)) _ _
  generalize dlLineTrip l ma us fetC s = u at hdl
  have hline : ∀ k, line u k = line (modLine l (fun x => { x with tripped := true }) s) k := fun k => by rw [line, line, hdl]
  have hown : line u l = { line s l with tripped := true } :=
    (hline l).trans (sget_sput_ne _ _ _ _ fun hdef => Bool.noConfusion (congrArg Line.tripped hdef))
  have htripped : (line u l).tripped = true := by rw [hown]
  refine ⟨lineDrive_tripped htripped, htripped, by rw [hown], fun k hk => (hline k).trans (sget_sput_other _ _ _ _ _ hk), ?_⟩
  rw [hdl]
  rfl

theorem dlLineTrip_holds {l ma us fetC : Nat} (hcool : fetC ≤ 150) (hfree : lineDrive s l = none ∨ ma < lineLimit s ∨ us < 1000) :
    dlLineTrip l ma us fetC s = s := by
  unfold dlLineTrip
  refine if_neg ?_
  rw [decide_eq_false (by omega)]
  obtain h | h | h := hfree
  · rw [h]; simp
  · rw [decide_eq_false (Nat.not_le.mpr h)]; simp
  · rw [decide_eq_false (p := 1000 ≤ us) (by omega)]; simp

/-- Lines of a bank whose trips are cleared. -/
theorem line_clearTrips (b : Nat) (l : List Nat) (hl : ∀ i ∈ l, i < 16) {s : State} (hwf : swf {} s.dl.lines = true) (k : Nat) :
    line (forEach l (fun i => modLine (16 * b + i) (fun x => { x with tripped := false })) s) k
      = if k / 16 = b ∧ k % 16 ∈ l then { line s k with tripped := false } else line s k := by
  induction l generalizing s with
  | nil => exact (if_neg fun h => List.not_mem_nil h.2).symm
  | cons i t ih =>
    have hi : i < 16 := hl i List.mem_cons_self
    obtain ⟨hkept, hone⟩ := line_modLine hwf (16 * b + i) (fun x => { x with tripped := false })
    refine (ih (fun j hj => hl j (List.mem_cons_of_mem _ hj)) hkept).trans ?_
    rw [hone k]
    by_cases hk : k = 16 * b + i
    · have hunit : k / 16 = b := by omega
      have hpin : k % 16 = i := by omega
      rw [if_pos hk, if_pos (⟨hunit, by rw [hpin]; exact List.mem_cons_self⟩ : k / 16 = b ∧ k % 16 ∈ i :: t), ← hk]
      exact ite_self _
    · rw [if_neg hk]
      have hsame : (k / 16 = b ∧ k % 16 ∈ i :: t) ↔ (k / 16 = b ∧ k % 16 ∈ t) := by
        refine and_congr_right fun hunit => ⟨fun hmem => ?_, List.mem_cons_of_mem _⟩
        exact (List.mem_cons.mp hmem).resolve_left (by omega)
      rw [ite_of_iff hsame]

/-- Writes of the clear registers of a bank. -/
theorem lineTripClear_written {b : Nat} (hb : b < 8) (v : Nat) (hbar : barFree s = true) :
    hostWrite (0xE0208 + b * 0x10) v s = dlLineTripClear b (bits v 0 16) s := by
  have hblock : (0xE0208 + b * 0x10) / 0x10000 = 0x0E := by omega
  have hoff : (0xE0208 + b * 0x10) % 0x10000 = 0x208 + b * 0x10 := by omega
  have hbank : (0x208 + b * 0x10 - 0x200) / 0x10 = b := by omega
  have hreg : (0x208 + b * 0x10) % 0x10 = 0x8 := by omega
  unfold hostWrite
  rw [if_pos hbar]
  unfold csrWrite
  simp only [hblock, hoff]
  unfold writeDl
  rw [if_pos (by omega)]
  simp only [hbank, hreg]

theorem bankTripClear_written {b : Nat} (hb : b < 8) (hbar : barFree s = true) : hostWrite (0xE0200 + b * 0x10) 1 s = dlBankTripClear b s := by
  have hblock : (0xE0200 + b * 0x10) / 0x10000 = 0x0E := by omega
  have hoff : (0xE0200 + b * 0x10) % 0x10000 = 0x200 + b * 0x10 := by omega
  have hbank : (0x200 + b * 0x10 - 0x200) / 0x10 = b := by omega
  have hreg : (0x200 + b * 0x10) % 0x10 = 0x0 := by omega
  unfold hostWrite
  rw [if_pos hbar]
  unfold csrWrite
  simp only [hblock, hoff]
  unfold writeDl
  rw [if_pos (by omega)]
  simp only [hbank, hreg]
  rfl

theorem dlLineTripClear_lines {b mask : Nat} (hwf : swf {} s.dl.lines = true) :
    (∀ k, line (dlLineTripClear b mask s) k = if k / 16 = b ∧ bit mask (k % 16) = true then { line s k with tripped := false } else line s k)
    ∧ (dlLineTripClear b mask s).dl.banks = s.dl.banks := by
  have hmem : ∀ k, k % 16 ∈ (List.range 16).filter (fun i => bit mask i) ↔ bit mask (k % 16) = true := fun k => by
    rw [List.mem_filter, List.mem_range]
    exact and_iff_right (Nat.mod_lt _ (by decide))
  have hclear := fun k => line_clearTrips b _ (fun i hi => List.mem_range.mp (List.mem_filter.mp hi).1 : ∀ i ∈ (List.range 16).filter (fun i => bit mask i), i < 16) hwf k
  have hbanks : (forEach ((List.range 16).filter (fun i => bit mask i)) (fun i => modLine (16 * b + i) (fun x => { x with tripped := false })) s).dl.banks
      = s.dl.banks := forEach_keeps (g := fun t => t.dl.banks) _ s fun _ _ => rfl
  unfold dlLineTripClear
  dsimp only
  generalize forEach ((List.range 16).filter (fun i => bit mask i)) (fun i => modLine (16 * b + i) (fun x => { x with tripped := false })) s = v
    at hclear hbanks
  refine ⟨fun k => ?_, by rw [condEnd_dl]; exact hbanks⟩
  have hsame : line (condEnd 0x0801 (anyLineTripped v) v) k = line v k := by rw [line, line, condEnd_dl]
  rw [hsame, hclear k, ite_of_iff (and_congr_right fun _ => hmem k)]

/-! ## Banks -/

theorem dlBank_set {b : Nat} {f : DlBank → DlBank} (hf : f (dlBank s b) ≠ {}) {u : State} (hdl : u.dl = (modDlBank b f s).dl) :
    dlBank u b = f (dlBank s b) ∧ (∀ k, k ≠ b → dlBank u k = dlBank s k) ∧ u.dl.lines = s.dl.lines := by
  have hbank : ∀ k, dlBank u k = dlBank (modDlBank b f s) k := fun k => by rw [dlBank, dlBank, hdl]
  exact ⟨(hbank b).trans (sget_sput_ne _ _ _ _ hf), fun k hk => (hbank k).trans (sget_sput_other _ _ _ _ _ hk), by rw [hdl]; rfl⟩

theorem dlBank_clear {b : Nat} {f : DlBank → DlBank} (hwf : swf {} s.dl.banks = true) {u : State} (hdl : u.dl = (modDlBank b f s).dl) :
    dlBank u b = f (dlBank s b) ∧ u.dl.lines = s.dl.lines ∧ ∀ k, k ≠ b → dlBank u k = dlBank s k := by
  have hbank : ∀ k, dlBank u k = dlBank (modDlBank b f s) k := fun k => by rw [dlBank, dlBank, hdl]
  exact ⟨(hbank b).trans (sget_sput _ _ _ _ hwf), by rw [hdl]; rfl, fun k hk => (hbank k).trans (sget_sput_other _ _ _ _ _ hk)⟩

theorem mem_bankLines {b l : Nat} (h : l ∈ bankLines b) : l / 16 = b := by
  unfold bankLines upFrom at h
  obtain ⟨i, hi, rfl⟩ := List.mem_map.mp h
  rw [List.mem_range] at hi
  omega

theorem bankLines_off {b : Nat} (h : bankFault s b = true) : ∀ l ∈ bankLines b, lineDrive s l = none :=
  fun _ hl => lineDrive_bankFault (by rw [mem_bankLines hl]; exact h)

theorem dlBankTrip_trips {b sum us : Nat} (hopen : (dlBank s b).trip = false) (hdrives : ∃ l ∈ bankLines b, (lineDrive s l).isSome = true)
    (hload : bankRating s < sum) (hlong : 5000 ≤ us) : (dlBank (dlBankTrip b sum us s) b).trip = true
    ∧ (∀ l ∈ bankLines b, lineDrive (dlBankTrip b sum us s) l = none) ∧ (dlBankTrip b sum us s).dl.lines = s.dl.lines
    ∧ ∀ k, k ≠ b → dlBank (dlBankTrip b sum us s) k = dlBank s k := by
  have hany : (bankLines b).any (fun l => (lineDrive s l).isSome) = true := List.any_eq_true.mpr hdrives
  have htrip : dlBankTrip b sum us s = unitFault 0x0802 4 b (bump 0xE0308 (modDlBank b (fun x => { x with trip := true }) s)) := by
    unfold dlBankTrip
    refine if_neg ?_
    rw [hopen, hany, decide_eq_false (Nat.not_le.mpr hload), decide_eq_false (Nat.not_lt.mpr hlong)]
    decide
  have hdl : (dlBankTrip b sum us s).dl = (modDlBank b (fun x => { x with trip := true }) s).dl := by
    rw [htrip]
    exact detect_dl (s := bump 0xE0308 (modDlBank b (fun x => { x with trip := true }) s)) _ _
  obtain ⟨hown, hothers, hlines⟩ := dlBank_set (fun hdef => Bool.noConfusion (congrArg DlBank.trip hdef)) hdl
  generalize dlBankTrip b sum us s = u at hown hothers hlines
  exact ⟨by rw [hown], bankLines_off (by rw [bankFault, hown]; rfl), hlines, hothers⟩

theorem dlBankTrip_holds {b sum us : Nat} (h : (∀ l ∈ bankLines b, lineDrive s l = none) ∨ sum ≤ bankRating s ∨ us < 5000) :
    dlBankTrip b sum us s = s := by
  unfold dlBankTrip
  refine if_pos ?_
  obtain h | h | h := h
  · have hnone : (bankLines b).any (fun l => (lineDrive s l).isSome) = false := List.any_eq_false.mpr fun l hl => by rw [h l hl]; decide
    rw [hnone]; simp
  · rw [decide_eq_true h]; simp
  · rw [decide_eq_true h]; simp

theorem dlBankUv_falls {b : Nat} (hgood : (dlBank s b).uv = false) : (dlBank (dlBankUv b true s) b).uv = true
    ∧ (∀ l ∈ bankLines b, lineDrive (dlBankUv b true s) l = none) ∧ (dlBankUv b true s).dl.lines = s.dl.lines
    ∧ ∀ k, k ≠ b → dlBank (dlBankUv b true s) k = dlBank s k := by
  have hfall : dlBankUv b true s = unitFault 0x0803 4 b (modDlBank b (fun x => { x with uv := true }) s) := by
    unfold dlBankUv
    rw [if_neg (by rw [hgood]; decide)]
    rfl
  have hdl : (dlBankUv b true s).dl = (modDlBank b (fun x => { x with uv := true }) s).dl := by
    rw [hfall]
    exact detect_dl (s := modDlBank b (fun x => { x with uv := true }) s) _ _
  obtain ⟨hown, hothers, hlines⟩ := dlBank_set (fun hdef => Bool.noConfusion (congrArg DlBank.uv hdef)) hdl
  generalize dlBankUv b true s = u at hown hothers hlines
  exact ⟨by rw [hown], bankLines_off (by rw [bankFault, hown]; exact Bool.or_true _), hlines, hothers⟩

theorem dlBankUv_recovers {b : Nat} (hlow : (dlBank s b).uv = true) (hwf : swf {} s.dl.banks = true) :
    dlBank (dlBankUv b false s) b = { dlBank s b with uv := false } ∧ (dlBankUv b false s).dl.lines = s.dl.lines
    ∧ ∀ k, k ≠ b → dlBank (dlBankUv b false s) k = dlBank s k := by
  refine dlBank_clear (f := fun x => { x with uv := false }) hwf ?_
  unfold dlBankUv
  rw [if_neg (by rw [hlow]; decide)]
  exact condEnd_dl ..

theorem dlBankTripClear_clears {b : Nat} (hwf : swf {} s.dl.banks = true) : dlBank (dlBankTripClear b s) b = { dlBank s b with trip := false }
    ∧ (dlBankTripClear b s).dl.lines = s.dl.lines ∧ ∀ k, k ≠ b → dlBank (dlBankTripClear b s) k = dlBank s k :=
  dlBank_clear (f := fun x => { x with trip := false }) hwf (condEnd_dl ..)

end

/-! ## Engines -/

section
variable {e : Nat} {s : State}

theorem engine_st {k : LeSt} (h : leState s e = k) (hoff : k ≠ .off) (hidle : k ≠ .idle) : (engine s e).st = k := by
  unfold leState at h
  split at h
  · exact absurd h.symm hoff
  · split at h
    · exact absurd h.symm hidle
    · exact h

theorem engineStart_due (harmed : leState s e = .armed) (hlive : fieldLive s = true) (hdue : (engine s e).startTick ≤ tickNow s) :
    engineStart e s = startNow e s := by
  unfold engineStart
  exact if_pos ⟨harmed, hdue, hlive⟩

theorem engineStart_waits (h : leState s e ≠ .armed ∨ tickNow s < (engine s e).startTick) : engineStart e s = s := by
  unfold engineStart
  refine if_neg fun hall => ?_
  obtain h | h := h
  · exact h hall.1
  · exact absurd hall.2.1 (by omega)

theorem engineStep_rests {ns : Nat} (h : leActive (leState s e) = false ∨ leState s e = .armed ∨ atEdge s e ns = false) : engineStep e ns s = s := by
  unfold engineStep
  dsimp only
  refine if_pos ?_
  obtain h | h | h := h
  · rw [h]; rfl
  · rw [h]; rfl
  · rw [h]; simp

theorem atEdge_iff (ns : Nat) : atEdge s e ns = true ↔ (engine s e).nextEdge ≤ ns
    ∧ (ns - (engine s e).nextEdge) % (5 * (leFld s e 0x004 0 16 + 1)) = 0 ∧ ns / 500 = tickNow s := by
  unfold atEdge edgeNs
  simp only [Bool.and_eq_true, decide_eq_true_eq, beq_iff_eq, and_assoc]

/-- The hub in which a running engine takes its edge at `ns`. -/
theorem engineStep_takes {ns : Nat} (hrun : leState s e = .run) (hlive : fieldLive s = true) (hedge : atEdge s e ns = true) :
    ∃ es, engineStep e ns s = takeEdge e { s with engines := es }
      ∧ engine { s with engines := es } e = { engine s e with nextEdge := ns + edgeNs s e }
      ∧ (∀ k, k ≠ e → engine { s with engines := es } k = engine s k) ∧ leState { s with engines := es } e = .run := by
  have hst := engine_st hrun (by decide) (by decide)
  have hown : engine (modEngine e (fun x => { x with nextEdge := ns + edgeNs s e }) s) e = { engine s e with nextEdge := ns + edgeNs s e } :=
    engine_modEngine_on e (by dsimp only; rw [hst]; decide)
  have hstep : engineStep e ns s = takeEdge e (modEngine e (fun x => { x with nextEdge := ns + edgeNs s e }) s) := by
    unfold engineStep
    dsimp only
    rw [hrun, hlive, hedge]
    rfl
  have hothers : ∀ k, k ≠ e → engine (modEngine e (fun x => { x with nextEdge := ns + edgeNs s e }) s) k = engine s k :=
    fun k hk => engine_modEngine_other s e k _ hk
  obtain ⟨es, hes⟩ : ∃ es, modEngine e (fun x => { x with nextEdge := ns + edgeNs s e }) s = { s with engines := es } := ⟨_, rfl⟩
  rw [hes] at hown hstep hothers
  refine ⟨es, hstep, hown, hothers, ?_⟩
  have hen : leEn { s with engines := es } e = leEn s e := rfl
  have hstate : leState s e = leState { s with engines := es } e := by
    unfold leState
    rw [hown, hen]
  rw [← hstate, hrun]

/-- Only the grid of an engine moved: it sees the same inputs. -/
theorem sameInputs {es : Sparse Engine} {n : Nat} (hown : engine { s with engines := es } e = { engine s e with nextEdge := n }) :
    leInputs { s with engines := es } e = leInputs s e ∧ pullVisible { s with engines := es } e = pullVisible s e
    ∧ tickPendNow { s with engines := es } e = tickPendNow s e := by
  have hpull : pullVisible { s with engines := es } e = pullVisible s e := by
    unfold pullVisible
    rw [hown]
  have htick : tickPendNow { s with engines := es } e = tickPendNow s e := by
    unfold tickPendNow
    rw [hown]
    rfl
  have hone : ∀ src, leInput { s with engines := es } e src = leInput s e src := fun src => by
    unfold leInput
    rw [hpull, htick, hown]
    rfl
  refine ⟨?_, hpull, htick⟩
  unfold leInputs
  simp only [hone]
  rfl

/-! ## One entry (R332 to R334) -/

/-- What an entry with inputs `ins` makes of an engine, by its action. -/
structure Acted (s : State) (e ent ins : Nat) (x y : Engine) : Prop where
  nextEdge : y.nextEdge = x.nextEdge
  st : y.st = if bits ent 5 3 = 6 then .wait else .run
  lstate : y.lstate = bits ent 18 6
  enables : y.enables = leFld s e 0x018 (8 * bits ent 8 2) 8
  outs : bits ent 5 3 ≠ 2 → y.outs = bits ent 10 8
  nothing : bits ent 5 3 = 0 → y.shift = x.shift ∧ y.count = x.count ∧ y.counter = x.counter ∧ y.push = x.push ∧ y.pull = x.pull
  shiftsIn : bits ent 5 3 = 1 → y.shift = shiftIn (leMsb s e) (leWidth s e) x.shift (bit ins (bits ent 0 5 % 8))
    ∧ y.count = min (leWidth s e) (x.count + 1)
  shiftsOut : bits ent 5 3 = 2 → y.shift = (shiftOut (leMsb s e) (leWidth s e) x.shift).2 ∧ y.count = min (leWidth s e) (x.count + 1)
  pushesShift : bits ent 5 3 = 3 → bits ent 0 5 % 2 = 0 → y.push = x.push ++ [(x.shift, tickNow s)] ∧ y.shift = 0 ∧ y.count = 0
  pushesCounter : bits ent 5 3 = 3 → bits ent 0 5 % 2 = 1 → y.push = x.push ++ [(x.counter, tickNow s)] ∧ y.shift = x.shift
  pulls : ∀ v t, bits ent 5 3 = 4 → pullVisible s e = v :: t → y.pull = x.pull.erase v ∧ y.shift = v.1 % 2 ^ leWidth s e ∧ y.count = 0
  counts : bits ent 5 3 = 5 → bits ent 0 5 % 4 = 0 → y.counter = (x.counter + 1) % 2 ^ 32
  loads : bits ent 5 3 = 5 → bits ent 0 5 % 4 = 2 → y.counter = csr s (leAddr e 0x020)
  waits : bits ent 5 3 = 6 → y.waitTick = tickNow s + bits ent 0 5 + 1
  tells : bits ent 5 3 = 7 → y.evtPend = true ∧ y.evtCode = bits ent 0 5

theorem applyEntry_acts (e ent ins : Nat) (s : State) : Acted s e ent ins (engine s e) (engine (applyEntry e ent ins s) e)
    ∧ (∀ k, k ≠ e → engine (applyEntry e ent ins s) k = engine s k) ∧ (applyEntry e ent ins s).chans = s.chans
    ∧ (applyEntry e ent ins s).maps = s.maps ∧ (applyEntry e ent ins s).cmd = s.cmd := by
  unfold applyEntry
  extract_lets x w msb act arg out0 en t base o y v c
  have hact : act < 8 := Nat.mod_lt _ (by decide)
  have h0 : act = 0 → y = base := fun h => by simp only [y, h]
  have h1 : act = 1 → y = { base with shift := shiftIn msb w x.shift (bit ins (arg % 8)), count := min w (x.count + 1) } := fun h => by simp only [y, h]
  have h2 : act = 2 → y = { base with shift := o.2, count := min w (x.count + 1), outs := setBits out0 (arg % 8) 1 (b2n o.1) } := fun h => by simp only [y, h]
  have h3 : act = 3 → y = if arg % 2 = 0 then { base with push := x.push ++ [(x.shift, t)], shift := 0, count := 0, tickPend := false }
      else { base with push := x.push ++ [(x.counter, t)], tickPend := false } := fun h => by simp only [y, h]
  have h4 : act = 4 → (pullVisible s e = [] → y = base)
      ∧ ∀ v r, pullVisible s e = v :: r → y = { base with pull := x.pull.erase v, shift := v.1 % 2 ^ w, count := 0 } := fun h =>
    ⟨fun hnone => by simp only [y, h, hnone], fun v r hsome => by simp only [y, h, hsome]⟩
  have h5 : act = 5 → ∃ n, y = { base with counter := n } ∧ (arg % 4 = 0 → n = (x.counter + 1) % 2 ^ 32)
      ∧ (arg % 4 = 2 → n = csr s (leAddr e 0x020)) := fun h =>
    ⟨_, by simp only [y, h]; rfl, fun h0 => by simp only [h0], fun h2 => by simp only [h2]⟩
  have h6 : act = 6 → y = { base with st := .wait, waitTick := t + arg + 1 } := fun h => by simp only [y, h]
  have h7 : act = 7 → y = { base with evtCode := arg, evtPend := true } := fun h => by simp only [y, h]
  have hfixed : y.nextEdge = x.nextEdge ∧ y.st = (if act = 6 then .wait else .run) ∧ y.lstate = bits ent 18 6 ∧ y.enables = en
      ∧ (act ≠ 2 → y.outs = out0) := by
    obtain h | h | h | h | h | h | h | h : act = 0 ∨ act = 1 ∨ act = 2 ∨ act = 3 ∨ act = 4 ∨ act = 5 ∨ act = 6 ∨ act = 7 := by omega
    · rw [h0 h, h]; exact ⟨rfl, rfl, rfl, rfl, fun _ => rfl⟩
    · rw [h1 h, h]; exact ⟨rfl, rfl, rfl, rfl, fun _ => rfl⟩
    · rw [h2 h, h]; exact ⟨rfl, rfl, rfl, rfl, fun hne => absurd rfl hne⟩
    · rw [h3 h, h]
      split
      · exact ⟨rfl, rfl, rfl, rfl, fun _ => rfl⟩
      · exact ⟨rfl, rfl, rfl, rfl, fun _ => rfl⟩
    · obtain ⟨hnone, hsome⟩ := h4 h
      cases hvis : pullVisible s e with
      | nil => rw [hnone hvis, h]; exact ⟨rfl, rfl, rfl, rfl, fun _ => rfl⟩
      | cons v r => rw [hsome v r hvis, h]; exact ⟨rfl, rfl, rfl, rfl, fun _ => rfl⟩
    · obtain ⟨n, hn, -, -⟩ := h5 h
      rw [hn, h]; exact ⟨rfl, rfl, rfl, rfl, fun _ => rfl⟩
    · rw [h6 h, h]; exact ⟨rfl, rfl, rfl, rfl, fun _ => rfl⟩
    · rw [h7 h, h]; exact ⟨rfl, rfl, rfl, rfl, fun _ => rfl⟩
  obtain ⟨hedge, hst, hstate, hen, houts⟩ := hfixed
  have hacted : Acted s e ent ins x y := {
    nextEdge := hedge
    st := hst
    lstate := hstate
    enables := hen
    outs := houts
    nothing := fun h => by rw [h0 h]; exact ⟨rfl, rfl, rfl, rfl, rfl⟩
    shiftsIn := fun h => by rw [h1 h]; exact ⟨rfl, rfl⟩
    shiftsOut := fun h => by rw [h2 h]; exact ⟨rfl, rfl⟩
    pushesShift := fun h heven => by rw [h3 h, if_pos heven]; exact ⟨rfl, rfl, rfl⟩
    pushesCounter := fun h hodd => by
      have hne : ¬ arg % 2 = 0 := fun heven => absurd (heven.symm.trans hodd) (by decide)
      rw [h3 h, if_neg hne]; exact ⟨rfl, rfl⟩
    pulls := fun v r h hvis => by rw [(h4 h).2 v r hvis]; exact ⟨rfl, rfl, rfl⟩
    counts := fun h hinc => by
      obtain ⟨n, hn, hzero, -⟩ := h5 h
      rw [hn]; exact hzero hinc
    loads := fun h hload => by
      obtain ⟨n, hn, -, htwo⟩ := h5 h
      rw [hn]; exact htwo hload
    waits := fun h => by rw [h6 h]
    tells := fun h => by rw [h7 h]; exact ⟨rfl, rfl⟩ }
  have hon : y.st ≠ .off := by
    rw [hst]
    split
    · decide
    · decide
  have hown : engine (setEngine e y s) e = y := sget_sput_ne _ _ _ _ fun hdef => hon (by rw [hdef])
  have hothers : ∀ k, k ≠ e → engine (setEngine e y s) k = engine s k := fun k hk => sget_sput_other _ _ _ _ _ hk
  have hv : v.engines = (setEngine e y s).engines ∧ v.chans = s.chans ∧ v.maps = s.maps ∧ v.cmd = s.cmd :=
    ⟨drivePins_engines _ _, drivePins_keeps (g := State.chans) (fun _ _ _ => rfl) _ _, drivePins_keeps (g := State.maps) (fun _ _ _ => rfl) _ _,
      drivePins_cmd _ _⟩
  clear_value y v
  obtain ⟨hengines, hchans, hmaps, hcmd⟩ := hv
  have hlast : ∃ u, (if act = 7 then (if leFld c e 0 15 1 = 1 then unitFault 0x0804 1 e c else c) else v) = u
      ∧ u.engines = v.engines ∧ u.chans = v.chans ∧ u.maps = v.maps ∧ u.cmd = v.cmd := by
    refine ⟨_, rfl, ?_⟩
    split
    · split
      · exact ⟨detect_engines c _ _, detect_chans c _ _, detect_maps c _ _, detect_cmd c _ _⟩
      · exact ⟨rfl, rfl, rfl, rfl⟩
    · exact ⟨rfl, rfl, rfl, rfl⟩
  obtain ⟨u, hu, hue, huc, hum, hucmd⟩ := hlast
  rw [hu]
  have hsame := engine_of_engines (hue.trans hengines)
  refine ⟨by rw [hsame, hown]; exact hacted, fun k hk => (hsame k).trans (hothers k hk), huc.trans hchans, hum.trans hmaps, hucmd.trans hcmd⟩

/-! ## Edges (R336, R340) -/

theorem haltNow_unasked (h : (engine s e).halting = []) : haltNow e s = haltedPins e s := by
  unfold haltNow haltedPins
  dsimp only
  rw [h]
  rfl

theorem takeEdge_halts (hpend : (engine s e).haltPend = true) : takeEdge e s = haltNow e s := by
  unfold takeEdge
  exact if_pos hpend

/-- An edge of a running engine: its entry stalls, or is applied whole. -/
theorem takeEdge_runs {ent : Nat} (hpend : (engine s e).haltPend = false) (hrun : leState s e = .run) (hstalled : (engine s e).stalled = none)
    (hent : ent = (sget 0 (engine s e).table ((engine s e).lstate * 256 + leInputs s e)).toNat) :
    (∀ k, stallOf s e (bits ent 5 3) = some k → takeEdge e s = stallTicks e (bump (leAddr e 0x080) (modEngine e (fun x => { x with
        st := k, stalled := some (BitVec.ofNat 24 ent), tickPend := tickPendNow s e, lastTick := tickNow s }) s)))
    ∧ (stallOf s e (bits ent 5 3) = none → takeEdge e s = applyEntry e ent (leInputs s e) s) := by
  have hgo : ¬ (leState s e = .wait ∧ tickNow s < (engine s e).waitTick) := fun h => by
    rw [hrun] at h
    exact LeSt.noConfusion h.1
  unfold takeEdge
  dsimp only
  rw [hpend, if_neg Bool.false_ne_true, if_neg hgo, hstalled]
  dsimp only
  rw [← hent]
  refine ⟨fun k hk => ?_, fun hnone => ?_⟩
  · rw [hk]
    rfl
  · rw [hnone]

theorem stallTicks_counts (h : (engine s e).stalled.isSome = true) : stallTicks e s = bump (leAddr e 0x084) s := by
  unfold stallTicks
  exact if_pos h

/-- A counter counted up reads by its word before. -/
theorem slook_bump (a : Nat) (s : State) : slook (bump a s).csr a = some (BitVec.ofNat 32 (min 0xFFFFFFFF (wordOr s a 0 + 1))) := by
  unfold bump bumpBy
  dsimp only
  rw [if_neg (by omega)]
  exact slook_sins _ _ _

theorem csr_bump_twice {a b : Nat} (hne : a ≠ b) {w : State} (hcsr : w.csr = s.csr) (hcfg : w.cfgRegs = s.cfgRegs) :
    csr (bump b (bump a w)) a = csr (bump a s) a ∧ csr (bump b (bump a w)) b = csr (bump b s) b := by
  have hword : ∀ c, wordOr w c 0 = wordOr s c 0 := fun c => by rw [wordOr, wordOr, hcsr, hcfg]
  have hone := sameWord_bump (bump a w) (a := b) hne
  have htwo := sameWord_bump w (a := a) (b := b) hne.symm
  have hkept : wordOr (bump a w) b 0 = wordOr w b 0 := by rw [wordOr, wordOr, htwo.word, htwo.cfg]
  refine ⟨?_, ?_⟩
  · rw [csr, csr, hone.word, slook_bump, slook_bump, hword]
  · rw [csr, csr, slook_bump, slook_bump, hkept, hword]

/-- What a stall leaves (R336). -/
theorem stalls {k : LeSt} {ent : Nat} {v : BitVec 24} (hk : k ≠ .off) (hv : v = BitVec.ofNat 24 ent) :
    ∃ u, stallTicks e (bump (leAddr e 0x080) (modEngine e (fun x => { x with
        st := k, stalled := some (BitVec.ofNat 24 ent), tickPend := tickPendNow s e, lastTick := tickNow s }) s)) = u
      ∧ engine u e = { engine s e with st := k, stalled := some v, tickPend := tickPendNow s e, lastTick := tickNow s }
      ∧ (∀ j, j ≠ e → engine u j = engine s j) ∧ u.dl = s.dl ∧ csr u (leAddr e 0x080) = csr (bump (leAddr e 0x080) s) (leAddr e 0x080)
      ∧ csr u (leAddr e 0x084) = csr (bump (leAddr e 0x084) s) (leAddr e 0x084) := by
  rw [hv]
  have hown := engine_modEngine_on e (u := s) (f := fun x => { x with
    st := k, stalled := some (BitVec.ofNat 24 ent), tickPend := tickPendNow s e, lastTick := tickNow s }) hk
  obtain ⟨w, hw, hcsr, hcfg, hdl, hothers⟩ : ∃ w, modEngine e (fun x => { x with
      st := k, stalled := some (BitVec.ofNat 24 ent), tickPend := tickPendNow s e, lastTick := tickNow s }) s = w
      ∧ w.csr = s.csr ∧ w.cfgRegs = s.cfgRegs ∧ w.dl = s.dl ∧ ∀ j, j ≠ e → engine w j = engine s j :=
    ⟨_, rfl, rfl, rfl, rfl, fun j hj => engine_modEngine_other s e j _ hj⟩
  rw [hw] at hown
  rw [hw]
  have hcount : stallTicks e (bump (leAddr e 0x080) w) = bump (leAddr e 0x084) (bump (leAddr e 0x080) w) :=
    stallTicks_counts (s := bump (leAddr e 0x080) w) (by
      have hsame : engine (bump (leAddr e 0x080) w) e = engine w e := rfl
      rw [hsame, hown]
      rfl)
  obtain ⟨hfirst, hsecond⟩ := csr_bump_twice (a := leAddr e 0x080) (b := leAddr e 0x084) (by unfold leAddr; omega) hcsr hcfg
  have hsame : ∀ j, engine (bump (leAddr e 0x084) (bump (leAddr e 0x080) w)) j = engine w j := fun _ => rfl
  exact ⟨_, hcount, (hsame e).trans hown, fun j hj => (hsame j).trans (hothers j hj), hdl, hfirst, hsecond⟩

/-! ## Controls (R342, R343) -/

theorem leCtl_written (he : e < 32) (v : Nat) (hbar : barFree s = true) : hostWrite (leAddr e 0x040) v s = leCtl e v s := by
  have hblock : leAddr e 0x040 / 0x10000 = 0x0C ∨ leAddr e 0x040 / 0x10000 = 0x0D := by unfold leAddr; omega
  have hunit : (leAddr e 0x040 - 0xC0000) / 0x1000 = e := by unfold leAddr; omega
  have hoff : leAddr e 0x040 % 0x1000 = 0x040 := by unfold leAddr; omega
  unfold hostWrite
  rw [if_pos hbar]
  unfold csrWrite
  obtain h | h := hblock
  all_goals
    simp only [h, hunit, hoff]
    rfl

theorem leCtl_halt (h : leActive (leState s e) = false) : leCtl e 1 s = s := by
  have hact : leCtl e 1 s = if leActive (leState s e) then askHalt e none s else s := rfl
  rw [hact, h, if_neg Bool.false_ne_true]

theorem leCtl_halt_run (hrun : leState s e = .run) : leCtl e 1 s = modEngine e (fun x => { x with haltPend := true }) s := by
  have hact : leCtl e 1 s = if leActive (leState s e) then askHalt e none s else s := rfl
  have hask : leCtl e 1 s = askHalt e none s := by
    rw [hact, hrun]
    rfl
  have hsame : modEngine e (fun x => { x with haltPend := true, halting := x.halting ++ (none : Option (Nat × Tag)).toList }) s
      = modEngine e (fun x => { x with haltPend := true }) s := by
    unfold modEngine
    dsimp only
    rw [Option.toList_none, List.append_nil]
  rw [hask]
  unfold askHalt
  dsimp only
  rw [hrun, if_neg (by decide), hsame]

theorem leCtl_restart (h : leState s e = .idle ∨ leState s e = .halted) : leCtl e 2 s =
    modEngine e (fun x => { x with st := .armed, startTick := tickNow s + 40, keepShift := false, haltPend := false }) s := by
  have hgo : leCtl e 2 s = (restart e (tickNow s) false s).2 := rfl
  rw [hgo]
  unfold restart
  dsimp only
  obtain h | h := h
  · rw [h, if_neg (by decide), if_neg (by decide), if_neg (by simp)]
    rfl
  · rw [h, if_neg (by decide), if_neg (by decide), if_neg (by simp)]
    rfl

theorem leCtl_restart_active (h : leActive (leState s e) = true) : leCtl e 2 s = s := by
  have hgo : leCtl e 2 s = (restart e (tickNow s) false s).2 := rfl
  rw [hgo]
  unfold restart
  dsimp only
  rw [if_neg (leActive_on h), if_pos h]

theorem engineReset_rests (hst : (engine s e).st = .halted) (hrest : leActive (leState s e) = false) :
    engine (engineReset e s) e = { engine s e with
      lstate := 0, shift := 0, count := 0, counter := 0, push := [], pull := [], tickPend := false, lastTick := tickNow s, evtCode := 0, evtPend := false
      stalled := none, haltPend := false, abandoned := false }
    ∧ ∀ k, k ≠ e → engine (engineReset e s) k = engine s k := by
  have hreset : engineReset e s = bumpBy (leAddr e 0x08C) ((engine s e).push.length + (engine s e).pull.length) (modEngine e (fun x => { x with
      lstate := 0, shift := 0, count := 0, counter := 0, push := [], pull := [], tickPend := false, lastTick := tickNow s, evtCode := 0, evtPend := false
      stalled := none, haltPend := false, abandoned := false }) s) := by
    unfold engineReset
    dsimp only
    rw [hrest]
    rfl
  rw [hreset]
  have hsame : ∀ (a n : Nat) (v : State) k, engine (bumpBy a n v) k = engine v k := fun _ _ _ _ => rfl
  refine ⟨(hsame _ _ _ e).trans (engine_modEngine_on e (by rw [hst]; decide)), fun k hk => (hsame _ _ _ k).trans (engine_modEngine_other s e k _ hk)⟩

/-- A write of LE_CTL that has RESET beside HALT or RESTART. -/
theorem leCtl_reset_first : ∀ v : BitVec 4, v.getLsbD 3 = true → ∀ b ∈ [1, 2],
    1 < b2n (bit (Nat.lor v.toNat b) 0) + b2n (bit (Nat.lor v.toNat b) 1) + b2n (bit (Nat.lor v.toNat b) 3) ∧ bit (Nat.lor v.toNat b) 3 = true := by decide

theorem leCtl_several {w : Nat} (h : 1 < b2n (bit w 0) + b2n (bit w 1) + b2n (bit w 3)) (hreset : bit w 3 = true) :
    leCtl e w s = engineReset e (setFld 0x008 0 1 1 s) := by
  unfold leCtl
  dsimp only
  rw [hreset, if_pos rfl]
  have hbad : onlyIf (decide (b2n (bit w 0) + b2n (bit w 1) + b2n true > 1)) (sysErr 0) s = sysErr 0 s := by
    rw [← hreset]
    exact if_pos (decide_eq_true h)
  rw [hbad]
  rfl

end

/-- Settles O57, by the edges, trips and supply of lines, and by the start, the edge and the controls of an engine. -/
theorem lineAndEngineEvents : Obligations.LineAndEngineEvents := by
  unfold Obligations.LineAndEngineEvents
  refine ⟨fun s => ⟨fun l lv t held hawake => ?edge, fun l held hawake => ?glitch, fun l ma us fetC hout hopen => ?trip, fun b mask hbar hwf => ?lineClear,
      fun b sum us hopen => ?bank, fun b hbar hwf => ⟨_, commit_goOn s _, ?bankClear⟩, fun b hgood => ⟨_, commit_goOn s _, dlBankUv_falls hgood⟩,
      fun b hlow hwf => ⟨_, commit_goOn s _, dlBankUv_recovers hlow hwf⟩, fun b low hsame => effectIs_eq ?uvSame⟩,
    fun e s hawake => ⟨fun harmed hlive => ?start, fun hother => effectIs_eq ?noStart, fun ns hrest => effectIs_eq ?rest, fun ns => atEdge_iff ns,
      fun ns hrun hlive hedge hpend hnone => ⟨_, commit_goOn s _, ?halt⟩, fun x ent ns hx hrun hlive hedge hpend hstalled hent => ?step,
      fun hbar => ?controls⟩⟩
  case edge =>
    obtain ⟨hsame, hsampled, hdark⟩ := discreteEdge_cases (s := s) l.val lv t held
    exact ⟨fun h => effectIs_eq ((if_pos hawake).trans (hsame h)), fun h hmode hup =>
      ⟨fun hlong => effectIs_eq ((if_pos hawake).trans ((hsampled h hmode hup).1 hlong)),
        fun hshort => effectIs_eq ((if_pos hawake).trans ((hsampled h hmode hup).2 hshort))⟩, fun h hoff => effectIs_eq ((if_pos hawake).trans (hdark h hoff))⟩
  case glitch =>
    exact ⟨fun hmode hup hshort => effectIs_eq ((if_pos hawake).trans (lineGlitch_counts hmode hup hshort)),
      fun hnone => effectIs_eq ((if_pos hawake).trans (lineGlitch_none hnone))⟩
  case trip =>
    rw [← lineLimit_eq]
    exact ⟨fun hwhy => ⟨_, commit_goOn s _, dlLineTrip_trips hout hopen hwhy⟩, fun hcool hfree => effectIs_eq (dlLineTrip_holds hcool hfree)⟩
  case lineClear =>
    refine ⟨_, commit_goOn s _, ?_⟩
    have hmask : bits mask.toNat 0 16 = mask.toNat := by
      unfold bits
      rw [Nat.shiftRight_zero]
      exact Nat.mod_eq_of_lt mask.isLt
    have hbit : ∀ i, bit mask.toNat i = mask.getLsbD i := fun i => by
      rw [BitVec.getLsbD, Nat.testBit_eq_decide_div_mod_eq, bit, Nat.shiftRight_eq_div_pow]
      rfl
    obtain ⟨hlines, hbanks⟩ := dlLineTripClear_lines (s := s) (b := b.val) (mask := mask.toNat) hwf
    rw [lineTripClear_written b.isLt _ hbar, hmask]
    generalize dlLineTripClear b.val mask.toNat s = u at hlines hbanks
    refine ⟨fun i hi hset => ?_, fun k hk => ?_, hbanks⟩
    · rw [hlines, if_pos ⟨by omega, by rw [hbit, show (16 * b.val + i) % 16 = i by omega]; exact hset⟩]
    · rw [hlines, if_neg]
      rintro ⟨hbank, hset⟩
      rw [hbit] at hset
      exact hk (k % 16) (Nat.mod_lt _ (by decide)) hset (by omega)
  case bank =>
    have hrating : bankRating s = if orderCode s = 2 then 1600 else 2000 := rfl
    rw [← hrating]
    exact ⟨fun hdrives hload hlong => ⟨_, commit_goOn s _, dlBankTrip_trips hopen hdrives hload hlong⟩, fun hfree => effectIs_eq (dlBankTrip_holds hfree)⟩
  case bankClear =>
    rw [bankTripClear_written b.isLt hbar]
    exact dlBankTripClear_clears hwf
  case uvSame => exact if_pos hsame
  case start =>
    exact ⟨fun hdue => effectIs_eq ((if_pos hawake).trans (engineStart_due harmed hlive hdue)),
      fun hearly => effectIs_eq ((if_pos hawake).trans (engineStart_waits (.inr hearly)))⟩
  case noStart => exact (if_pos hawake).trans (engineStart_waits (.inl hother))
  case rest => exact (if_pos hawake).trans (engineStep_rests hrest)
  case halt =>
    obtain ⟨es, hstep, hown, hothers, -⟩ := engineStep_takes hrun hlive hedge
    have hfield : onField (engineStep e.val ns) s = engineStep e.val ns s := if_pos hawake
    rw [hfield, hstep, takeEdge_halts (by rw [hown]; exact hpend), haltNow_unasked (by rw [hown]; exact hnone)]
    have hkeep := fun k hk => engine_haltedPins_other e.val k { s with engines := es } hk
    obtain ⟨outs, enables, hhalted⟩ := engine_haltedPins e.val { s with engines := es }
    rw [hhalted, hown]
    exact ⟨rfl, rfl, rfl, rfl, rfl, fun k hk => (hkeep k hk).trans (hothers k hk)⟩
  case step =>
    obtain ⟨es, hstep, hown, hothers, hrun'⟩ := engineStep_takes hrun hlive hedge
    obtain ⟨hinputs, hvisible, htick⟩ := sameInputs hown
    rw [hx] at hown
    obtain ⟨hstalls, hruns⟩ := takeEdge_runs (s := { s with engines := es }) (e := e.val) (ent := ent) (by rw [hown]; exact hpend) hrun'
      (by rw [hown]; exact hstalled) (by rw [hown, hinputs]; exact hent)
    have hfield : onField (engineStep e.val ns) s = takeEdge e.val { s with engines := es } := (if_pos hawake).trans hstep
    have hcount : ∀ a, csr (bump a { s with engines := es }) a = csr (bump a s) a := fun a => by
      rw [csr, csr, slook_bump, slook_bump]
      rfl
    refine ⟨fun hact hfull => ⟨_, commit_goOn s _, ?_⟩, fun hact hlater => ⟨_, commit_goOn s _, ?_⟩, fun hroom hword => ⟨_, commit_goOn s _, ?_⟩⟩
    · have hstall : stallOf { s with engines := es } e.val (bits ent 5 3) = some .stallPush := if_pos ⟨hact, by rw [hown]; exact hfull⟩
      obtain ⟨u, hu, hend, hkeep, hdl, hfirst, hsecond⟩ := stalls (s := { s with engines := es }) (e := e.val) (k := .stallPush) (ent := ent)
        (by decide) rfl
      rw [hfield, hstalls _ hstall, hu]
      refine ⟨?_, hfirst.trans (hcount _), hsecond.trans (hcount _), hdl, fun k hk => (hkeep k hk).trans (hothers k hk)⟩
      rw [hend, hown, htick]
      rfl
    · have hnone : pullVisible { s with engines := es } e.val = [] := by
        rw [hvisible, pullVisible, hx]
        exact List.filter_eq_nil_iff.mpr fun w hw => by
          rw [decide_eq_true_eq]
          exact Nat.not_le.mpr (hlater w hw)
      have hstall : stallOf { s with engines := es } e.val (bits ent 5 3) = some .stallPull := by
        unfold stallOf
        rw [if_neg (by rw [hact]; simp), if_pos ⟨hact, by rw [hnone]; rfl⟩]
      obtain ⟨u, hu, hend, -, hdl, -, -⟩ := stalls (s := { s with engines := es }) (e := e.val) (k := .stallPull) (ent := ent) (by decide) rfl
      rw [hfield, hstalls _ hstall, hu]
      dsimp only
      rw [hend, hown]
      exact ⟨rfl, rfl, rfl, rfl, hdl⟩
    · have hfirst : ∀ v q t, x.pull = (v, q) :: t → q ≤ s.time.up → ∃ r, pullVisible { s with engines := es } e.val = (v, q) :: r :=
        fun v q t hpull hq => ⟨_, by rw [hvisible, pullVisible, hx, hpull]; exact List.filter_cons_of_pos (decide_eq_true hq)⟩
      have hgo : stallOf { s with engines := es } e.val (bits ent 5 3) = none := by
        unfold stallOf
        have hfits : ¬ (bits ent 5 3 = 3 ∧ (engine { s with engines := es } e.val).push.length ≥ 16) := fun hfull => by
          rw [hown] at hfull
          exact absurd hfull.2 (Nat.not_le.mpr (hroom hfull.1))
        have hhas : ¬ (bits ent 5 3 = 4 ∧ (pullVisible { s with engines := es } e.val).isEmpty = true) := fun hempty => by
          obtain ⟨v, q, t, hpull, hq⟩ := hword hempty.1
          obtain ⟨r, hr⟩ := hfirst v q t hpull hq
          rw [hr] at hempty
          exact Bool.false_ne_true hempty.2
        rw [if_neg hfits, if_neg hhas]
      obtain ⟨hacted, hkeep, hchans, hmaps, hcmd⟩ := applyEntry_acts e.val ent (leInputs { s with engines := es } e.val) { s with engines := es }
      rw [hfield, hruns hgo]
      generalize applyEntry e.val ent (leInputs { s with engines := es } e.val) { s with engines := es } = u at hacted hkeep hchans hmaps hcmd
      rw [hown, hinputs] at hacted
      refine ⟨hacted.nextEdge, hacted.st, hacted.lstate, hacted.enables, hacted.outs, hacted.nothing, hacted.shiftsIn, hacted.shiftsOut,
        hacted.pushesShift, hacted.pushesCounter, fun v q t hact hpull => ?_, hacted.counts, hacted.loads, hacted.waits, hacted.tells,
        fun k hk => (hkeep k hk).trans (hothers k hk), hchans, hmaps, hcmd⟩
      obtain ⟨v', q', t', hpull', hq'⟩ := hword hact
      obtain ⟨⟨rfl, rfl⟩, rfl⟩ : (v' = v ∧ q' = q) ∧ t' = t := by
        rw [hpull'] at hpull
        simpa using hpull
      obtain ⟨r, hr⟩ := hfirst v' q' t' hpull' hq'
      obtain ⟨hleft, hshift, hcount⟩ := hacted.pulls _ _ hact hr
      refine ⟨?_, hshift, hcount⟩
      rw [hleft]
      dsimp only
      rw [hpull', List.erase_cons_head]
  case controls =>
    refine ⟨fun hrest => effectIs_eq ((leCtl_written e.isLt _ hbar).trans (leCtl_halt hrest)),
      fun hrun => effectIs_eq ((leCtl_written e.isLt _ hbar).trans (leCtl_halt_run hrun)),
      fun hrest => effectIs_eq ((leCtl_written e.isLt _ hbar).trans (leCtl_restart hrest)),
      fun hact => effectIs_eq ((leCtl_written e.isLt _ hbar).trans (leCtl_restart_active hact)),
      fun hst hrest => ⟨_, commit_goOn s _, ?_⟩, fun v hv i hi => ?_⟩
    · have hreset : leCtl e.val (Nat.lor (0 : BitVec 4).toNat 8) s = engineReset e.val s := rfl
      rw [leCtl_written e.isLt _ hbar, hreset]
      obtain ⟨hown, hothers⟩ := engineReset_rests hst hrest
      generalize engineReset e.val s = u at hown hothers
      dsimp only
      rw [hown]
      exact ⟨hst, rfl, rfl, rfl, rfl, rfl, rfl, hothers⟩
    · obtain rfl | rfl := hi
      · obtain ⟨hmore, hbit⟩ := leCtl_reset_first v hv 1 (by decide)
        exact effectIs_eq ((leCtl_written e.isLt _ hbar).trans (leCtl_several hmore hbit))
      · obtain ⟨hmore, hbit⟩ := leCtl_reset_first v hv 2 (by decide)
        exact effectIs_eq ((leCtl_written e.isLt _ hbar).trans (leCtl_several hmore hbit))

end Sys2Proof.Proofs
end

section
/-! What a span change leaves alone: the ports but for their frames, and the wraps. -/

namespace Sys2Proof.Proofs

open Sys2Proof Sys2Proof.Machine Sys2Proof.Laws

/-! ## Frames that move (R129, R133, R139) -/

/-- A port without the frame that arrives on it and the copies that it holds. -/
def portCore (q : PortSt) : PortSt := { q with rx := none, drainHeld := [] }

/-- What no frame, span or report touches: the hub's state, its power and its engines. -/
def fieldSide (s : State) : HubState × PowerState × Sparse Engine := (s.hub, s.power, s.engines)

/-- Frames have moved, left or ended: the ports but for their frames, the wraps, and the field side are as they were. -/
structure Rerouted (s t : State) : Prop where
  ports : ∀ q, portCore (portSt t q) = portCore (portSt s q)
  wraps : wrapBits t = wrapBits s
  field : fieldSide t = fieldSide s

theorem Rerouted.refl (s : State) : Rerouted s s := ⟨fun _ => rfl, rfl, rfl⟩

theorem Rerouted.trans {s t u : State} (h : Rerouted s t) (k : Rerouted t u) : Rerouted s u :=
  ⟨fun q => (k.ports q).trans (h.ports q), k.wraps.trans h.wraps, k.field.trans h.field⟩

theorem Rerouted.span {s t : State} (h : Rerouted s t) (q : Port) : (portSt t q).span = (portSt s q).span := by
  have hcore := congrArg PortSt.span (h.ports q)
  exact hcore

theorem Rerouted.isUp {s t : State} (h : Rerouted s t) (q : Port) : isUp t q = isUp s q := by
  unfold Machine.isUp
  rw [h.span]

theorem Sent.rerouted {s t : State} (h : Sent s t) : Rerouted s t := by
  refine ⟨fun q => congrArg portCore (h.port q), h.wraps, ?_⟩
  unfold fieldSide
  rw [h.hub, h.power, view_engines h.view]

theorem rerouted_of_ring {s t : State} (heast : t.ring.east = s.ring.east) (hwest : t.ring.west = s.ring.west)
    (hwraps : wrapBits t = wrapBits s) (hfield : fieldSide t = fieldSide s) : Rerouted s t := by
  refine ⟨fun q => congrArg portCore ?_, hwraps, hfield⟩
  cases q
  · exact heast
  · exact hwest

theorem modPort_fieldSide (p : Port) (f : PortSt → PortSt) (s : State) : fieldSide (modPort p f s) = fieldSide s := by cases p <;> rfl

theorem rerouted_modPort (p : Port) (f : PortSt → PortSt) (s : State) (h : ∀ q, portCore (f q) = portCore q := by intro; rfl) :
    Rerouted s (modPort p f s) := by
  refine ⟨fun q => ?_, modPort_bits p f s, modPort_fieldSide p f s⟩
  by_cases hq : q = p
  · rw [hq, portSt_modPort]
    exact h _
  · rw [portSt_modPort_ne p f s hq]

theorem rerouted_modRing (f : RingState → RingState) (s : State) (heast : ∀ r, (f r).east = r.east := by intro; rfl)
    (hwest : ∀ r, (f r).west = r.west := by intro; rfl) : Rerouted s (modRing f s) := rerouted_of_ring (heast _) (hwest _) rfl rfl

theorem rerouted_foldl {α : Type} {f : State → α → State} (h : ∀ s a, Rerouted s (f s a)) (l : List α) (s : State) :
    Rerouted s (l.foldl f s) := by
  induction l generalizing s with
  | nil => exact .refl s
  | cons a t ih => exact (h s a).trans (ih _)

theorem rerouted_onlyIf {s : State} {f : State → State} (b : Bool) (h : Rerouted s (f s)) : Rerouted s (onlyIf b f s) := by
  cases b
  · exact .refl s
  · exact h

section
variable (s : State)

theorem rerouted_bumpBy (a n : Nat) : Rerouted s (bumpBy a n s) := ⟨fun q => by cases q <;> rfl, rfl, rfl⟩

theorem rerouted_bump (a : Nat) : Rerouted s (bump a s) := rerouted_bumpBy s a 1

theorem rerouted_draw : Rerouted s (draw s).2 := ⟨fun q => by cases q <;> rfl, rfl, rfl⟩

theorem rerouted_emit (code : Nat) (params : List Byte) : Rerouted s (emit code params s) := ⟨fun q => by cases q <;> rfl, rfl, rfl⟩

theorem rerouted_freeCells (f : Frame) : Rerouted s (freeCells f s) := ⟨fun q => by cases q <;> rfl, rfl, rfl⟩

theorem rerouted_setQueue (o : Output) (c : Nat) (l : List Frame) : Rerouted s (setQueue o c l s) := ⟨fun q => by cases q <;> rfl, rfl, rfl⟩

theorem rerouted_requeue (o : Output) (f : Frame) : Rerouted s (requeue o f s) := rerouted_setQueue s _ _ _

theorem rerouted_cycIn (f : SwState → List Frame) : Rerouted s (modSw (fun w => { w with cycIn := f w }) s) :=
  ⟨fun q => by cases q <;> rfl, rfl, rfl⟩

theorem rerouted_wire (f : SwState → List (Nat × Frame)) : Rerouted s (modSw (fun w => { w with wire := f w }) s) :=
  ⟨fun q => by cases q <;> rfl, rfl, rfl⟩

theorem rerouted_mapCopies (f : Copy → Option Copy) : Rerouted s (mapCopies f s) := ⟨fun q => by cases q <;> rfl, rfl, rfl⟩

theorem rerouted_mcLost (id : Word) (node : Nat) : Rerouted s (mcLost id node s) := ⟨fun q => by cases q <;> rfl, rfl, rfl⟩

theorem rerouted_complete (n : Nat) (t : Tag) (st : Status) (r : List Byte) : Rerouted s (complete n t st r s) :=
  ⟨fun q => by cases q <;> rfl, rfl, rfl⟩

theorem rerouted_admitOrDrop (o : Output) (f : Frame) : Rerouted s (admitOrDrop o f s) := by
  unfold admitOrDrop
  split
  · exact (sent_enqueue s o f).rerouted
  · exact rerouted_bump s _
  · exact rerouted_bump s _

theorem rerouted_completeLost (f : Frame) : Rerouted s (completeLost f s) := by
  unfold completeLost
  split
  · split
    · exact rerouted_complete s _ _ _ _
    · split
      · exact .refl s
      · exact rerouted_mcLost s _ _
  · split
    · split
      · split
        · exact (sent_originate s _).rerouted
        · exact .refl s
      · exact .refl s
    · exact .refl s

theorem rerouted_completeAllLost (l : List Frame) : Rerouted s (completeAllLost l s) :=
  rerouted_foldl (fun t f => rerouted_completeLost t f) _ s

theorem rerouted_giveUp (k : Nat) (count : Bool) : Rerouted s (giveUp k count s) := by
  unfold giveUp
  exact ((rerouted_mapCopies s _).trans (rerouted_onlyIf count (rerouted_bumpBy _ _ _))).trans (rerouted_completeAllLost _ _)

theorem rerouted_resendOne (c : Copy) : Rerouted s (resendOne c s) := by
  unfold resendOne
  split
  · exact .refl s
  · dsimp only
    split
    · exact ((rerouted_mapCopies s _).trans (rerouted_bump _ _)).trans (sent_launch _ _).rerouted
    · exact ((rerouted_mapCopies s _).trans (rerouted_bump _ _)).trans (sent_holdOut _ _).rerouted

theorem rerouted_resendOrGiveUp (k : Nat) (cs : List Copy) : Rerouted s (resendOrGiveUp k cs s) := by
  unfold resendOrGiveUp
  split
  · exact rerouted_giveUp s k true
  · exact rerouted_foldl (fun t c => rerouted_resendOne t c) cs s

theorem rerouted_replaySpan (a b : Nat) : Rerouted s (replaySpan a b s) :=
  rerouted_foldl (fun t k => rerouted_resendOrGiveUp t k _) _ s

theorem rerouted_removeHere (f : Frame) : Rerouted s (removeHere f s) := by
  unfold removeHere
  split
  · exact .refl s
  · exact ((rerouted_bump s _).trans (rerouted_mapCopies _ _)).trans (rerouted_completeAllLost _ _)

theorem rerouted_letGo (p : Port) (which : Output × Frame → Bool) : Rerouted s (letGo p which s) := by
  unfold letGo
  refine (rerouted_modPort p _ s).trans (rerouted_foldl (fun t x => ?_) _ _)
  split
  · exact rerouted_cycIn t _
  · exact rerouted_requeue t _ _

theorem rerouted_comesHere (f : Frame) : Rerouted s (comesHere f s) := by
  unfold comesHere
  split
  · split
    · exact rerouted_modPort _ _ s
    · exact rerouted_admitOrDrop s _ _
  · split
    · exact rerouted_cycIn s _
    · split
      · exact .refl s
      · exact rerouted_admitOrDrop s _ _

/-- A frame that is turned back: its copy for this hub, its way on, and its removal (R129). -/
theorem rerouted_moveOne (p : Port) (f : Frame) : Rerouted s (moveOne p f s) := by
  unfold moveOne
  split
  · extract_lets r u v
    have hhere : Rerouted s u := by
      dsimp only [u]
      split
      · exact rerouted_comesHere s _
      · exact .refl s
    have hon : Rerouted u v := by
      dsimp only [v]
      split
      · exact rerouted_requeue u _ _
      · exact rerouted_freeCells u _
    split
    · split
      · exact (hhere.trans hon).trans (rerouted_modPort _ _ v)
      · exact (hhere.trans hon).trans (rerouted_removeHere v f)
    · exact hhere.trans hon
  · split
    · exact (rerouted_freeCells s f).trans (rerouted_bump _ _)
    · split
      · exact (rerouted_freeCells s f).trans (rerouted_bump _ _)
      · exact (rerouted_bump s _).trans (rerouted_requeue _ _ _)

theorem rerouted_moveQueues (p : Port) : Rerouted s (moveQueues p s) := by
  unfold moveQueues
  refine (((rerouted_letGo s p _).trans (rerouted_letGo _ _ _)).trans (rerouted_foldl (fun t c => ?_) _ _)).trans
    (sent_notePoolMin _).rerouted
  exact (rerouted_setQueue t _ _ _).trans (rerouted_foldl (fun v f => rerouted_moveOne v p f) _ _)

/-! ## Reception that ends (R104, R113) -/

theorem rerouted_eachCopy (p : Port) (c : Nat) (g : Output → Frame → Option Frame) : Rerouted s (eachCopy p c g s) := by
  unfold eachCopy
  refine (rerouted_foldl (fun t o => ?_) allOutputs s).trans (rerouted_modPort p _ _)
  exact (rerouted_setQueue t _ _ _).trans (rerouted_foldl (fun v f => rerouted_freeCells v f) _ _)

theorem rerouted_endRx (p : Port) : Rerouted s (endRx p s) := rerouted_modPort p _ s

theorem rerouted_rxBad (p : Port) (a : Arriving) (payload : List Byte) : Rerouted s (rxBad p a payload s) := by
  unfold rxBad
  exact ((((rerouted_endRx s p).trans (rerouted_foldl (fun t x => rerouted_bump t _) _ _)).trans (rerouted_wire _ _)).trans
    (rerouted_onlyIf _ (rerouted_bump _ _))).trans (rerouted_eachCopy _ _ _ _)

theorem rerouted_cycArrives (p : Port) (f : Frame) : Rerouted s (cycArrives p f s) := by
  unfold cycArrives
  split
  · exact rerouted_modPort p _ s
  · exact rerouted_cycIn s _

theorem rerouted_rxGood (p : Port) (a : Arriving) (payload : List Byte) : Rerouted s (rxGood p a payload s) := by
  unfold rxGood
  exact (((((rerouted_endRx s p).trans (rerouted_onlyIf _ (rerouted_bump _ _))).trans (rerouted_wire _ _)).trans
    (rerouted_eachCopy _ _ _ _)).trans (rerouted_onlyIf _ (rerouted_removeHere _ _))).trans (rerouted_onlyIf _ (rerouted_cycArrives _ _ _))

theorem rerouted_rxRest (p : Port) (bytes : List Byte) : Rerouted s (rxRest p bytes s) := by
  unfold rxRest
  split
  · exact .refl s
  · dsimp only
    split
    · exact (rerouted_bump s _).trans (rerouted_rxBad _ _ _ _)
    · split
      · exact rerouted_rxGood s _ _ _
      · exact (rerouted_bump s _).trans (rerouted_rxBad _ _ _ _)

theorem rerouted_rxCutOff (p : Port) : Rerouted s (rxCutOff p s) := rerouted_onlyIf _ (rerouted_rxRest s p [])

/-! ## Reports and light lists (R90 to R92, R130) -/

theorem rerouted_showStates (me own : Nat) (l : List LightEntry) : Rerouted s (showStates me own l s).2 := by
  induction l generalizing s with
  | nil => exact .refl s
  | cons e t ih =>
    unfold showStates
    split
    · exact ih s
    · split
      · exact ih s
      · exact (rerouted_draw s).trans (ih (draw s).2)

theorem rerouted_sendLight (l : LightList) : Rerouted s (sendLight l s) := by
  unfold sendLight
  extract_lets b frag u v
  have hfirst : Rerouted s u := (sent_originate s _).rerouted
  have hsecond : Rerouted u v := by
    dsimp only [v]
    split
    · exact (sent_originate u _).rerouted
    · exact .refl u
  exact (hfirst.trans hsecond).trans (rerouted_modRing _ v)

theorem rerouted_newGenerationAt (k : Nat) (f : LightList → LightList) : Rerouted s (newGenerationAt k f s) := by
  unfold newGenerationAt
  split
  · exact .refl s
  · exact ((rerouted_showStates s _ _ _).trans (rerouted_modRing _ _)).trans (rerouted_sendLight _ _)

theorem rerouted_markAbsent (n : Nat) : Rerouted s (markAbsent n s) := by
  unfold markAbsent
  exact (rerouted_modRing _ s).trans (rerouted_newGenerationAt _ _ _)

theorem rerouted_spanRev (src port peer : Nat) : Rerouted s (spanRev src port peer s).2 := by
  unfold spanRev
  extract_lets far seen
  clear_value seen
  split
  · exact .refl s
  · split
    · exact .refl s
    · exact rerouted_draw s

theorem rerouted_takeSpanReport (src : Nat) (b : List Byte) : Rerouted s (takeSpanReport src b s) := by
  unfold takeSpanReport
  split
  · exact .refl s
  · extract_lets peer new u
    have hdown : Rerouted s u := rerouted_modRing _ s
    split
    · refine hdown.trans ?_
      clear_value u
      split
      next v w hrev =>
      have hrev : Rerouted u w := by
        have hw := congrArg Prod.snd hrev
        dsimp only at hw
        rw [← hw]
        split
        · exact .refl u
        · split
          · exact .refl u
          · exact rerouted_spanRev u _ _ _
      refine hrev.trans ?_
      extract_lets x
      have hgen : Rerouted w x := rerouted_newGenerationAt _ _ _
      split
      · exact hgen.trans (rerouted_foldl (fun t n => rerouted_markAbsent t n) _ _)
      · exact hgen
    · exact hdown

theorem rerouted_spanReport (p : Port) (old new peer : Nat) (wrapNow : Bool) : Rerouted s (spanReport p old new peer wrapNow s) := by
  unfold spanReport
  extract_lets pay tell m b
  have htell : ∀ (n : Nat) (t : State), Rerouted t (tell n t) := by
    intro n t
    dsimp only [tell]
    split
    · exact .refl t
    · split
      · exact rerouted_takeSpanReport t _ _
      · exact (sent_sendCtl t _ _ _ _ _).rerouted
  refine (htell m s).trans ?_
  split
  · exact .refl _
  · exact htell b _

/-- What a wrap leaves: its own bits apart, all (R126, R129, R133). -/
theorem rerouted_wrapPort (p : Port) : Rerouted (setWrap p true false s) (wrapPort p s) := by
  unfold wrapPort
  exact (((rerouted_moveQueues _ p).trans (rerouted_bump _ _)).trans (rerouted_emit _ _ _)).trans
    ((sent_wrapNotice _ _ _ _).rerouted.trans (rerouted_replaySpan _ _ _))

theorem portSt_setWrap (p q : Port) (w d : Bool) : portSt (setWrap p w d s) q = portSt s q := by cases q <;> rfl

end

end Sys2Proof.Proofs
end

section
/-! What a span change does to its port, and to the wraps (R99, R125, R126, R148). -/

namespace Sys2Proof.Proofs

open Sys2Proof Sys2Proof.Machine Sys2Proof.Laws

/-- What a span change leaves of a port: its module, its coding, its peer and its times. -/
def standing (q : PortSt) : PortSt :=
  { q with span := .adminDown, rev := 0, pd := {}, train := none, consistent := 0, keepCount := 0, keepSent := none, peerUp := false
           holdUp := none, unwrapAt := none, unwrapDone := false, rx := none, drainHeld := [] }

/-- The span of a port stands at `new`: the other port, the field side, and what of this one is not the span's, are as they were. -/
structure Moved (p : Port) (new : SpanState) (s t : State) : Prop where
  span : (portSt t p).span = new
  stays : standing (portSt t p) = standing (portSt s p)
  other : portCore (portSt t (otherPort p)) = portCore (portSt s (otherPort p))
  field : fieldSide t = fieldSide s

theorem standing_of_core {a b : PortSt} (h : portCore a = portCore b) : standing a = standing b := by
  have hstanding := congrArg standing h
  exact hstanding

section
variable {p : Port} {new : SpanState} {s t u : State}

theorem Moved.reroute (h : Moved p new s t) (k : Rerouted t u) : Moved p new s u :=
  ⟨(k.span p).trans h.span, (standing_of_core (k.ports p)).trans h.stays, (k.ports _).trans h.other, k.field.trans h.field⟩

theorem Rerouted.moves (h : Rerouted s t) (k : Moved p new t u) : Moved p new s u :=
  ⟨k.span, k.stays.trans (standing_of_core (h.ports p)), k.other.trans (h.ports _), k.field.trans h.field⟩

theorem Moved.of_ports (h : Moved p new s t) (k : ∀ q, portSt u q = portSt t q) (hf : fieldSide u = fieldSide t) :
    Moved p new s u :=
  ⟨(congrArg PortSt.span (k p)).trans h.span, (congrArg standing (k p)).trans h.stays, (congrArg portCore (k _)).trans h.other, hf.trans h.field⟩

theorem Moved.setWrap (h : Moved p new s t) (q : Port) (w d : Bool) : Moved p new s (setWrap q w d t) :=
  h.of_ports (fun r => portSt_setWrap t q r w d) rfl

theorem Moved.other_span (h : Moved p new s t) : (portSt t (otherPort p)).span = (portSt s (otherPort p)).span := by
  have hspan := congrArg PortSt.span h.other
  exact hspan

theorem Moved.isUp_other (h : Moved p new s t) : isUp t (otherPort p) = isUp s (otherPort p) := by
  unfold isUp
  rw [h.other_span]

theorem moved_modPort (p : Port) (f : PortSt → PortSt) (s : State) (hspan : ∀ q, (f q).span = new := by intro; rfl)
    (hstays : ∀ q, standing (f q) = standing q := by intro; rfl) : Moved p new s (modPort p f s) := by
  refine ⟨?_, ?_, ?_, modPort_fieldSide p f s⟩
  · rw [portSt_modPort]
    exact hspan _
  · rw [portSt_modPort]
    exact hstays _
  · rw [portSt_modPort_other]

/-- A change of the port that leaves its span. -/
theorem Moved.modPort (h : Moved p new s t) (f : PortSt → PortSt) (hspan : ∀ q, (f q).span = q.span := by intro; rfl)
    (hstays : ∀ q, standing (f q) = standing q := by intro; rfl) : Moved p new s (modPort p f t) := by
  refine ⟨?_, ?_, ?_, (modPort_fieldSide p f t).trans h.field⟩
  · rw [portSt_modPort, hspan, h.span]
  · rw [portSt_modPort, hstays, h.stays]
  · rw [portSt_modPort_other, h.other]

/-! ## Leaving UP (R125, R126, R148) -/

theorem leaveUp_moved (p : Port) (new : SpanState) (s : State) : Moved p new s (leaveUp p new s) := by
  unfold leaveUp
  exact ((rerouted_rxCutOff s p).trans (rerouted_wire _ _)).moves (moved_modPort p _ _)

/-- The hub once the port has left UP, its loss counted and told: what the wraps follow from. -/
def upLeft (p : Port) (new : SpanState) (s : State) : State :=
  ringEvent 0 (portNo p) (portSt s p).neighbour (bump (portAddr p 0x3C) (sendKeep p (leaveUp p new s)))

theorem upLeft_moved (p : Port) (new : SpanState) (s : State) : Moved p new s (upLeft p new s) :=
  ((leaveUp_moved p new s).modPort _).reroute ((rerouted_bump _ _).trans (rerouted_emit _ _ _))

theorem setSpan_leaves (hup : (portSt s p).span = .up) (hnew : new ≠ .up) : setSpan p new s =
    if isUp (upLeft p new s) (otherPort p) then
      spanReport p 3 (spanNo new) (portSt s p).neighbour (!wrapped (upLeft p new s) p || draining (upLeft p new s) p)
        (onlyIf (!wrapped (upLeft p new s) p || draining (upLeft p new s) p) (wrapPort p) (upLeft p new s))
    else setWrap .west false false (setWrap .east false false (letGo .west (fun _ => true) (letGo .east (fun _ => true) (upLeft p new s)))) := by
  unfold setSpan
  dsimp only
  rw [hup]
  exact (if_neg (Ne.symm hnew)).trans (if_pos rfl)

theorem wrapPort_moved (h : Moved p new s t) (q : Port) : Moved p new s (wrapPort q t) :=
  (h.setWrap q true false).reroute (rerouted_wrapPort t q)

theorem wrapped_wrapPort (p : Port) (s : State) : wrapped (wrapPort p s) p = true :=
  (wrapped_of_bits (rerouted_wrapPort s p).wraps p).trans (wrapped_setWrap p true false s)

/-- The port is wrapped after a wrap where none stood, or where it drained. -/
theorem wrapped_after (p : Port) (s : State) : wrapped (onlyIf (!wrapped s p || draining s p) (wrapPort p) s) p = true := by
  cases hwraps : wrapped s p with
  | false => exact wrapped_wrapPort p s
  | true =>
    cases draining s p with
    | false => exact hwraps
    | true => exact wrapped_wrapPort p s

theorem wrapped_spanReport (p : Port) (old new peer : Nat) (w : Bool) (s : State) (q : Port) :
    wrapped (spanReport p old new peer w s) q = wrapped s q := wrapped_of_bits (rerouted_spanReport s p old new peer w).wraps q

/-- A span that leaves UP: beside another that is UP the hub wraps there, and with none UP no wrap stands (R126, R148). -/
theorem setSpan_leaves_wraps (hup : (portSt s p).span = .up) (hnew : new ≠ .up) :
    (isUp s (otherPort p) = true → wrapped (setSpan p new s) p = true)
    ∧ (isUp s (otherPort p) = false → wrapped (setSpan p new s) .east = false ∧ wrapped (setSpan p new s) .west = false) := by
  have hother : isUp (upLeft p new s) (otherPort p) = isUp s (otherPort p) := (upLeft_moved p new s).isUp_other
  rw [setSpan_leaves hup hnew, hother]
  generalize upLeft p new s = u
  refine ⟨fun h => ?_, fun h => ?_⟩
  · rw [if_pos h, wrapped_spanReport]
    exact wrapped_after p u
  · rw [h, if_neg Bool.false_ne_true]
    exact ⟨rfl, rfl⟩

/-! ## The other changes (R72, R125) -/

/-- The span comes UP: the port changes first, then what the wraps, the events and the report need. -/
theorem setSpan_comesUp (hup : (portSt s p).span ≠ .up) : ∃ t, (∀ q, portSt t q = portSt (modPort p (fun q => { q with
      span := .up, peerUp := false, holdUp := none, unwrapAt := none, unwrapDone := false, pd := {} }) s) q)
    ∧ fieldSide t = fieldSide s
    ∧ setSpan p .up s = spanReport p (spanNo (portSt s p).span) 3 (portSt s p).neighbour false
        (if isUp t (otherPort p) ∨ wrapped t (otherPort p) then t else setWrap p false false (wrapPort (otherPort p) t)) := by
  generalize hv : modPort p (fun q => { q with
      span := .up, peerUp := false, holdUp := none, unwrapAt := none, unwrapDone := false, pd := {} }) s = v
  refine ⟨ringEvent 1 (portNo p) (portSt s p).neighbour (modTime (fun t => { t with firstUpUp := some (t.firstUpUp.getD t.up) }) v),
    fun q => portSt_of_ring q (emit_ring (modTime (fun t => { t with firstUpUp := some (t.firstUpUp.getD t.up) }) v) _ _), ?_, ?_⟩
  · rw [← modPort_fieldSide p (fun q => { q with
      span := .up, peerUp := false, holdUp := none, unwrapAt := none, unwrapDone := false, pd := {} }) s, hv]
    rfl
  unfold setSpan
  dsimp only
  rw [if_neg hup, if_neg hup, if_pos rfl, hv]
  rfl

theorem setSpan_moves (hold : (portSt s p).span ≠ new) (hup : (portSt s p).span ≠ .up) (hnew : new ≠ .up) : setSpan p new s =
    spanReport p (spanNo (portSt s p).span) (spanNo new) (portSt s p).neighbour false (modPort p (fun q => { q with span := new }) s) := by
  unfold setSpan
  exact ((if_neg hold).trans (if_neg hup)).trans (if_neg hnew)

theorem setSpan_same (h : (portSt s p).span = new) : setSpan p new s = s := by
  unfold setSpan
  exact if_pos h

/-- Every change takes the span to its new state, and touches nothing else of the two ports that stands. -/
theorem setSpan_moved (p : Port) (new : SpanState) (s : State) : Moved p new s (setSpan p new s) := by
  by_cases hsame : (portSt s p).span = new
  · rw [setSpan_same hsame]
    exact ⟨hsame, rfl, rfl, rfl⟩
  · by_cases hup : (portSt s p).span = .up
    · have hleft := upLeft_moved p new s
      rw [setSpan_leaves hup (fun h => hsame (hup.trans h.symm))]
      split
      · refine Moved.reroute ?_ (rerouted_spanReport _ _ _ _ _ _)
        generalize (!wrapped (upLeft p new s) p || draining (upLeft p new s) p) = wraps
        cases wraps
        · exact hleft
        · exact wrapPort_moved hleft p
      · exact ((hleft.reroute ((rerouted_letGo _ .east _).trans (rerouted_letGo _ .west _))).setWrap .east _ _).setWrap .west _ _
    · by_cases hnew : new = .up
      · subst hnew
        obtain ⟨t, ht, hfield, hset⟩ := setSpan_comesUp hup
        have hcame : Moved p .up s t := (moved_modPort p _ s).of_ports ht (hfield.trans (modPort_fieldSide p _ s).symm)
        rw [hset]
        refine Moved.reroute ?_ (rerouted_spanReport _ _ _ _ _ _)
        split
        · exact hcame
        · exact (wrapPort_moved hcame _).setWrap p _ _
      · rw [setSpan_moves hsame hup hnew]
        exact (moved_modPort p _ s).reroute (rerouted_spanReport _ _ _ _ _ _)

/-- What the TRAIN exchange has found stays through every change of a span that is not UP. -/
theorem setSpan_found (p : Port) (new : SpanState) (s : State) (hup : (portSt s p).span ≠ .up) :
    (portSt (setSpan p new s) p).rev = (portSt s p).rev ∧ (portSt (setSpan p new s) p).consistent = (portSt s p).consistent := by
  have of_core : ∀ {a b : PortSt}, portCore a = portCore b → a.rev = b.rev ∧ a.consistent = b.consistent := fun h => by
    have hrev := congrArg PortSt.rev h
    have hcount := congrArg PortSt.consistent h
    exact ⟨hrev, hcount⟩
  by_cases hsame : (portSt s p).span = new
  · rw [setSpan_same hsame]
    exact ⟨rfl, rfl⟩
  · by_cases hnew : new = .up
    · subst hnew
      obtain ⟨t, ht, -, hset⟩ := setSpan_comesUp hup
      have hport := ht p
      rw [portSt_modPort] at hport
      rw [hset]
      have hwraps : portCore (portSt (if isUp t (otherPort p) ∨ wrapped t (otherPort p) then t
          else setWrap p false false (wrapPort (otherPort p) t)) p) = portCore (portSt t p) := by
        split
        · rfl
        · rw [portSt_setWrap, (rerouted_wrapPort t _).ports, portSt_setWrap]
      have hcore := of_core (((rerouted_spanReport _ p (spanNo (portSt s p).span) 3 (portSt s p).neighbour false).ports p).trans hwraps)
      rw [hport] at hcore
      exact hcore
    · rw [setSpan_moves hsame hup hnew]
      have hcore := of_core ((rerouted_spanReport (modPort p (fun q => { q with span := new }) s) p (spanNo (portSt s p).span)
        (spanNo new) (portSt s p).neighbour false).ports p)
      rw [portSt_modPort] at hcore
      exact hcore

end

end Sys2Proof.Proofs
end

section
/-! What takes a span down, and what lets it seek lock again (R67, R68, R72, R125, R457). -/

namespace Sys2Proof.Proofs

open Sys2Proof Sys2Proof.Machine Sys2Proof.Laws

/-! ## Seeking lock (R70, R75) -/

section
variable {p : Port} {s v : State}

theorem seekLock_port (p : Port) (s : State) : (portSt (seekLock p s) p).span = .locking ∧ (portSt (seekLock p s) p).lockUp = s.time.up
    ∧ (portSt (seekLock p s) p).train = none ∧ (portSt (seekLock p s) p).consistent = 0 := by
  unfold seekLock
  rw [portSt_modPort]
  exact ⟨(setSpan_moved p .locking s).span, rfl, rfl, rfl⟩

theorem seekLock_standing (p : Port) (s : State) : standing (portSt (seekLock p s) p) =
    { standing (portSt s p) with lockUp := s.time.up, fecFailUp := s.time.up, txFec := bits (pcfg s p) 1 2 != 0 } := by
  unfold seekLock
  rw [portSt_modPort, ← (setSpan_moved p .locking s).stays]
  rfl

theorem startLock_seeks (hdown : (portSt s p).span = .down) (hmay : mayLock s p = true) : startLock p s = seekLock p s := by
  unfold startLock
  exact if_pos ⟨hdown, hmay⟩

theorem startLock_waits (h : (portSt s p).span ≠ .down ∨ mayLock s p = false) : startLock p s = s := by
  unfold startLock
  refine if_neg fun hboth => ?_
  obtain ⟨hdown, hmay⟩ := hboth
  cases h with
  | inl hnot => exact hnot hdown
  | inr hnot => exact Bool.false_ne_true (hnot.symm.trans hmay)

/-- The module of a port: what no attempt at lock changes. -/
def moduleOf (q : PortSt) : (Bool × List Byte) × Bool × Option Nat := ((q.modPresent, q.modId), (q.txFault, q.txdisUntil))

theorem startLock_module (p : Port) (s : State) : moduleOf (portSt (startLock p s) p) = moduleOf (portSt s p) := by
  unfold startLock
  split
  · have hmodule := congrArg moduleOf (seekLock_standing p s)
    exact hmodule
  · rfl

/-! ## Falling (R72, R125, R126, R148) -/

/-- The span of the port is DOWN, the other as it was; the hub is wrapped there beside an UP one, and nowhere with none UP. -/
structure Fell (p : Port) (s u : State) : Prop where
  down : (portSt u p).span = .down
  other : (portSt u (otherPort p)).span = (portSt s (otherPort p)).span
  wraps : isUp s p = true → isUp s (otherPort p) = true → wrapped u p = true
  none : isUp s p = true → isUp s (otherPort p) = false → wrapped u .east = false ∧ wrapped u .west = false

theorem span_of_isUp (h : isUp s p = true) : (portSt s p).span = .up := by
  unfold isUp at h
  exact eq_of_beq h

/-- A port that changed but for its span, and then falls. -/
theorem fell_setSpan (f : PortSt → PortSt) (s : State) (h : ∀ q, (f q).span = q.span := by intro; rfl) :
    Fell p s (setSpan p .down (modPort p f s)) := by
  have hspan : (portSt (modPort p f s) p).span = (portSt s p).span := by rw [portSt_modPort]; exact h _
  have hother : portSt (modPort p f s) (otherPort p) = portSt s (otherPort p) := portSt_modPort_other p f s
  have hisUp : isUp (modPort p f s) (otherPort p) = isUp s (otherPort p) := by unfold isUp; rw [hother]
  have hmoved := setSpan_moved p .down (modPort p f s)
  refine ⟨hmoved.span, hmoved.other_span.trans (congrArg PortSt.span hother), fun hup hbeside => ?_, fun hup halone => ?_⟩
  · exact (setSpan_leaves_wraps (hspan.trans (span_of_isUp hup)) (by decide)).1 (hisUp.trans hbeside)
  · exact (setSpan_leaves_wraps (hspan.trans (span_of_isUp hup)) (by decide)).2 (hisUp.trans halone)

theorem setSpan_standing (new : SpanState) (f : PortSt → PortSt) (s : State) :
    standing (portSt (setSpan p new (modPort p f s)) p) = standing (f (portSt s p)) := by
  rw [(setSpan_moved p new _).stays, portSt_modPort]

/-- The effect of an event on a span: down with what follows, or ADMIN_DOWN with the switch as it was. -/
theorem falls_effect {i : Instr} {t : State} (hexec : exec i s = commit s t)
    (hfell : (portSt s p).span ≠ .adminDown → Fell p s t)
    (hadmin : (portSt s p).span = .adminDown → (portSt t p).span = .adminDown ∧ t.sw = s.sw) :
    ((portSt s p).span ≠ .adminDown → EffectIs (exec i s) s (fun u => (portSt u p).span = .down
        ∧ (portSt u (otherPort p)).span = (portSt s (otherPort p)).span
        ∧ (isUp s p = true → isUp s (otherPort p) = true → wrapped u p = true)
        ∧ (isUp s p = true → isUp s (otherPort p) = false → wrapped u .east = false ∧ wrapped u .west = false)))
    ∧ ((portSt s p).span = .adminDown → EffectIs (exec i s) s (fun u => (portSt u p).span = .adminDown ∧ u.sw = s.sw)) := by
  rw [hexec]
  exact ⟨fun h => ⟨t, commit_goOn s t, (hfell h).down, (hfell h).other, (hfell h).wraps, (hfell h).none⟩,
    fun h => ⟨t, commit_goOn s t, hadmin h⟩⟩

/-- An event that changes the port and then takes the span down, but not out of ADMIN_DOWN. -/
def fallUnlessAdmin (p : Port) (s : State) : State :=
  match (portSt s p).span with
  | .adminDown => s
  | _ => setSpan p .down s

theorem fallUnlessAdmin_falls (h : (portSt s p).span ≠ .adminDown) : fallUnlessAdmin p s = setSpan p .down s := by
  unfold fallUnlessAdmin
  split
  · next hadmin => exact absurd hadmin h
  · rfl

theorem fallUnlessAdmin_admin (h : (portSt s p).span = .adminDown) : fallUnlessAdmin p s = s := by
  unfold fallUnlessAdmin
  rw [h]

theorem fell_fallUnlessAdmin (f : PortSt → PortSt) (s : State) (hf : ∀ q, (f q).span = q.span := by intro; rfl)
    (h : (portSt s p).span ≠ .adminDown) : Fell p s (fallUnlessAdmin p (modPort p f s)) := by
  have hspan : (portSt (modPort p f s) p).span ≠ .adminDown := by rw [portSt_modPort, hf]; exact h
  rw [fallUnlessAdmin_falls hspan]
  exact fell_setSpan f s hf

theorem admin_fallUnlessAdmin (f : PortSt → PortSt) (s : State) (hf : ∀ q, (f q).span = q.span := by intro; rfl)
    (h : (portSt s p).span = .adminDown) :
    (portSt (fallUnlessAdmin p (modPort p f s)) p).span = .adminDown ∧ (fallUnlessAdmin p (modPort p f s)).sw = s.sw := by
  have hspan : (portSt (modPort p f s) p).span = .adminDown := by rw [portSt_modPort, hf]; exact h
  rw [fallUnlessAdmin_admin hspan]
  exact ⟨hspan, modPort_sw _ _ _⟩

theorem fallUnlessAdmin_standing (f : PortSt → PortSt) (s : State) :
    standing (portSt (fallUnlessAdmin p (modPort p f s)) p) = standing (f (portSt s p)) := by
  by_cases h : (portSt (modPort p f s) p).span = .adminDown
  · rw [fallUnlessAdmin_admin h, portSt_modPort]
  · rw [fallUnlessAdmin_falls h, setSpan_standing]

theorem cageRetry_supplied (h : (portSt s p).cageOff = false) : cageRetry p s = s := by
  unfold cageRetry
  exact if_neg fun hboth => Bool.false_ne_true (h.symm.trans hboth.1)

theorem cageRetry_early (h : s.time.up < (portSt s p).cageUp + 2000000) : cageRetry p s = s := by
  unfold cageRetry
  refine if_neg fun hboth => ?_
  obtain ⟨hoff, hsince⟩ := hboth
  unfold since at hsince
  omega

theorem cageSupplyTrip_trips (h : (portSt s p).cageOff = false) :
    cageSupplyTrip p s = fallUnlessAdmin p (modPort p (fun q => { q with cageOff := true, cageUp := s.time.up }) s) := by
  unfold cageSupplyTrip
  rw [cageRetry_supplied h]
  exact if_neg fun hoff => Bool.false_ne_true (h.symm.trans hoff)

/-! ## A transmitter fault (R68) -/

/-- The port of a transmitter that is held off for 10 ms. -/
def heldOff (s : State) (q : PortSt) : PortSt := { q with txFault := true, txdisUntil := some (s.time.up + 20000) }

theorem txfltRise_cases (p : Port) (s : State) :
    ((portSt s p).span = .up ∧ txfltRise p s = setSpan p .down (modPort p (heldOff s) s))
    ∨ ((portSt s p).span = .adminDown ∧ txfltRise p s = bump (portAddr p 0x3C) (modPort p (heldOff s) s))
    ∨ ((portSt s p).span ≠ .up ∧ (portSt s p).span ≠ .adminDown
        ∧ txfltRise p s = bump (portAddr p 0x3C) (setSpan p .down (modPort p (heldOff s) s))) := by
  unfold txfltRise
  dsimp only
  split
  next hup => exact .inl ⟨hup, rfl⟩
  next hadmin => exact .inr (.inl ⟨hadmin, rfl⟩)
  next hup hadmin => exact .inr (.inr ⟨hup, hadmin, rfl⟩)

theorem txfltRise_fell (h : (portSt s p).span ≠ .adminDown) : Fell p s (txfltRise p s) := by
  have hfell : Fell p s (setSpan p .down (modPort p (heldOff s) s)) := fell_setSpan (heldOff s) s
  rcases txfltRise_cases p s with ⟨_, heq⟩ | ⟨hadmin, _⟩ | ⟨hup, _, heq⟩
  · rw [heq]
    exact hfell
  · exact absurd hadmin h
  · have hbump := rerouted_bump (setSpan p .down (modPort p (heldOff s) s)) (portAddr p 0x3C)
    rw [heq]
    exact ⟨(hbump.span p).trans hfell.down, (hbump.span _).trans hfell.other, fun hisUp => absurd (span_of_isUp hisUp) hup,
      fun hisUp => absurd (span_of_isUp hisUp) hup⟩

theorem txfltRise_admin (h : (portSt s p).span = .adminDown) : (portSt (txfltRise p s) p).span = .adminDown ∧ (txfltRise p s).sw = s.sw := by
  rcases txfltRise_cases p s with ⟨hup, _⟩ | ⟨_, heq⟩ | ⟨_, hadmin, _⟩
  · exact absurd (h.symm.trans hup) (by decide)
  · have hport : (portSt (modPort p (heldOff s) s) p).span = .adminDown := by rw [portSt_modPort]; exact h
    rw [heq]
    exact ⟨((rerouted_bump _ _).span p).trans hport, modPort_sw _ _ _⟩
  · exact absurd h hadmin

theorem txfltRise_standing (p : Port) (s : State) : standing (portSt (txfltRise p s) p) = standing (heldOff s (portSt s p)) := by
  rcases txfltRise_cases p s with ⟨_, heq⟩ | ⟨_, heq⟩ | ⟨_, _, heq⟩
  · rw [heq, setSpan_standing]
  · rw [heq, standing_of_core ((rerouted_bump _ _).ports p), portSt_modPort]
  · rw [heq, standing_of_core ((rerouted_bump _ _).ports p), setSpan_standing]

theorem txfltHoldEnd_due {t : Nat} (h : (portSt s p).txdisUntil = some t) (hdue : t ≤ s.time.up) :
    txfltHoldEnd p s = startLock p (modPort p (fun q => { q with txdisUntil := none, txFault := false }) s) := by
  unfold txfltHoldEnd
  rw [h]
  exact if_pos hdue

theorem txfltHoldEnd_early {t : Nat} (h : (portSt s p).txdisUntil = some t) (hearly : s.time.up < t) : txfltHoldEnd p s = s := by
  unfold txfltHoldEnd
  rw [h]
  exact if_neg (by omega)

/-! ## Modules and markers (R67, R71) -/

theorem moduleInsert_page (b : List Byte) (h : (portSt s p).cageOff = false) :
    moduleInsert p (some b) s = startLock p (modPort p (fun q => { q with modPresent := true, modId := b }) s) := by
  unfold moduleInsert
  rw [cageRetry_supplied h]
  rfl

theorem moduleInsert_silent (h : (portSt s p).cageOff = false) (hadmin : (portSt s p).span = .adminDown) :
    moduleInsert p none s = bump (portAddr p 0x38) (modPort p (fun q => { q with modPresent := true, modId := [] }) s) := by
  unfold moduleInsert
  rw [cageRetry_supplied h]
  refine startLock_waits (.inl ?_)
  have hspan : (portSt (modPort p (fun q => { q with modPresent := true, modId := [] }) s) p).span = .adminDown := by
    rw [portSt_modPort]; exact hadmin
  exact fun hdown => absurd (((rerouted_bump _ _).span p).symm.trans hdown |>.symm.trans hspan) (by decide)

theorem livenessLoss_up (h : (portSt s p).span = .up) : livenessLoss p s = setSpan p .down (bumpBy (portAddr p 0x34) 3 s) := by
  unfold livenessLoss
  simp only [h]

theorem livenessLoss_training (h : (portSt s p).span = .training) : livenessLoss p s = seekLock p (bumpBy (portAddr p 0x34) 3 s) := by
  unfold livenessLoss
  simp only [h]

theorem livenessLoss_down (h : (portSt s p).span = .down ∨ (portSt s p).span = .adminDown) : livenessLoss p s = s := by
  unfold livenessLoss
  cases h with
  | inl h => simp only [h]
  | inr h => simp only [h]

end

/-- Settles O45, by the change of a span that each loss makes, and by what that change leaves of the port. -/
theorem spanLosses : Obligations.SpanLosses := by
  unfold Obligations.SpanLosses
  refine fun p s => ⟨fun i hi hoff => ?falls, ⟨_, commit_goOn s _, ?los⟩, ⟨_, commit_goOn s _, ?module⟩, ⟨_, commit_goOn s _, ?txflt⟩,
    fun hoff => ⟨_, commit_goOn s _, ?cage⟩, fun hoff hearly => effectIs_eq ?cageEarly, fun hdown hmay => ⟨_, commit_goOn s _, ?lock⟩,
    fun h => effectIs_eq (startLock_waits (h.imp_left fun hnot => ?noLock)), fun b hoff => ⟨_, commit_goOn s _, ?page⟩,
    fun hoff hadmin => effectIs_eq (moduleInsert_silent hoff hadmin),
    fun t hheld => ⟨fun hdue => ⟨_, commit_goOn s _, ?holdEnd⟩, fun hearly => effectIs_eq (txfltHoldEnd_early hheld hearly)⟩,
    fun h => effectIs_eq (livenessLoss_up h), fun h => ⟨_, commit_goOn s _, ?training⟩, fun h => effectIs_eq (livenessLoss_down h)⟩
  case falls =>
    rcases hi with rfl | rfl | rfl | rfl
    · exact falls_effect rfl (fell_fallUnlessAdmin _ s) (admin_fallUnlessAdmin _ s)
    · exact falls_effect rfl (fell_fallUnlessAdmin _ s) (admin_fallUnlessAdmin _ s)
    · exact falls_effect rfl txfltRise_fell txfltRise_admin
    · have hexec : exec (.cageSupplyTrip p) s = commit s (cageSupplyTrip p s) := rfl
      exact falls_effect (hexec.trans (congrArg (commit s) (cageSupplyTrip_trips hoff))) (fell_fallUnlessAdmin _ s) (admin_fallUnlessAdmin _ s)
  case los =>
    have hport := congrArg PortSt.los (fallUnlessAdmin_standing (p := p) (fun q => { q with los := true }) s)
    exact hport
  case module =>
    have hport := congrArg moduleOf (fallUnlessAdmin_standing (p := p) (fun q => { q with modPresent := false, modId := [] }) s)
    have hmod := congrArg Prod.fst hport
    exact ⟨congrArg Prod.fst hmod, congrArg Prod.snd hmod⟩
  case txflt =>
    have hport := congrArg moduleOf (txfltRise_standing p s)
    have htx := congrArg Prod.snd hport
    exact ⟨congrArg Prod.fst htx, congrArg Prod.snd htx⟩
  case cage =>
    have hstands := fallUnlessAdmin_standing (p := p) (fun q => { q with cageOff := true, cageUp := s.time.up }) s
    have hcage := congrArg PortSt.cageOff hstands
    have hup := congrArg PortSt.cageUp hstands
    dsimp only
    rw [cageSupplyTrip_trips hoff]
    exact ⟨hcage, hup⟩
  case cageEarly =>
    unfold cageSupplyTrip
    rw [cageRetry_early hearly]
    exact if_pos hoff
  case lock =>
    have hspan : (portSt (modPort p (fun q => { q with los := false }) s) p).span = .down := by rw [portSt_modPort]; exact hdown
    have hfall : losFall p s = seekLock p (modPort p (fun q => { q with los := false }) s) := startLock_seeks hspan hmay
    have hstands := seekLock_standing p (modPort p (fun q => { q with los := false }) s)
    rw [portSt_modPort] at hstands
    have hlos := congrArg PortSt.los hstands
    obtain ⟨hlocking, hsince, -, -⟩ := seekLock_port p (modPort p (fun q => { q with los := false }) s)
    dsimp only
    rw [hfall]
    exact ⟨hlocking, hsince.trans (congrArg TimeState.up (modPort_time _ _ _)), hlos⟩
  case noLock =>
    rw [portSt_modPort]
    exact hnot
  case page =>
    have hport := startLock_module p (modPort p (fun q => { q with modPresent := true, modId := b }) s)
    rw [portSt_modPort] at hport
    have hmod := congrArg Prod.fst hport
    dsimp only
    rw [moduleInsert_page b hoff]
    exact ⟨congrArg Prod.fst hmod, congrArg Prod.snd hmod⟩
  case holdEnd =>
    have hport := startLock_module p (modPort p (fun q => { q with txdisUntil := none, txFault := false }) s)
    rw [portSt_modPort] at hport
    have htx := congrArg Prod.snd hport
    dsimp only
    rw [txfltHoldEnd_due hheld hdue]
    exact ⟨congrArg Prod.snd htx, congrArg Prod.fst htx⟩
  case training =>
    dsimp only
    rw [livenessLoss_training h]
    exact (seekLock_port p _).1

end Sys2Proof.Proofs
end

section
/-! Lock, training, keep markers and the enable of a port (R70 to R75, R84, R125, R138). -/

namespace Sys2Proof.Proofs

open Sys2Proof Sys2Proof.Machine Sys2Proof.Laws

/-! ## Register writes and the ports -/

section
variable (s : State)

theorem rerouted_csrPut (a w : Nat) : Rerouted s (csrPut a w s) := ⟨fun q => by cases q <;> rfl, rfl, rfl⟩

theorem rerouted_setFld (a lo w v : Nat) : Rerouted s (setFld a lo w v s) := rerouted_csrPut s _ _

theorem rerouted_sysErr (n : Nat) : Rerouted s (sysErr n s) := rerouted_csrPut s _ _

theorem rerouted_putField (a v : Nat) (f : FieldRow) : Rerouted s (putField a v f s) := by
  unfold putField
  split
  · split
    · exact rerouted_setFld s _ _ _ _
    · exact rerouted_sysErr s 0
  · exact rerouted_setFld s _ _ _ _
  · exact rerouted_setFld s _ _ _ _
  · exact .refl s

theorem rerouted_putFields (a v : Nat) : Rerouted s (putFields a v s) := rerouted_foldl (fun t f => rerouted_putField t a v f) _ s

end

/-- A write of RING_PCFG of either port (R74). -/
theorem csrWrite_pcfg (p : Port) (v : Nat) (s : State) : csrWrite (portAddr p 0) v s = writePcfg p v s := by cases p <;> rfl

/-! ## TRAIN (R65, R72, R73) -/

section
variable {p : Port} {s v : State}

/-- What training decides rests on the ring's registers alone. -/
theorem trainState_modPort (q : Port) (f : PortSt → PortSt) (s : State) (i : TrainInfo) (n m : Nat) :
    trainState p (modPort q f s) i n m = trainState p s i n m := by cases q <;> rfl

theorem pcfg_modPort (q : Port) (f : PortSt → PortSt) (s : State) : pcfg (modPort q f s) p = pcfg s p := by cases q <;> rfl

/-- What a TRAIN leaves at a port: its state, its peer, its count and the revision of a span that comes UP. -/
structure Trained (p : Port) (st : SpanState) (f : PortSt → PortSt) (s t : State) : Prop where
  span : (portSt t p).span = st
  stays : standing (portSt t p) = standing (f (portSt s p))
  count : (portSt t p).consistent = (f (portSt s p)).consistent
  rev : (portSt t p).rev = (f (portSt s p)).rev

theorem trained_setSpan (st : SpanState) (f : PortSt → PortSt) (s : State) (hup : (portSt s p).span ≠ .up)
    (hf : ∀ q, (f q).span = q.span := by intro; rfl) : Trained p st f s (setSpan p st (modPort p f s)) := by
  have hnot : (portSt (modPort p f s) p).span ≠ .up := by rw [portSt_modPort, hf]; exact hup
  obtain ⟨hrev, hcount⟩ := setSpan_found p st (modPort p f s) hnot
  rw [portSt_modPort] at hrev hcount
  exact ⟨(setSpan_moved p st _).span, setSpan_standing st f s, hcount, hrev⟩

theorem Trained.reroute {st : SpanState} {f : PortSt → PortSt} {t u : State} (h : Trained p st f s t) (k : Rerouted t u) :
    Trained p st f s u := by
  have hcount := congrArg PortSt.consistent (k.ports p)
  have hrev := congrArg PortSt.rev (k.ports p)
  exact ⟨(k.span p).trans h.span, (standing_of_core (k.ports p)).trans h.stays, hcount.trans h.count, hrev.trans h.rev⟩

/-- The port once a TRAIN has told of its peer. -/
def toldBy (i : TrainInfo) (n : Nat) (b : List Byte) (q : PortSt) : PortSt :=
  { q with train := some i, consistent := n, peerNode := rd b 16 1, keepNode := 0, peerPort := rd b 1 1
           peerUid := BitVec.ofNat 64 (rd b 4 8), peerMasterInit := bit (rd b 17 1) 1 }

/-- A TRAIN received while the span trains (R73). -/
theorem takeTrain_training {b : List Byte} {i : TrainInfo} {n : Nat} (h : (portSt s p).span = .training)
    (hi : i = ⟨rd b 1 1, rd b 2 1, rd b 3 1, rd b 12 4⟩)
    (hn : n = if (portSt s p).train = some i then min 255 ((portSt s p).consistent + 1) else 0) :
    takeTrain p b s = match trainState p s i n (rd b 19 1) with
      | .up => setSpan p .up (modPort p (fun q => { q with rev := min (bits (pcfg s p) 8 4) i.revMax }) (modPort p (toldBy i n b) s))
      | .miswired => bump (portAddr p 0x38) (setSpan p .miswired (modPort p (toldBy i n b) s))
      | st => setSpan p st (modPort p (toldBy i n b) s) := by
  have hstate : ∀ m, trainState p (modPort p (toldBy i n b) s) i n m = trainState p s i n m := trainState_modPort p _ s i n
  rw [← hstate, ← pcfg_modPort p (toldBy i n b) s]
  subst hi
  subst hn
  unfold takeTrain
  simp only [h]
  rfl

theorem modPort_modPort (p : Port) (f g : PortSt → PortSt) (s : State) : modPort p f (modPort p g s) = modPort p (fun q => f (g q)) s := by
  cases p <;> rfl

theorem takeTrain_trained {b : List Byte} {i : TrainInfo} {n : Nat} (h : (portSt s p).span = .training)
    (hi : i = ⟨rd b 1 1, rd b 2 1, rd b 3 1, rd b 12 4⟩)
    (hn : n = if (portSt s p).train = some i then min 255 ((portSt s p).consistent + 1) else 0) :
    ∃ rev, (trainState p s i n (rd b 19 1) = .up → rev = min (bits (pcfg s p) 8 4) i.revMax)
      ∧ Trained p (trainState p s i n (rd b 19 1)) (fun q => { toldBy i n b q with rev := rev }) s (takeTrain p b s) := by
  have hup : (portSt s p).span ≠ .up := by rw [h]; decide
  have htold : ∀ st, Trained p st (fun q => { toldBy i n b q with rev := (portSt s p).rev }) s
      (setSpan p st (modPort p (toldBy i n b) s)) := fun st => by
    have htrained := trained_setSpan st (toldBy i n b) s hup
    exact ⟨htrained.span, htrained.stays, htrained.count, htrained.rev⟩
  rw [takeTrain_training h hi hn]
  split
  · next hcame =>
    refine ⟨_, fun _ => rfl, ?_⟩
    rw [hcame, modPort_modPort]
    exact trained_setSpan .up _ s hup
  · next hmiswired =>
    refine ⟨(portSt s p).rev, fun hnot => absurd (hmiswired.symm.trans hnot) (by decide), ?_⟩
    rw [hmiswired]
    exact (htold .miswired).reroute (rerouted_bump _ _)
  · next hnot _ => exact ⟨(portSt s p).rev, fun hcame => absurd hcame hnot, htold _⟩

/-! ## Lock and timers (R70, R75) -/

theorem blockLock_locks {fec : Bool} (h : (portSt s p).span = .locking)
    (hmode : bits (pcfg s p) 1 2 = 2 ∨ bits (pcfg s p) 1 2 = (if fec = true then 1 else 0)) : blockLock p fec s =
      setSpan p .training (modPort p (fun q => { q with fecOn := fec, txFec := fec, train := none, consistent := 0 }) s) := by
  unfold blockLock
  refine if_pos ⟨h, ?_⟩
  cases fec
  · exact hmode.imp_right fun hnone => .inr ⟨hnone, rfl⟩
  · exact hmode.imp_right fun hon => .inl ⟨hon, rfl⟩

theorem blockLock_other {fec : Bool} (hmode : bits (pcfg s p) 1 2 = (if fec = true then 0 else 1)) : blockLock p fec s = s := by
  unfold blockLock
  refine if_neg fun hlocks => ?_
  obtain ⟨-, hlocks⟩ := hlocks
  rw [hmode] at hlocks
  cases fec <;> simp at hlocks

theorem trainingTimeout_due (h : (portSt s p).span = .training) (hdue : (portSt s p).lockUp + 100000 ≤ s.time.up) :
    trainingTimeout p s = seekLock p (bump (portAddr p 0x38) s) := by
  unfold trainingTimeout
  dsimp only
  rw [h]
  refine if_pos ?_
  rw [Bool.and_eq_true]
  exact ⟨rfl, decide_eq_true (by unfold since; omega)⟩

theorem trainingTimeout_waits (h : s.time.up < (portSt s p).lockUp + 100000 ∨ (portSt s p).span = .up ∨ (portSt s p).span = .locking) :
    trainingTimeout p s = s := by
  unfold trainingTimeout
  refine if_neg fun hdue => ?_
  rw [Bool.and_eq_true] at hdue
  obtain ⟨htrains, hdue⟩ := hdue
  have hdue := of_decide_eq_true hdue
  unfold since at hdue
  rcases h with hearly | hup | hlocking
  · omega
  · rw [hup] at htrains
    exact Bool.false_ne_true htrains
  · rw [hlocking] at htrains
    exact Bool.false_ne_true htrains

theorem fecLockTimeout_due (h : (portSt s p).span = .locking) (hdue : (portSt s p).fecFailUp + 200000 ≤ s.time.up) :
    fecLockTimeout p s = modPort p (fun q => { q with fecFailUp := s.time.up }) (bump (portAddr p 0x38) s) := by
  unfold fecLockTimeout
  exact if_pos ⟨h, by unfold since; omega⟩

theorem fecLockTimeout_waits (h : (portSt s p).span ≠ .locking ∨ s.time.up < (portSt s p).fecFailUp + 200000) : fecLockTimeout p s = s := by
  unfold fecLockTimeout
  refine if_neg fun hdue => ?_
  obtain ⟨hlocking, hdue⟩ := hdue
  unfold since at hdue
  cases h with
  | inl hnot => exact hnot hlocking
  | inr hearly => omega

/-! ## Keep markers (R71, R125, R138) -/

theorem keepMarkerSend_admin (h : (portSt s p).span = .adminDown) : keepMarkerSend p s = s := by
  unfold keepMarkerSend
  simp only [h]

theorem keepMarkerSend_sends (h : (portSt s p).span ≠ .adminDown) : keepMarkerSend p s = sendKeep p s := by
  unfold keepMarkerSend
  split
  · next hadmin => exact absurd hadmin h
  · rfl

theorem keepMarkerRx_up {node missed : Nat} (h : (portSt s p).span = .up) : keepMarkerRx p node 3 missed s =
    modPort p (fun q => { q with peerUp := true, keepNode := node, holdUp := some (q.holdUp.getD s.time.up) })
      (bumpBy (portAddr p 0x34) missed s) := by
  unfold keepMarkerRx
  simp only [h]
  exact if_pos trivial

theorem keepMarkerRx_falls {node st missed : Nat} (h : (portSt s p).span = .up) (hst : st ≠ 3)
    (hseen : st ≠ 2 ∨ (portSt s p).peerUp = true) : keepMarkerRx p node st missed s =
      setSpan p .down (bumpBy (portAddr p 0x34) missed s) := by
  unfold keepMarkerRx
  simp only [h]
  refine (if_neg hst).trans (if_neg fun hsame => ?_)
  obtain ⟨htwo, hnew⟩ := hsame
  cases hseen with
  | inl hnot => exact hnot htwo
  | inr hup => rw [hup] at hnew; exact Bool.false_ne_true hnew

/-! ## The enable (R74) -/

theorem startLock_span (h : (portSt s p).span = .down) : (portSt (startLock p s) p).span = .down ∨ (portSt (startLock p s) p).span = .locking := by
  by_cases hmay : mayLock s p = true
  · rw [startLock_seeks h hmay]
    exact .inr (seekLock_port p s).1
  · rw [startLock_waits (.inr (Bool.eq_false_iff.mpr hmay))]
    exact .inl h

theorem adminPort_off (p : Port) (s : State) : Moved p .adminDown s (adminPort p false s) := by
  unfold adminPort
  exact (rerouted_setFld s _ _ _ _).moves (setSpan_moved p .adminDown _)

theorem adminPort_on (p : Port) (s : State) :
    (portSt (adminPort p true s) p).span = .down ∨ (portSt (adminPort p true s) p).span = .locking := by
  unfold adminPort
  rw [if_pos rfl]
  dsimp only
  have hdown := (setSpan_moved p .down (setFld (portAddr p 0) 0 1 1 s)).span
  split
  · exact startLock_span hdown
  · exact startLock_span (by rw [portSt_modPort]; exact hdown)

theorem hostWrite_pcfg (v : Nat) (hfree : barFree s = true) : hostWrite (portAddr p 0) v s = adminPort p (bit v 0) (putFields (portAddr p 0) v s) := by
  unfold hostWrite
  rw [if_pos hfree, csrWrite_pcfg]
  rfl

end

/-- Settles O46, by the span change that lock, each TRAIN, each timer, each marker and the enable make. -/
theorem training : Obligations.Training := by
  unfold Obligations.Training
  refine fun p s => ⟨fun fec hlocking => ⟨fun hmode => ⟨_, commit_goOn s _, ?lock⟩, fun hmode => effectIs_eq (blockLock_other hmode)⟩,
    fun h => effectIs_eq (if_pos (by rw [h]; rfl)), fun h => effectIs_eq (if_neg (by rw [h]; exact Bool.false_ne_true)),
    fun f i n hhead hp htraining hi hn => ⟨_, commit_goOn s _, ?train⟩, fun h hdue => ⟨_, commit_goOn s _, ?timeout⟩,
    fun h => effectIs_eq (trainingTimeout_waits h), fun h hdue => effectIs_eq (fecLockTimeout_due h hdue),
    fun h => effectIs_eq (fecLockTimeout_waits h), fun h => effectIs_eq (keepMarkerSend_admin h),
    fun h => effectIs_eq (keepMarkerSend_sends h),
    fun node rev hup missed => ⟨effectIs_eq (keepMarkerRx_up hup), fun st hst hseen => ⟨_, commit_goOn s _, ?marker⟩⟩,
    fun v hfree hoff => ⟨_, commit_goOn s _, ?off⟩, fun v hfree hon => ⟨_, commit_goOn s _, ?on⟩⟩
  case lock =>
    have htrained := trained_setSpan (p := p) .training (fun q => { q with fecOn := fec, txFec := fec, train := none, consistent := 0 }) s
      (by rw [hlocking]; decide)
    have hfec := congrArg PortSt.fecOn htrained.stays
    have htx := congrArg PortSt.txFec htrained.stays
    dsimp only
    rw [blockLock_locks hlocking hmode]
    exact ⟨htrained.span, hfec, htx, htrained.count⟩
  case train =>
    generalize hv : dequeue .local 4 s = v
    have htaken : Taken s v := by rw [← hv]; exact taken_dequeue _ _ s
    have hport : portSt v p = portSt s p := portSt_of_ring p htaken.ring
    have hstate : ∀ m, trainState p v i n m = trainState p s i n m := fun m => by rw [htaken.only]; rfl
    have hpcfg : pcfg v p = pcfg s p := by rw [htaken.only]; rfl
    have hrx : trainRx s = takeTrain p f.payload v := by
      rw [← hp, ← hv]
      exact takeCtl_head (fun f s => takeTrain (ingressPort f) f.payload s) hhead
    obtain ⟨rev, hrev, htrained⟩ := takeTrain_trained (s := v) (p := p) (b := f.payload) (n := n) ((congrArg PortSt.span hport).trans htraining) hi
      (hn.trans (by rw [hport]))
    rw [hstate, hpcfg] at hrev
    rw [hstate] at htrained
    have hnode := congrArg PortSt.peerNode htrained.stays
    have huid := congrArg PortSt.peerUid htrained.stays
    rw [hrx]
    exact ⟨htrained.span, hnode, huid, htrained.count, fun hcame => htrained.rev.trans (hrev hcame)⟩
  case timeout =>
    dsimp only
    rw [trainingTimeout_due h hdue]
    exact seekLock_port p (bump (portAddr p 0x38) s)
  case marker =>
    dsimp only
    rw [keepMarkerRx_falls hup (fun h => hst (BitVec.eq_of_toNat_eq h)) (hseen.imp_left fun hnot h => hnot (BitVec.eq_of_toNat_eq h))]
    exact (setSpan_moved p .down _).span
  case off =>
    have hmoved := (rerouted_putFields s (portAddr p 0) v.toNat).moves (adminPort_off p _)
    dsimp only
    rw [hostWrite_pcfg v.toNat hfree, hoff]
    exact ⟨hmoved.span, hmoved.other_span⟩
  case on =>
    dsimp only
    rw [hostWrite_pcfg v.toNat hfree, hon]
    exact adminPort_on p _

end Sys2Proof.Proofs
end

section
/-! Beacons, holdover, peer delay, SYNC_IN and SYNC_OUT (R144, R152 to R155, R159 to R161, R166 to R168). -/

namespace Sys2Proof.Proofs

open Sys2Proof Sys2Proof.Machine Sys2Proof.Laws

/-! ## Steering (R152, R153) -/

section
variable {s : State} {off : Int}

/-- A rate taken between two bounds. -/
theorem between_bounds {lo hi : Int} (x : Nat) (h : lo ≤ hi) :
    lo ≤ lo + (x % ((hi - lo).toNat + 1) : Nat) ∧ lo + (x % ((hi - lo).toNat + 1) : Nat) ≤ hi := by
  have hmod : x % ((hi - lo).toNat + 1) < (hi - lo).toNat + 1 := Nat.mod_lt _ (Nat.succ_pos _)
  generalize x % ((hi - lo).toNat + 1) = r at hmod
  omega

/-- The new rate lies within 200 ppm, and turns against the offset. -/
theorem newRate_turns (hlow : -200000000 ≤ s.time.rate) (hhigh : s.time.rate ≤ 200000000) :
    (-200000000 ≤ (newRate off s).1 ∧ (newRate off s).1 ≤ 200000000)
    ∧ (0 < off → (newRate off s).1 < s.time.rate ∨ (newRate off s).1 = -200000000)
    ∧ (off < 0 → s.time.rate < (newRate off s).1 ∨ (newRate off s).1 = 200000000) := by
  unfold newRate
  extract_lets r lim lo hi
  have hlo : lo = if off < 0 then min 200000000 (s.time.rate + 1) else -200000000 := rfl
  have hhi : hi = if 0 < off then max (-200000000) (s.time.rate - 1) else 200000000 := rfl
  clear_value r lo hi
  have hle : lo ≤ hi := by
    rw [hlo, hhi]
    split
    · split <;> omega
    · split <;> omega
  obtain ⟨hge, hle⟩ := between_bounds r.1 hle
  dsimp only
  generalize lo + (r.1 % ((hi - lo).toNat + 1) : Nat) = x at hge hle
  rcases Int.lt_trichotomy off 0 with hneg | hzero | hpos
  · rw [if_pos hneg] at hlo
    rw [if_neg (by omega)] at hhi
    omega
  · rw [if_neg (by omega)] at hlo hhi
    omega
  · rw [if_neg (by omega)] at hlo
    rw [if_pos hpos] at hhi
    omega

theorem steer_time (off : Int) (s : State) : (steer off s).time = { s.time with
    rate := (newRate off s).1, rates := (s.time.rates ++ [(newRate off s).1]).drop (s.time.rates.length + 1 - 16) } := rfl

/-- Judging an offset touches the count of good ones and the lock alone. -/
theorem judgeOffset_time (off : Int) (s : State) : ∃ good locked, (judgeOffset off s).time = { s.time with good := good, locked := locked } := by
  unfold judgeOffset
  dsimp only
  split
  · split
    · exact ⟨_, _, condEnd_time _ _ _⟩
    · exact ⟨_, _, rfl⟩
  · split
    · exact ⟨_, _, detect_time _ _ _⟩
    · exact ⟨_, _, rfl⟩

end

/-! ## Beacons (R144, R153, R159) -/

/-- The time that a beacon gives here, in 2^−16 ns. -/
def beaconRef (s : State) (f : Frame) : Int :=
  (((rd f.payload 8 6 * 1000000000 + rd f.payload 16 4) * 65536 + rd f.payload 14 2 : Nat) : Int)
    + toSigned 64 (rd f.payload 20 8) + pdIn s (ingressPort f)

/-- A beacon of a higher rank than the one followed, in the cycle of that one. -/
def outranks (s : State) (f : Frame) : Bool := overrides s f.src (rd f.payload 1 1) && (s.time.lastBeacon == some f.cycle)

/-- What an accepted beacon notes of the time, before ring time is set or steered. -/
def heardTime (f : Frame) (ref : Int) (t : TimeState) : TimeState :=
  { t with
    lastBeacon := some f.cycle, accepted := f.cycle :: t.accepted, lastBeaconUp := t.up, missed := 0, holdover := false
    source := sourceOf (ingressPort f), lastRef := ref.toNat / 65536, lastRate := toSigned 32 (rd f.payload 36 4)
    lastBackup := bit (rd f.payload 1 1) 2, label := BitVec.ofNat 64 (rd f.payload 28 8) }

/-- The hub once it has noted an accepted beacon, before its ring time is set or steered. -/
def heard (f : Frame) (s : State) : State :=
  modMaster (fun m => { m with lostUp := none, firstBeacon := if m.stopped then some (m.firstBeacon.getD f.cycle) else m.firstBeacon })
    (modRing (fun r => { r with beaconSrc := f.src }) (modTime (heardTime f (beaconRef s f)) (condEnd 0x0303 false s)))

section
variable {s v : State} {f : Frame}

theorem heard_time (f : Frame) (s : State) : (heard f s).time = heardTime f (beaconRef s f) s.time :=
  congrArg (heardTime f (beaconRef s f)) (condEnd_time s 0x0303 false)

theorem heard_ring (f : Frame) (s : State) : (heard f s).ring = { s.ring with beaconSrc := f.src } :=
  congrArg (fun r : RingState => { r with beaconSrc := f.src }) (condEnd_ring s 0x0303 false)

theorem heard_hub (f : Frame) (s : State) : (heard f s).hub = s.hub := condEnd_hub s 0x0303 false

/-- An accepted beacon where a light list is in force. -/
theorem acceptBeacon_eq {l : LightList} (hlight : s.ring.light = some l) : acceptBeacon f s =
    if !(heard f s).time.holds then
      modTime (fun t => { setRing (beaconRef s f).toNat t with holds := true, offset := 0, good := 0, locked := false }) (heard f s)
    else if ((heard f s).hub = .isolated ∨ ((heard f s).hub = .sleep ∧ (heard f s).power.sleepLevel = 2))
        ∧ ((f.rxTime : Int) - beaconRef s f).natAbs > 1000 * 65536 then
      modTime (fun t => { setRing (beaconRef s f).toNat t with offset := (f.rxTime : Int) - beaconRef s f, good := 0, stepped := true }) (heard f s)
    else judgeOffset ((f.rxTime : Int) - beaconRef s f) (steer ((f.rxTime : Int) - beaconRef s f)
      (modTime (fun t => { t with offset := (f.rxTime : Int) - beaconRef s f }) (heard f s))) := by
  have hsome : (heard f s).ring.light.isNone = false := by rw [heard_ring, hlight]; rfl
  unfold acceptBeacon
  extract_lets b p origin ref off n s₁ s₂ s₃ s₄ s₅
  have hheard : s₄ = heard f s := rfl
  have hkept : s₅ = heard f s := by
    dsimp only [s₅]
    rw [hheard, hsome]
    exact if_neg Bool.false_ne_true
  have hoff : off = (f.rxTime : Int) - beaconRef s f := rfl
  have href : ref = beaconRef s f := rfl
  rw [hkept, hoff, href]

theorem acceptBeacon_sets {l : LightList} (hlight : s.ring.light = some l) (hholds : s.time.holds = false) : acceptBeacon f s =
    modTime (fun t => { setRing (beaconRef s f).toNat t with holds := true, offset := 0, good := 0, locked := false }) (heard f s) := by
  rw [acceptBeacon_eq hlight]
  exact if_pos (by rw [heard_time]; exact congrArg not hholds)

theorem acceptBeacon_steers {l : LightList} (hlight : s.ring.light = some l) (hholds : s.time.holds = true) (hrun : s.hub = .run) :
    ∃ good locked rates, (acceptBeacon f s).time = { (heard f s).time with
      offset := (f.rxTime : Int) - beaconRef s f, rate := (newRate ((f.rxTime : Int) - beaconRef s f)
        (modTime (fun t => { t with offset := (f.rxTime : Int) - beaconRef s f }) (heard f s))).1
      rates := rates, good := good, locked := locked } := by
  have hheld : ¬(!(heard f s).time.holds) = true := by
    rw [heard_time]
    exact fun h => Bool.false_ne_true ((congrArg not hholds).symm.trans h)
  have hhub : ¬(((heard f s).hub = .isolated ∨ ((heard f s).hub = .sleep ∧ (heard f s).power.sleepLevel = 2))
      ∧ ((f.rxTime : Int) - beaconRef s f).natAbs > 1000 * 65536) := by
    rw [heard_hub, hrun]
    exact fun h => h.1.elim (fun h => absurd h (by decide)) (fun h => absurd h.1 (by decide))
  rw [acceptBeacon_eq hlight, if_neg hheld, if_neg hhub]
  obtain ⟨good, locked, htime⟩ := judgeOffset_time ((f.rxTime : Int) - beaconRef s f) (steer ((f.rxTime : Int) - beaconRef s f)
      (modTime (fun t => { t with offset := (f.rxTime : Int) - beaconRef s f }) (heard f s)))
  rw [htime, steer_time]
  exact ⟨good, locked, _, rfl⟩

/-- A beacon at a hub that is no master. -/
theorem beaconRx_eq (hhead : ctlHead s 2 40 = some f) (hrole : s.master.role = 0) (hv : v = dequeue .local 4 s) : beaconRx s =
    if !outranks s f && !senderAllowed s f.src (rd f.payload 1 1)
        && !(f.src == s.ring.beaconSrc && !s.time.lastBackup && s.time.lastBeacon.isSome) then bump 0x50654 v
    else if s.time.accepted.contains f.cycle && !outranks s f then bump 0x40110 v
    else if (match s.ring.light with | some l => rd f.payload 4 4 == l.n.toNat | none => rd f.payload 4 4 != 0) = true
        ∧ f.cycle * rd f.payload 4 4 * 500 ≤ rd f.payload 8 6 * 1000000000 + rd f.payload 16 4
        ∧ rd f.payload 8 6 * 1000000000 + rd f.payload 16 4 ≤ f.cycle * rd f.payload 4 4 * 500 + 4000
        ∧ pdValid s (ingressPort f) = true then acceptBeacon f v
    else bump 0x40114 v := by
  obtain ⟨w, hw⟩ : ∃ w, v = { s with sw := w } := ⟨v.sw, by rw [hv]; exact (taken_dequeue _ _ s).only⟩
  have hmaster : isMaster v = false := by rw [hw]; unfold isMaster; rw [hrole]; rfl
  have hyields : yieldsTo v f.src (rd f.payload 1 1) = false := by rw [hw]; unfold yieldsTo; rw [hrole]; rfl
  unfold beaconRx
  rw [takeCtl_head _ hhead, ← hv]
  dsimp only
  rw [hmaster, hyields, Bool.false_and, if_neg Bool.false_ne_true, Bool.not_false, Bool.true_and, Bool.and_true, if_neg Bool.false_ne_true, hw]
  rfl

theorem outranks_of_cycle (h : s.time.lastBeacon ≠ some f.cycle) : outranks s f = false := by
  unfold outranks
  rw [beq_eq_false_iff_ne.mpr h, Bool.and_false]

theorem outranks_of_source (h : s.ring.beaconSrc = f.src) : outranks s f = false := by
  unfold outranks overrides
  rw [h, bne_self_eq_false, Bool.false_and, Bool.false_and]

/-- A beacon of a sender that is not allowed (R144, R159). -/
theorem beaconRx_foreign (hhead : ctlHead s 2 40 = some f) (hrole : s.master.role = 0) (hv : v = dequeue .local 4 s)
    (hallowed : senderAllowed s f.src (rd f.payload 1 1) = false) (hsrc : s.ring.beaconSrc ≠ f.src) (hcycle : s.time.lastBeacon ≠ some f.cycle) :
    beaconRx s = bump 0x50654 v := by
  rw [beaconRx_eq hhead hrole hv]
  exact if_pos (by rw [outranks_of_cycle hcycle, hallowed, beq_eq_false_iff_ne.mpr (Ne.symm hsrc)]; rfl)

section
variable (hhead : ctlHead s 2 40 = some f) (hrole : s.master.role = 0) (hv : v = dequeue .local 4 s)
  (hallowed : senderAllowed s f.src (rd f.payload 1 1) = true)
include hhead hrole hv hallowed

theorem beaconRx_again (hseen : s.time.accepted.contains f.cycle = true) (hsrc : s.ring.beaconSrc = f.src) : beaconRx s = bump 0x40110 v := by
  rw [beaconRx_eq hhead hrole hv, outranks_of_source hsrc, hallowed, hseen]
  exact (if_neg Bool.false_ne_true).trans (if_pos rfl)

theorem beaconRx_judged (hnew : s.time.accepted.contains f.cycle = false) : beaconRx s =
    if (match s.ring.light with | some l => rd f.payload 4 4 == l.n.toNat | none => rd f.payload 4 4 != 0) = true
        ∧ f.cycle * rd f.payload 4 4 * 500 ≤ rd f.payload 8 6 * 1000000000 + rd f.payload 16 4
        ∧ rd f.payload 8 6 * 1000000000 + rd f.payload 16 4 ≤ f.cycle * rd f.payload 4 4 * 500 + 4000
        ∧ pdValid s (ingressPort f) = true then acceptBeacon f v
    else bump 0x40114 v := by
  rw [beaconRx_eq hhead hrole hv, hallowed, hnew, Bool.not_true, Bool.and_false, Bool.false_and, if_neg Bool.false_ne_true, Bool.false_and,
    if_neg Bool.false_ne_true]

theorem beaconRx_misplaced (hnew : s.time.accepted.contains f.cycle = false)
    (hbad : pdValid s (ingressPort f) = false ∨ rd f.payload 8 6 * 1000000000 + rd f.payload 16 4 < f.cycle * rd f.payload 4 4 * 500) :
    beaconRx s = bump 0x40114 v := by
  rw [beaconRx_judged hhead hrole hv hallowed hnew]
  refine if_neg fun hgood => ?_
  obtain ⟨-, hstart, -, hvalid⟩ := hgood
  cases hbad with
  | inl hnot => exact Bool.false_ne_true (hnot.symm.trans hvalid)
  | inr hearly => omega

theorem beaconRx_accepts {l : LightList} (hnew : s.time.accepted.contains f.cycle = false) (hlight : s.ring.light = some l)
    (hn : rd f.payload 4 4 = l.n.toNat) (hstart : f.cycle * rd f.payload 4 4 * 500 ≤ rd f.payload 8 6 * 1000000000 + rd f.payload 16 4)
    (hend : rd f.payload 8 6 * 1000000000 + rd f.payload 16 4 ≤ f.cycle * rd f.payload 4 4 * 500 + 4000)
    (hvalid : pdValid s (ingressPort f) = true) : beaconRx s = acceptBeacon f v := by
  rw [beaconRx_judged hhead hrole hv hallowed hnew]
  refine if_pos ⟨?_, hstart, hend, hvalid⟩
  simp only [hlight, hn, beq_self_eq_true]

end

end

/-! ## Holdover (R154) -/

section
variable {s : State}

theorem holdoverEntry_enters (hmissed : 3 ≤ s.time.missed) (hsince : s.time.lastBeaconUp + 2000 ≤ s.time.up) (hmaster : isMaster s = false)
    (hholds : s.time.holds = true) (hnew : s.time.holdover = false) :
    holdoverEntry s = modTime (fun t => { t with holdover := true, rate := meanRate t }) s := by
  unfold holdoverEntry
  exact if_pos ⟨hmissed, by unfold since; omega, by rw [hmaster]; rfl, hholds, by rw [hnew]; rfl⟩

theorem holdoverEntry_waits (h : isMaster s = true ∨ s.time.missed < 3 ∨ s.time.holds = false) : holdoverEntry s = s := by
  unfold holdoverEntry
  refine if_neg fun hall => ?_
  obtain ⟨hmissed, -, hmaster, hholds, -⟩ := hall
  rcases h with hown | hfew | hnone
  · rw [hown] at hmaster
    exact Bool.false_ne_true hmaster
  · omega
  · exact Bool.false_ne_true (hnone.symm.trans hholds)

/-! ## Peer delay (R160, R161) -/

variable {p : Port}

theorem modPd_eq (p : Port) (f : PeerDelay → PeerDelay) (s : State) : modPd p f s = modPort p (fun q => { q with pd := f q.pd }) s := rfl

theorem pd_modPd (p : Port) (f : PeerDelay → PeerDelay) (s : State) : (portSt (modPd p f s) p).pd = f (portSt s p).pd := by
  rw [modPd_eq, portSt_modPort]

theorem pdelayReqSend_due (mac : Nat) (hup : isUp s p = true) (hdue : (portSt s p).pd.sentUp = 0 ∨ (portSt s p).pd.sentUp + 2000 ≤ s.time.up) :
    pdelayReqSend p mac s = sendLocal p ([3, BitVec.ofNat 8 (portNo p)] ++ leBytes 2 ((portSt s p).pd.seq + 1).toNat ++ zeros 4)
      (modPort p (fun q => { q with pd := { q.pd with seq := q.pd.seq + 1, t1 := some (txStamp s p mac), sentUp := s.time.up } }) s) := by
  unfold pdelayReqSend
  dsimp only
  rw [if_pos ⟨hup, hdue.imp_right fun h => by unfold since; omega⟩]
  refine congrArg (sendLocal p _) ?_
  cases p <;> rfl

theorem pdelayReqSend_down (mac : Nat) (hup : isUp s p = false) : pdelayReqSend p mac s = s := by
  unfold pdelayReqSend
  exact if_neg fun h => Bool.false_ne_true (hup.symm.trans h.1)

theorem pdelayRspTimeout_due (hasked : (portSt s p).pd.t1.isSome = true) (hdue : (portSt s p).pd.sentUp + 200 ≤ s.time.up) :
    pdelayRspTimeout p s = modPort p (fun q => { q with pd := { q.pd with t1 := none } }) s := by
  unfold pdelayRspTimeout
  exact if_pos ⟨hasked, by unfold since; omega⟩

theorem pdelayRspTimeout_waits (h : (portSt s p).pd.t1 = none ∨ s.time.up < (portSt s p).pd.sentUp + 200) : pdelayRspTimeout p s = s := by
  unfold pdelayRspTimeout
  refine if_neg fun hdue => ?_
  obtain ⟨hasked, hdue⟩ := hdue
  unfold since at hdue
  cases h with
  | inl hnone => rw [hnone] at hasked; exact Bool.false_ne_true hasked
  | inr hearly => omega

theorem pdelayReqRx_answers (mac : Nat) {f : Frame} (hhead : ctlHead s 3 8 = some f) (hrev : (portSt s (ingressPort f)).rev ≠ 2) :
    pdelayReqRx mac s = sendLocal (ingressPort f) ([4, BitVec.ofNat 8 (portNo (ingressPort f))] ++ slice f.payload 2 2 ++ zeros 4
      ++ leBytes 8 (txStamp s (ingressPort f) mac - f.rxTime)) (dequeue .local 4 s) := by
  have hport : portSt (dequeue .local 4 s) (ingressPort f) = portSt s (ingressPort f) := portSt_of_ring _ (taken_dequeue _ _ s).ring
  have hstamp : txStamp (dequeue .local 4 s) (ingressPort f) mac = txStamp s (ingressPort f) mac := by unfold txStamp; rw [hport]
  unfold pdelayReqRx
  rw [takeCtl_head _ hhead]
  dsimp only
  rw [hport, if_neg hrev, hstamp]

/-- The counter of a port's measurements that lie too far off. -/
def outlierAddr (p : Port) : Nat := match p with | .east => 0x40108 | .west => 0x4010C

/-- What the filter makes of a measurement (R161). -/
theorem pdFilter_cases (p : Port) (m : Nat) (s : State) :
    ((portSt s p).pd.samples = [] ∨ m ≤ pdMean (portSt s p).pd + 20 * 65536 ∧ pdMean (portSt s p).pd ≤ m + 20 * 65536 →
      pdFilter p m s = modPd p (fun d => { d with
        samples := (d.samples ++ [m]).drop (d.samples.length + 1 - 16), accepted := d.accepted + 1, outliers := 0 }) s)
    ∧ ((portSt s p).pd.samples ≠ [] → pdMean (portSt s p).pd + 20 * 65536 < m →
        ((portSt s p).pd.outliers < 7 → pdFilter p m s = modPd p (fun d => { d with outliers := d.outliers + 1 }) (bump (outlierAddr p) s))
        ∧ (7 ≤ (portSt s p).pd.outliers → pdFilter p m s = modPd p (fun d => { d with samples := [], accepted := 0, outliers := 0 }) (bump (outlierAddr p) s))) := by
  unfold pdFilter
  dsimp only
  refine ⟨fun hnear => if_pos (hnear.imp_left fun h => by rw [h]; rfl), fun hsome hfar => ⟨fun hfew => ?_, fun hmany => ?_⟩⟩
  · exact (if_neg (fun h => h.elim (fun hnil => hsome (List.isEmpty_iff.mp hnil)) (fun hnear => absurd hnear.1 (by omega)))).trans
      (if_neg (by omega))
  · exact (if_neg (fun h => h.elim (fun hnil => hsome (List.isEmpty_iff.mp hnil)) (fun hnear => absurd hnear.1 (by omega)))).trans
      (if_pos (by omega))

section
variable {f : Frame} {t1 : Nat} (hhead : ctlHead s 4 16 = some f) (hp : p = ingressPort f) (hasked : (portSt s p).pd.t1 = some t1)
include hhead hp hasked

theorem pdelayRspRx_measures (hseq : rd f.payload 2 2 = (portSt s p).pd.seq.toNat) (hin : s.time.up ≤ (portSt s p).pd.sentUp + 200) :
    pdelayRspRx s = pdFilter p (((f.rxTime - t1) - rd f.payload 8 8) / 2) (modPd p (fun d => { d with t1 := none }) (dequeue .local 4 s)) := by
  subst hp
  have htaken := taken_dequeue .local 4 s
  have hport : portSt (dequeue .local 4 s) (ingressPort f) = portSt s (ingressPort f) := portSt_of_ring _ htaken.ring
  have htime : (dequeue .local 4 s).time = s.time := by rw [htaken.only]
  unfold pdelayRspRx
  rw [takeCtl_head _ hhead]
  dsimp only
  rw [hport]
  simp only [hasked]
  exact if_pos ⟨hseq, by unfold since; rw [htime]; omega⟩

theorem pdelayRspRx_other (hseq : rd f.payload 2 2 ≠ (portSt s p).pd.seq.toNat) : pdelayRspRx s = dequeue .local 4 s := by
  subst hp
  have hport : portSt (dequeue .local 4 s) (ingressPort f) = portSt s (ingressPort f) := portSt_of_ring _ (taken_dequeue .local 4 s).ring
  unfold pdelayRspRx
  rw [takeCtl_head _ hhead]
  dsimp only
  rw [hport]
  simp only [hasked]
  exact if_neg fun h => hseq h.1

end

/-! ## SYNC_IN and SYNC_OUT (R166 to R168) -/

/-- How far a SYNC_IN edge lies from the nearest second, in 2^−16 ns. -/
def edgePhase (ns : Nat) : Int :=
  (if ((ns % 1000000000 : Nat) : Int) < 500000000 then ((ns % 1000000000 : Nat) : Int) else ((ns % 1000000000 : Nat) : Int) - 1000000000) * 65536

theorem syncInEdge_idle (ns : Nat) (h : isMaster s = false ∨ fld s 0x40000 0 1 = 0) : syncInEdge ns s = modTime (fun t => { t with syncIn := ns }) s := by
  unfold syncInEdge
  refine if_neg fun hall => ?_
  obtain ⟨hmaster, henabled⟩ := hall
  have hmaster : isMaster s = true := hmaster
  have henabled : fld s 0x40000 0 1 = 1 := henabled
  cases h with
  | inl hnot => exact Bool.false_ne_true (hnot.symm.trans hmaster)
  | inr hoff => omega

section
variable {ns : Nat} (hmaster : isMaster s = true) (henabled : fld s 0x40000 0 1 = 1)
include hmaster henabled

theorem syncInEdge_first (hnone : s.time.syncInAccepted = none) : syncInEdge ns s =
    modTime (fun t => { t with syncIn := ns, syncInAccepted := some ns, syncInGood := 1 }) s := by
  have hkept : (modTime (fun t => { t with syncIn := ns }) s).time.syncInAccepted = none := hnone
  unfold syncInEdge
  dsimp only
  rw [if_pos ⟨hmaster, henabled⟩]
  simp only [hkept]
  rfl

theorem syncInEdge_next {prev : Nat} (hprev : s.time.syncInAccepted = some prev) (hge : 999900000 ≤ ns - prev) (hle : ns - prev ≤ 1000100000) :
    syncInEdge ns s =
      if 3 ≤ s.time.syncInGood + 1 then
        condEnd 0x0402 false (modTime (fun t => { t with ppsLock := true, holdover := false, source := 4 })
          (steer (edgePhase ns)
            (modTime (fun t => { t with syncIn := ns, syncInAccepted := some ns, syncInGood := s.time.syncInGood + 1 }) s)))
      else modTime (fun t => { t with syncIn := ns, syncInAccepted := some ns, syncInGood := s.time.syncInGood + 1 }) s := by
  have hkept : (modTime (fun t => { t with syncIn := ns }) s).time.syncInAccepted = some prev := hprev
  unfold syncInEdge
  dsimp only
  rw [if_pos ⟨hmaster, henabled⟩]
  simp only [hkept]
  exact if_pos ⟨hge, hle⟩

/-- The third good edge and those after it steer, and lock (R166, R167). -/
theorem syncInEdge_locks {prev : Nat} (hprev : s.time.syncInAccepted = some prev) (hge : 999900000 ≤ ns - prev) (hle : ns - prev ≤ 1000100000)
    (hmany : 2 ≤ s.time.syncInGood) : ∃ off good, (syncInEdge ns s).time = { (steer off (modTime (fun t => { t with
      syncIn := ns, syncInAccepted := some ns, syncInGood := good }) s)).time with ppsLock := true, holdover := false, source := 4 } := by
  refine ⟨edgePhase ns, s.time.syncInGood + 1, ?_⟩
  rw [syncInEdge_next hmaster henabled hprev hge hle, if_pos (Nat.succ_le_succ hmany), condEnd_time]
  rfl

theorem syncInEdge_misplaced {prev : Nat} (hprev : s.time.syncInAccepted = some prev) (hlt : ns - prev < 999900000) : syncInEdge ns s =
    bump 0x40118 (modTime (fun t => { t with syncIn := ns, syncInGood := 0 }) s) := by
  have hkept : (modTime (fun t => { t with syncIn := ns }) s).time.syncInAccepted = some prev := hprev
  have hsame : modTime (fun t => { t with syncInGood := 0, syncInAccepted := some prev }) (modTime (fun t => { t with syncIn := ns }) s)
      = modTime (fun t => { t with syncIn := ns, syncInGood := 0 }) s := by
    unfold modTime
    rw [← hprev]
  unfold syncInEdge
  dsimp only
  rw [if_pos ⟨hmaster, henabled⟩]
  simp only [hkept]
  rw [if_neg (by omega), if_neg (by omega), hsame]

end

theorem ppsLost_loses {prev : Nat} (hprev : s.time.syncInAccepted = some prev) (hlock : s.time.ppsLock = true) (hlate : prev + 2000100000 ≤ ringNs s) :
    ppsLost s = detect 0x0402 {} (modTime (fun t => { t with
      ppsLock := false, syncInGood := 0, syncInAccepted := none, source := 3, holdover := true, rate := meanRate t }) s) := by
  unfold ppsLost
  simp only [hprev]
  exact if_pos ⟨hlock, hlate⟩

theorem ppsLost_early {prev : Nat} (hprev : s.time.syncInAccepted = some prev) (hearly : ringNs s < prev + 2000100000) : ppsLost s = s := by
  unfold ppsLost
  simp only [hprev]
  exact if_neg fun h => absurd h.2 (by omega)

section
variable {t : Nat} {pol : Bool} (hnext : s.time.syncNext = some t)
include hnext

theorem syncOutPulse_early (hearly : nsNow s < t) : syncOutPulse s = s := by
  unfold syncOutPulse
  simp only [hnext]
  exact if_neg fun h => absurd h.2.1 (by omega)

theorem syncOutPulse_due (hpol : pol = (fld s 0x40000 3 1 == 1)) (hout : fld s 0x40000 2 1 = 1) (hlive : fieldLive s = true) (hdue : t ≤ nsNow s) :
    syncOutPulse s = if (s.time.syncBall == some (!pol)) = true then
        modTime (fun x => { x with
          syncBall := some pol, syncNext := if csr s 0x40048 = 0 then none else some (t + csr s 0x40048 - csr s 0x4004C) }) s
      else modTime (fun x => { x with syncBall := some (!pol), syncNext := some (t + csr s 0x4004C) }) s := by
  subst hpol
  unfold syncOutPulse
  simp only [hnext]
  exact if_pos ⟨hout, hdue, hlive⟩

end

end

/-- Settles O49, by what each beacon, each measurement and each edge does. -/
theorem timeEvents : Obligations.TimeEvents := by
  unfold Obligations.TimeEvents
  refine ⟨⟨fun f ref s v hhead hv hrole href => ⟨fun hallowed hsrc hcycle => effectIs_eq (beaconRx_foreign hhead hrole hv hallowed hsrc hcycle),
      fun hallowed hseen hsrc => effectIs_eq (beaconRx_again hhead hrole hv hallowed hseen hsrc),
      fun hallowed hnew hbad => effectIs_eq (beaconRx_misplaced hhead hrole hv hallowed hnew hbad),
      fun l hallowed hnew hlight hn hstart hend hvalid => ⟨fun hholds => ⟨_, commit_goOn s _, ?sets⟩, fun hholds hrun => ⟨_, commit_goOn s _, ?steers⟩⟩⟩,
    fun s => ⟨fun hmissed hsince hmaster hholds hnew => effectIs_eq (holdoverEntry_enters hmissed hsince hmaster hholds hnew),
      fun h => effectIs_eq (holdoverEntry_waits h)⟩,
    fun p mac s => ⟨fun hup hdue => effectIs_eq (pdelayReqSend_due mac hup hdue), fun hup => effectIs_eq (pdelayReqSend_down mac hup),
      fun hasked hdue => effectIs_eq (pdelayRspTimeout_due hasked hdue), fun h => effectIs_eq (pdelayRspTimeout_waits h)⟩,
    fun mac f s hhead hrev => effectIs_eq (pdelayReqRx_answers mac hhead hrev),
    fun f p t1 m s hhead hp hasked hm => ⟨fun hseq hin => ?measured, fun hseq => effectIs_eq (pdelayRspRx_other hhead hp hasked hseq)⟩⟩,
    fun s => ⟨fun ns h => effectIs_eq (syncInEdge_idle ns h), fun ns hmaster henabled => ⟨fun hnone => effectIs_eq (syncInEdge_first hmaster henabled hnone),
        fun prev hprev hge hle => ⟨fun hfew => effectIs_eq ?_, fun hmany => ⟨_, commit_goOn s _, ?locks⟩⟩,
        fun prev hprev hlt => effectIs_eq (syncInEdge_misplaced hmaster henabled hprev hlt)⟩,
      fun prev hprev hlock => ⟨fun hlate => effectIs_eq (ppsLost_loses hprev hlock hlate), fun hearly => effectIs_eq (ppsLost_early hprev hearly)⟩,
      fun t pol hnext hpol hout hlive => ⟨fun hdue hrest => effectIs_eq ?_, fun hdue hactive => effectIs_eq ?_,
        fun hearly => effectIs_eq (syncOutPulse_early hnext hearly)⟩,
      fun hfree => effectIs_eq (if_pos hfree)⟩⟩
  case sets =>
    obtain ⟨w, hw⟩ : ∃ w, v = { s with sw := w } := ⟨v.sw, by rw [hv]; exact (taken_dequeue _ _ s).only⟩
    have hlight' : v.ring.light = some l := by rw [hw]; exact hlight
    have hholds' : v.time.holds = false := by rw [hw]; exact hholds
    have href' : beaconRef v f = ref := by rw [hw, href]; rfl
    rw [beaconRx_accepts hhead hrole hv hallowed hnew hlight hn hstart hend hvalid, acceptBeacon_sets hlight' hholds', href']
    exact ⟨rfl, rfl, rfl, rfl, rfl, rfl, rfl, rfl, rfl, by rw [hw]; rfl⟩
  case steers =>
    obtain ⟨w, hw⟩ : ∃ w, v = { s with sw := w } := ⟨v.sw, by rw [hv]; exact (taken_dequeue _ _ s).only⟩
    have hlight' : v.ring.light = some l := by rw [hw]; exact hlight
    have hholds' : v.time.holds = true := by rw [hw]; exact hholds
    have hrun' : v.hub = .run := by rw [hw]; exact hrun
    have href' : beaconRef v f = ref := by rw [hw, href]; rfl
    have htime : v.time = s.time := by rw [hw]
    obtain ⟨good, locked, rates, haccept⟩ := acceptBeacon_steers (f := f) hlight' hholds' hrun'
    rw [href', heard_time, htime] at haccept
    rw [beaconRx_accepts hhead hrole hv hallowed hnew hlight hn hstart hend hvalid, haccept]
    refine ⟨rfl, rfl, rfl, rfl, fun hlow hhigh => ?_, rfl, rfl, rfl⟩
    have hkept : (heard f v).time.rate = s.time.rate := by
      rw [heard_time]
      have hkept := congrArg TimeState.rate htime
      exact hkept
    generalize heard f v = w at hkept
    have hrate : (modTime (fun t => { t with offset := (f.rxTime : Int) - ref }) w).time.rate = s.time.rate := hkept
    obtain ⟨⟨hge, hle⟩, hdown, hup⟩ := newRate_turns (off := (f.rxTime : Int) - ref) (by rw [hrate]; exact hlow) (by rw [hrate]; exact hhigh)
    rw [hrate] at hdown hup
    exact ⟨hge, hle, fun h => hdown (by omega), fun h => hup (by omega)⟩
  case measured =>
    generalize hv : modPd p (fun d => { d with t1 := none }) (dequeue .local 4 s) = v
    have htaken := taken_dequeue .local 4 s
    have hpd : (portSt v p).pd = { (portSt s p).pd with t1 := none } := by
      rw [← hv, pd_modPd, portSt_of_ring p htaken.ring]
    have hrx : pdelayRspRx s = pdFilter p m v := by
      rw [hm, ← hv]
      exact pdelayRspRx_measures hhead hp hasked hseq hin
    have hother : portSt v (otherPort p) = portSt s (otherPort p) := by
      rw [← hv, modPd_eq, portSt_modPort_other]
      exact portSt_of_ring _ htaken.ring
    have htime : v.time = s.time := by
      rw [← hv, modPd_eq, modPort_time, htaken.only]
    obtain ⟨hnear, hfar⟩ := pdFilter_cases p m v
    rw [hpd] at hnear hfar
    refine ⟨fun hgood => ⟨_, commit_goOn s _, ?_⟩, fun hsome hout hfew => ⟨_, commit_goOn s _, ?_⟩, fun hsome hout hmany => ⟨_, commit_goOn s _, ?_⟩⟩
    · dsimp only
      rw [hrx, hnear hgood, pd_modPd, hpd]
      refine ⟨rfl, ?_, ?_⟩
      · rw [modPd_eq, portSt_modPort_other, hother]
      · rw [modPd_eq, modPort_time, htime]
    · obtain ⟨hone, -⟩ := hfar hsome hout
      dsimp only
      rw [hrx, hone hfew, pd_modPd, portSt_of_ring p (s := v) (t := bump (outlierAddr p) v) rfl, hpd]
    · obtain ⟨-, hall⟩ := hfar hsome hout
      dsimp only
      rw [hrx, hall hmany, pd_modPd, portSt_of_ring p (s := v) (t := bump (outlierAddr p) v) rfl, hpd]
  case locks =>
    obtain ⟨off, good, htime⟩ := syncInEdge_locks hmaster henabled hprev hge hle hmany
    generalize hw : modTime (fun t => { t with syncIn := ns, syncInAccepted := some ns, syncInGood := good }) s = w at htime
    rw [htime, steer_time]
    subst hw
    exact ⟨rfl, rfl, rfl, rfl, fun hlow hhigh => (newRate_turns hlow hhigh).1⟩
  · exact (syncInEdge_next hmaster henabled hprev hge hle).trans (if_neg (by omega))
  · exact (syncOutPulse_due hnext hpol hout hlive hdue).trans (if_neg (by rw [beq_eq_false_iff_ne.mpr hrest]; exact Bool.false_ne_true))
  · exact (syncOutPulse_due hnext hpol hout hlive hdue).trans (if_pos (by rw [hactive]; exact beq_self_eq_true _))

end Sys2Proof.Proofs
end

section
/-! The generations that a master makes (R90, R91). -/

namespace Sys2Proof.Proofs

open Sys2Proof Sys2Proof.Machine Sys2Proof.Laws

/-- An entry without the hub state that it shows. -/
def blank (e : LightEntry) : LightEntry := { e with state := 0 }

section
variable (me own : Nat)

/-- Showing the states of a list changes nothing else in its entries. -/
theorem showStates_blank (l : List LightEntry) (s : State) : (showStates me own l s).1.map blank = l.map blank := by
  induction l generalizing s with
  | nil => rfl
  | cons e t ih =>
    unfold showStates
    split
    · exact congrArg (blank e :: ·) (ih s)
    · split
      · exact congrArg (blank e :: ·) (ih s)
      · exact congrArg (blank e :: ·) (ih (draw s).2)

/-- Showing the states of a list draws free values, and does nothing else. -/
theorem showStates_draws (l : List LightEntry) (s : State) : ∃ n, (showStates me own l s).2 = { s with fresh := n } := by
  induction l generalizing s with
  | nil => exact ⟨s.fresh, rfl⟩
  | cons e t ih =>
    unfold showStates
    split
    · exact ih s
    · split
      · exact ih s
      · exact ih (draw s).2

end

/-- The master has made a generation `m`, and sent it. -/
structure Generated (m : LightList) (s t : State) : Prop where
  ring : t.ring = { s.ring with nextLight := some m, lightSentUp := s.time.up }
  master : t.master = s.master
  time : t.time = s.time
  maps : t.maps = s.maps
  cmd : t.cmd = s.cmd

theorem Sent.master {s t : State} (h : Sent s t) : t.master = s.master := by
  have hview := congrArg State.master h.view
  exact hview

theorem sent_sendLight (l : LightList) (s : State) : ∃ t, Sent s t ∧ sendLight l s = modRing (fun r => { r with lightSentUp := t.time.up }) t := by
  unfold sendLight
  extract_lets b frag u v
  have hfirst : Sent s u := sent_originate s _
  have hsecond : Sent u v := by
    dsimp only [v]
    split
    · exact sent_originate u _
    · exact .refl u
  exact ⟨v, hfirst.trans hsecond, rfl⟩

/-- A new generation: the newest list, changed, with the states shown and its cycle. -/
theorem newGenerationAt_generated {s : State} {l : LightList} (k : Nat) (f : LightList → LightList) (h : newestLight s = some l) :
    ∃ m, Generated m s (newGenerationAt k f s) ∧ m.entries.map blank = (f l).entries.map blank ∧ m.master = (f l).master
      ∧ m.effective = BitVec.ofNat 64 k := by
  unfold newGenerationAt
  rw [h]
  obtain ⟨n, hdraws⟩ := showStates_draws s.ring.node (hubNo s.hub) (f l).entries s
  have hblank := showStates_blank s.ring.node (hubNo s.hub) (f l).entries s
  dsimp only
  rw [hdraws]
  generalize showStates s.ring.node (hubNo s.hub) (f l).entries s = shown at hblank
  generalize hm : ({ f l with
      entries := shown.1, gen := l.gen + 1
      flags := BitVec.ofNat 8 (b2n ((f l).entries.any (fun e => entryPresent e && (atRev2 e.east || atRev2 e.west))))
      effective := BitVec.ofNat 64 k, cycUsed := BitVec.ofNat 32 (grantSum (f l)), cycLimit := BitVec.ofNat 32 (1250 * (f l).n.toNat) }
      : LightList) = m
  obtain ⟨t, hsent, hsend⟩ := sent_sendLight m (modRing (fun r => { r with nextLight := some m }) { s with fresh := n })
  have htime : t.time = s.time := hsent.time
  refine ⟨m, ?_, ?_, ?_, ?_⟩
  · rw [hsend]
    refine ⟨?_, hsent.master, htime, hsent.maps, hsent.cmd⟩
    exact congrArg (fun r : RingState => { r with lightSentUp := t.time.up }) hsent.ring |>.trans (by rw [htime])
  · rw [← hm]
    exact hblank
  · rw [← hm]
  · rw [← hm]

theorem nodes_of_blank {a b : List LightEntry} (h : a.map blank = b.map blank) : a.map (·.node) = b.map (·.node) := by
  have hnodes := congrArg (List.map LightEntry.node) h
  rw [List.map_map, List.map_map] at hnodes
  exact hnodes

/-- Every entry of a list stands in a list that shows other states. -/
theorem entry_of_blank {a b : List LightEntry} (h : a.map blank = b.map blank) {x : LightEntry} (hx : x ∈ b) : ∃ y ∈ a, blank y = blank x := by
  have hmem : blank x ∈ a.map blank := by rw [h]; exact List.mem_map_of_mem hx
  obtain ⟨y, hy, hblank⟩ := List.mem_map.mp hmem
  exact ⟨y, hy, hblank⟩

end Sys2Proof.Proofs
end

section
/-! The loss of the master, the take-over, the hand-back and the proof of it (R142 to R147). -/

namespace Sys2Proof.Proofs

open Sys2Proof Sys2Proof.Machine Sys2Proof.Laws

variable {s : State}

/-! ## The declaration (R143, R147) -/

theorem masterLost_declares (hrole : s.master.role = 2) (hnone : s.master.lostUp = none)
    (hlost : (s.time.missed ≥ 3 ∧ since s.time.lastBeaconUp s ≥ 2000) ∨ ∃ l e, s.ring.light = some l
      ∧ l.entries.find? (fun e => e.node == l.master.toNat) = some e ∧ s.ring.spanDown.contains (e.eastPeer.toNat, e.node) = true
      ∧ s.ring.spanDown.contains (e.westPeer.toNat, e.node) = true) :
    masterLost s = detect 0x0301 {} (modMaster (fun m => { m with lostUp := some s.time.up }) s) := by
  have hstands : standsBy s = true := by unfold standsBy; rw [hrole]; rfl
  have hdetects : (!(masterInit s && s.master.role == 0)) = true := by rw [hrole]; exact congrArg not (Bool.and_false _)
  unfold masterLost
  dsimp only
  rw [hdetects]
  refine if_pos ⟨hstands, hnone, hlost.imp_right fun hboth => ?_⟩
  obtain ⟨l, e, hlight, hfind, heast, hwest⟩ := hboth
  simp only [hlight, hfind, heast, hwest, hrole, beq_self_eq_true, Bool.and_self]

theorem masterLost_waits (h : s.master.role = 1 ∨ s.master.role = 3 ∨ s.master.lostUp.isSome = true) : masterLost s = s := by
  unfold masterLost
  refine if_neg fun hall => ?_
  obtain ⟨hstands, hnone, -⟩ := hall
  unfold standsBy at hstands
  rcases h with hrole | hrole | hlost
  · rw [hrole] at hstands
    exact Bool.false_ne_true hstands
  · rw [hrole] at hstands
    exact Bool.false_ne_true hstands
  · rw [hnone] at hlost
    exact Bool.false_ne_true hlost

theorem beaconLost_raises (hmissed : 3 ≤ s.time.missed) (hsince : s.time.lastBeaconUp + 2000 ≤ s.time.up) (hmaster : isMaster s = false)
    (hnew : (faultSrc s 0x0303).st ≠ .active) : beaconLost s = detect 0x0303 {} s := by
  unfold beaconLost
  exact if_pos ⟨hmissed, by unfold since; omega, by rw [hmaster]; rfl, hnew⟩

theorem beaconLost_waits (h : isMaster s = true ∨ s.time.missed < 3) : beaconLost s = s := by
  unfold beaconLost
  refine if_neg fun hall => ?_
  obtain ⟨hmissed, -, hmaster, -⟩ := hall
  cases h with
  | inl hown => rw [hown] at hmaster; exact Bool.false_ne_true hmaster
  | inr hfew => omega

/-! ## The take-over (R143) -/

/-- The generation in which a backup names itself master. -/
def namesMaster (me : Nat) (l : LightList) : LightList :=
  { l with
    master := BitVec.ofNat 8 me
    entries := l.entries.map (fun e => { e with role := if e.node = me then 1 else if e.node = l.master.toNat then 0 else e.role }) }

/-- The time of a backup that holds ring time as it takes over: the rate stays. -/
def standInTime (t : TimeState) : TimeState := { t with holds := true, locked := true, source := if t.ppsLock then 4 else 3 }

/-- A backup with a list, a number and ring time, before its first generation. -/
structure StandsIn (l : LightList) (s w : State) : Prop where
  master : w.master = { s.master with role := 3, returned := false }
  time : w.time = standInTime s.time
  maps : w.maps = s.maps
  light : w.ring.light = some l
  next : w.ring.nextLight = s.ring.nextLight
  node : w.ring.node = s.ring.node

theorem masterTime_holds (h : s.time.holds = true) : (masterTime false s).time = standInTime s.time := by
  unfold masterTime
  dsimp only [modTime]
  rw [h]
  rfl

theorem startBackup_standsIn {l : LightList} (hlight : s.ring.light = some l) (hnode : s.ring.node ≠ 0) (hholds : s.time.holds = true) :
    ∃ w, StandsIn l s w ∧ startBackup s = newGeneration (namesMaster w.ring.node) w := by
  unfold startBackup
  extract_lets v a b c me d
  have htime : a.time = standInTime s.time := masterTime_holds (s := modMaster (fun m => { m with role := 3, returned := false }) s) hholds
  have hring : a.ring = s.ring := rfl
  have hmaster : a.master = { s.master with role := 3, returned := false } := rfl
  have hmaps : a.maps = s.maps := rfl
  have hb : b = a := by
    dsimp only [b]
    rw [hring, hlight]
    rfl
  have hc : c.ring = { s.ring with light := some l } := by
    dsimp only [c]
    rw [hb]
    unfold modRing
    dsimp only
    rw [hring, if_neg hnode, hlight]
    rfl
  have hctime : c.time = a.time := by rw [← hb]; rfl
  have hcmaster : c.master = a.master := by rw [← hb]; rfl
  have hcmaps : c.maps = a.maps := by rw [← hb]; rfl
  have hdring : d.ring = c.ring := rfl
  have hdnode : d.ring.node = me := rfl
  refine ⟨d, ⟨hcmaster.trans hmaster, hctime.trans htime, hcmaps.trans hmaps, ?_, ?_, ?_⟩, ?_⟩
  · rw [hdring, hc]
  · rw [hdring, hc]
  · rw [hdring, hc]
  · rw [hdnode]
    rfl

theorem masterTakeover_starts {t : Nat} {l : LightList} (hrole : s.master.role = 2) (hlost : s.master.lostUp = some t) (hlight : s.ring.light = some l) :
    masterTakeover s = startBackup (modMaster (fun m => { m with saved := { m.saved with light := some l } }) s) := by
  unfold masterTakeover
  rw [hlost, hlight]
  exact (if_neg Bool.false_ne_true).trans ((if_neg fun h => absurd (hrole.symm.trans h.1) (by decide)).trans (if_pos (.inl hrole)))

/-! ## The hand-back (R145) -/

theorem yieldRole_yields {k : Nat} {l : LightList} (hrole : s.master.role = 3) (hat : s.master.handBackAt = some k) (hlight : s.ring.light = some l)
    (hdue : k ≤ cycleNow s) (hother : l.master.toNat ≠ s.ring.node) : yieldRole s =
      ringEvent 4 0 l.master.toNat (modMaster (fun m => { m with role := 2, handBackAt := none, returned := false, firstBeacon := none }) s) := by
  unfold yieldRole
  simp only [hat, hlight]
  exact if_pos ⟨hrole, hdue, hother⟩

theorem yieldRole_early {k : Nat} {l : LightList} (hat : s.master.handBackAt = some k) (hlight : s.ring.light = some l) (hearly : cycleNow s < k) :
    yieldRole s = s := by
  unfold yieldRole
  simp only [hat, hlight]
  exact if_neg fun h => absurd h.2.1 (by omega)

theorem masterHandBack_yields {k : Nat} (ready : Bool) (hrole : s.master.role = 3) (hat : s.master.handBackAt = some k) :
    masterHandBack ready s = yieldRole s := by
  unfold masterHandBack
  rw [if_pos hrole]
  simp only [hat]

/-- The generation that gives MASTER back. -/
def givesBack (master : Byte) (me : Nat) (l : LightList) : LightList :=
  { l with
    master := master
    entries := l.entries.map (fun e => { e with role := if e.node = master.toNat then 1 else if e.node = me then 2 else 0 }) }

section
variable {old : LightList} (hrole : s.master.role = 3) (hat : s.master.handBackAt = none) (hsaved : s.master.saved.light = some old)
include hrole hat hsaved

theorem masterHandBack_plans {l : LightList} (hnew : newestLight s = some l) (hreturned : s.master.returned = true)
    (hthere : l.entries.any (fun e => e.node == old.master.toNat && entryPresent e) = true) : masterHandBack true s =
      newGenerationAt (cycleNow s + 2) (givesBack old.master s.ring.node) (modMaster (fun m => { m with handBackAt := some (cycleNow s + 2) }) s) := by
  unfold masterHandBack
  rw [if_pos hrole]
  simp only [hat, hsaved]
  refine if_pos ?_
  rw [hreturned, hnew]
  exact hthere

theorem masterHandBack_waits {ready : Bool} (h : ready = false ∨ s.master.returned = false) : masterHandBack ready s = s := by
  have hnot : (ready && s.master.returned) = false := by
    cases h with
    | inl h => rw [h, Bool.false_and]
    | inr h => rw [h, Bool.and_false]
  unfold masterHandBack
  rw [if_pos hrole]
  simp only [hat, hsaved]
  rw [hnot, Bool.false_and]
  exact if_neg Bool.false_ne_true

end

theorem sent_sendBeacon (k : Nat) (s : State) : Sent s (sendBeacon k s) := (sent_sendCtl s _ _ _ _ _).trans (sent_sendCtl _ _ _ _ _ _)

/-- The hub once the list in force has given it the role again (R145). -/
def regained (s : State) : State :=
  ringEvent 4 0 s.ring.node (masterTime true (modMaster (fun m => { m with role := 1, stopped := false, proof := false, firstBeacon := none }) s))

theorem masterHandBack_regains {l : LightList} (ready : Bool) (hrole : s.master.role = 0) (hlight : s.ring.light = some l)
    (hme : l.master.toNat = s.ring.node) (hnumbered : numbered s = true) (hlocked : s.time.locked = true) :
    masterHandBack ready s = sendBeacon (cycleNow s) (regained s) := by
  have hregains : regains s = true := by
    unfold regains
    simp only [hlight, hme, hnumbered, hlocked, hrole, beq_self_eq_true, Bool.and_self, Bool.true_or]
  unfold masterHandBack
  rw [if_neg (by rw [hrole]; decide), if_pos hregains]
  unfold regainRole
  rw [if_pos hregains]
  rfl

theorem regained_master (s : State) :
    (regained s).master = { s.master with role := 1, stopped := false, proof := false, firstBeacon := none } :=
  (emit_master _ _ _).trans rfl

theorem regained_ring (s : State) : (regained s).ring = s.ring := (emit_ring _ _ _).trans rfl

/-! ## A proof without a backup beacon (R146) -/

/-- The master that goes on after a proof without a backup beacon. -/
def goesOn (s : State) : State := setFld 0x50614 3 1 1 (modMaster (fun m => { m with stopped := false, proof := false, firstBeacon := none }) s)

theorem proofFail_fails (hproof : s.master.proof = true) (hstopped : s.master.stopped = true) (hcycle : s.master.proofStartCycle + 3 ≤ cycleNow s)
    (hsince : s.master.proofUp + 40000 ≤ s.time.up) (hnone : s.time.lastBeaconUp ≤ s.master.proofUp) :
    proofFail s = sendBeacon (cycleNow s) (detect 0x0302 {} (goesOn s)) := by
  have hcyc : cycleNow (goesOn s) = cycleNow s := rfl
  unfold proofFail
  rw [if_pos ⟨hproof, hstopped, hcycle, by unfold since; omega, by unfold since; omega⟩]
  exact congrArg (fun k => sendBeacon k (detect 0x0302 {} (goesOn s))) hcyc

theorem proofFail_early (hearly : cycleNow s < s.master.proofStartCycle + 3) : proofFail s = s := by
  unfold proofFail
  exact if_neg fun h => absurd h.2.2.1 (by omega)

/-- Settles O48, by what each declaration, take-over and hand-back does when its time has come. -/
theorem masterEvents : Obligations.MasterEvents := by
  unfold Obligations.MasterEvents
  refine fun s => ⟨fun hrole hnone hmissed hsince => effectIs_eq (masterLost_declares hrole hnone (.inl ⟨hmissed, by unfold since; omega⟩)),
    fun l e hrole hnone hlight hfind heast hwest => effectIs_eq (masterLost_declares hrole hnone (.inr ⟨l, e, hlight, hfind, heast, hwest⟩)),
    fun h => effectIs_eq (masterLost_waits h), fun t l hrole hlost hlight hnode hholds => ⟨_, commit_goOn s _, ?takeover⟩,
    fun hnone => effectIs_eq (if_pos (by rw [hnone]; rfl)),
    fun k l ready hrole hat hlight => ⟨fun hdue hother => ⟨_, commit_goOn s _, ?yields⟩,
      fun hearly => effectIs_eq ((masterHandBack_yields ready hrole hat).trans (yieldRole_early hat hlight hearly))⟩,
    fun old l ready hrole hat hsaved hnew => ⟨fun hready hreturned hthere => ⟨_, commit_goOn s _, ?plans⟩,
      fun h => effectIs_eq (masterHandBack_waits hrole hat hsaved h)⟩,
    fun l ready hrole hlight hme hnumbered hlocked => ⟨_, commit_goOn s _, ?regains⟩,
    fun hproof hstopped => ⟨fun hcycle hsince hnone => ⟨_, commit_goOn s _, ?fails⟩, fun hearly => effectIs_eq (proofFail_early hearly)⟩,
    fun hmissed hsince hmaster hnew => effectIs_eq (beaconLost_raises hmissed hsince hmaster hnew), fun h => effectIs_eq (beaconLost_waits h)⟩
  case takeover =>
    generalize hv : modMaster (fun m => { m with saved := { m.saved with light := some l } }) s = v
    have hvlight : v.ring.light = some l := by rw [← hv]; exact hlight
    have hvnode : v.ring.node = s.ring.node := by rw [← hv]; rfl
    have hvtime : v.time = s.time := by rw [← hv]; rfl
    have hvmaps : v.maps = s.maps := by rw [← hv]; rfl
    have hvmaster : v.master = { s.master with saved := { s.master.saved with light := some l } } := by rw [← hv]; rfl
    obtain ⟨w, hw, hstart⟩ := startBackup_standsIn hvlight (by rw [hvnode]; exact hnode) (by rw [hvtime]; exact hholds)
    have hnewest : ∃ m, newestLight w = some m := by
      unfold newestLight
      rw [hw.light]
      split
      · exact ⟨_, rfl⟩
      · exact ⟨_, rfl⟩
    obtain ⟨m, hnewest⟩ := hnewest
    obtain ⟨n, hmade, -, hnames, heffective⟩ := newGenerationAt_generated (cycleNow w + 1) (namesMaster w.ring.node) hnewest
    have hcycle : cycleNow w = cycleNow s := by
      unfold cycleNow tickNow ringNs
      rw [hw.time, hw.maps, hvtime, hvmaps, hholds]
      rfl
    have hmaster : (newGeneration (namesMaster w.ring.node) w).master =
        { s.master with role := 3, returned := false, saved := { s.master.saved with light := some l } } := by
      refine hmade.master.trans (hw.master.trans ?_)
      rw [hvmaster]
    have htime : (newGeneration (namesMaster w.ring.node) w).time = standInTime s.time := by
      rw [← hvtime, ← hw.time]
      exact hmade.time
    have hring := hmade.ring
    rw [hcycle] at heffective
    dsimp only
    rw [masterTakeover_starts hrole hlost hlight, hv, hstart]
    refine ⟨hmaster, ?_, ?_, ?_, ?_, ?_, n, ?_, ?_, heffective⟩
    · unfold isMaster
      rw [hmaster]
      exact Bool.or_true _
    · rw [htime]; rfl
    · rw [htime]; rfl
    · rw [htime]; rfl
    · exact (congrArg RingState.light hring).trans hw.light
    · exact congrArg RingState.nextLight hring
    · rw [hnames, ← hvnode, ← hw.node]; rfl
  case yields =>
    dsimp only
    rw [masterHandBack_yields ready hrole hat, yieldRole_yields hrole hat hlight hdue hother]
    exact ⟨(emit_master _ _ _).trans rfl, (emit_ring _ _ _).trans rfl⟩
  case plans =>
    subst hready
    generalize hv : modMaster (fun m => { m with handBackAt := some (cycleNow s + 2) }) s = v
    have hvnew : newestLight v = some l := by rw [← hv]; exact hnew
    obtain ⟨m, hmade, hblank, hnames, heffective⟩ := newGenerationAt_generated (cycleNow s + 2) (givesBack old.master s.ring.node) hvnew
    dsimp only
    rw [masterHandBack_plans hrole hat hsaved hnew hreturned hthere, hv]
    refine ⟨hmade.master.trans (by rw [← hv]; rfl), m, congrArg RingState.nextLight hmade.ring, hnames, heffective, ?_⟩
    rw [nodes_of_blank hblank]
    exact List.map_map
  case regains =>
    have hsent := sent_sendBeacon (cycleNow s) (regained s)
    dsimp only
    rw [masterHandBack_regains ready hrole hlight hme hnumbered hlocked]
    exact ⟨hsent.master.trans (regained_master s), hsent.ring.trans (regained_ring s)⟩
  case fails =>
    have hsent := sent_sendBeacon (cycleNow s) (detect 0x0302 {} (goesOn s))
    dsimp only
    rw [proofFail_fails hproof hstopped hcycle hsince hnone]
    exact ⟨hsent.master.trans ((detect_master _ _ _).trans rfl), hsent.ring.trans ((detect_ring _ _ _).trans rfl), goesOn s, _, rfl, rfl⟩

end Sys2Proof.Proofs
end

section
/-! Joining the ring, its numbers and its light lists (R85 to R92, R96). -/

namespace Sys2Proof.Proofs

open Sys2Proof Sys2Proof.Machine Sys2Proof.Laws

variable {s : State}

/-! ## JOIN (R85, R86) -/

theorem joinSend_sends (hnode : s.ring.node = 0) (hbeacon : s.time.lastBeacon.isSome = true) (hopen : s.ring.answered = false)
    (hmaster : masterNode s ≠ 0) (hdue : s.ring.joinSent = false ∨ s.ring.joinUp + 20000 ≤ s.time.up) : joinSend s =
      modRing (fun r => { r with joinUp := s.time.up, joinSent := true })
        (sendCtl (masterNode s) 0 0 (Config.unicastCcw (masterNode s) 4) (joinPayload s) s) := by
  have hsent := sent_sendCtl s (masterNode s) 0 0 (Config.unicastCcw (masterNode s) 4) (joinPayload s)
  have hother : ¬(masterNode s = 0 ∨ masterNode s = s.ring.node) := by
    rw [hnode]
    exact fun h => h.elim hmaster hmaster
  unfold joinSend sendJoin
  rw [if_pos ⟨hnode, hbeacon, by rw [hopen]; rfl, hdue.imp (fun h => by rw [h]; rfl) (fun h => by unfold since; omega)⟩, if_neg hother]
  dsimp only
  rw [hsent.time]

theorem joinSend_waits (h : s.ring.joinSent = true) (hearly : s.time.up < s.ring.joinUp + 20000) : joinSend s = s := by
  unfold joinSend
  refine if_neg fun hdue => ?_
  obtain ⟨-, -, -, hdue⟩ := hdue
  unfold since at hdue
  cases hdue with
  | inl hnew => rw [h] at hnew; exact Bool.false_ne_true hnew
  | inr hlate => omega

theorem joinSend_joined (h : s.ring.node ≠ 0 ∨ s.ring.answered = true) : joinSend s = s := by
  unfold joinSend
  refine if_neg fun hall => ?_
  obtain ⟨hnode, -, hopen, -⟩ := hall
  cases h with
  | inl hnumbered => exact hnumbered hnode
  | inr hanswered => rw [hanswered] at hopen; exact Bool.false_ne_true hopen

theorem rd_lt (b : List Byte) (off n : Nat) : rd b off n < 256 ^ n :=
  Nat.lt_of_lt_of_le (leVal_lt _) (Nat.pow_le_pow_right (by decide) (List.length_take_le _ _))

/-- The JOIN that a frame bears. -/
def joinOf (b : List Byte) : JoinReq :=
  ⟨rd b 1 1, rd b 2 1, rd b 3 1, BitVec.ofNat 64 (rd b 4 8), rd b 12 4, BitVec.ofNat 32 (rd b 16 4), BitVec.ofNat 8 (rd b 20 1), BitVec.ofNat 8 (rd b 21 1)⟩

theorem nextJoin_single {f : Frame} (h : rd f.payload 0 1 = 8) : nextJoin [f] = some f := by
  have hjoin : [f].filter (fun f => rd f.payload 0 1 == 8) = [f] := List.filter_cons_of_pos (by rw [h]; rfl)
  have hsame : [f].filter (fun g => g.rxTick == f.rxTick) = [f] := List.filter_cons_of_pos (beq_self_eq_true f.rxTick)
  unfold nextJoin
  rw [hjoin]
  dsimp only
  rw [hsame, List.foldl_cons, List.foldl_nil, if_neg (Nat.lt_irrefl _)]

section
variable {f : Frame} (hqueue : queueOf s .local 4 = [f])
include hqueue

theorem ctlHead_single {t n : Nat} (ht : rd f.payload 0 1 = t) (hn : n ≤ f.payload.length) : ctlHead s t n = some f := by
  unfold ctlHead
  simp only [hqueue]
  exact if_pos ⟨ht, hn⟩

theorem joinRx_taken (htype : rd f.payload 0 1 = 8) (hlength : 24 ≤ f.payload.length) (hover : f.rxTick < tickNow s) : joinRx s =
    if isMaster s then answerJoin (joinOf f.payload) (freeCells f (setQueue .local 4 [] s)) else freeCells f (setQueue .local 4 [] s) := by
  unfold joinRx
  simp only [ctlHead_single hqueue htype hlength]
  rw [hqueue]
  simp only [nextJoin_single htype]
  rw [if_neg (by omega), List.erase_cons_head]
  rfl

theorem joinRx_waits (hearly : tickNow s ≤ f.rxTick) : joinRx s = s := by
  unfold joinRx
  split
  · next g h hhead hnext =>
    have htype : rd f.payload 0 1 = 8 := by
      unfold ctlHead at hhead
      simp only [hqueue] at hhead
      refine Decidable.byContradiction fun hother => ?_
      rw [if_neg fun hall => hother hall.1] at hhead
      exact Option.some_ne_none _ hhead.symm
    rw [hqueue, nextJoin_single htype] at hnext
    rw [← Option.some.inj hnext]
    exact if_pos hearly
  · rfl

end

/-! ## The master's answer (R86, R87, R96) -/

section
variable {l : LightList} {e : LightEntry}

theorem mem_putEntry (e : LightEntry) (l : List LightEntry) : e ∈ putEntry e l := by
  induction l with
  | nil => exact List.mem_singleton_self e
  | cons h t ih =>
    unfold putEntry
    split
    · exact List.mem_cons_self
    · split
      · exact List.mem_cons_self
      · exact List.mem_cons_of_mem _ ih

theorem mem_putEntry_of_mem {x : LightEntry} {l : List LightEntry} (hx : x ∈ l) (hother : x.node ≠ e.node) : x ∈ putEntry e l := by
  induction l with
  | nil => exact absurd hx List.not_mem_nil
  | cons h t ih =>
    unfold putEntry
    split
    · exact List.mem_cons_of_mem _ hx
    · split
      next hsame =>
        rcases List.mem_cons.mp hx with rfl | ht
        · exact absurd hsame.symm hother
        · exact List.mem_cons_of_mem _ ht
      next =>
        rcases List.mem_cons.mp hx with rfl | ht
        · exact List.mem_cons_self
        · exact List.mem_cons_of_mem _ (ih ht)

end

/-- A JOIN has been answered with an entry: the entry bears the number, the unique ID and the charge. -/
structure Enters (j : JoinReq) (n : Nat) (e : LightEntry) : Prop where
  node : e.node = n
  uid : e.uid = j.uid
  present : entryPresent e = true
  grant : e.grant = BitVec.ofNat 32 j.charge

theorem entryFlags_present (planned unplanned mismatch capable : Bool) :
    bit (BitVec.ofNat 8 (1 + 2 * b2n planned + 4 * b2n unplanned + 8 * b2n mismatch + 16 * b2n capable)).toNat 0 = true := by
  revert planned unplanned mismatch capable
  decide

/-- The answer to a JOIN that gets a number: a generation with its entry where the budget has room for its charge, none where it has not. -/
theorem answerJoin_answers {l : LightList} {j : JoinReq} {n : Nat} {unplanned : Bool} (hnew : newestLight s = some l)
    (hchoose : chooseNumber l (plans s.upd.inForce) j = (n, unplanned, 0)) :
    (((l.entries.filter (fun e => e.node != n)).map (fun e => e.grant.toNat)).sum + j.charge ≤ 1250 * l.n.toNat →
      ∃ e w, Enters j n e ∧ newestLight w = some l ∧ w.ring.light = s.ring.light ∧ cycleNow w = cycleNow s
        ∧ (answerJoin j s).ring = (newGeneration (fun l => { l with entries := putEntry e l.entries }) w).ring)
    ∧ (1250 * l.n.toNat < ((l.entries.filter (fun e => e.node != n)).map (fun e => e.grant.toNat)).sum + j.charge →
      (answerJoin j s).ring = s.ring) := by
  unfold answerJoin
  split
  next hnone => exact absurd (hnone.symm.trans hnew) (by simp)
  next l' hsome =>
  obtain rfl : l' = l := Option.some.inj (hsome.symm.trans hnew)
  extract_lets ps
  split
  next n' unplanned' why hchosen =>
  obtain ⟨rfl, rfl, rfl⟩ : n' = n ∧ unplanned' = unplanned ∧ why = 0 := by simpa using hchosen.symm.trans hchoose
  extract_lets old kept others why prev grant plan mis cap d v e x y gen
  have hy : y.ring = x.ring := by
    dsimp only [y]
    split
    · exact onlyIf_ring _ _ _ rfl
    · rfl
  have hsent : ∀ payload, (sendCtlAll 0 payload y).ring = x.ring := fun payload => (sent_originate y _).ring.trans hy
  refine ⟨fun hroom => ?_, fun hover => ?_⟩
  · have hwhy : why = 0 := if_neg fun h => absurd h.2 (by omega)
    have hgrant : grant = j.charge := if_pos hwhy
    have hx : x = newGeneration (fun l => { l with entries := putEntry e l.entries })
        (modRing (fun r => { r with absentSince := sdel r.absentSince n' }) v) := if_pos hwhy
    have hv : ∃ k, v = { s with fresh := k } := by
      dsimp only [v, d]
      split
      · exact ⟨s.fresh, rfl⟩
      · exact ⟨_, rfl⟩
    obtain ⟨k, hv⟩ := hv
    refine ⟨e, _, ⟨rfl, rfl, entryFlags_present _ _ _ _, congrArg (BitVec.ofNat 32) hgrant⟩, ?_, ?_, ?_, (hsent _).trans (congrArg State.ring hx)⟩
    · rw [hv]
      exact hnew
    · rw [hv]
      rfl
    · rw [hv]
      rfl
  · have hwhy : why ≠ 0 := by
      dsimp only [why]
      rw [if_pos ⟨rfl, hover⟩]
      decide
    have hx : x = bump 0x50448 s := if_neg hwhy
    exact (hsent _).trans (by rw [hx]; rfl)

/-! ## Numbers and lists that come (R87, R90) -/

theorem assignRx_other {f : Frame} (hhead : ctlHead s 9 28 = some f) (hother : rd f.payload 4 8 ≠ (myUid s).toNat) :
    assignRx s = dequeue .local 4 s := by
  have huid : myUid (dequeue .local 4 s) = myUid s := by rw [(taken_dequeue .local 4 s).only]; rfl
  unfold assignRx
  rw [takeCtl_head _ hhead]
  exact if_neg (by rw [huid]; exact hother)

theorem endPubWaits_none (reason cycle : Nat) (h : s.ring.pubWaits = []) :
    (endPubWaits reason cycle s).ring = { s.ring with pubWaits := [] } := by
  unfold endPubWaits
  rw [h]
  dsimp only
  split
  · rfl
  · rfl

theorem assignRx_mine {f : Frame} (hhead : ctlHead s 9 28 = some f) (hmine : rd f.payload 4 8 = (myUid s).toNat) (hnone : s.ring.pubWaits = []) :
    (assignRx s).ring = { s.ring with
      assign := some ⟨rd f.payload 1 1, rd f.payload 2 1, rd f.payload 12 4, rd f.payload 20 8⟩, joinSent := false, answered := true
      pubWaits := [] } := by
  generalize hv : dequeue .local 4 s = v
  have htaken : Taken s v := by rw [← hv]; exact taken_dequeue _ _ s
  have hring := htaken.ring
  have huid : rd f.payload 4 8 = (myUid v).toNat := by rw [hmine, htaken.only]; rfl
  have htake : takeAssign f.payload v = modRing (fun r => { r with
      assign := some ⟨rd f.payload 1 1, rd f.payload 2 1, rd f.payload 12 4, rd f.payload 20 8⟩, joinSent := false, answered := true }) v := by
    unfold takeAssign
    exact if_pos huid
  unfold assignRx
  rw [takeCtl_head _ hhead, hv]
  dsimp only
  rw [if_pos huid, htake]
  have hnone' : v.ring.pubWaits = [] := (congrArg RingState.pubWaits hring).trans hnone
  rw [endPubWaits_none _ _ (by exact hnone')]
  unfold modRing
  rw [hring]

section
variable {w : PubWait} (hwaits : s.ring.pubWaits = [w]) (hacts : s.maps.acts = [])
include hwaits hacts

theorem assignWaitTimeout_waits (hearly : s.time.up < w.up + 200000) : assignWaitTimeout s = s := by
  unfold assignWaitTimeout
  extract_lets s₁ late ws s₂ s₃
  have hs₁ : s₁ = s := by
    dsimp only [s₁]
    rw [hacts]
    rfl
  have hlate : late w = false := by
    dsimp only [late]
    rw [hs₁]
    exact decide_eq_false (by unfold since; omega)
  have hws : ws = [] := by
    dsimp only [ws]
    rw [hs₁, hwaits]
    exact List.filter_cons_of_neg (by rw [hlate]; exact Bool.false_ne_true)
  have hs₂ : s₂ = s := by
    dsimp only [s₂]
    rw [hs₁]
    have hkept : s.ring.pubWaits.filter (fun w => !late w) = s.ring.pubWaits := by
      rw [hwaits, List.filter_cons_of_pos (by rw [hlate]; rfl), List.filter_nil]
    unfold modRing
    dsimp only
    rw [hkept]
  have hs₃ : s₃ = s := by
    dsimp only [s₃]
    rw [hws]
    exact hs₂
  rw [hws, hs₃]
  rfl

theorem assignWaitTimeout_ends (hdue : w.up + 200000 ≤ s.time.up) : assignWaitTimeout s =
    modRing (fun r => { r with pubWaits := [], charge := pubCharge s.maps.published }) (complete w.session w.tag .timeout [] s) := by
  unfold assignWaitTimeout
  extract_lets s₁ late ws s₂ s₃
  have hs₁ : s₁ = s := by
    dsimp only [s₁]
    rw [hacts]
    rfl
  have hlate : late w = true := by
    dsimp only [late]
    rw [hs₁]
    exact decide_eq_true (by unfold since; omega)
  have hws : ws = [w] := by
    dsimp only [ws]
    rw [hs₁, hwaits]
    exact List.filter_cons_of_pos hlate
  have hs₂ : s₂ = modRing (fun r => { r with pubWaits := [] }) s := by
    dsimp only [s₂]
    rw [hs₁]
    have hkept : s.ring.pubWaits.filter (fun w => !late w) = [] := by
      rw [hwaits, List.filter_cons_of_neg (by rw [hlate]; exact Bool.false_ne_true), List.filter_nil]
    unfold modRing
    dsimp only
    rw [hkept]
  have hs₃ : s₃ = complete w.session w.tag .timeout [] s₂ := by
    dsimp only [s₃]
    rw [hws]
    rfl
  rw [hws, hs₃, hs₂]
  rfl

end

/-! ## Span reports (R92, R143) -/

/-- A report leaves the list in force, and the spans noted as down. -/
structure Reports (s t : State) : Prop where
  light : t.ring.light = s.ring.light
  spanDown : t.ring.spanDown = s.ring.spanDown

theorem Reports.trans {s t u : State} (h : Reports s t) (k : Reports t u) : Reports s u :=
  ⟨k.light.trans h.light, k.spanDown.trans h.spanDown⟩

theorem reports_newGenerationAt (k : Nat) (f : LightList → LightList) (s : State) : Reports s (newGenerationAt k f s) := by
  cases hnew : newestLight s with
  | none =>
    unfold newGenerationAt
    rw [hnew]
    exact ⟨rfl, rfl⟩
  | some l =>
    obtain ⟨m, hmade, -⟩ := newGenerationAt_generated k f hnew
    exact ⟨by rw [hmade.ring], by rw [hmade.ring]⟩

theorem reports_foldl {α : Type} {f : State → α → State} (h : ∀ s a, Reports s (f s a)) (l : List α) (s : State) : Reports s (l.foldl f s) := by
  induction l generalizing s with
  | nil => exact ⟨rfl, rfl⟩
  | cons a t ih => exact (h s a).trans (ih _)

theorem reports_markAbsent (n : Nat) (s : State) : Reports s (markAbsent n s) := by
  unfold markAbsent
  exact Reports.trans (t := modRing (fun r => { r with absentSince := sins r.absentSince n s.time.up }) s) ⟨rfl, rfl⟩
    (reports_newGenerationAt _ _ _)

theorem reports_spanRev (src port peer : Nat) (s : State) : Reports s (spanRev src port peer s).2 := by
  unfold spanRev
  extract_lets far seen
  clear_value seen
  split
  · exact ⟨rfl, rfl⟩
  · split
    · exact ⟨rfl, rfl⟩
    · exact ⟨rfl, rfl⟩

/-- The spans noted as down once a report has come from `src`. -/
def spanDownAfter (src : Nat) (b : List Byte) (l : List (Nat × Nat)) : List (Nat × Nat) :=
  if rd b 3 1 = 3 then l.filter (fun x => x != (src, rd b 4 1)) else l.filter (fun x => x != (src, rd b 4 1)) ++ [(src, rd b 4 1)]

theorem takeSpanReport_reports (src : Nat) (b : List Byte) (h : s.master.role ≠ 0) : ∃ v,
    v.ring = { s.ring with spanDown := spanDownAfter src b s.ring.spanDown } ∧ Reports v (takeSpanReport src b s)
    ∧ (isMaster s = false → takeSpanReport src b s = v) := by
  generalize ht : takeSpanReport src b s = t
  unfold takeSpanReport at ht
  rw [if_neg h] at ht
  extract_lets peer new u at ht
  subst ht
  refine ⟨u, rfl, ?_, fun hnot => if_neg fun hmaster => Bool.false_ne_true (hnot.symm.trans hmaster)⟩
  split
  · clear_value u
    split
    next v w hrev =>
    have hrev : Reports u w := by
      have hw := congrArg Prod.snd hrev
      dsimp only at hw
      rw [← hw]
      split
      · exact ⟨rfl, rfl⟩
      · split
        · exact ⟨rfl, rfl⟩
        · exact reports_spanRev _ _ _ u
    refine hrev.trans ?_
    extract_lets x
    have hgen : Reports w x := reports_newGenerationAt _ _ _
    split
    · exact hgen.trans (reports_foldl (fun t n => reports_markAbsent n t) _ _)
    · exact hgen
  · exact ⟨rfl, rfl⟩

/-! ## Light fragments (R90) -/

section
variable {f : Frame} (hnone : s.ring.fragments = []) (hfirst : rd f.payload 1 1 = 0) (hrole : s.master.role ≠ 2)
include hnone hfirst hrole

theorem takeLight_first : takeLight f s =
    if rd f.payload 2 2 ≤ (f.payload.drop 4).length then
      modRing (fun r => { r with
        fragments := [], nextLight := if r.light.map (·.gen) = some (parseLight ((f.payload.drop 4).take (rd f.payload 2 2))).gen then r.nextLight
          else some (parseLight ((f.payload.drop 4).take (rd f.payload 2 2))) }) s
    else modRing (fun r => { r with fragments := [(rd f.payload 2 2 * 65536 + f.gen.toNat, 0, f.payload.drop 4)] }) s := by
  unfold takeLight
  extract_lets b total key s₁ stale s₂ kept whole l
  have hs₁ : s₁ = s := by
    dsimp only [s₁]
    rw [beq_eq_false_iff_ne.mpr hrole]
    rfl
  have hs₂ : s₂ = s := by
    dsimp only [s₂, stale]
    rw [hs₁, hnone]
    rfl
  have hkept : kept = [(key, 0, f.payload.drop 4)] := by
    dsimp only [kept, b]
    rw [hs₂, hnone, hfirst]
    rfl
  have hwhole : whole = f.payload.drop 4 := by
    dsimp only [whole]
    rw [hkept]
    exact (List.append_nil _).trans (List.append_nil _)
  have hany : (kept.any fun x => x.2.1 == 0) = true := by rw [hkept]; rfl
  have hl : l = parseLight ((f.payload.drop 4).take (rd f.payload 2 2)) := congrArg (fun w => parseLight (w.take total)) hwhole
  by_cases htotal : total ≤ (f.payload.drop 4).length
  · rw [if_pos ⟨by rw [hwhole]; exact htotal, hany⟩, if_pos htotal, hs₂, hl]
  · rw [if_neg fun h => htotal (by rw [← hwhole]; exact h.1), if_neg htotal, hs₂, hkept]

end

theorem lightSend_due {l : LightList} (hnew : newestLight s = some l) (hmaster : isMaster s = true) (hdue : s.ring.lightSentUp + 2000000 ≤ s.time.up) :
    lightSend s = sendLight l s := by
  unfold lightSend
  rw [hnew]
  exact if_pos ⟨hmaster, by unfold since; omega⟩

theorem lightSend_early (hearly : s.time.up < s.ring.lightSentUp + 2000000) : lightSend s = s := by
  unfold lightSend
  split
  · refine if_neg fun h => ?_
    have hsince := h.2
    unfold since at hsince
    omega
  · rfl

/-! ## The removal of unplanned nodes (R92) -/

/-- A list without a node. -/
def withoutNode (n : Nat) (l : LightList) : LightList := { l with entries := l.entries.filter (fun e => e.node != n) }

section
variable {n t : Nat} {l : LightList} (habsent : slook s.ring.absentSince n = some t) (hnew : newestLight s = some l)
include habsent hnew

theorem unplannedRemoval_due (hmaster : isMaster s = true) (hdue : t + 120000000 ≤ s.time.up)
    (hthere : ∃ e ∈ l.entries, e.node = n ∧ bit e.flags.toNat 2 = true ∧ entryPresent e = false) : unplannedRemoval n s =
      newGeneration (withoutNode n) (modRing (fun r => { r with absentSince := sdel r.absentSince n }) s) := by
  obtain ⟨e, he, hnode, hunplanned, habsentNow⟩ := hthere
  have hany : l.entries.any (fun e => e.node == n && bit e.flags.toNat 2 && !entryPresent e) = true :=
    List.any_eq_true.mpr ⟨e, he, by rw [hnode, hunplanned, habsentNow]; simp⟩
  unfold unplannedRemoval
  simp only [habsent, hnew]
  exact if_pos ⟨hmaster, by unfold since; omega, hany⟩

theorem unplannedRemoval_early (hearly : s.time.up < t + 120000000) : unplannedRemoval n s = s := by
  unfold unplannedRemoval
  simp only [habsent, hnew]
  refine if_neg fun h => ?_
  have hsince := h.2.1
  unfold since at hsince
  omega

end

/-- Settles O47, by what each message of the ring's membership does, and by what a new generation keeps. -/
theorem ringMembership : Obligations.RingMembership := by
  unfold Obligations.RingMembership
  refine ⟨fun s hnode hbeacon hopen hmaster => ⟨fun hdue => effectIs_eq (joinSend_sends hnode hbeacon hopen hmaster hdue),
      fun hsent hearly => effectIs_eq (joinSend_waits hsent hearly)⟩, fun s h => effectIs_eq (joinSend_joined h),
    fun f l j n unplanned s hqueue htype hlength hover hnew hj hchoose => ?join,
    fun f s hqueue hearly => effectIs_eq (joinRx_waits hqueue hearly),
    fun f s hhead => ⟨fun hmine hnone => ⟨_, commit_goOn s _, ?assign⟩, fun hother => effectIs_eq (assignRx_other hhead hother)⟩,
    fun w x s hwaits hacts => ⟨fun hdue hin hse htag hx => ⟨_, commit_goOn s _, ?late⟩,
      fun hearly => effectIs_eq (assignWaitTimeout_waits hwaits hacts hearly)⟩,
    fun f s hhead => ⟨fun hrole => effectIs_eq ?noRole, fun hrole => ⟨_, commit_goOn s _, ?report⟩⟩,
    fun f s hhead hnone hfirst hrole => ?light,
    fun l s hnew hmaster => ⟨fun hdue => effectIs_eq (lightSend_due hnew hmaster hdue), fun hearly => effectIs_eq (lightSend_early hearly)⟩,
    fun n l t s habsent hnew hmaster => ⟨fun hdue hthere => ⟨_, commit_goOn s _, ?removal⟩,
      fun hearly => effectIs_eq (unplannedRemoval_early habsent hnew hearly)⟩⟩
  case join =>
    have hj : j = joinOf f.payload := hj
    have htaken := joinRx_taken hqueue htype hlength hover
    generalize hv : freeCells f (setQueue .local 4 [] s) = v at htaken
    have hvnew : newestLight v = some l := by rw [← hv]; exact hnew
    have hvchoose : chooseNumber l (plans v.upd.inForce) j = (n, unplanned, 0) := by rw [← hv]; exact hchoose
    have hvring : v.ring = s.ring := by rw [← hv]; rfl
    have hvcycle : cycleNow v = cycleNow s := by rw [← hv]; rfl
    obtain ⟨hroomy, htight⟩ := answerJoin_answers hvnew hvchoose
    refine ⟨fun hmaster hroom => ⟨_, commit_goOn s _, ?_⟩, fun hmaster hover => ⟨_, commit_goOn s _, ?_⟩, fun hmaster => effectIs_eq ?_⟩
    · obtain ⟨e, w, he, hwnew, hwlight, hwcycle, hring⟩ := hroomy hroom
      obtain ⟨m, hmade, hblank, -, heffective⟩ := newGenerationAt_generated (cycleNow w + 1)
        (fun l => { l with entries := putEntry e l.entries }) hwnew
      have hnext := hring.trans hmade.ring
      obtain ⟨y, hy, hye⟩ := entry_of_blank hblank (mem_putEntry e l.entries)
      have hynode := congrArg LightEntry.node hye
      have hyuid := congrArg LightEntry.uid hye
      have hyflags := congrArg LightEntry.flags hye
      have hygrant := congrArg LightEntry.grant hye
      have hcharge : j.charge < 2 ^ 32 := by
        rw [hj]
        exact rd_lt f.payload 12 4
      rw [htaken, hmaster, if_pos rfl, ← hj, hnext]
      refine ⟨m, y, rfl, hy, hynode.trans he.node, hyuid.trans he.uid, ?_, ?_, ?_, fun x hx hother => ?_, ?_⟩
      · exact (congrArg (fun b : Byte => bit b.toNat 0) hyflags).trans he.present
      · have hgrant : y.grant = BitVec.ofNat 32 j.charge := hygrant.trans he.grant
        rw [hgrant, BitVec.toNat_ofNat, Nat.mod_eq_of_lt hcharge]
      · rw [heffective, hwcycle, hvcycle]
      · obtain ⟨z, hz, hzx⟩ := entry_of_blank hblank (mem_putEntry_of_mem (e := e) hx (by rw [he.node]; exact hother))
        have hznode := congrArg LightEntry.node hzx
        have hzuid := congrArg LightEntry.uid hzx
        have hzflags := congrArg LightEntry.flags hzx
        have hzgrant := congrArg LightEntry.grant hzx
        have hzmembers := congrArg LightEntry.members hzx
        exact ⟨z, hz, hznode, hzuid, hzflags, hzgrant, hzmembers⟩
      · exact hwlight.trans (congrArg RingState.light hvring)
    · dsimp only
      rw [htaken, hmaster, if_pos rfl, ← hj, htight hover, hvring]
    · rw [htaken, hmaster]
      exact if_neg Bool.false_ne_true
  case assign =>
    dsimp only
    rw [assignRx_mine hhead hmine hnone]
    exact ⟨rfl, rfl, rfl⟩
  case late =>
    have hcomplete := complete_alone (st := .timeout) (res := []) hin (show isReady x = false by unfold isReady; rw [hx])
    dsimp only
    rw [assignWaitTimeout_ends hwaits hacts hdue, ← hse, ← htag, hcomplete]
    exact ⟨rfl, rfl⟩
  case noRole =>
    have htaken := taken_dequeue .local 4 s
    have hrole' : (dequeue .local 4 s).master.role = 0 := by rw [htaken.only]; exact hrole
    unfold spanReportRx
    rw [takeCtl_head _ hhead]
    unfold takeSpanReport
    exact if_pos hrole'
  case report =>
    generalize hv : dequeue .local 4 s = v
    have htaken : Taken s v := by rw [← hv]; exact taken_dequeue _ _ s
    have hring := htaken.ring
    have hrole' : v.master.role ≠ 0 := by rw [htaken.only]; exact hrole
    have hmaster : isMaster v = isMaster s := by rw [htaken.only]; rfl
    obtain ⟨w, hw, hreports, hsame⟩ := takeSpanReport_reports f.src f.payload hrole'
    have hrx : spanReportRx s = takeSpanReport f.src f.payload v := by rw [← hv]; exact takeCtl_head _ hhead
    rw [hring] at hw
    rw [hmaster] at hsame
    rw [hrx, hreports.light, hreports.spanDown, hw]
    unfold spanDownAfter
    refine ⟨fun h => if_pos h, fun h => if_neg h, rfl, fun hnot => ?_⟩
    rw [hsame hnot, hw]
  case light =>
    generalize hv : dequeue .local 4 s = v
    have htaken : Taken s v := by rw [← hv]; exact taken_dequeue _ _ s
    have hring := htaken.ring
    have hrole' : v.master.role ≠ 2 := by rw [htaken.only]; exact hrole
    have hrx : lightRx s = takeLight f v := by rw [← hv]; exact takeCtl_head _ hhead
    have hfrom : 4 ≤ f.payload.length := by
      unfold ctlHead at hhead
      split at hhead
      · split at hhead
        · next hall => rw [← Option.some.inj hhead]; exact hall.2
        · exact absurd hhead (by simp)
      · exact absurd hhead (by simp)
    have htake := takeLight_first (s := v) (f := f) (by rw [hring]; exact hnone) hfirst hrole'
    rw [List.length_drop] at htake
    refine ⟨fun hwhole => ⟨_, commit_goOn s _, ?_⟩, fun hpart => ⟨_, commit_goOn s _, ?_⟩⟩
    · dsimp only
      rw [hrx, htake, if_pos (by omega)]
      unfold modRing
      rw [hring]
      exact ⟨rfl, rfl, rfl⟩
    · dsimp only
      rw [hrx, htake, if_neg (by omega)]
      unfold modRing
      rw [hring]
      exact ⟨rfl, rfl⟩
  case removal =>
    generalize hv : modRing (fun r => { r with absentSince := sdel r.absentSince n.val }) s = v
    have hvnew : newestLight v = some l := by rw [← hv]; exact hnew
    have hvlight : v.ring.light = s.ring.light := by rw [← hv]; rfl
    have hvcycle : cycleNow v = cycleNow s := by rw [← hv]; rfl
    obtain ⟨m, hmade, hblank, -, heffective⟩ := newGenerationAt_generated (cycleNow v + 1) (withoutNode n.val) hvnew
    have hring := hmade.ring
    rw [unplannedRemoval_due habsent hnew hmaster hdue hthere, hv]
    refine ⟨m, congrArg RingState.nextLight hring, nodes_of_blank hblank, by rw [heffective, hvcycle], ?_⟩
    exact (congrArg RingState.light hring).trans hvlight

end Sys2Proof.Proofs
end

section
/-! The switch's queues (R101 to R104): what a write, an admission and an arriving frame's end leave of each. -/

namespace Sys2Proof.Proofs

open Sys2Proof Sys2Proof.Machine Sys2Proof.Laws

/-- The queue under a key. -/
def queueAt (s : State) (k : Nat) : List Frame := sget [] s.sw.queues k

theorem queueOf_eq (s : State) (o : Output) (c : Nat) : queueOf s o c = queueAt s (qKey o c) := rfl

/-- Queues and their table are those of another state. -/
theorem queueAt_of_queues {s t : State} (h : t.sw.queues = s.sw.queues) (k : Nat) : queueAt t k = queueAt s k := by
  unfold queueAt
  rw [h]

/-- Two outputs have no queue of one class in common. -/
theorem qKey_inj {o p : Output} {c : Nat} (h : qKey o c = qKey p c) : o = p := by
  unfold qKey at h
  have hno : outNo o = outNo p := by omega
  revert hno
  cases o <;> cases p <;> decide

section
variable {s : State}

theorem queueAt_setQueue (o : Output) (c : Nat) (l : List Frame) (hwf : swf [] s.sw.queues = true) :
    queueAt (setQueue o c l s) (qKey o c) = l := sget_sput [] s.sw.queues (qKey o c) l hwf

theorem queueAt_setQueue_other {o : Output} {c k : Nat} (l : List Frame) (h : k ≠ qKey o c) :
    queueAt (setQueue o c l s) k = queueAt s k := sget_sput_other [] s.sw.queues (qKey o c) k l h

theorem setQueue_wf (o : Output) (c : Nat) (l : List Frame) (hwf : swf [] s.sw.queues = true) :
    swf [] (setQueue o c l s).sw.queues = true := swf_sput [] s.sw.queues (qKey o c) l hwf

theorem foldl_freeCells_queues (l : List Frame) (s : State) : (l.foldl (fun s f => freeCells f s) s).sw.queues = s.sw.queues :=
  
  foldl_keep (fun s : State => s.sw.queues) (fun s f => freeCells f s) (fun _ _ => rfl) l s

/-! ## Admission (R104, R108) -/

/-- What an admission leaves alone: the hub but for the switch and its registers, and of the switch what no queue is. -/
structure Admitted (s t : State) : Prop where
  ring : t.ring = s.ring
  view : hubView t = hubView s
  wire : t.sw.wire = s.sw.wire
  wf : swf [] s.sw.queues = true → swf [] t.sw.queues = true

theorem notePoolMin_sw (s : State) : (notePoolMin s).sw = s.sw := by
  unfold notePoolMin
  exact onlyIf_sw s _ _ (setFld_sw s _ _ _ _)

theorem enqueue_admitted (o : Output) (f : Frame) (s : State) : Admitted s (enqueue o f s) := by
  refine ⟨(sent_enqueue s o f).ring, (sent_enqueue s o f).view, ?_, fun hwf => ?_⟩
  · unfold enqueue
    dsimp only
    rw [notePoolMin_sw]
    rfl
  · unfold enqueue
    dsimp only
    rw [notePoolMin_sw]
    exact setQueue_wf _ _ _ hwf

/-- A frame that is queued stands at the tail, on cells of its own, marked where its class is cut through. -/
theorem enqueue_queue (o : Output) (f : Frame) (hwf : swf [] s.sw.queues = true) :
    (∃ cs, queueOf (enqueue o f s) o f.cls = queueOf s o f.cls ++ [{ f with cut := cutAt s o f.cls, cells := cs }])
    ∧ (∀ k, k ≠ qKey o f.cls → queueAt (enqueue o f s) k = queueAt s k) := by
  have hqueues : (enqueue o f s).sw = (setQueue o f.cls (queueOf s o f.cls ++ [(giveCells { f with cut := cutAt s o f.cls } s).1])
      (giveCells { f with cut := cutAt s o f.cls } s).2).sw := by
    unfold enqueue
    dsimp only
    rw [notePoolMin_sw]
    rfl
  have hsame := congrArg SwState.queues hqueues
  refine ⟨⟨(giveCells { f with cut := cutAt s o f.cls } s).1.cells, ?_⟩, fun k hk => ?_⟩
  · rw [queueOf_eq, queueAt_of_queues hsame, queueAt_setQueue o f.cls _ (by exact hwf)]
    rfl
  · rw [queueAt_of_queues hsame, queueAt_setQueue_other _ hk]
    rfl

theorem sameWord_csrPut {a b : Nat} (w : Nat) (h : b ≠ a) : SameWord b s (csrPut a w s) := by
  refine ⟨?_, rfl, rfl⟩
  unfold csrPut
  dsimp only
  split
  · exact slook_sdel_other s.csr h
  · exact slook_sins_other s.csr a b _ h

theorem sameWord_enqueue {b : Nat} (o : Output) (f : Frame) (h : b ≠ 0x60010) : SameWord b s (enqueue o f s) := by
  unfold enqueue
  exact SameWord.trans (t := setQueue o f.cls _ (giveCells _ s).2) ⟨rfl, rfl, rfl⟩ (sameWord_onlyIf _ _ (sameWord_csrPut _ h))

/-! ## A frame whose rest arrives (R80, R111) -/

/-- What becomes of a queued copy when the frame that arrives on a port ends. -/
def copyEnd (p : Port) (g : Output → Frame → Option Frame) (o : Output) (f : Frame) : Option Frame := if f.arriving = some p then g o f else some f

theorem filterMap_copyEnd {p : Port} {g : Output → Frame → Option Frame} {o : Output} {l : List Frame} (h : ∀ f ∈ l, f.arriving ≠ some p) :
    l.filterMap (copyEnd p g o) = l :=
  filterMap_kept fun f hf => if_neg (h f hf)

theorem filterMap_copyEnd_tail {p : Port} {g : Output → Frame → Option Frame} {o : Output} {l : List Frame} {f : Frame}
    (h : ∀ f ∈ l, f.arriving ≠ some p) (hf : f.arriving = some p) : (l ++ [f]).filterMap (copyEnd p g o) = l ++ (g o f).toList := by
  have hend : copyEnd p g o f = g o f := if_pos hf
  rw [List.filterMap_append, filterMap_copyEnd h]
  congr 1
  rw [List.filterMap_cons, hend]
  cases g o f <;> rfl

/-- One output's copies, in the class of the frame. -/
def endAt (p : Port) (c : Nat) (g : Output → Frame → Option Frame) (s : State) (o : Output) : State :=
  ((queueOf s o c).filter (fun f => (copyEnd p g o f).isNone)).foldl (fun s f => freeCells f s)
    (setQueue o c ((queueOf s o c).filterMap (copyEnd p g o)) s)

theorem eachCopy_eq (p : Port) (c : Nat) (g : Output → Frame → Option Frame) (s : State) : eachCopy p c g s =
    modPort p (fun q => { q with drainHeld := q.drainHeld.filterMap (fun x => (copyEnd p g x.1 x.2).map (fun f => (x.1, f))) })
      (allOutputs.foldl (endAt p c g) s) := rfl

section
variable (p : Port) (c : Nat) (g : Output → Frame → Option Frame)

theorem endAt_queues (s : State) (o : Output) : (endAt p c g s o).sw.queues =
    (setQueue o c ((queueOf s o c).filterMap (copyEnd p g o)) s).sw.queues := foldl_freeCells_queues _ _

theorem queueAt_endAt_other {o : Output} {k : Nat} (h : k ≠ qKey o c) : queueAt (endAt p c g s o) k = queueAt s k := by
  rw [queueAt_of_queues (endAt_queues p c g s o), queueAt_setQueue_other _ h]

theorem queueAt_endAt (o : Output) (hwf : swf [] s.sw.queues = true) :
    queueAt (endAt p c g s o) (qKey o c) = (queueAt s (qKey o c)).filterMap (copyEnd p g o) := by
  rw [queueAt_of_queues (endAt_queues p c g s o), queueAt_setQueue o c _ hwf]
  rfl

theorem endAt_wf (o : Output) (hwf : swf [] s.sw.queues = true) : swf [] (endAt p c g s o).sw.queues = true := by
  rw [endAt_queues]
  exact setQueue_wf _ _ _ hwf

theorem eachCopy_queues (s : State) : (eachCopy p c g s).sw.queues = (allOutputs.foldl (endAt p c g) s).sw.queues := by
  rw [eachCopy_eq, modPort_sw]

theorem queueAt_ends_other {k : Nat} (l : List Output) (h : ∀ o ∈ l, k ≠ qKey o c) (s : State) :
    queueAt (l.foldl (endAt p c g) s) k = queueAt s k := by
  induction l generalizing s with
  | nil => rfl
  | cons o t ih =>
    rw [List.foldl_cons, ih (fun x hx => h x (List.mem_cons_of_mem _ hx)), queueAt_endAt_other p c g (h o List.mem_cons_self)]

theorem queueAt_ends (o : Output) (l : List Output) (hnodup : l.Nodup) (hmem : o ∈ l) (s : State) (hwf : swf [] s.sw.queues = true) :
    queueAt (l.foldl (endAt p c g) s) (qKey o c) = (queueAt s (qKey o c)).filterMap (copyEnd p g o) := by
  induction l generalizing s with
  | nil => exact absurd hmem List.not_mem_nil
  | cons x t ih =>
    obtain ⟨hx, ht⟩ := List.nodup_cons.mp hnodup
    rw [List.foldl_cons]
    by_cases hxo : x = o
    · subst hxo
      rw [queueAt_ends_other p c g t (fun y hy hkey => hx (by rw [qKey_inj hkey]; exact hy)), queueAt_endAt p c g x hwf]
    · rw [ih ht ((List.mem_cons.mp hmem).resolve_left (Ne.symm hxo)) _ (endAt_wf p c g x hwf),
        queueAt_endAt_other p c g fun hkey => hxo (qKey_inj hkey).symm]

/-- Every queue of the frame's class changes by its copies. -/
theorem queueAt_eachCopy (o : Output) (hwf : swf [] s.sw.queues = true) :
    queueAt (eachCopy p c g s) (qKey o c) = (queueAt s (qKey o c)).filterMap (copyEnd p g o) := by
  rw [queueAt_of_queues (eachCopy_queues p c g s)]
  exact queueAt_ends p c g o allOutputs (by decide) (by cases o <;> decide) s hwf

/-- A queue that holds no copy of the frame stays as it is. -/
theorem queueAt_eachCopy_none {k : Nat} (hwf : swf [] s.sw.queues = true) (h : ∀ f ∈ queueAt s k, f.arriving ≠ some p) :
    queueAt (eachCopy p c g s) k = queueAt s k := by
  by_cases hkey : ∃ o, k = qKey o c
  · obtain ⟨o, rfl⟩ := hkey
    rw [queueAt_eachCopy p c g o hwf, filterMap_copyEnd h]
  · rw [queueAt_of_queues (eachCopy_queues p c g s)]
    exact queueAt_ends_other p c g allOutputs (fun o _ hk => hkey ⟨o, hk⟩) s

/-- The ends of the copies touch the switch alone. -/
theorem ends_only (l : List Output) (s : State) : ∃ w, l.foldl (endAt p c g) s = { s with sw := w } := by
  have hfree : ∀ (fs : List Frame) (t : State), ∃ w, fs.foldl (fun s f => freeCells f s) t = { t with sw := w } := by
    intro fs
    induction fs with
    | nil => exact fun t => ⟨t.sw, rfl⟩
    | cons f fs ih => exact fun t => ih (freeCells f t)
  induction l generalizing s with
  | nil => exact ⟨s.sw, rfl⟩
  | cons o t ih =>
    obtain ⟨v, hv⟩ := hfree ((queueOf s o c).filter (fun f => (copyEnd p g o f).isNone)) (setQueue o c ((queueOf s o c).filterMap (copyEnd p g o)) s)
    obtain ⟨w, hw⟩ := ih (endAt p c g s o)
    refine ⟨w, ?_⟩
    rw [List.foldl_cons, hw, endAt, hv]
    rfl

end

end

end Sys2Proof.Proofs
end

section
/-! Frames on the wire: what arrives is counted, queued or ended, and what an output sends (R72, R80 to R82, R104, R105, R110). -/

namespace Sys2Proof.Proofs

open Sys2Proof Sys2Proof.Machine Sys2Proof.Laws

/-! ## Headers (R78 to R80) -/

theorem rd_take (bs : List Byte) {k n m : Nat} (h : k + n ≤ m) : rd (bs.take m) k n = rd bs k n := by
  unfold rd slice
  rw [List.drop_take, List.take_take, Nat.min_eq_left (by omega)]

/-- The header alone tells what the whole frame does, its payload filled with zero bytes. -/
theorem parseHead_take (bs : List Byte) (ing : Output) (rx tick : Nat) :
    parseHead (bs.take 32) ing rx tick = (parseHead bs ing rx tick).map (fun r => ({ r.1 with payload := zeros r.2 }, r.2)) := by
  have hlength : (bs.take 32).length < 32 ↔ bs.length < 32 := by rw [List.length_take]; omega
  have htake : (bs.take 32).take 30 = bs.take 30 := by rw [List.take_take]; rfl
  have hrest : (bs.take 32).drop 32 = [] := by rw [List.drop_take]; rfl
  have hpad : ∀ n, padTo n (([] : List Byte).take n) = zeros n := fun n => by
    unfold padTo
    rw [List.take_nil]
    rfl
  unfold parseHead
  simp only [hlength, htake, hrest, hpad, rd_take bs (show 30 + 2 ≤ 32 by decide), rd_take bs (show 0 + 1 ≤ 32 by decide), rd_take bs (show 1 + 1 ≤ 32 by decide), rd_take bs (show 2 + 1 ≤ 32 by decide),
    rd_take bs (show 3 + 1 ≤ 32 by decide), rd_take bs (show 4 + 4 ≤ 32 by decide), rd_take bs (show 8 + 2 ≤ 32 by decide), rd_take bs (show 10 + 2 ≤ 32 by decide), rd_take bs (show 12 + 1 ≤ 32 by decide), rd_take bs (show 13 + 1 ≤ 32 by decide),
    rd_take bs (show 14 + 2 ≤ 32 by decide), rd_take bs (show 16 + 2 ≤ 32 by decide), rd_take bs (show 18 + 2 ≤ 32 by decide), rd_take bs (show 20 + 6 ≤ 32 by decide)]
  split
  · rfl
  · rfl

theorem parseHead_bad {bs : List Byte} {ing : Output} {rx tick : Nat}
    (h : bs.length < 32 ∨ rd bs 30 2 ≠ crc16 (bs.take 30) ∨ bits (rd bs 0 1) 4 4 ≠ 1) : parseHead bs ing rx tick = none := by
  unfold parseHead
  exact if_pos (h.imp_right fun h => h.imp_right .inl)

theorem crc32c_lt (bs : List Byte) : crc32c bs < 2 ^ 32 := Nat.xor_lt_two_pow (reflect_lt 32 _) (by decide)

/-- A poison end differs from the good one (R78, R81). -/
theorem poison_ne (x : Nat) : Nat.xor x 0xFFFFFFFF ≠ x := by
  intro h
  have hself : Nat.xor x (Nat.xor x 0xFFFFFFFF) = Nat.xor x x := congrArg (Nat.xor x) h
  have hcancel : Nat.xor x (Nat.xor x 0xFFFFFFFF) = 0xFFFFFFFF :=
    (Nat.xor_assoc x x 0xFFFFFFFF).symm.trans ((congrArg (Nat.xor · 0xFFFFFFFF) (Nat.xor_self x)).trans (Nat.zero_xor _))
  have hzero : Nat.xor x x = 0 := Nat.xor_self x
  omega

/-- What follows the header of a frame. -/
theorem frameBytes_rest (f : Frame) : (frameBytes f).drop 32 =
    f.payload ++ leBytes 4 (if f.poison then Nat.xor (crc32c f.payload) 0xFFFFFFFF else crc32c f.payload) := by
  have hhead : (frameHead f ++ leBytes 2 (crc16 (frameHead f))).length = 32 := by rw [List.length_append, length_frameHead, length_leBytes]
  unfold frameBytes
  dsimp only
  rw [List.append_assoc _ f.payload, List.drop_left' hhead]

/-- Bytes that no header opens are counted, and leave nothing (R80). -/
theorem ringFrameRx_bad {p : Port} {bytes : List Byte} {rx : Nat} {part : RxPart} {s : State} (hup : (portSt s p).span = .up)
    (hrx : (portSt s p).rx = none) (hpart : part ≠ .rest)
    (h : bytes.length < 32 ∨ rd bytes 30 2 ≠ crc16 (bytes.take 30) ∨ bits (rd bytes 0 1) 4 4 ≠ 1) :
    ringFrameRx p bytes rx part s = bump (portAddr p 0x20) s := by
  have hcut : rxCutOff p s = s := by unfold rxCutOff; rw [hrx]; rfl
  have hheader : rxHeader p bytes rx s = bump (portAddr p 0x20) s := by
    unfold rxHeader
    rw [hcut]
    dsimp only
    rw [parseHead_take, parseHead_bad h]
    rfl
  have hwhole : rxHeader p (bytes.take 32) rx s = bump (portAddr p 0x20) s := by
    unfold rxHeader
    rw [hcut]
    dsimp only
    rw [List.take_take, Nat.min_self, parseHead_take, parseHead_bad h]
    rfl
  have hkept : (portSt (bump (portAddr p 0x20) s) p).rx = none := (congrArg PortSt.rx (portSt_of_ring p (t := bump (portAddr p 0x20) s) rfl)).trans hrx
  unfold ringFrameRx
  rw [hup]
  refine (if_pos rfl).trans ?_
  cases part with
  | header => exact hheader
  | rest => exact absurd rfl hpart
  | whole =>
    dsimp only
    rw [hwhole]
    unfold rxRest
    simp only [hkept]

theorem ringFrameRx_down {p : Port} {bytes : List Byte} {rx : Nat} {part : RxPart} {s : State}
    (h : (portSt s p).span = .down ∨ (portSt s p).span = .locking ∨ (portSt s p).span = .adminDown) : ringFrameRx p bytes rx part s = s := by
  unfold ringFrameRx
  refine if_neg ?_
  rcases h with h | h | h <;> (rw [h]; decide)

/-! ## A frame that arrives (R80, R82, R104, R105, R115) -/

/-- A frame as its receiving switch notes it, whole. -/
def received (p : Port) (rx : Nat) (s : State) (f : Frame) : Frame :=
  { f with
    ingress := outOf p, rxTime := rxStamp s p rx, rxTick := tickNow s, bankPrev := false, bankNode := s.sw.current.node
    member := s.sw.current.members.contains f.mgroup, cells := [], cut := false, poison := false, eligible := true, arriving := none
    head := [], frees := none }

/-- The copy of a frame whose header alone has come. -/
def waiting (p : Port) (g : Frame) : Frame := { g with payload := zeros g.payload.length, eligible := false, arriving := some p }

/-- A frame whose fields fit their widths, of the present generation, at a port that is UP and free. -/
structure Comes (p : Port) (f : Frame) (s : State) : Prop where
  up : (portSt s p).span = .up
  free : (portSt s p).rx = none
  steady : draining s p = false
  wf : swf [] s.sw.queues = true
  none : ∀ k, ∀ h ∈ queueAt s k, h.arriving ≠ some p
  cls : 1 ≤ f.cls ∧ f.cls ≤ 3
  dst : f.dst < 256
  src : f.src < 256
  mgroup : f.mgroup < 256
  hops : f.hops < 65536
  frag : f.frag < 65536
  cycle : f.cycle < 2 ^ 48
  payload : f.payload.length ≤ 9564
  ring : f.dst ≠ 0
  gen : f.gen = s.sw.current.gen
  straight : f.wrapped = false
  node : s.sw.current.node ≠ 0

/-- The record of a frame whose header has come, with its route. -/
def recordOf (p : Port) (g : Frame) (r : Route) : Arriving :=
  ⟨{ waiting p g with member := r.outs.any (fun x => x.1 == .local) }, [], r.removed, r.outs.any (fun x => x.1 == .local) && g.cls == 0⟩

section
variable {p : Port} {f g : Frame} {s : State} {rx : Nat}

theorem matchBank_present (w : Frame) (h : w.gen = s.sw.current.gen) : matchBank w s =
    ({ w with bankPrev := false, bankNode := s.sw.current.node, member := s.sw.current.members.contains w.mgroup }, s) := by
  unfold matchBank
  exact if_pos (.inr h)

theorem rxHeader_frame (hc : Comes p f s) (hg : g = received p rx s f) : rxHeader p ((frameBytes f).take 32) rx s =
    if (routeAt s (otherPort p) (waiting p g)).outs.isEmpty && (routeAt s (otherPort p) (waiting p g)).counts.contains (portAddr p 0x28) then
      bump (portAddr p 0x28) s
    else admitRoute p (routeAt s (otherPort p) (waiting p g))
      (modPort p (fun q => { q with rx := some (recordOf p g (routeAt s (otherPort p) (waiting p g))) }) s) := by
  have hcut : rxCutOff p s = s := by unfold rxCutOff; rw [hc.free]; rfl
  have hparse := frameRoundTrip f (outOf p) (rxStamp s p rx) (tickNow s) (Nat.le_succ_of_le hc.cls.2) hc.dst hc.src hc.mgroup hc.hops hc.frag hc.cycle hc.payload
  have hnone : ((frameBytes f).take 32).drop 32 = [] := by rw [List.drop_take]; rfl
  have hadmits : ∀ w, admits s p w = true := fun w => by unfold admits; simp only [hc.up]
  have hbank := matchBank_present (s := s) ({ f with
      ingress := outOf p, rxTime := rxStamp s p rx, rxTick := tickNow s, bankPrev := false, bankNode := 0, member := false, cells := [], cut := false
      poison := false, eligible := false, arriving := some p, head := [], frees := none, payload := zeros f.payload.length }) hc.gen
  subst hg
  unfold rxHeader
  rw [hcut]
  dsimp only
  rw [List.take_take, Nat.min_self, parseHead_take, hparse]
  dsimp only [Option.map_some]
  rw [if_neg (Nat.not_lt.mpr hc.payload), hadmits, Bool.not_true, if_neg Bool.false_ne_true, hbank, hnone]
  rfl

theorem routeAt_leg (w : Frame) (q : Port) (hdst : w.dst ≠ 0) (hwrapped : w.wrapped = false) : routeAt s q w = legRoute s q w := by
  unfold routeAt
  rw [if_neg hdst, hwrapped]
  exact if_neg Bool.false_ne_true

/-! ## Its route (R82, R105) -/

section
variable {w : Frame} {q : Port} (hdst : w.dst ≠ 0) (hwrapped : w.wrapped = false) (hbank : w.bankNode ≠ 0)
include hdst hwrapped

section
include hbank

theorem routeAt_removed (hforeign : outNo w.ingress ≠ 2) (hsrc : w.src = w.bankNode) : routeAt s q w = { removed := true } := by
  rw [routeAt_leg w q hdst hwrapped]
  unfold legRoute
  exact if_pos ⟨hbank, hsrc, by rw [beq_eq_false_iff_ne.mpr hforeign]; rfl⟩

theorem routeAt_here (hsrc : w.src ≠ w.bankNode) (hhere : w.dst = w.bankNode) : routeAt s q w = { outs := [(.local, w)] } := by
  rw [routeAt_leg w q hdst hwrapped]
  unfold legRoute
  exact (if_neg fun h => hsrc h.2.1).trans (if_pos ⟨hbank, hhere⟩)

end

theorem routeAt_onward (hsrc : w.src ≠ w.bankNode) (hother : w.dst ≠ w.bankNode) (hone : w.dst ≠ 255) (hhops : w.hops < 511)
    (hstraight : turns s q = false) : routeAt s q w = { outs := [(outOf q, { w with hops := w.hops + 1 })] } := by
  have honward : onwardAt s q w = .out q { w with hops := w.hops + 1 } false := by
    unfold onwardAt
    rw [hstraight]
    dsimp only
    rw [Bool.false_and, if_neg Bool.false_ne_true, Bool.false_and, Bool.false_and, if_neg Bool.false_ne_true, if_neg (by omega),
      if_neg Bool.false_ne_true]
  rw [routeAt_leg w q hdst hwrapped]
  unfold legRoute
  dsimp only
  rw [if_neg fun h => hsrc h.2.1, if_neg fun h => hother h.2, if_neg fun h => hone h.1]
  unfold passOn
  rw [honward]
  rfl

end

theorem outNo_outOf (p : Port) : outNo (outOf p) ≠ 2 := by cases p <;> decide

/-- The verdict on a frame rests on its class and its length, and on the queues. -/
theorem judge_waiting (o : Output) (w g : Frame) (r : PortSt → Option Arriving) (hcls : w.cls = g.cls) (hlength : w.payload.length = g.payload.length) :
    judge (modPort p (fun q => { q with rx := r q }) s) o w = judge s o g := by
  have hcells : frameCells w = frameCells g := by unfold frameCells; rw [hlength]
  have hsame : ∀ c n, (occ (modPort p (fun q => { q with rx := r q }) s) o c = occ s o c)
      ∧ sharedFree (modPort p (fun q => { q with rx := r q }) s) = sharedFree s
      ∧ resvOf (modPort p (fun q => { q with rx := r q }) s) o c = resvOf s o c
      ∧ fld (modPort p (fun q => { q with rx := r q }) s) (limitAddr (outNo o) c) 0 n = fld s (limitAddr (outNo o) c) 0 n := by
    intro c n
    cases p <;> exact ⟨rfl, rfl, rfl, rfl⟩
  unfold judge
  obtain ⟨hocc, hfree, hresv, hlimit⟩ := hsame g.cls 20
  dsimp only
  rw [hcls, hcells, hocc, hfree, hresv, hlimit]

/-- A route of one copy, at a port that does not drain: the copy is judged. -/
theorem admitRoute_single {r : Route} {o : Output} {w : Frame} (houts : r.outs = [(o, w)]) (hcounts : r.counts = []) (hsteady : draining s p = false)
    (hcls : w.cls ≠ 0) : admitRoute p r s = admitOrDrop o { w with eligible := cutAt s o w.cls } s := by
  have hkeep : [(o, w)].filter (fun x => !(x.1 == .local && x.2.cls == 0)) = [(o, w)] :=
    List.filter_cons_of_pos (by rw [beq_eq_false_iff_ne.mpr hcls, Bool.and_false]; rfl)
  have hholds : ∀ w, holds s p w = false := fun w => by unfold holds; rw [hsteady]; rfl
  unfold admitRoute
  rw [houts, hcounts, hkeep]
  dsimp only [List.foldl_cons, List.foldl_nil]
  unfold admitCopy
  rw [hholds, Bool.false_and]
  exact if_neg Bool.false_ne_true

theorem admitRoute_none {r : Route} (houts : r.outs = []) (hcounts : r.counts = []) : admitRoute p r s = s := by
  unfold admitRoute
  rw [houts, hcounts]
  rfl

/-! ## Its rest (R80, R81, R111) -/

section
variable {t : State} {a : Arriving} (hrx : (portSt t p).rx = some a) (hgot : a.got = []) (hlength : a.frame.payload.length = f.payload.length)
include hrx hgot hlength

theorem rxRest_frame : rxRest p ((frameBytes f).drop 32) t =
    if f.poison then rxBad p a f.payload (bump (portAddr p 0x30) t) else rxGood p a f.payload t := by
  have hcrc := crc32c_lt f.payload
  have hpoison : Nat.xor (crc32c f.payload) 0xFFFFFFFF < 2 ^ 32 := Nat.xor_lt_two_pow hcrc (by decide)
  have htrailer : ∀ x, x < 2 ^ 32 → rd (f.payload ++ leBytes 4 x) f.payload.length 4 = x := fun x hx => by
    rw [rd_append_right _ _ _ _ (Nat.le_refl _), Nat.sub_self, rd_leBytes]
    exact Nat.mod_eq_of_lt hx
  unfold rxRest
  rw [frameBytes_rest]
  simp only [hrx, hgot, List.nil_append, hlength, List.length_append, length_leBytes, ne_eq, not_true, if_false, List.take_left]
  cases f.poison with
  | false =>
    simp only [Bool.false_eq_true, if_false]
    rw [htrailer _ hcrc]
    exact if_pos rfl
  | true =>
    simp only [if_true]
    rw [htrailer _ hpoison]
    exact (if_neg (poison_ne _)).trans (by rw [if_pos rfl])

end

/-- What the end of an arriving frame leaves of everything but its queues: the registers, and a port that is free again. -/
structure RxEnds (p : Port) (c : Nat) (g : Output → Frame → Option Frame) (t u : State) : Prop where
  copies : ∀ o, queueAt u (qKey o c) = (queueAt t (qKey o c)).filterMap (copyEnd p g o)
  others : ∀ k, (∀ h ∈ queueAt t k, h.arriving ≠ some p) → queueAt u k = queueAt t k
  csr : u.csr = t.csr
  cfg : u.cfgRegs = t.cfgRegs
  ident : u.upd.ident = t.upd.ident
  free : (portSt u p).rx = none

theorem RxEnds.word {c : Nat} {g : Output → Frame → Option Frame} {t u : State} (h : RxEnds p c g t u) (b : Nat) : SameWord b t u :=
  ⟨by rw [h.csr], h.cfg, h.ident⟩

theorem modPort_cfg (p : Port) (f : PortSt → PortSt) (s : State) : (modPort p f s).cfgRegs = s.cfgRegs ∧ (modPort p f s).upd = s.upd := by
  cases p <;> exact ⟨rfl, rfl⟩

/-- The copies end, on a port whose record has been taken off. -/
theorem rxEnds_eachCopy (c : Nat) (g : Output → Frame → Option Frame) (wire : State → List (Nat × Frame)) (t : State)
    (hwf : swf [] t.sw.queues = true) :
    RxEnds p c g t (eachCopy p c g (modSw (fun w => { w with wire := wire t }) (endRx p t))) := by
  generalize hv : modSw (fun w => { w with wire := wire t }) (endRx p t) = v
  have hqueues : v.sw.queues = t.sw.queues := by
    have hend : (endRx p t).sw = t.sw := modPort_sw _ _ _
    have hq : (endRx p t).sw.queues = t.sw.queues := congrArg SwState.queues hend
    rw [← hv]
    exact hq
  have hvwf : swf [] v.sw.queues = true := by rw [hqueues]; exact hwf
  have hat := queueAt_of_queues (s := t) (t := v) hqueues
  obtain ⟨x, hx⟩ := ends_only p c g allOutputs v
  have hcsr : v.csr = t.csr := by rw [← hv]; exact modPort_csr _ _ _
  obtain ⟨hcfg, hupd⟩ := modPort_cfg p (fun q => { q with rx := none }) t
  have hvcfg : v.cfgRegs = t.cfgRegs := by rw [← hv]; exact hcfg
  have hvupd : v.upd = t.upd := by rw [← hv]; exact hupd
  have hfree : (portSt v p).rx = none := by
    have hport : portSt v p = portSt (endRx p t) p := by rw [← hv]; exact portSt_of_ring p rfl
    rw [hport, endRx, portSt_modPort]
  refine ⟨fun o => ?_, fun k hk => ?_, ?_, ?_, ?_, ?_⟩
  · rw [queueAt_eachCopy p c g o hvwf, hat]
  · rw [queueAt_eachCopy_none p c g hvwf (by rw [hat]; exact hk), hat]
  · rw [eachCopy_eq, modPort_csr, hx]
    exact hcsr
  · rw [eachCopy_eq, (modPort_cfg _ _ _).1, hx]
    exact hvcfg
  · rw [eachCopy_eq, (modPort_cfg _ _ _).2, hx]
    exact congrArg (·.ident) hvupd
  · rw [eachCopy_eq, portSt_modPort, hx]
    exact hfree

/-- What a whole frame makes of its copies. -/
def wholeCopy (payload : List Byte) (_ : Output) (g : Frame) : Option Frame := some { g with payload := payload, arriving := none, eligible := true }

section
variable {t : State} {a : Arriving} (hwf : swf [] t.sw.queues = true) (hcls : 1 ≤ a.frame.cls ∧ a.frame.cls ≤ 3)
include hwf hcls

theorem rxGood_ends (hcyc : a.cyc = false) (hremoved : a.removed = false ∨ a.frame.dst = 255) (payload : List Byte) :
    RxEnds p a.frame.cls (wholeCopy payload) t (rxGood p a payload t) := by
  have hends := rxEnds_eachCopy (p := p) a.frame.cls (wholeCopy payload)
    (fun t => (endRx p t).sw.wire.map (fun x => if x.2.arriving = some p then (x.1, { x.2 with payload := payload, arriving := none }) else x)) t hwf
  have hctl : (a.frame.cls == 4) = false := beq_eq_false_iff_ne.mpr (by omega)
  generalize hu : rxGood p a payload t = u
  unfold rxGood at hu
  extract_lets src f dead s₁ s₂ s₃ s₄ at hu
  have hdead : dead = false := by
    dsimp only [dead, f, src]
    rw [hctl]
    rfl
  have hunknown : ctlUnknown f = false := by
    unfold ctlUnknown
    dsimp only [f, src]
    rw [hctl]
    rfl
  have hs₁ : s₁ = endRx p t := by
    dsimp only [s₁]
    rw [hunknown]
    rfl
  have hcopy : (fun (o : Output) (g : Frame) => if o = .local ∧ dead = true then none
      else some { g with payload := payload, arriving := none, eligible := true }) = wholeCopy payload := by
    funext o g
    exact if_neg fun h => Bool.false_ne_true (hdead.symm.trans h.2)
  have hs₃ : s₃ = eachCopy p a.frame.cls (wholeCopy payload) s₂ := congrArg (fun g => eachCopy p a.frame.cls g s₂) hcopy
  have hs₄ : s₄ = s₃ := by
    dsimp only [s₄]
    cases hremoved with
    | inl h => rw [h]; rfl
    | inr h =>
      cases a.removed with
      | false => rfl
      | true => exact if_pos h
  rw [hcyc, hs₄, hs₃] at hu
  dsimp only [s₂] at hu
  rw [hs₁] at hu
  rw [← hu]
  exact hends

theorem rxBad_ends (hwire : t.sw.wire = []) (payload : List Byte) : RxEnds p a.frame.cls (fun _ _ => none) t (rxBad p a payload t) := by
  have hends := rxEnds_eachCopy (p := p) a.frame.cls (fun _ _ => none)
    (fun t => (endRx p t).sw.wire.map (fun x => if x.2.arriving = some p then
      (x.1, { x.2 with payload := padTo a.frame.payload.length payload, poison := true, arriving := none }) else x)) t hwf
  have hctl : (a.frame.cls == 4) = false := beq_eq_false_iff_ne.mpr (by omega)
  have hend : (endRx p t).sw = t.sw := modPort_sw _ _ _
  have hnowire : (endRx p t).sw.wire = [] := (congrArg SwState.wire hend).trans hwire
  generalize hu : rxBad p a payload t = u
  unfold rxBad at hu
  extract_lets s₁ sending s₂ s₃ s₄ at hu
  have hsending : sending = [] := congrArg (List.filter fun x => x.2.arriving == some p) hnowire
  have hs₂ : s₂ = endRx p t := by
    dsimp only [s₂]
    rw [hsending]
    rfl
  have hs₄ : s₄ = s₃ := by
    dsimp only [s₄]
    rw [hctl]
    rfl
  rw [hs₄] at hu
  dsimp only [s₃] at hu
  rw [hs₂] at hu
  rw [← hu]
  exact hends

end

/-! ## The whole frame, by the fate of its copy (R80, R104, R108) -/

/-- The port has noted the frame whose header has come. -/
def noted (p : Port) (g : Frame) (r : Route) (s : State) : State := modPort p (fun q => { q with rx := some (recordOf p g r) }) s

theorem noted_queueAt (r : Route) (k : Nat) : queueAt (noted p g r s) k = queueAt s k := queueAt_of_queues (congrArg SwState.queues (modPort_sw _ _ _)) k

theorem noted_wf (r : Route) (h : swf [] s.sw.queues = true) : swf [] (noted p g r s).sw.queues = true := by
  have hsw : (noted p g r s).sw = s.sw := modPort_sw _ _ _
  rw [hsw]
  exact h

theorem noted_rx (r : Route) : (portSt (noted p g r s) p).rx = some (recordOf p g r) := by rw [noted, portSt_modPort]

theorem noted_word (r : Route) (b : Nat) : SameWord b s (noted p g r s) :=
  ⟨congrArg (slook · b) (modPort_csr _ _ _), (modPort_cfg _ _ _).1, congrArg (·.ident) (modPort_cfg _ _ _).2⟩

theorem cutAt_noted (r : Route) (o : Output) (c : Nat) : cutAt (noted p g r s) o c = cutAt s o c := by cases p <;> rfl

theorem draining_noted (r : Route) : draining (noted p g r s) p = draining s p := by cases p <;> rfl

theorem ringFrameRx_up {bytes : List Byte} {part : RxPart} (h : (portSt s p).span = .up) : ringFrameRx p bytes rx part s =
    match part with
    | .header => rxHeader p bytes rx s
    | .rest => rxRest p bytes s
    | .whole => rxRest p (bytes.drop 32) (rxHeader p (bytes.take 32) rx s) := by
  unfold ringFrameRx
  rw [h]
  rfl

theorem ringFrameRx_header (hc : Comes p f s) (hg : g = received p rx s f) {r : Route} (hr : routeAt s (otherPort p) (waiting p g) = r)
    (hcounts : r.counts = []) : ringFrameRx p ((frameBytes f).take 32) rx .header s = admitRoute p r (noted p g r s) := by
  rw [ringFrameRx_up hc.up]
  refine (rxHeader_frame hc hg).trans ?_
  rw [hr]
  exact if_neg (by rw [hcounts, List.contains_nil, Bool.and_false]; exact Bool.false_ne_true)

theorem ringFrameRx_whole (hc : Comes p f s) (hg : g = received p rx s f) {r : Route} (hr : routeAt s (otherPort p) (waiting p g) = r)
    (hcounts : r.counts = []) :
    ringFrameRx p (frameBytes f) rx .whole s = rxRest p ((frameBytes f).drop 32) (admitRoute p r (noted p g r s)) := by
  rw [← ringFrameRx_header hc hg hr hcounts, ringFrameRx_up hc.up, ringFrameRx_up hc.up]

/-- A count and what follows it leaves the counter one higher. -/
theorem csr_after_bump {b : Nat} {t u : State} (h : SameWord b s t) (k : SameWord b (bump b t) u) : csr u b = csr (bump b s) b := by
  have hword : wordOr t b 0 = wordOr s b 0 := by rw [wordOr, wordOr, h.word, h.cfg]
  rw [csr, csr, k.word, slook_bump, slook_bump, hword]

/-- What the record of a frame says of it. -/
theorem recordOf_facts (hc : Comes p f s) (hg : g = received p rx s f) (r : Route) : (recordOf p g r).frame.cls = f.cls
    ∧ (recordOf p g r).frame.dst = f.dst ∧ (recordOf p g r).frame.payload.length = f.payload.length ∧ (recordOf p g r).cyc = false := by
  have hcls : (g.cls == 0) = false := beq_eq_false_iff_ne.mpr (by rw [hg]; exact Nat.one_le_iff_ne_zero.mp hc.cls.1)
  refine ⟨by rw [hg]; rfl, by rw [hg]; rfl, ?_, ?_⟩
  · rw [hg]
    exact length_zeros _
  · unfold recordOf
    dsimp only
    rw [hcls, Bool.and_false]

/-- The rest of a whole frame finds the record of its header. -/
theorem whole_rest (hc : Comes p f s) (hg : g = received p rx s f) {r : Route} (hr : routeAt s (otherPort p) (waiting p g) = r)
    (hcounts : r.counts = []) {t : State} (ht : admitRoute p r (noted p g r s) = t) (hring : t.ring = (noted p g r s).ring) :
    ringFrameRx p (frameBytes f) rx .whole s = if f.poison then rxBad p (recordOf p g r) f.payload (bump (portAddr p 0x30) t)
      else rxGood p (recordOf p g r) f.payload t := by
  obtain ⟨-, -, hlength, -⟩ := recordOf_facts hc hg r
  rw [ringFrameRx_whole hc hg hr hcounts, ht, rxRest_frame (by rw [portSt_of_ring p hring, noted_rx]) rfl hlength]

/-- What a verdict does with a frame that may be dropped (R108). -/
def admitBy (v : Admit) (o : Output) (f : Frame) (s : State) : State :=
  match v with
  | .yes => enqueue o f s
  | .tail => bump (0x60300 + outNo o * 0x20 + f.cls * 4) s
  | .pool => bump (0x60380 + outNo o * 0x20 + f.cls * 4) s

theorem admitOrDrop_eq (o : Output) (f : Frame) (s : State) : admitOrDrop o f s = admitBy (judge s o f) o f s := rfl

/-- The copy of a frame at the one output that its route names. -/
structure Single (p : Port) (g : Frame) (s : State) (o : Output) (w : Frame) : Prop where
  route : routeAt s (otherPort p) (waiting p g) = { outs := [(o, w)] }
  cls : w.cls = g.cls
  length : w.payload.length = g.payload.length
  arriving : w.arriving = some p

section
variable {o : Output} {w : Frame} (hc : Comes p f s) (hg : g = received p rx s f) (hw : Single p g s o w)
include hc hg hw

theorem admitRoute_judged : admitRoute p { outs := [(o, w)] } (noted p g { outs := [(o, w)] } s) =
    admitBy (judge s o g) o { w with eligible := cutAt s o w.cls } (noted p g { outs := [(o, w)] } s) := by
  have hcls : w.cls ≠ 0 := by
    rw [hw.cls, hg]
    exact Nat.one_le_iff_ne_zero.mp hc.cls.1
  have hsteady : draining (noted p g { outs := [(o, w)] } s) p = false := (draining_noted _).trans hc.steady
  have hjudge : judge (noted p g { outs := [(o, w)] } s) o { w with eligible := cutAt s o w.cls } = judge s o g :=
    judge_waiting o { w with eligible := cutAt s o w.cls } g (fun _ => some _) hw.cls hw.length
  rw [admitRoute_single (r := { outs := [(o, w)] }) rfl rfl hsteady hcls, cutAt_noted]
  rw [admitOrDrop_eq, hjudge]

/-- The copy stands at the tail until its rest comes. -/
theorem copy_queued (hjudge : judge s o g = .yes) {t : State} (ht : admitRoute p { outs := [(o, w)] } (noted p g { outs := [(o, w)] } s) = t) :
    t.ring = (noted p g { outs := [(o, w)] } s).ring ∧ swf [] t.sw.queues = true ∧ t.sw.wire = s.sw.wire ∧ (∀ b, b ≠ 0x60010 → SameWord b s t)
    ∧ (∃ cs, queueAt t (qKey o f.cls) = queueAt s (qKey o f.cls)
        ++ [{ w with eligible := cutAt s o f.cls, cut := cutAt s o f.cls, cells := cs }])
    ∧ (∀ k, k ≠ qKey o f.cls → queueAt t k = queueAt s k) := by
  have hwcls : w.cls = f.cls := by rw [hw.cls, hg]; rfl
  have hsw : (noted p g { outs := [(o, w)] } s).sw = s.sw := modPort_sw _ _ _
  rw [admitRoute_judged hc hg hw, hjudge] at ht
  dsimp only [admitBy] at ht
  obtain ⟨hring, -, hwire, hwf⟩ := enqueue_admitted o { w with eligible := cutAt s o w.cls } (noted p g { outs := [(o, w)] } s)
  obtain ⟨⟨cs, hqueue⟩, hothers⟩ := enqueue_queue o { w with eligible := cutAt s o w.cls } (noted_wf (p := p) (g := g) { outs := [(o, w)] } hc.wf)
  have hwords : ∀ b, b ≠ 0x60010 → SameWord b s (enqueue o { w with eligible := cutAt s o w.cls } (noted p g { outs := [(o, w)] } s)) :=
    fun b hb => (noted_word _ b).trans (sameWord_enqueue o _ hb)
  rw [ht] at hring hwire hwf hqueue hothers hwords
  rw [hsw] at hwire
  rw [queueOf_eq, queueOf_eq, noted_queueAt, cutAt_noted] at hqueue
  dsimp only at hqueue hothers
  rw [← hwcls]
  exact ⟨hring, hwf (noted_wf _ hc.wf), hwire, hwords, ⟨cs, hqueue⟩, fun k hk => (hothers k hk).trans (noted_queueAt _ k)⟩

/-- The copy is queued, its frame whole. -/
theorem whole_queued (hgood : f.poison = false) (hjudge : judge s o g = .yes) {u : State} (hu : ringFrameRx p (frameBytes f) rx .whole s = u) :
    (∃ cs, queueOf u o f.cls = queueOf s o f.cls
      ++ [{ w with payload := f.payload, arriving := none, eligible := true, cut := cutAt s o f.cls, cells := cs }])
    ∧ (∀ k, k ≠ qKey o f.cls → queueAt u k = queueAt s k) := by
  obtain ⟨hcls, -, -, hcyc⟩ := recordOf_facts hc hg { outs := [(o, w)] }
  generalize ht : admitRoute p { outs := [(o, w)] } (noted p g { outs := [(o, w)] } s) = t
  obtain ⟨hring, hwf, -, -, ⟨cs, hqueue⟩, hothers⟩ := copy_queued hc hg hw hjudge ht
  rw [whole_rest hc hg hw.route rfl ht hring, hgood, if_neg Bool.false_ne_true] at hu
  have hends := rxGood_ends (t := t) (p := p) hwf (by rw [hcls]; exact hc.cls) hcyc (.inl rfl) f.payload
  rw [hu, hcls] at hends
  refine ⟨⟨cs, ?_⟩, fun k hk => ?_⟩
  · rw [queueOf_eq, hends.copies, hqueue]
    exact filterMap_copyEnd_tail (hc.none _) hw.arriving
  · rw [hends.others k (by rw [hothers k hk]; exact hc.none k), hothers k hk]

/-- A copy whose queue is at its limit is counted, and leaves nothing. -/
theorem whole_tail (hgood : f.poison = false) (hjudge : judge s o g = .tail) {u : State} (hu : ringFrameRx p (frameBytes f) rx .whole s = u) :
    (∀ k, queueAt u k = queueAt s k)
    ∧ csr u (0x60300 + outNo o * 0x20 + f.cls * 4) = csr (bump (0x60300 + outNo o * 0x20 + f.cls * 4) s) (0x60300 + outNo o * 0x20 + f.cls * 4) := by
  obtain ⟨hcls, -, -, hcyc⟩ := recordOf_facts hc hg { outs := [(o, w)] }
  have hwcls : w.cls = f.cls := by rw [hw.cls, hg]; rfl
  have ht := admitRoute_judged hc hg hw
  rw [hjudge, hwcls] at ht
  dsimp only [admitBy] at ht
  generalize hb : 0x60300 + outNo o * 0x20 + f.cls * 4 = b at ht ⊢
  have hqueue : ∀ k, queueAt (bump b (noted p g { outs := [(o, w)] } s)) k = queueAt s k := fun k => noted_queueAt (p := p) (g := g) { outs := [(o, w)] } k
  rw [whole_rest hc hg hw.route rfl ht rfl, hgood, if_neg Bool.false_ne_true] at hu
  have hends := rxGood_ends (t := bump b (noted p g { outs := [(o, w)] } s)) (p := p) (noted_wf (p := p) (g := g) _ hc.wf)
    (by rw [hcls]; exact hc.cls) hcyc (.inl rfl) f.payload
  rw [hu] at hends
  exact ⟨fun k => by rw [hends.others k (by rw [hqueue]; exact hc.none k), hqueue], csr_after_bump (noted_word _ b) (hends.word b)⟩

/-- A poisoned frame whose copies, if any, wait at the tails is counted, and none of them stays. -/
theorem poison_ends (hbad : f.poison = true) {t u : State} (ht : admitRoute p { outs := [(o, w)] } (noted p g { outs := [(o, w)] } s) = t)
    (hring : t.ring = (noted p g { outs := [(o, w)] } s).ring) (hwf : swf [] t.sw.queues = true) (hwire : t.sw.wire = [])
    (hword : SameWord (portAddr p 0x30) s t)
    (hcopies : ∀ x, (queueAt t (qKey x f.cls)).filterMap (copyEnd p (fun _ _ => none) x) = queueAt s (qKey x f.cls))
    (hothers : ∀ k, (∀ x, k ≠ qKey x f.cls) → queueAt t k = queueAt s k) (hu : ringFrameRx p (frameBytes f) rx .whole s = u) :
    (∀ k, queueAt u k = queueAt s k) ∧ (portSt u p).rx = none
    ∧ csr u (portAddr p 0x30) = csr (bump (portAddr p 0x30) s) (portAddr p 0x30) := by
  obtain ⟨hcls, -, -, -⟩ := recordOf_facts hc hg { outs := [(o, w)] }
  rw [whole_rest hc hg hw.route rfl ht hring, hbad, if_pos rfl] at hu
  have hends := rxBad_ends (t := bump (portAddr p 0x30) t) (a := recordOf p g { outs := [(o, w)] }) (p := p) hwf (by rw [hcls]; exact hc.cls)
    hwire f.payload
  rw [hu, hcls] at hends
  refine ⟨fun k => ?_, hends.free, csr_after_bump hword (hends.word _)⟩
  by_cases hk : ∃ x, k = qKey x f.cls
  · obtain ⟨x, rfl⟩ := hk
    exact (hends.copies x).trans (hcopies x)
  · have hkept : queueAt (bump (portAddr p 0x30) t) k = queueAt s k := hothers k fun x hx => hk ⟨x, hx⟩
    rw [hends.others k (by rw [hkept]; exact hc.none k), hkept]

/-- A poisoned frame that was counted at its queue alone leaves no copy. -/
theorem poison_counted (hbad : f.poison = true) (hwire : s.sw.wire = []) {b : Nat} {u : State}
    (ht : admitRoute p { outs := [(o, w)] } (noted p g { outs := [(o, w)] } s) = bump b (noted p g { outs := [(o, w)] } s))
    (hb : portAddr p 0x30 ≠ b) (hu : ringFrameRx p (frameBytes f) rx .whole s = u) :
    (∀ k, queueAt u k = queueAt s k) ∧ (portSt u p).rx = none
    ∧ csr u (portAddr p 0x30) = csr (bump (portAddr p 0x30) s) (portAddr p 0x30) := by
  have hsw : (noted p g { outs := [(o, w)] } s).sw = s.sw := modPort_sw _ _ _
  have hqueue : ∀ k, queueAt (bump b (noted p g { outs := [(o, w)] } s)) k = queueAt s k := fun k => noted_queueAt (p := p) (g := g) { outs := [(o, w)] } k
  exact poison_ends hc hg hw hbad ht rfl (noted_wf (p := p) (g := g) { outs := [(o, w)] } hc.wf) ((congrArg SwState.wire hsw).trans hwire)
    ((noted_word _ _).trans (sameWord_bump _ hb)) (fun x => by rw [hqueue, filterMap_copyEnd (hc.none _)]) (fun k _ => hqueue k) hu

/-- A poisoned frame is counted, and none of its copies stays queued. -/
theorem whole_poison (hbad : f.poison = true) (hwire : s.sw.wire = []) {u : State} (hu : ringFrameRx p (frameBytes f) rx .whole s = u) :
    (∀ k, queueAt u k = queueAt s k) ∧ (portSt u p).rx = none
    ∧ csr u (portAddr p 0x30) = csr (bump (portAddr p 0x30) s) (portAddr p 0x30) := by
  have hport : ∀ b, 0x60000 ≤ b → portAddr p 0x30 ≠ b := fun b hb => by cases p <;> (unfold portAddr; dsimp only; omega)
  cases hjudge : judge s o g with
  | yes =>
    obtain ⟨hring, hwf, hw', hwords, ⟨cs, hqueue⟩, hothers⟩ := copy_queued hc hg hw hjudge rfl
    refine poison_ends hc hg hw hbad rfl hring hwf (hw'.trans hwire) (hwords _ (hport _ (by decide))) (fun x => ?_) (fun k hk => hothers k (hk o)) hu
    by_cases hx : x = o
    · subst hx
      rw [hqueue]
      have hends := filterMap_copyEnd_tail (g := fun _ _ => none) (o := x) (f := { w with eligible := cutAt s x f.cls, cut := cutAt s x f.cls, cells := cs })
        (hc.none (qKey x f.cls)) hw.arriving
      exact hends.trans (List.append_nil _)
    · rw [hothers _ (fun hk => hx (qKey_inj hk)), filterMap_copyEnd (hc.none _)]
  | tail => exact poison_counted hc hg hw hbad hwire (by rw [admitRoute_judged hc hg hw, hjudge, admitBy]) (hport _ (by omega)) hu
  | pool => exact poison_counted hc hg hw hbad hwire (by rw [admitRoute_judged hc hg hw, hjudge, admitBy]) (hport _ (by omega)) hu

end

/-! ## Where frames of the clauses go (R82, R105) -/

section
variable (hc : Comes p f s) (hg : g = received p rx s f)
include hc hg

theorem single_here (hsrc : f.src ≠ s.sw.current.node) (hhere : f.dst = s.sw.current.node) : Single p g s .local (waiting p g) := by
  subst hg
  exact ⟨routeAt_here hc.ring hc.straight hc.node hsrc hhere, rfl, length_zeros _, rfl⟩

theorem single_onward (hsrc : f.src ≠ s.sw.current.node) (hother : f.dst ≠ s.sw.current.node) (hone : f.dst ≠ 255) (hhops : f.hops < 511)
    (hstraight : turns s (otherPort p) = false) :
    Single p g s (outOf (otherPort p)) { waiting p g with hops := (waiting p g).hops + 1 } := by
  subst hg
  exact ⟨routeAt_onward hc.ring hc.straight hsrc hother hone hhops hstraight, rfl, length_zeros _, rfl⟩

/-- A multicast frame that has come round to its source ends (R82). -/
theorem whole_removed (hsrc : f.src = s.sw.current.node) (hmulti : f.dst = 255) (hgood : f.poison = false) {u : State}
    (hu : ringFrameRx p (frameBytes f) rx .whole s = u) : (∀ k, queueAt u k = queueAt s k) ∧ u.csr = s.csr ∧ (portSt u p).rx = none := by
  obtain ⟨hcls, hdst, -, hcyc⟩ := recordOf_facts hc hg { removed := true }
  have hroute : routeAt s (otherPort p) (waiting p g) = { removed := true } := by
    subst hg
    exact routeAt_removed hc.ring hc.straight hc.node (outNo_outOf p) hsrc
  rw [whole_rest hc hg hroute rfl (admitRoute_none rfl rfl) rfl, hgood, if_neg Bool.false_ne_true] at hu
  have hends := rxGood_ends (t := noted p g { removed := true } s) (p := p) (noted_wf (p := p) (g := g) _ hc.wf)
    (by rw [hcls]; exact hc.cls) hcyc (.inr (hdst.trans hmulti)) f.payload
  rw [hu] at hends
  exact ⟨fun k => by rw [hends.others k (by rw [noted_queueAt]; exact hc.none k), noted_queueAt], hends.csr.trans (modPort_csr _ _ _), hends.free⟩

end

end

/-! ## What an output sends (R110, R158, R165) -/

section
variable {s : State} {p : Port} {f : Frame} {t : List Frame} {c : Nat}

theorem headReady_head {o : Output} (h : queueOf s o c = f :: t) (he : f.eligible = true) : headReady (fun _ => true) s o c = some f := by
  unfold headReady
  rw [h]
  dsimp only
  rw [he]
  rfl

theorem headReady_empty {o : Output} {may : Frame → Bool} (h : queueOf s o c = []) : headReady may s o c = none := by
  unfold headReady
  simp only [h]

theorem pickClass_ctl {o : Output} (h : queueOf s o 4 = f :: t) (he : f.eligible = true) : pickClass o s = some (4, s) := by
  unfold pickClass pickWhere
  rw [headReady_head h he]
  exact if_pos rfl

theorem pickClass_cyc {o : Output} (hctl : queueOf s o 4 = []) (h : queueOf s o 0 = f :: t) (he : f.eligible = true)
    (hbudget : sget 0 s.sw.cycBytes (outNo o) + frameCharge f ≤ cycLimit s) : pickClass o s = some (0, s) := by
  have hover : cycOver s o = false := by
    unfold cycOver
    rw [h]
    exact decide_eq_false (Nat.not_lt.mpr hbudget)
  unfold pickClass pickWhere
  rw [headReady_head h he, headReady_empty hctl, hover]
  rfl

/-- An output whose span is UP, and that is not in the midst of a frame, sends the frame that it picks. -/
theorem outputFrameSend_picked {mac : Nat} (hup : (portSt s p).span = .up) (hfree : busyOut p s = false) (h : pickClass (outOf p) s = some (c, s)) :
    outputFrameSend (outOf p) mac s = sendFrame p c mac s := by
  have hisUp : isUp s p = true := by
    unfold isUp
    rw [hup]
    rfl
  unfold outputFrameSend
  cases p <;>
    · dsimp only [outOf] at h ⊢
      rw [hfree, if_neg Bool.false_ne_true, hisUp, if_pos rfl]
      simp only [h]

/-- A frame that carries no stamp request leaves as it stands, unless it is a beacon. -/
theorem sendFrame_plain {mac : Nat} (hq : queueOf s (outOf p) c = f :: t) (hstamp : f.stampId = 0) (hplain : ¬ (f.cls = 4 ∧ rd f.payload 0 1 = 2)) :
    sendFrame p c mac s = modSw (fun w => { w with wire := sins w.wire (portNo p) f }) (freeCells f (popQueue (outOf p) c s)) := by
  have hbeacon : beaconOut (txStamp s p mac) f s = f := by
    unfold beaconOut
    exact if_neg fun h => hplain ⟨h.1, h.2.1⟩
  have hkeep : (if (portSt s p).rev = 2 then { f with stampId := 0 } else f) = f := by
    split
    · rw [← hstamp]
    · rfl
  have hno : ∀ v, stampOut p (txStamp s p mac) f v = v := fun v => by
    unfold stampOut
    exact if_neg fun h => h.2 hstamp
  have hdequeue : dequeue (outOf p) c s = freeCells f (popQueue (outOf p) c s) := by
    unfold dequeue
    simp only [hq]
  unfold sendFrame
  simp only [hq]
  rw [hbeacon, hkeep, hno, hdequeue]

/-- What the sending of a frame leaves. -/
theorem frame_left {n : Nat} (hwf : swf [] s.sw.queues = true) (hq : queueOf s (outOf p) c = f :: t) {u : State}
    (hu : u = modSw (fun w => { w with wire := sins w.wire n f }) (freeCells f (popQueue (outOf p) c s))) :
    slook u.sw.wire n = some f ∧ queueOf u (outOf p) c = t ∧ (∀ k, k ≠ qKey (outOf p) c → queueAt u k = queueAt s k)
    ∧ { u with sw := s.sw } = s := by
  have hqueues : u.sw.queues = (setQueue (outOf p) c t s).sw.queues := by
    have hdrop : (queueOf s (outOf p) c).drop 1 = t := by rw [hq]; rfl
    rw [hu, ← hdrop]
    rfl
  refine ⟨?_, ?_, fun k hk => ?_, ?_⟩
  · rw [hu]
    exact slook_sins _ _ _
  · rw [queueOf_eq, queueAt_of_queues hqueues, queueAt_setQueue _ _ _ hwf]
  · rw [queueAt_of_queues hqueues, queueAt_setQueue_other _ hk]
  · have honly : { popQueue (outOf p) c s with sw := s.sw } = s := by
      unfold popQueue
      rfl
    rw [hu]
    generalize popQueue (outOf p) c s = v at honly ⊢
    exact honly

/-- The CYC bytes that an output has sent. -/
theorem popQueue_cycBytes {o : Output} (hq : queueOf s o c = f :: t) : (popQueue o c s).sw.cycBytes =
    if (if c = 0 then frameCharge f else 0) = 0 then s.sw.cycBytes
    else sput 0 s.sw.cycBytes (outNo o) (sget 0 s.sw.cycBytes (outNo o) + if c = 0 then frameCharge f else 0) := by
  unfold popQueue
  simp only [hq]
  rfl

theorem outNo_portNo (p : Port) : outNo (outOf p) = portNo p := by cases p <;> rfl

/-- CYC bytes count at the output that sends them (R110). -/
theorem popQueue_charged {o : Output} (hq : queueOf s o 0 = f :: t) :
    sget 0 (popQueue o 0 s).sw.cycBytes (outNo o) = sget 0 s.sw.cycBytes (outNo o) + frameCharge f := by
  rw [popQueue_cycBytes hq, if_pos rfl]
  split
  next h => rw [h, Nat.add_zero]
  next h => exact sget_sput_ne _ _ _ _ (by omega)

theorem outputFrameSend_idle {o : Output} {mac : Nat} (h : o = .local ∨ o = .pcie ∨ (∀ p, outOf p = o → (portSt s p).span = .adminDown)) :
    outputFrameSend o mac s = s := by
  have hport : ∀ p : Port, (portSt s p).span = .adminDown → outputFrameSend (outOf p) mac s = s := by
    intro p hp
    have hup : isUp s p = false := by
      unfold isUp
      rw [hp]
      rfl
    unfold outputFrameSend
    cases p <;>
      · dsimp only [outOf]
        split
        · rfl
        · rw [hup, if_neg Bool.false_ne_true, hp]
          rfl
  rcases h with rfl | rfl | h
  · rfl
  · rfl
  · match o, h with
    | .east, h => exact hport .east (h .east rfl)
    | .west, h => exact hport .west (h .west rfl)
    | .local, _ => rfl
    | .pcie, _ => rfl

end

/-! ## The obligation -/

/-- Settles O40: a header fixes a frame's one copy, and its rest ends that copy; an output picks CTL, then CYC within its budget. -/
theorem framesOnTheWire : Obligations.FramesOnTheWire := by
  unfold Obligations.FramesOnTheWire
  refine ⟨?_, ?_, ?_, ?_, ?_⟩
  · intro p rx f g s hup hrx hsteady hwf hnone hcls hcls' hdst hsrc hgroup hhops hfrag hcycle hpayload hring hgen hstraight hnode hg
    have hc : Comes p f s := ⟨hup, hrx, hsteady, hwf, fun k => by rw [← Nat.zero_add k]; exact hnone .east k, ⟨hcls, hcls'⟩, hdst, hsrc, hgroup, hhops, hfrag, hcycle, hpayload,
      hring, hgen, hstraight, hnode⟩
    have hg : g = received p rx s f := hg
    refine ⟨fun hforeign hhere hgood => ?_, fun hforeign hother hone hgood hmax hstraight' hjudge => ⟨_, commit_goOn s _, ?_⟩,
      fun hown hmulti hgood => ⟨_, commit_goOn s _, ?_⟩, fun hbad hforeign hhere hwire => ⟨_, commit_goOn s _, ?_⟩⟩
    · have hw := single_here hc hg hforeign hhere
      refine ⟨fun hjudge => ⟨_, commit_goOn s _, ?_⟩, fun hjudge => ⟨_, commit_goOn s _, ?_⟩, fun hjudge => ⟨_, commit_goOn s _, ?_⟩⟩
      · obtain ⟨⟨cs, hqueue⟩, hothers⟩ := whole_queued hc hg hw hgood hjudge rfl
        refine ⟨⟨cs, ?_⟩, fun o c h => hothers (qKey o c) h⟩
        rw [hqueue, hg]
        rfl
      · obtain ⟨hqueues, hcount⟩ := whole_tail hc hg hw hgood hjudge rfl
        exact ⟨fun o c => hqueues (qKey o c), hcount⟩
      · generalize hu : ringFrameRx p ((frameBytes f).take 32) rx .header s = u
        rw [ringFrameRx_header hc hg hw.route rfl] at hu
        obtain ⟨-, -, -, -, ⟨cs, hqueue⟩, -⟩ := copy_queued hc hg hw hjudge hu
        refine ⟨_, hqueue, rfl, rfl, ?_, ?_⟩
        · rw [hg]
          rfl
        · rw [hg]
          exact length_zeros _
    · have hw := single_onward hc hg hforeign hother hone hmax hstraight'
      obtain ⟨⟨cs, hqueue⟩, hothers⟩ := whole_queued hc hg hw hgood hjudge rfl
      refine ⟨⟨cs, ?_⟩, fun o c h => hothers (qKey o c) h⟩
      rw [hqueue, hg]
      rfl
    · obtain ⟨hqueues, hcsr, hfree⟩ := whole_removed hc hg hown hmulti hgood rfl
      exact ⟨fun o c => hqueues (qKey o c), hcsr, hfree⟩
    · obtain ⟨hqueues, hfree, hcount⟩ := whole_poison hc hg (single_here hc hg hforeign hhere) hbad hwire rfl
      exact ⟨fun o c => hqueues (qKey o c), hfree, hcount⟩
  · intro p bytes rx part s hup hrx hpart hbad
    exact ⟨_, commit_goOn s _, ringFrameRx_bad hup hrx hpart hbad⟩
  · intro p bytes rx part s hdown
    exact ⟨_, commit_goOn s _, ringFrameRx_down hdown⟩
  · intro p mac f t s hup hbusy hwf he hstamp
    refine ⟨fun hq hplain => ⟨_, commit_goOn s _, ?_⟩, fun hctl hq hcls hbudget => ⟨_, commit_goOn s _, ?_⟩⟩
    · rw [outputFrameSend_picked hup hbusy (pickClass_ctl hq he), sendFrame_plain hq hstamp fun h => hplain h.2]
      obtain ⟨hwire, hqueue, hothers, honly⟩ := frame_left hwf hq rfl
      exact ⟨hwire, hqueue, fun o c h => hothers (qKey o c) h, popQueue_cycBytes hq, honly⟩
    · rw [← outNo_portNo] at hbudget
      rw [outputFrameSend_picked hup hbusy (pickClass_cyc hctl hq he hbudget), sendFrame_plain hq hstamp fun h => by omega]
      obtain ⟨hwire, hqueue, -, honly⟩ := frame_left hwf hq rfl
      refine ⟨hwire, hqueue, ?_, honly⟩
      rw [← outNo_portNo]
      exact popQueue_charged hq
  · intro o mac s h
    exact ⟨_, commit_goOn s _, outputFrameSend_idle h⟩

end Sys2Proof.Proofs
end

section
/-! CYC copies and streams at LOCAL: what the twin window, the output's choice and the hold-back window do (R110, R120, R132, R135, R281). -/

namespace Sys2Proof.Proofs

open Sys2Proof Sys2Proof.Machine Sys2Proof.Laws

/-! ## The choice of an output (R110) -/

/-- What a choice leaves alone: it turns the round robin, and counts. -/
structure Chosen (s t : State) : Prop where
  sent : Sent s t
  sw : ∃ d, t.sw = { s.sw with deficit := d }

theorem Chosen.refl (s : State) : Chosen s s := ⟨.refl s, s.sw.deficit, rfl⟩

theorem Chosen.trans {s t u : State} (h : Chosen s t) (k : Chosen t u) : Chosen s u := by
  obtain ⟨hsent, d, hd⟩ := h
  obtain ⟨hsent', e, he⟩ := k
  exact ⟨hsent.trans hsent', e, by rw [he, hd]⟩

theorem Chosen.queues {s t : State} (h : Chosen s t) : t.sw.queues = s.sw.queues := by
  obtain ⟨-, d, hd⟩ := h
  rw [hd]

theorem headReady_of_queues {s t : State} (h : t.sw.queues = s.sw.queues) (may : Frame → Bool) (o : Output) (c : Nat) :
    headReady may t o c = headReady may s o c := by
  unfold headReady queueOf
  rw [h]

theorem chosen_deficit (s : State) (d : SwState → Sparse Nat) : Chosen s (modSw (fun w => { w with deficit := d w }) s) :=
  ⟨⟨rfl, rfl, rfl⟩, d s.sw, rfl⟩

section
variable (may : Frame → Bool) (o : Output)

/-- A turn of the round robin ends at a class whose head may leave. -/
theorem drrPick_chosen (n : Nat) {s t : State} {c : Nat} (h : drrPick may o n s = some (c, t)) : (headReady may s o c).isSome ∧ Chosen s t := by
  induction n generalizing s with
  | zero => exact absurd h (by simp [drrPick])
  | succ n ih =>
    have hturn : ∀ v, Chosen s v → drrPick may o n v = some (c, t) → (headReady may s o c).isSome ∧ Chosen s t := fun v hv hpick => by
      obtain ⟨hready, hchosen⟩ := ih hpick
      exact ⟨by rw [← headReady_of_queues hv.queues]; exact hready, hv.trans hchosen⟩
    unfold drrPick at h
    extract_lets turn cl k d nx kn step at h
    have hstep : ∀ x, Chosen s (step x) := fun x => chosen_deficit s _
    split at h
    next f hf =>
      extract_lets cost at h
      split at h
      · exact hturn _ (hstep 0) h
      · split at h
        · obtain ⟨rfl, rfl⟩ := Prod.mk.inj (Option.some.inj h)
          exact ⟨by rw [hf]; rfl, chosen_deficit s _⟩
        · exact hturn _ (hstep d) h
    next => exact hturn _ (hstep 0) h

/-- The class chosen has a head that may leave. -/
theorem pickWhere_chosen {s t : State} {c : Nat} (h : pickWhere may o s = some (c, t)) : (headReady may s o c).isSome ∧ Chosen s t := by
  unfold pickWhere at h
  split at h
  next hctl =>
    obtain ⟨rfl, rfl⟩ := Prod.mk.inj (Option.some.inj h)
    exact ⟨hctl, .refl s⟩
  split at h
  next hcyc =>
    obtain ⟨rfl, rfl⟩ := Prod.mk.inj (Option.some.inj h)
    exact ⟨(Bool.and_eq_true_iff.mp hcyc).1, .refl s⟩
  split at h
  · exact absurd h (by simp)
  split at h
  next v hv =>
    obtain ⟨rfl, rfl⟩ := Prod.mk.inj (Option.some.inj h)
    obtain ⟨hready, hchosen⟩ := drrPick_chosen may o 64 hv
    exact ⟨hready, hchosen.trans ⟨sent_bump v (by decide), v.sw.deficit, rfl⟩⟩
  next => exact drrPick_chosen may o 64 h

end

/-- CYC within its budget leaves before every class but CTL. -/
theorem pickWhere_cyc {s : State} {f g : Frame} {t : List Frame} {may : Frame → Bool} (hctl : queueOf s .local 4 = [])
    (hready : headReady may s .local 0 = some g) (hq : queueOf s .local 0 = f :: t)
    (hbudget : sget 0 s.sw.cycBytes 2 + frameCharge f ≤ cycLimit s) : pickWhere may .local s = some (0, s) := by
  have hover : cycOver s .local = false := by
    unfold cycOver
    rw [hq]
    exact decide_eq_false (Nat.not_lt.mpr hbudget)
  unfold pickWhere
  rw [headReady_empty hctl, hready, hover]
  rfl

section
variable {s : State} {c : Nat} {k : Frame → State → State}

theorem localTake_chosen {x : State} {f : Frame} {t : List Frame} (h : pickWhere (fun g => !headWaits s g) .local s = some (c, x))
    (hq : queueOf s .local c = f :: t) : localTake c k s = k f (popQueue .local c x) := by
  have hx : queueOf x .local c = f :: t := by
    rw [queueOf_eq, queueAt_of_queues (pickWhere_chosen _ _ h).2.queues]
    exact hq
  unfold localTake
  simp only [h, if_true, hx]

/-- Where the head of the class may not leave, LOCAL hands nothing of it on. -/
theorem localTake_none (h : headReady (fun g => !headWaits s g) s .local c = none) : localTake c k s = s := by
  unfold localTake
  split
  next d t hpick =>
    refine if_neg fun hd => ?_
    have hready := (pickWhere_chosen _ _ hpick).1
    rw [hd, h] at hready
    exact Bool.false_ne_true hready
  next => rfl

end

/-! ## Frames of a stream (R132, R135) -/

section
variable {v : State} {f : Frame} {h : HoldBack} (hh : h = holdOf v f.src f.dst none f.cls) (hone : f.dst ≠ 255)
include hh hone

/-- A frame that comes in order, nothing held, is handed on and covered. -/
theorem holdBackRx_next (hseq : f.seq = h.expected) (hheld : h.held = []) :
    holdBackRx f v = ([.frame f], cover 1 { h with expected := h.expected + 1 } v) := by
  have hgroup : groupOf f = none := if_neg hone
  have hzero : (f.seq - h.expected).toNat = 0 := by rw [hseq, BitVec.sub_self]; rfl
  have hrelease : releaseHeld h.held.length { h with expected := h.expected + 1 } = ([], { h with expected := h.expected + 1 }) := by
    rw [hheld]
    rfl
  have hgap : gapFrom v { h with expected := h.expected + 1 } = { h with expected := h.expected + 1 } := by
    unfold gapFrom
    simp only [hheld]
  unfold holdBackRx
  rw [hgroup, ← hh]
  dsimp only
  rw [if_pos hzero, hrelease, hgap]
  rfl

/-- A frame behind a gap, nothing held yet, is held and acknowledged with the gap. -/
theorem holdBackRx_behind (hseq : f.seq ≠ h.expected) (hnear : (f.seq - h.expected).toNat < 1024) (hheld : h.held = []) :
    holdBackRx f v = ([], ackNow { h with held := [{ f with rxTick := tickNow v }], gapUp := v.time.up } 0 0 v) := by
  have hgroup : groupOf f = none := if_neg hone
  have hpos : (f.seq - h.expected).toNat ≠ 0 := fun hz => hseq (BitVec.sub_eq_iff_eq_add.mp (BitVec.eq_of_toNat_eq hz) |>.trans (BitVec.zero_add _))
  have hfirst : firstBehind h f.seq = true := by unfold firstBehind; rw [hheld]; rfl
  unfold holdBackRx
  rw [hgroup, ← hh]
  dsimp only
  rw [if_neg hpos, if_pos hnear, hfirst, hheld]
  rfl

/-- A frame that is not ahead of the window is a repeated one, or one too far ahead. -/
theorem holdBackRx_far (hfar : 1024 ≤ (f.seq - h.expected).toNat) : holdBackRx f v =
    if seqBefore f.seq h.expected then ([], ackNow h 0 0 (bump 0x5063C (freeCells f v))) else ([], bump 0x50640 (freeCells f v)) := by
  have hgroup : groupOf f = none := if_neg hone
  unfold holdBackRx
  rw [hgroup, ← hh]
  dsimp only
  rw [if_neg (by omega), if_neg (by omega)]

end

/-- LOCAL hands the head of the class that it chooses to the hold-back window. -/
theorem streamFrameRx_chosen {s x : State} {f : Frame} {t : List Frame} {c : Nat} (hc : c = 1 ∨ c = 2 ∨ c = 3)
    (h : pickWhere (fun g => !headWaits s g) .local s = some (c, x)) (hq : queueOf s .local c = f :: t) :
    streamFrameRx c s = deliverAll (holdBackRx f (popQueue .local c x)).1 (holdBackRx f (popQueue .local c x)).2 := by
  unfold streamFrameRx
  rw [if_pos hc, localTake_chosen h hq]

/-- A whole packet of one frame goes to its class's consumer. -/
theorem deliverAll_packet {w : State} {f : Frame} (hfirst : f.first = true) (hlast : f.last = true) (hdrain : isDrain f = false)
    (hreport : isReport f = false) (hitem : isItemFrame f = false) (hone : f.dst ≠ 255) : deliverAll [.frame f] w =
      if f.cls = 1 then ringPacket f.src f.payload (freeCells f w) else if f.cls = 2 then ringReply f.src f.payload (freeCells f w)
      else freeCells f w := by
  have hwhole : (isDrain { f with cells := [] } || isReport { f with cells := [] } || isItemFrame { f with cells := [] }) = false := by
    have hsame : (isDrain { f with cells := [] } || isReport { f with cells := [] } || isItemFrame { f with cells := [] })
        = (isDrain f || isReport f || isItemFrame f) := rfl
    rw [hsame, hdrain, hreport, hitem]
    rfl
  have hdeliver : deliverAll [.frame f] w = deliverWhole { f with cells := [] } (freeCells f w) := by
    have hboth : (f.first && f.last) = true := by rw [hfirst, hlast]; rfl
    unfold deliverAll
    rw [List.foldl_cons, List.foldl_nil]
    unfold deliverOne
    exact if_pos hboth
  rw [hdeliver]
  unfold deliverWhole
  rw [hwhole, if_neg Bool.false_ne_true]
  exact if_neg hone

/-! ## CYC copies (R120, R280, R281) -/

theorem slook_offSwitch (m : Sparse Word) {a : Nat} (ha : offSwitch a = true) : slook (m.filter (fun e => offSwitch e.1)) a = slook m a := by
  induction m with
  | nil => rfl
  | cons e l ih =>
    rw [List.filter_cons]
    by_cases he : e.1 = a
    · rw [he, if_pos ha]
      unfold slook
      rw [if_pos he, if_pos he]
    · have hskip : slook (e :: l) a = slook l a := if_neg he
      rw [hskip, ← ih]
      split
      · exact if_neg he
      · rfl

theorem Sent.mapH {s t : State} (h : Sent s t) : mapH t = mapH s := by
  have hcsr : t.csr.filter (fun e => offSwitch e.1) = s.csr.filter (fun e => offSwitch e.1) := congrArg State.csr h.view
  have hword : slook t.csr 0xF0000 = slook s.csr 0xF0000 := by
    rw [← slook_offSwitch t.csr (by decide), hcsr, slook_offSwitch s.csr (by decide)]
  unfold Machine.mapH wordOr
  rw [hword, view_cfgRegs h.view, h.maps]

theorem changeView_subs {s t : State} {v w : MapView} (h : v.subs = w.subs) (c : Change) : (changeView t v c).subs = (changeView s w c).subs := by
  cases c with
  | rules => exact h
  | subAdd _ _ _ x => exact congrArg (· ++ [x]) h
  | subRemove _ _ _ node loc => exact congrArg (List.filter fun x => !(x.node == node && x.local_ == loc)) h
  | config => rfl

section
variable {s t : State} (hmaps : t.maps = s.maps) (htime : t.time = s.time)
include hmaps htime

theorem cycleOf_same (f : Frame) : cycleOf f t = cycleOf f s := by
  unfold cycleOf cycleNow tickNow ringNs
  rw [htime, hmaps]

theorem cycSubs_same (f : Frame) : cycSubs f t = cycSubs f s := by
  have hview : ∀ (l : List Change) (v w : MapView), v.subs = w.subs → (l.foldl (changeView t) v).subs = (l.foldl (changeView s) w).subs := by
    intro l
    induction l with
    | nil => exact fun _ _ h => h
    | cons c l ih => exact fun v w h => ih _ _ (changeView_subs h c)
  have hnow : (nowView t).subs = (nowView s).subs := congrArg MapState.subs hmaps
  unfold cycSubs
  dsimp only
  rw [cycleOf_same hmaps htime, hmaps]
  split
  · rfl
  · unfold viewAt
    rw [hmaps]
    exact hview _ _ _ hnow

theorem cycUsed_same (f : Frame) : cycUsed f t = cycUsed f s := by
  unfold cycUsed
  rw [cycSubs_same hmaps htime]

end

/-- What an accepted frame gives the map island (R281). -/
theorem cycTake_maps (f : Frame) (s : State) : (cycTake f s).maps =
    if cycUsed f s = true ∧ f.rxTick < cycleOf f s * s.maps.n + mapH s then
      { s.maps with cycRx := s.maps.cycRx ++ [⟨f.src, cycGroup f, cycleOf f s, pubFirst f, pubEntries f, f.rxTick⟩] }
    else s.maps := by
  unfold cycTake
  dsimp only
  cases cycUsed f s with
  | false => rfl
  | true =>
    rw [Bool.not_true, if_neg Bool.false_ne_true]
    by_cases htime : f.rxTick < cycleOf f s * s.maps.n + mapH s
    · refine (congrArg State.maps (if_pos htime)).trans (Eq.trans ?_ (if_pos ⟨rfl, htime⟩).symm)
      rfl
    · refine (congrArg State.maps (if_neg htime)).trans (Eq.trans ?_ (if_neg fun h => htime h.2).symm)
      split <;> rfl

theorem cycTake_sw (f : Frame) (s : State) : (cycTake f s).sw = s.sw := by
  unfold cycTake
  dsimp only
  split
  · rfl
  split
  · rfl
  split <;> rfl

theorem enqueue_sw (o : Output) (f : Frame) (s : State) :
    ∃ q n l, (enqueue o f s).sw = { s.sw with queues := q, nextCell := n, freed := l } := by
  unfold enqueue
  dsimp only
  rw [notePoolMin_sw]
  exact ⟨_, _, _, rfl⟩

/-- The one CYC copy before the twin window is judged, then LOCAL chooses. -/
theorem cycFrameRx_one {s v : State} {f : Frame} (hcyc : s.sw.cycIn = [f]) (hv : v = modSw (fun w => { w with cycIn := [] }) s) :
    cycFrameRx s = localTake 0 (fun f s => cycTake f (freeCells f s)) (cycCopy f v) := by
  unfold cycFrameRx
  rw [hv]
  simp only [hcyc]

section
variable {s : State} {k : Frame → State → State}

theorem localTake_empty (h : ∀ c, queueOf s .local c = []) (c : Nat) : localTake c k s = s := localTake_none (headReady_empty (h c))

/-- The copies of a SEQ that the window has seen, or is past, are counted. -/
theorem cycCopy_counted {v : State} {f : Frame} (hcompare : comparing v = false) :
    (twinCase (twinOf v f.src (cycGroup f)) f.seq = .old → cycCopy f v = bump 0x60424 v)
    ∧ (twinCase (twinOf v f.src (cycGroup f)) f.seq = .second → cycCopy f v = bump 0x60420 v) := by
  refine ⟨fun h => ?_, fun h => ?_⟩
  · unfold cycCopy
    simp only [h]
  · unfold cycCopy
    simp only [h, hcompare]
    cases twinOf v f.src (cycGroup f) <;> rfl

/-- The first copy of a SEQ moves the window and meets the LOCAL queue. -/
theorem cycCopy_first {v : State} {f : Frame} (hcompare : comparing v = false) (hdrain : isDrain f = false)
    (h : twinCase (twinOf v f.src (cycGroup f)) f.seq = .ahead ∨ twinCase (twinOf v f.src (cycGroup f)) f.seq = .fresh) :
    cycCopy f v = admitOrDrop .local f (putTwin (twinAfter (twinOf v f.src (cycGroup f)) f.src (cycGroup f) f.seq) v) := by
  unfold cycCopy
  rcases h with h | h <;>
    · simp only [h, hcompare, hdrain, Bool.false_and]
      rfl

end

/-! ## A copy that is queued and handed on (R110, R281) -/

/-- What LOCAL's choice makes of the map island once a CYC frame alone stands in its queues. -/
theorem localTake_cyc {z : State} {f : Frame} (hq : queueOf z .local 0 = [f]) (he : f.eligible = true) (hcls : f.cls = 0) {u : State}
    (hu : localTake 0 (fun f s => cycTake f (freeCells f s)) z = u) :
    u.sw.twins = z.sw.twins ∧ u.sw.cycIn = z.sw.cycIn ∧ (cycUsed f z = false → u.maps = z.maps)
    ∧ (queueOf z .local 4 = [] → sget 0 z.sw.cycBytes 2 + frameCharge f ≤ cycLimit z → u.maps = (cycTake f z).maps) := by
  have hmay : headReady (fun g => !headWaits z g) z .local 0 = some f := by
    have hwaits : headWaits z f = false := by unfold headWaits; rw [hcls]; rfl
    unfold headReady
    simp only [hq, he, hwaits, Bool.not_false, Bool.and_self, if_true]
  have htaken : ∀ x, Chosen z x → (cycTake f (freeCells f (popQueue .local 0 x))).sw.twins = z.sw.twins
      ∧ (cycTake f (freeCells f (popQueue .local 0 x))).sw.cycIn = z.sw.cycIn
      ∧ (cycTake f (freeCells f (popQueue .local 0 x))).maps = (cycTake f z).maps := by
    intro x hx
    have hsent : Sent z (freeCells f (popQueue .local 0 x)) := by
      refine hx.sent.trans ?_
      unfold popQueue
      exact ⟨rfl, rfl, rfl⟩
    obtain ⟨d, hd⟩ := hx.sw
    refine ⟨?_, ?_, ?_⟩
    · have htwins : (freeCells f (popQueue .local 0 x)).sw.twins = x.sw.twins := rfl
      rw [cycTake_sw, htwins, hd]
    · have hcyc : (freeCells f (popQueue .local 0 x)).sw.cycIn = x.sw.cycIn := rfl
      rw [cycTake_sw, hcyc, hd]
    · rw [cycTake_maps, cycTake_maps, cycUsed_same hsent.maps hsent.time, cycleOf_same hsent.maps hsent.time, hsent.mapH, hsent.maps]
  have hunused : cycUsed f z = false → (cycTake f z).maps = z.maps := fun h => by rw [cycTake_maps, h]; rfl
  cases hpick : pickWhere (fun g => !headWaits z g) .local z with
  | none =>
    have hz : u = z := by
      rw [← hu]
      unfold localTake
      simp only [hpick]
    refine ⟨by rw [hz], by rw [hz], fun _ => by rw [hz], fun hctl hbudget => absurd hpick ?_⟩
    rw [pickWhere_cyc hctl hmay hq hbudget]
    exact Option.some_ne_none _
  | some x =>
    obtain ⟨c, x⟩ := x
    by_cases hc : c = 0
    · subst hc
      rw [localTake_chosen hpick hq] at hu
      obtain ⟨htwins, hcyc, hmaps⟩ := htaken x (pickWhere_chosen _ _ hpick).2
      rw [← hu]
      exact ⟨htwins, hcyc, fun h => hmaps.trans (hunused h), fun _ _ => hmaps⟩
    · have hz : u = z := by
        rw [← hu]
        unfold localTake
        simp only [hpick]
        exact if_neg hc
      refine ⟨by rw [hz], by rw [hz], fun _ => by rw [hz], fun hctl hbudget => absurd hpick ?_⟩
      rw [pickWhere_cyc hctl hmay hq hbudget]
      exact fun h => hc (congrArg Prod.fst (Option.some.inj h)).symm

/-- The first copy of a SEQ (R108, R120, R281). -/
theorem cycFrameRx_first {s v : State} {f : Frame} (hcyc : s.sw.cycIn = [f]) (hempty : ∀ c, queueOf s .local c = [])
    (hwf : swf [] s.sw.queues = true) (hcls : f.cls = 0) (hdrain : isDrain f = false) (he : f.eligible = true)
    (hv : v = modSw (fun w => { w with cycIn := [] }) s) (hcompare : comparing s = false)
    (h : twinCase (twinOf s f.src (cycGroup f)) f.seq = .ahead ∨ twinCase (twinOf s f.src (cycGroup f)) f.seq = .fresh) {u : State}
    (hu : cycFrameRx s = u) :
    u.sw.twins = (putTwin (twinAfter (twinOf s f.src (cycGroup f)) f.src (cycGroup f) f.seq) v).sw.twins ∧ u.sw.cycIn = []
    ∧ (cycUsed f s = false → u.maps = s.maps)
    ∧ (judge s .local f = .yes → sget 0 s.sw.cycBytes 2 + frameCharge f ≤ cycLimit s → u.maps = (cycTake f s).maps)
    ∧ (judge s .local f ≠ .yes → u.maps = s.maps) := by
  have htwin : twinOf v f.src (cycGroup f) = twinOf s f.src (cycGroup f) := by rw [hv]; rfl
  have hcompare' : comparing v = false := by rw [hv]; exact hcompare
  rw [cycFrameRx_one hcyc hv, cycCopy_first hcompare' hdrain (by rw [htwin]; exact h), htwin] at hu
  generalize hy : putTwin (twinAfter (twinOf s f.src (cycGroup f)) f.src (cycGroup f) f.seq) v = y at hu ⊢
  have hsw : ∃ tw, y.sw = { s.sw with twins := tw, cycIn := [] } ∧ { y with sw := s.sw } = s := by
    rw [← hy, hv]
    exact ⟨_, rfl, rfl⟩
  obtain ⟨tw, hsw, honly⟩ := hsw
  have hqueues : y.sw.queues = s.sw.queues := by rw [hsw]
  have hlocal : ∀ c, queueOf y .local c = [] := fun c => by
    rw [queueOf_eq, queueAt_of_queues hqueues]
    exact hempty c
  have hsent : Sent s y := by
    rw [← hy, hv]
    exact ⟨rfl, rfl, rfl⟩
  have hjudge : judge y .local f = judge s .local f := by
    rw [← hy, hv]
    rfl
  rw [admitOrDrop_eq, hjudge] at hu
  have hcounted : ∀ a, localTake 0 (fun f s => cycTake f (freeCells f s)) (bump a y) = u → u = bump a y := fun a ha => by
    rw [← ha]
    exact localTake_empty (s := bump a y) (fun c => hlocal c) 0
  have hdropped : ∀ a, u = bump a y → u.sw.twins = y.sw.twins ∧ u.sw.cycIn = [] ∧ u.maps = s.maps := fun a ha => by
    rw [ha]
    exact ⟨rfl, congrArg SwState.cycIn hsw, hsent.maps⟩
  cases hverdict : judge s .local f with
  | yes =>
    rw [hverdict] at hu
    dsimp only [admitBy] at hu
    obtain ⟨⟨cs, hqueue⟩, hothers⟩ := enqueue_queue (s := y) .local f (by rw [hqueues]; exact hwf)
    obtain ⟨q, n, l, hz⟩ := enqueue_sw .local f y
    have hsent' : Sent s (enqueue .local f y) := hsent.trans (sent_enqueue y .local f)
    rw [hcls, hlocal 0, List.nil_append] at hqueue
    obtain ⟨htwins, hcycIn, hunused, htaken⟩ := localTake_cyc (f := { f with cls := 0, cut := cutAt y .local 0, cells := cs }) hqueue he rfl hu
    have hsame : ∀ g : Frame, cycUsed g (enqueue .local f y) = cycUsed g s := fun g => cycUsed_same hsent'.maps hsent'.time g
    have hmaps : (cycTake { f with cut := cutAt y .local 0, cells := cs } (enqueue .local f y)).maps = (cycTake f s).maps := by
      rw [cycTake_maps, cycTake_maps, hsame, cycleOf_same hsent'.maps hsent'.time, hsent'.mapH, hsent'.maps]
      rfl
    refine ⟨?_, ?_, fun h => (hunused ((hsame _).trans h)).trans hsent'.maps, fun _ hbudget => ?_, fun h => absurd rfl h⟩
    · rw [htwins, hz]
    · rw [hcycIn, hz]
      exact congrArg SwState.cycIn hsw
    · refine (htaken ?_ ?_).trans hmaps
      · exact (hothers (qKey .local 4) (by rw [hcls]; decide)).trans (hlocal 4)
      · have hbytes : (enqueue .local f y).sw.cycBytes = s.sw.cycBytes := by rw [hz, hsw]
        have hlimit : cycLimit (enqueue .local f y) = cycLimit s := by unfold cycLimit; rw [hsent'.ring, hsent'.maps]
        rw [hbytes, hlimit]
        exact hbudget
  | tail =>
    rw [hverdict] at hu
    obtain ⟨htwins, hcycIn, hmaps⟩ := hdropped _ (hcounted _ hu)
    exact ⟨htwins, hcycIn, fun _ => hmaps, fun h => absurd h (by decide), fun _ => hmaps⟩
  | pool =>
    rw [hverdict] at hu
    obtain ⟨htwins, hcycIn, hmaps⟩ := hdropped _ (hcounted _ hu)
    exact ⟨htwins, hcycIn, fun _ => hmaps, fun h => absurd h (by decide), fun _ => hmaps⟩

/-! ## The obligation -/

/-- Settles O41: the twin window and LOCAL's choice fix what a CYC copy does, the hold-back window what a frame of a stream does. -/
theorem streamFrames : Obligations.StreamFrames := by
  unfold Obligations.StreamFrames
  refine ⟨?_, ?_, ?_⟩
  · intro f s v hcyc hempty hwf hcls hdrain he hv hcompare
    have htwin : twinOf v f.src (cycGroup f) = twinOf s f.src (cycGroup f) := by rw [hv]; rfl
    have hcompare' : comparing v = false := by rw [hv]; exact hcompare
    have hlocal : ∀ a c, queueOf (bump a v) .local c = [] := fun a c => by rw [hv]; exact hempty c
    obtain ⟨hold, hsecond⟩ := cycCopy_counted (f := f) hcompare'
    refine ⟨fun h => ⟨_, commit_goOn s _, ?_⟩, fun h => ⟨_, commit_goOn s _, ?_⟩, fun h => ⟨_, commit_goOn s _, ?_⟩⟩
    · rw [cycFrameRx_one hcyc hv, hold (by rw [htwin]; exact h), localTake_empty (hlocal _)]
    · rw [cycFrameRx_one hcyc hv, hsecond (by rw [htwin]; exact h), localTake_empty (hlocal _)]
    · obtain ⟨htwins, hcycIn, hunused, htaken, hdropped⟩ := cycFrameRx_first hcyc hempty hwf hcls hdrain he hv hcompare h rfl
      refine ⟨htwins, hcycIn, hunused, fun hjudge hbudget hused => ⟨fun hearly => ?_, fun hlate => ?_⟩, hdropped⟩
      · exact (htaken hjudge hbudget).trans ((cycTake_maps f s).trans (if_pos ⟨hused, hearly⟩))
      · exact (htaken hjudge hbudget).trans ((cycTake_maps f s).trans (if_neg fun h => absurd h.2 (Nat.not_lt.mpr hlate)))
  · intro cls f t h s x v hcls hq hf hone hpick hv hh
    have hval : cls.val = 1 ∨ cls.val = 2 ∨ cls.val = 3 := by rcases hcls with rfl | rfl | rfl <;> decide
    have hrx := streamFrameRx_chosen hval hpick hq
    rw [← hv] at hrx
    refine ⟨fun hseq hheld hfirst hlast hdrain hreport hitem => ⟨_, commit_goOn s _, ?_⟩, fun hseq hnear hheld => ⟨_, commit_goOn s _, ?_⟩,
      fun hfar hbefore => ⟨_, commit_goOn s _, ?_⟩, fun hfar hbefore => ⟨_, commit_goOn s _, ?_⟩⟩
    · rw [hrx, holdBackRx_next hh hone hseq hheld, deliverAll_packet hfirst hlast hdrain hreport hitem hone, hf]
      rcases hcls with rfl | rfl | rfl <;> rfl
    · rw [hrx, holdBackRx_behind hh hone hseq hnear hheld]
      rfl
    · rw [hrx, holdBackRx_far hh hone hfar, if_pos hbefore]
      rfl
    · rw [hrx, holdBackRx_far hh hone hfar, hbefore]
      rfl
  · intro f t s hq hcls hdrain hserves
    refine ⟨_, commit_goOn s _, ?_⟩
    have hwaits : headReady (fun g => !headWaits s g) s .local 1 = none := by
      have hwait : headWaits s f = true := by unfold headWaits; rw [hcls, hdrain, hserves]; rfl
      unfold headReady
      simp only [hq, hwait, Bool.not_true, Bool.and_false]
      rfl
    exact (if_pos (.inl rfl)).trans (localTake_none hwaits)

end Sys2Proof.Proofs
end

section
/-! What ends of items, halts of engines and completions leave alone: everything that no channel, engine, line, register or reply holds
(R42, R185, R190, R337, R342). -/

namespace Sys2Proof.Proofs

open Sys2Proof Sys2Proof.Machine Sys2Proof.Laws

/-- The commands in flight, by session and tag. -/
def keys (s : State) : List (Nat × Tag) := s.cmd.inflight.map (fun x => (x.session, x.tag))

/-- What stands aside of channels, engines, lines, faults and registers. -/
structure Aside where
  hub   : HubState
  reset : ResetState
  power : PowerState
  time  : TimeState
  maps  : MapState
  ring  : RingState
  sw    : SwState
  keys  : List (Nat × Tag)

def aside (s : State) : Aside := ⟨s.hub, s.reset_, s.power, s.time, s.maps, s.ring, s.sw, keys s⟩

section
variable {s t : State} (h : aside t = aside s)
include h

theorem hub_of_aside : t.hub = s.hub := congrArg Aside.hub h
theorem power_of_aside : t.power = s.power := congrArg Aside.power h
theorem maps_of_aside : t.maps = s.maps := congrArg Aside.maps h
theorem ring_of_aside : t.ring = s.ring := congrArg Aside.ring h
theorem sw_of_aside : t.sw = s.sw := congrArg Aside.sw h
theorem keys_of_aside : Proofs.keys t = Proofs.keys s := congrArg Aside.keys h

end

section
variable (s : State)

theorem aside_onlyIf {f : State → State} (c : Bool) (h : aside (f s) = aside s) : aside (onlyIf c f s) = aside s := by
  cases c
  · rfl
  · exact h

theorem aside_foldl {α : Type} (f : State → α → State) (h : ∀ s a, aside (f s a) = aside s) (l : List α) : aside (l.foldl f s) = aside s :=
  foldl_keep aside f h l s

theorem aside_detect (c : Nat) (r : Report) : aside (detect c r s) = aside s := by
  unfold aside keys
  rw [detect_hub, detect_reset_, detect_power, detect_time, detect_maps, detect_ring, detect_sw, detect_cmd]

theorem aside_complete (se : Nat) (tag : Tag) (st : Status) (res : List Byte) : aside (complete se tag st res s) = aside s := by
  have hkeys : keys (complete se tag st res s) = keys s := by
    unfold keys complete modCmd
    dsimp only
    rw [List.map_map]
    refine List.map_congr_left fun x _ => ?_
    dsimp only [Function.comp]
    split
    · split <;> rfl
    · rfl
  unfold aside
  rw [hkeys]
  rfl

/-! ## Ends of items (R185, R188, R202) -/

theorem aside_flushReport (ch : Nat) : aside (flushReport ch s) = aside s := by
  unfold flushReport
  split
  · split
    · rfl
    · rfl
  · rfl

theorem aside_report (ch : Nat) (st : Status) (seq : Nat) : aside (report ch st seq s) = aside s :=
  aside_onlyIf s _ (aside_flushReport s ch)

theorem aside_answerItem (i : TxItem) (st : Status) (res : List Byte) : aside (answerItem i st res s) = aside s := by
  unfold answerItem
  split
  · exact aside_complete s _ _ _ _
  · exact aside_complete s _ _ _ _
  · rfl

theorem aside_failItem (ch : Nat) (i : TxItem) (st : Status) : aside (failItem ch i st s) = aside s := by
  unfold failItem
  extract_lets t u
  have ht : aside t = aside s := by
    dsimp only [t]
    split <;> rfl
  have hu : aside u = aside t := by
    dsimp only [u]
    split
    · exact aside_detect t _ _
    · rfl
  exact (aside_answerItem _ _ _ _).trans ((aside_report u _ _ _).trans (hu.trans ht))

theorem aside_failAll (ch : Nat) (is : List TxItem) (st : Status) : aside (failAll ch is st s) = aside s := by
  unfold failAll
  refine aside_foldl s _ (fun v i => ?_) _
  exact aside_failItem _ _ _ _

theorem aside_failOffer (ch : Nat) (i : TxItem) (st : Status) : aside (failOffer ch i st s) = aside s := aside_failItem _ _ _ _

theorem aside_cutPush (ch : Nat) : aside (cutPush ch s) = aside s := by
  unfold cutPush
  extract_lets ws i
  split
  · rfl
  · exact aside_failOffer _ _ _ _

theorem aside_completes {α : Type} (se : α → Nat) (tag : α → Tag) (st : Status) (res : List Byte) (l : List α) :
    aside (l.foldl (fun v x => complete (se x) (tag x) st res v) s) = aside s :=
  aside_foldl s _ (fun v _ => aside_complete v _ _ _ _) l

theorem aside_abortWaiters (ch : Nat) : aside (abortWaiters ch s) = aside s := by
  unfold abortWaiters
  extract_lets c v1 v2 v3 v4 v5 v6 v7
  have h1 : aside v1 = aside s := by
    dsimp only [v1]
    split
    · exact aside_complete s _ _ _ _
    · rfl
  have h2 : aside v2 = aside v1 := by
    dsimp only [v2]
    split
    · exact aside_complete v1 _ _ _ _
    · rfl
  have h3 : aside v3 = aside v2 := aside_foldl v2 _ (fun v _ => aside_failOffer v _ _ _) _
  have h4 : aside v4 = aside v3 := aside_completes v3 _ _ _ _ _
  have h5 : aside v5 = aside v4 := by
    dsimp only [v5]
    split
    · split
      · exact aside_complete v4 _ _ _ _
      · rfl
    · rfl
  have h6 : aside v6 = aside v5 := aside_completes v5 _ _ _ _ _
  have h7 : aside v7 = aside v6 := aside_completes v6 _ _ _ _ _
  exact h7.trans (h6.trans (h5.trans (h4.trans (h3.trans (h2.trans h1)))))

/-! ## Engines (R337, R341) -/

theorem aside_drivePins (e : Nat) : aside (drivePins e s) = aside s := by
  unfold drivePins
  refine aside_foldl s _ (fun v p => ?_) _
  dsimp only
  split <;> rfl

theorem aside_haltPins (e : Nat) : aside (haltPins e s) = aside s := aside_drivePins _ e

theorem aside_haltNow (e : Nat) : aside (haltNow e s) = aside s := by
  unfold haltNow
  extract_lets x ab v
  exact (aside_completes _ _ _ _ _ _).trans (aside_haltPins v e)

end

end Sys2Proof.Proofs
end

section
/-! What the work of a cycle leaves alone: the hub's state, its reset and power, the commands in flight and the running cycle (R271 to R301). -/

namespace Sys2Proof.Proofs

open Sys2Proof Sys2Proof.Machine Sys2Proof.Laws

/-! ## The core of the hub -/

/-- What no rule, source or target of a cycle changes: the hub's state, its reset and power, whether ring time is locked, the cycle
with its phase, and the commands in flight by session and tag. -/
structure Core where
  hub    : HubState
  reset  : ResetState
  power  : PowerState
  locked : Bool
  cycle  : Nat
  phase  : CyclePhase
  keys   : List (Nat × Tag)

def core (s : State) : Core := ⟨s.hub, s.reset_, s.power, s.time.locked, s.maps.cycle, s.maps.phase, keys s⟩

theorem core_of_aside {s t : State} (h : aside t = aside s) : core t = core s :=
  congrArg (fun a : Aside => (⟨a.hub, a.reset, a.power, a.time.locked, a.maps.cycle, a.maps.phase, a.keys⟩ : Core)) h

/-- The core whatever the phase. -/
def steady (s : State) : Core := { core s with phase := .idle }

theorem steady_of_core {s t : State} (h : core t = core s) : steady t = steady s := congrArg (fun c : Core => { c with phase := .idle }) h

theorem hub_of_steady {s t : State} (h : steady t = steady s) : t.hub = s.hub := congrArg Core.hub h
theorem power_of_steady {s t : State} (h : steady t = steady s) : t.power = s.power := congrArg Core.power h
theorem keys_of_steady {s t : State} (h : steady t = steady s) : keys t = keys s := congrArg Core.keys h

/-- Sending leaves the core. -/
theorem Sent.core {s t : State} (h : Sent s t) : core t = core s := by
  unfold Proofs.core keys
  rw [h.hub, h.reset, h.power, h.time, h.maps, h.cmd]

section
variable (s : State)

@[simp] theorem core_bumpBy (a n : Nat) : core (bumpBy a n s) = core s := rfl
@[simp] theorem core_bump (a : Nat) : core (bump a s) = core s := rfl
@[simp] theorem core_csrPut (a w : Nat) : core (csrPut a w s) = core s := rfl
@[simp] theorem core_modChan (ch : Nat) (f : Chan → Chan) : core (modChan ch f s) = core s := rfl
@[simp] theorem core_modEngine (e : Nat) (f : Engine → Engine) : core (modEngine e f s) = core s := rfl
@[simp] theorem core_modLine (l : Nat) (f : Line → Line) : core (modLine l f s) = core s := rfl
@[simp] theorem core_modSw (f : SwState → SwState) : core (modSw f s) = core s := rfl
@[simp] theorem core_modFaults (f : FaultState → FaultState) : core (modFaults f s) = core s := rfl
@[simp] theorem core_modSrc (c : Nat) (f : Source → Source) : core (modSrc c f s) = core s := rfl

theorem core_onlyIf {f : State → State} (c : Bool) (h : core (f s) = core s) : core (onlyIf c f s) = core s := by
  cases c
  · rfl
  · exact h

theorem core_foldl {α : Type} (f : State → α → State) (h : ∀ s a, core (f s a) = core s) (l : List α) : core (l.foldl f s) = core s :=
  foldl_keep core f h l s

theorem core_forEach (l : List Nat) (f : Nat → State → State) (h : ∀ i s, core (f i s) = core s) : core (forEach l f s) = core s :=
  core_foldl s _ (fun v i => h i v) l

@[simp] theorem core_detect (c : Nat) (r : Report) : core (detect c r s) = core s := core_of_aside (aside_detect s c r)

@[simp] theorem core_unitFault (c k n : Nat) : core (unitFault c k n s) = core s := core_detect s c _

@[simp] theorem core_complete (se : Nat) (tag : Tag) (st : Status) (res : List Byte) : core (complete se tag st res s) = core s :=
  core_of_aside (aside_complete s se tag st res)

/-! ## Slots (R265, R294) -/

@[simp] theorem core_putSlot (x : Nat) (e : DWord) : core (putSlot x e s) = core s := rfl

@[simp] theorem core_writeSlot (x v st : Nat) : core (writeSlot x v st s) = core s := core_onlyIf s _ rfl

@[simp] theorem core_faultSlot (x : Nat) : core (faultSlot x s) = core s := rfl

@[simp] theorem core_writeWords (x lo hi st : Nat) : core (writeWords x lo hi st s) = core s := by
  unfold writeWords
  dsimp only
  split
  · rw [core_writeSlot, core_writeSlot]
  · rw [core_writeSlot]

@[simp] theorem core_writeNum (x : Nat) (v : Machine.Num) (st : Nat) : core (writeNum x v st s) = core s := by
  unfold writeNum
  extract_lets c t u
  rw [core_writeWords]
  exact (core_onlyIf t _ rfl).trans (core_onlyIf s _ rfl)

@[simp] theorem core_writeInit (x st : Nat) : core (writeInit x st s) = core s := core_writeWords s _ _ _ _

@[simp] theorem core_setLaneSt (i j : Nat) (l : LaneState) : core (setLaneSt i j l s) = core s := rfl

/-! ## Rules (R267 to R270) -/

@[simp] theorem core_unpackLane (r : Rule) (x : Option Snap) (j : Nat) : core (unpackLane r x j s) = core s := by
  unfold unpackLane
  extract_lets dst
  split
  · exact core_writeInit s _ _
  · split
    · exact core_writeInit s _ _
    · split
      · exact core_writeInit (bump 0xF010C s) _ _
      · exact core_writeNum s _ _ _

@[simp] theorem core_laneRun (i : Nat) (r : Rule) (x : Option Snap) (first : Bool) (j : Nat) : core (laneRun i r x first j s) = core s := by
  unfold laneRun
  extract_lets dst dt a ls
  split
  · exact core_unpackLane s _ _ _
  · exact core_writeNum s _ _ _
  · exact core_writeNum s _ _ _
  · exact core_writeNum s _ _ _
  · split
    · exact core_writeNum s _ _ _
    · exact core_writeNum s _ _ _
  · exact core_writeNum s _ _ _
  · exact core_writeNum _ _ _ _
  · exact (core_writeNum _ _ _ _).trans (core_onlyIf s _ rfl)
  · split
    · exact core_writeNum _ _ _ _
    · exact core_writeInit _ _ _
  · rfl

@[simp] theorem core_ruleRun (ir : Nat × Rule) : core (ruleRun ir s) = core s := by
  unfold ruleRun
  extract_lets i r x first t u
  have ht : core t = core s := core_foldl s (fun s j => laneRun i r x first j s) (fun _ _ => core_laneRun _ _ _ _ _ _) _
  have hu : core u = core t := by
    dsimp only [u]
    split
    · exact core_foldl t (fun s x => faultSlot x s) (fun _ _ => rfl) _
    · rfl
  exact (core_onlyIf u _ rfl).trans (hu.trans ht)

/-! ## The coded pass (R286 to R301) -/

/-- A fold whose accumulator carries the state with what it found. -/
theorem core_foldl_snd {α β : Type} (f : β × State → α → β × State) (h : ∀ b s a, core (f (b, s) a).2 = core s) (l : List α) (b : β) :
    core (l.foldl f (b, s)).2 = core s := by
  induction l generalizing b s with
  | nil => rfl
  | cons a t ih =>
    rw [List.foldl_cons]
    exact (ih (f (b, s) a).2 (f (b, s) a).1).trans (h b s a)

@[simp] theorem core_pass1 (written : List Nat) (rs : List (Nat × Rule)) : core (pass1 written rs s).2 = core s :=
  core_foldl_snd s _ (fun _ v ir => by
    dsimp only
    split
    · rfl
    · exact core_ruleRun v ir) rs _

@[simp] theorem core_laneCheck (ir : Nat × Rule) (first : Bool) (recs : List InRec) (written : List Nat) (j : Nat) (k m : Option Nat) :
    core (laneCheck ir first recs written j k m s).2 = core s := by
  unfold laneCheck
  extract_lets i r rdc l dst res bad v es es' diff t
  clear_value diff
  split
  · rfl
  · cases diff <;> rfl

@[simp] theorem core_pass2 (recs : List InRec) (written firsts : List Nat) (rs : List (Nat × Rule)) (k m : Option Nat) :
    core (pass2 recs written firsts rs k m s).2 = core s :=
  core_foldl_snd s _ (fun _ v _ => core_laneCheck v _ _ _ _ _ _ _) _ _

@[simp] theorem core_disarm (c : Nat) : core (disarm c s) = core s := rfl

@[simp] theorem core_latchCf (kind stage lane : Nat) (inj : Bool) (rule : Nat) (p q : DWord) :
    core (latchCf kind stage lane inj rule p q s) = core s := by
  unfold core keys latchCf modMaps
  dsimp only
  cases s.maps.cf <;> rfl

@[simp] theorem core_raiseCf (c : Nat) (inj : Option Nat) (rule : Nat) : core (raiseCf c inj rule s) = core s := by
  unfold raiseCf
  split
  · exact core_detect s _ _
  · exact core_detect s _ _

@[simp] theorem core_failFrom (f : Nat) (rs : List (Nat × Rule)) : core (failFrom f rs s) = core s :=
  core_foldl s (fun s x => faultSlot x s) (fun _ _ => rfl) _

@[simp] theorem core_failPacks (rs : List (Nat × Rule)) : core (failPacks rs s) = core s := rfl

@[simp] theorem core_runStage (stage lo hi : Nat) : core (runStage stage lo hi s) = core s := by
  unfold runStage
  extract_lets rs written firsts p t cs work injD d u
  have ht : core t = core s := core_pass1 s _ _
  clear_value work cs
  split
  · exact ht
  · extract_lets acts injK injM v r w x
    have hv : core v = core t := core_latchCf u _ _ _ _ _ _ _
    have hx : core x = core t := (core_onlyIf w _ (core_disarm _ _)).trans ((core_onlyIf r.2 _ (core_disarm _ _)).trans (core_pass2 t _ _ _ _ _ _))
    split
    · exact ((core_raiseCf _ _ _ _).trans (core_failFrom v _ _)).trans (hv.trans ht)
    · split
      · exact hx.trans ht
      · refine (core_foldl _ _ (fun v y => ?_) _).trans ((core_failFrom x _ _).trans (hx.trans ht))
        exact (core_raiseCf _ _ _ _).trans (core_latchCf _ _ _ _ _ _ _ _)

@[simp] theorem core_stageRun (stage lo hi : Nat) : core (stageRun stage lo hi s) = core s := by
  unfold stageRun
  split
  · rfl
  · exact core_runStage s _ _ _

@[simp] theorem core_checkpoint (inst : List Byte) : core (checkpoint inst s) = core s := by
  unfold checkpoint
  extract_lets rs anyCoded digestOf inj d1 d2 t all u
  split
  · rfl
  · have ht : core t = core s := (core_bump _ _).trans (core_onlyIf s _ (core_disarm _ _))
    exact (core_raiseCf _ _ _ _).trans ((core_latchCf u _ _ _ _ _ _ _).trans ((core_failPacks _ _).trans ((core_failFrom t _ _).trans ht)))

@[simp] theorem core_recode : core (recode s) = core s := by
  unfold recode
  extract_lets fs t
  have ht : core t = core s := by
    refine core_foldl s _ (fun v x => ?_) _
    refine core_foldl v _ (fun w j => ?_) _
    rfl
  exact ht

/-! ## Publications and the remote gather (R280, R281) -/

theorem core_enqueue (o : Output) (f : Frame) : core (enqueue o f s) = core s := (sent_enqueue s o f).core

theorem core_admitOrDrop (o : Output) (f : Frame) : core (admitOrDrop o f s) = core s := by
  rw [admitOrDrop_eq]
  cases judge s o f with
  | yes => exact core_enqueue s o f
  | tail => rfl
  | pool => rfl

theorem core_cycOut (f : Frame) : core (cycOut f s) = core s := by
  unfold cycOut
  split
  · exact (core_admitOrDrop _ _ _).trans (core_onlyIf s _ rfl)
  · rfl

theorem core_publishFrame (k first count : Nat) : core (publishFrame k first count s) = core s := by
  unfold publishFrame
  extract_lets src f
  generalize hx : withSeq f s = x
  obtain ⟨g, v⟩ := x
  have hv : core v = core s := by
    have hsent : v = (withSeq f s).2 := by rw [hx]
    rw [hsent]
    rfl
  dsimp only
  split
  · exact (core_cycOut _ _).trans hv
  · exact (core_cycOut _ _).trans ((core_cycOut _ _).trans hv)

theorem core_publishAll (k : Nat) : core (publishAll k s) = core s := by
  unfold publishAll
  split
  · rfl
  · refine core_foldl_snd s _ (fun n v r => ?_) _ _
    dsimp only
    split
    · exact core_publishFrame v _ _ _
    · rfl

theorem core_subSlot (k : Nat) (x : Subscr) (i : Nat) : core (subSlot k x i s) = core s := by
  unfold subSlot
  extract_lets slot prev remote fr
  split
  · exact core_writeSlot s _ _ _
  · clear_value fr
    split
    · exact core_writeSlot s _ _ _
    · dsimp only
      rw [apply_ite core, core_writeSlot, core_writeSlot, core_bump, ite_self]

theorem steady_modMaps {f : MapState → MapState} (h : ∀ m, (f m).cycle = m.cycle) : steady (modMaps f s) = steady s := by
  have hcycle : (modMaps f s).maps.cycle = s.maps.cycle := h s.maps
  unfold steady core
  rw [hcycle]
  rfl

theorem steady_publish : steady (publish s) = steady s := by
  unfold publish
  split
  · extract_lets t
    have ht : steady t = steady s := steady_of_core (core_stageRun s 0 0 _)
    exact (steady_of_core (core_publishAll _ _)).trans ht
  · rfl

theorem steady_remoteTake : steady (remoteTake s) = steady s := by
  unfold remoteTake
  extract_lets k t
  have ht : core t = core s := by
    refine core_foldl s _ (fun v x => ?_) _
    exact core_foldl v _ (fun w i => core_subSlot w _ _ _) _
  refine (steady_modMaps t ?_).trans (steady_of_core ht)
  exact fun _ => rfl

theorem steady_toStageC : steady (toStageC s) = steady s := by
  unfold toStageC
  extract_lets t
  have ht : steady t = steady s := steady_publish s
  split
  · exact ((steady_remoteTake _).trans (steady_of_core (core_stageRun t 1 _ _))).trans ht
  · exact ht

/-! ## Channels and targets (R188, R202, R272 to R274) -/

@[simp] theorem core_offerMap (ch : Nat) (i : TxItem) : core (offerMap ch i s) = core s := by
  unfold offerMap
  extract_lets refused
  split
  · exact core_of_aside (aside_failOffer s _ _ _)
  · split
    · rfl
    · exact core_unitFault _ _ _ _

theorem core_packTarget (k : Nat) (v : MapView) (t : Nat × List (Nat × Rule)) : core (packTarget k v t s) = core s := by
  unfold packTarget
  extract_lets d b u rel len bytes later item
  have hu : core u = core s := core_bumpBy s _ _
  have hlater : ∀ w, core (later w) = core w := fun w => rfl
  split
  · split
    · exact hu
    · exact (core_offerMap u _ _).trans hu
  · split
    · exact hu
    · exact (core_offerMap u _ _).trans hu
  · exact (hlater _).trans ((core_onlyIf u _ (core_bump u _)).trans hu)
  · exact (hlater _).trans hu
  · split
    · exact hu
    · exact (hlater _).trans hu

theorem core_packInject (k : Nat) : core (packInject k s) = core s := by
  unfold packInject
  split
  · split
    · rfl
    · extract_lets e fail
      have hfail : ∀ c n kind p v, core (fail c n kind p v) = core v := by
        intro c n kind p v
        dsimp only [fail]
        split
        · refine (core_raiseCf _ _ _ _).trans ((core_latchCf _ _ _ _ _ _ _ _).trans ((core_bump _ _).trans ((core_disarm _ _).trans (core_failPacks _ _))))
        · rfl
      exact (hfail _ _ _ _ _).trans (hfail _ _ _ _ _)
  · rfl

theorem steady_packAndClose : steady (packAndClose s) = steady s := by
  unfold packAndClose
  extract_lets t k u v view w
  have ht : steady t = steady s := steady_toStageC s
  split
  · have hu : core u = core t := core_stageRun t 2 _ _
    have hv : core v = core u := by
      dsimp only [v]
      split
      · exact (core_checkpoint _ _).trans (core_packInject u _)
      · rfl
    have hw : core w = core v := core_foldl v _ (fun x y => core_packTarget x _ _ _) _
    refine (steady_modMaps w ?_).trans ((steady_of_core (hw.trans (hv.trans hu))).trans ht)
    exact fun _ => rfl
  · exact ht

/-! ## Close (R282) -/

theorem core_copyDone : core (copyDone s) = core s := by
  unfold copyDone
  split
  · extract_lets t waits
    have ht : core t = core s := rfl
    exact (core_foldl t _ (fun v x => core_complete v _ _ _ _) _).trans ht
  · rfl

/-- The close of a cycle leaves the core as it was. -/
theorem steady_closeCycle : steady (closeCycle s) = steady s := by
  unfold closeCycle
  split
  · rfl
  · extract_lets t
    have ht : steady t = steady s := (steady_of_core ((core_recode _).trans (core_copyDone _))).trans (steady_packAndClose s)
    refine (steady_modMaps t ?_).trans ht
    exact fun _ => rfl

/-! ## The gather (R271, R245, R266) -/

theorem core_gatherPolls (ch : Nat) : core (gatherPolls ch s) = core s := by
  unfold gatherPolls
  split
  · rfl
  · refine core_foldl s _ (fun v x => ?_) _
    refine core_foldl v _ (fun w y => ?_) _
    exact core_writeSlot w _ _ _

theorem core_gatherHost (k : Nat) : core (gatherHost k s) = core s := by
  unfold gatherHost
  extract_lets tk due taken good t u slots v w
  have hw : core w = core s := by
    refine (core_foldl v _ (fun x y => ?_) _).trans ((core_bumpBy _ _ _).trans (core_bumpBy _ _ _))
    split <;> rfl
  refine (core_foldl w _ (fun x e => ?_) _).trans hw
  exact core_writeSlot x _ _ _

theorem core_gatherChannel (ch k : Nat) : core (gatherChannel ch k s) = core s := by
  unfold gatherChannel
  extract_lets rules items tk taken rest lost good hit newest kept t u v w
  have hw : core w = core s := (core_bumpBy _ _ _).trans ((core_bumpBy _ _ _).trans (core_bumpBy _ _ _))
  refine (core_foldl w _ (fun x r => ?_) _).trans hw
  split <;> rfl

theorem core_gatherEngine (e k d : Nat) : core (gatherEngine e k d s) = core s := by
  unfold gatherEngine
  extract_lets tk ws due lost good t u
  split <;> rfl

theorem core_gatherSource (k d : Nat) : core (gatherSource k d s) = core s := by
  unfold gatherSource
  extract_lets u tk p
  split
  · split
    · split <;> rfl
    · rfl
  · exact core_gatherChannel s _ _
  · rfl
  · rfl
  · rfl
  · exact core_gatherEngine s _ _ _

theorem core_dropRises (k : Nat) : core (dropRises k s) = core s := by
  unfold dropRises
  exact core_forEach s _ _ (fun _ v => core_modLine v _ _)

/-- The sources that the map's UNPACK rules name, gathered. -/
def gatherSources (k : Nat) (s : State) : State := (((unpacks s).map (·.a)).eraseDups).foldl (fun s d => gatherSource k d s) s

theorem gather_eq (k : Nat) : gather k s =
    modTime (fun t => { t with stepped := false }) (dropRises k (gatherSources k (forEach (List.range 128) gatherPolls (gatherHost k s)))) := rfl

theorem core_unstepped : core (modTime (fun t => { t with stepped := false }) s) = core s := rfl

theorem core_gatherSources (k : Nat) : core (gatherSources k s) = core s := core_foldl s _ (fun v d => core_gatherSource v k d) _

theorem core_gather (k : Nat) : core (gather k s) = core s := by
  rw [gather_eq, core_unstepped, core_dropRises, core_gatherSources, core_forEach _ _ _ (fun ch v => core_gatherPolls v ch), core_gatherHost]

/-- A cycle that begins stands in stage A, on the hub as it was. -/
theorem beginCycle_begins (k : Nat) : (beginCycle k s).maps.cycle = k ∧ (beginCycle k s).maps.phase = .stageA ∧ (beginCycle k s).hub = s.hub
    ∧ (beginCycle k s).reset_ = s.reset_ ∧ (beginCycle k s).time.locked = s.time.locked := by
  have h : core (beginCycle k s) = core (modMaps (fun m => { m with
      cycle := k, phase := .stageA, overrun := none, codedArmed := m.codedArmed ++ m.codedInject, codedInject := [] }) s) := by
    unfold beginCycle
    exact core_gather _ k
  generalize beginCycle k s = t at h ⊢
  exact ⟨congrArg Core.cycle h, congrArg Core.phase h, congrArg Core.hub h, congrArg Core.reset h, congrArg Core.locked h⟩

end

end Sys2Proof.Proofs
end

section
/-! The boundary of a cycle, once, and the first cycle of a hub that leaves BOOT (R171, R275, R279, R282, R397). -/

namespace Sys2Proof.Proofs

open Sys2Proof Sys2Proof.Machine Sys2Proof.Laws

/-! ## The hold-back windows through what a configuration brings (R397) -/

section
variable (s : State)

theorem sw_forEach (l : List Nat) (f : Nat → State → State) (h : ∀ i s, (f i s).sw = s.sw) : (forEach l f s).sw = s.sw :=
  foldl_keep State.sw _ (fun v i => h i v) l s

theorem sw_foldl {α : Type} (f : State → α → State) (h : ∀ s a, (f s a).sw = s.sw) (l : List α) : (l.foldl f s).sw = s.sw :=
  foldl_keep State.sw f h l s

theorem mapActivate_sw (b : List Byte) : (mapActivate b s).sw = s.sw := by
  unfold mapActivate
  extract_lets t
  refine (sw_forEach t _ _ fun x v => ?_).trans rfl
  rfl

theorem linesActivate_sw : (linesActivate s).sw = s.sw := by
  unfold linesActivate
  refine sw_forEach s _ _ fun l v => ?_
  rfl

theorem chansActivate_sw : (chansActivate s).sw = s.sw := by
  unfold chansActivate
  refine sw_forEach s _ _ (fun ch v => ?_)
  extract_lets c t u k auto st
  have ht : aside t = aside v := (aside_abortWaiters _ _).trans ((aside_cutPush _ _).trans (aside_failAll _ _ _ _))
  have hu : aside u = aside t := aside_completes t Prod.fst Prod.snd .aborted [] _
  exact sw_of_aside (hu.trans ht)

theorem enginesActivate_sw (b : List Byte) : (enginesActivate b s).sw = s.sw := by
  unfold enginesActivate
  extract_lets t
  have ht : t.sw = s.sw := by
    refine sw_forEach s _ _ (fun e v => ?_)
    extract_lets u w x
    have hu : u.sw = v.sw := by
      dsimp only [u]
      split
      · exact sw_of_aside (aside_haltNow v e)
      · rfl
    have hw : w.sw = u.sw := rfl
    have hx : x.sw = w.sw := by
      refine sw_foldl w _ (fun v y => ?_) _
      rfl
    split
    · exact (sw_of_aside (aside_haltPins x e)).trans (hx.trans (hw.trans hu))
    · exact hx.trans (hw.trans hu)
  refine (sw_forEach t _ _ fun e v => ?_).trans ht
  rfl

theorem outStart_sw (o : Nat) : (outStart o s).sw = s.sw := by
  unfold outStart
  split <;> rfl

theorem unlatch_sw (o : Nat) : (unlatch o s).sw = s.sw := condEnd_sw _ _ _

theorem outRetry_sw (o : Nat) : (outRetry o s).sw = s.sw := emit_sw _ _ _

theorem outSupplyOn_sw (o : Nat) : (outSupplyOn o s).sw = s.sw := by
  unfold outSupplyOn
  extract_lets x
  split
  · rfl
  · split
    · rfl
    · split
      · split
        · exact outRetry_sw s o
        · exact outStart_sw s o
      · rfl

theorem outSet_sw (o : Nat) (on : Bool) : (outSet o on s).2.sw = s.sw := by
  unfold outSet
  extract_lets x t u
  split
  · have ht : t.sw = s.sw := unlatch_sw _ o
    dsimp only
    split
    · exact ht
    · exact ht
  · split
    · rfl
    · dsimp only
      split
      · exact outStart_sw u o
      · rfl

theorem outletsActivate_sw : (outletsActivate s).sw = s.sw := by
  unfold outletsActivate outletsResume
  refine (sw_forEach _ _ _ fun o v => ?_).trans (sw_forEach s _ _ fun o v => ?_)
  · split
    · rfl
    · exact outSupplyOn_sw v o
  · split
    · split
      · exact unlatch_sw _ o
      · exact outSet_sw v o false
    · split
      · exact outSet_sw v o true
      · rfl

theorem scrubTouch_sw (steps : List Nat) : (scrubTouch steps s).sw = s.sw := by
  unfold scrubTouch
  extract_lets t
  split <;> rfl

theorem syncConfigured_sw : (syncConfigured s).sw = s.sw := by
  unfold syncConfigured
  extract_lets t
  exact onlyIf_sw t _ _ rfl

/-! ## The hold-back windows through what is sent (R109, R131) -/

/-- Frames that wait for one of a stream in its place. -/
def windows (s : State) : List HoldBack := s.sw.holdBack

theorem windows_of_sw {t : State} (h : t.sw = s.sw) : windows t = windows s := congrArg SwState.holdBack h

theorem windows_onlyIf {f : State → State} (c : Bool) (h : windows (f s) = windows s) : windows (onlyIf c f s) = windows s := by
  cases c
  · rfl
  · exact h

theorem windows_foldl {α : Type} (f : State → α → State) (h : ∀ s a, windows (f s a) = windows s) (l : List α) :
    windows (l.foldl f s) = windows s := foldl_keep windows f h l s

theorem windows_notePoolMin : windows (notePoolMin s) = windows s := windows_of_sw s (notePoolMin_sw s)

theorem windows_putOut (p : Port) (f : Frame) : windows (putOut p f s) = windows s := by
  unfold putOut
  split
  · exact windows_notePoolMin _
  · obtain ⟨q, n, l, h⟩ := enqueue_sw (outOf p) f s
    unfold windows
    rw [h]

theorem windows_launch (f : Frame) : windows (launch f s) = windows s := by
  unfold launch
  extract_lets t
  have ht : windows t = windows s := windows_onlyIf s _ rfl
  split
  · exact (windows_putOut _ _ _).trans ((windows_onlyIf t _ rfl).trans ht)
  · exact ht

theorem windows_holdOut (f : Frame) : windows (holdOut f s) = windows s := windows_onlyIf s _ rfl

theorem windows_originate (f : Frame) : windows (originate f s) = windows s := by
  unfold originate offer
  dsimp only
  split
  · exact windows_launch _ _
  · exact windows_holdOut _ _

theorem windows_sendPacket (cls dst : Nat) (bytes : List Byte) : windows (sendPacket cls dst bytes s) = windows s := by
  unfold sendPacket sendPacketFor
  extract_lets ccw t
  split
  · exact windows_originate _ _
  · exact (windows_originate _ _).trans (windows_originate _ _)

theorem windows_askAll : windows (askAll s) = windows s := by
  unfold askAll
  split
  · rfl
  · refine windows_foldl s _ (fun v x => ?_) _
    split
    · rfl
    · exact windows_sendPacket _ _ _ _

/-- A configuration that takes effect leaves the hold-back windows. -/
theorem windows_takeEffect (b : List Byte) : windows (takeEffect b s) = windows s := by
  unfold takeEffect
  extract_lets t u v w lv
  have hu : u.sw = s.sw := (chansActivate_sw _).trans ((linesActivate_sw t).trans (mapActivate_sw s b))
  have hv : v.sw = u.sw := (outletsActivate_sw _).trans (enginesActivate_sw u b)
  have hw : w.sw = v.sw := (syncConfigured_sw _).trans (scrubTouch_sw v _)
  refine (windows_askAll _).trans (windows_of_sw s ?_)
  split
  · exact hw.trans (hv.trans hu)
  · exact hw.trans (hv.trans hu)

/-! ## Copies that are given up (R134, R148) -/

/-- What the loss of copies leaves alone. -/
structure Lost (s t : State) : Prop where
  core : core t = core s
  windows : windows t = windows s

theorem Lost.trans {s t u : State} (h : Lost s t) (k : Lost t u) : Lost s u := ⟨k.core.trans h.core, k.windows.trans h.windows⟩

theorem lost_foldl {α : Type} (f : State → α → State) (h : ∀ s a, Lost s (f s a)) (l : List α) : Lost s (l.foldl f s) :=
  ⟨core_foldl s f (fun v a => (h v a).core) l, windows_foldl s f (fun v a => (h v a).windows) l⟩

theorem lost_completeLost (f : Frame) : Lost s (completeLost f s) := by
  unfold completeLost
  split
  · split
    · exact ⟨core_complete s _ _ _ _, rfl⟩
    · split
      · exact ⟨rfl, rfl⟩
      · exact ⟨rfl, rfl⟩
  · split
    · split
      · split
        · exact ⟨(sent_originate s _).core, windows_originate s _⟩
        · exact ⟨rfl, rfl⟩
      · exact ⟨rfl, rfl⟩
    · exact ⟨rfl, rfl⟩

theorem lost_giveUp (k : Nat) : Lost s (giveUp k false s) := by
  unfold giveUp
  extract_lets cs t
  have ht : Lost s t := ⟨rfl, rfl⟩
  exact ht.trans (lost_foldl _ _ (fun v f => lost_completeLost v f) _)

theorem lost_dropReplay : Lost s (dropReplay s) := lost_foldl s _ (fun v k => lost_giveUp v k) _

end

/-! ## Changes of the hub's state (R17, R54) -/

section
variable (s : State)

theorem toHub_keeps (new : HubState) (cause : Option Nat) : (toHub new cause s).hub = new
    ∧ (toHub new cause s).reset_.bootStep = s.reset_.bootStep ∧ (toHub new cause s).time = s.time := by
  unfold toHub
  split
  · rename_i h
    exact ⟨h, rfl, rfl⟩
  · have hleft : ∀ v : State, (if v.hub = .boot then
        modReset (fun x => { x with bootLastMs := if new = .off then x.bootLastMs else min 0xFFFF (since x.bootUp v / 2000) })
          (modCmd (fun x => { x with leftBootUp := v.time.up }) v) else v).reset_.bootStep = v.reset_.bootStep
        ∧ (if v.hub = .boot then
        modReset (fun x => { x with bootLastMs := if new = .off then x.bootLastMs else min 0xFFFF (since x.bootUp v / 2000) })
          (modCmd (fun x => { x with leftBootUp := v.time.up }) v) else v).time = v.time := by
      intro v
      split <;> exact ⟨rfl, rfl⟩
    cases cause with
    | some c =>
      dsimp only
      rw [emit_hub, emit_reset_, emit_time]
      exact ⟨rfl, hleft s⟩
    | none =>
      dsimp only
      rw [emit_hub, emit_reset_, emit_time]
      exact ⟨rfl, hleft (draw s).2⟩

/-- With no frame held back, the hub enters ISOLATED with nothing to hand on. -/
theorem isolate_empty (h : s.sw.holdBack = []) : (isolate s).1 = [] ∧ (isolate s).2.hub = .isolated
    ∧ (isolate s).2.reset_.bootStep = s.reset_.bootStep ∧ (isolate s).2.time.locked = false := by
  obtain ⟨hcore, hwindows⟩ := lost_dropReplay s
  have hnone : (dropReplay s).sw.holdBack = [] := hwindows.trans h
  have hgaps : allGapsLost (dropReplay s) = ([], dropReplay s) := by
    unfold allGapsLost
    rw [hnone]
    rfl
  unfold isolate
  rw [hgaps]
  dsimp only
  obtain ⟨hhub, hstep, htime⟩ := toHub_keeps (modTime (fun t => { t with locked := false, good := 0, source := 0, rate := meanRate t }) (dropReplay s)) .isolated none
  refine ⟨rfl, (emit_hub _ _ _).trans hhub, ?_, ?_⟩
  · exact (congrArg ResetState.bootStep (emit_reset_ _ _ _)).trans (hstep.trans (congrArg (fun c : Core => c.reset.bootStep) hcore))
  · exact (congrArg TimeState.locked (emit_time _ _ _)).trans (congrArg TimeState.locked htime)

end

/-! ## The boundary (R90, R171, R275, R282) -/

section
variable {k : Nat} {s : State}

/-- Without a light list to come, a boundary hands nothing on. -/
theorem ringBoundary_hands (h : s.ring.nextLight = none) : (ringBoundary k s).1 = [] := by
  have hassign : (applyAssign k s).ring.nextLight = none := by
    unfold applyAssign
    split
    · split
      · exact h
      · exact h
    · exact h
  have hcommit : (commitLight k (applyAssign k s)).1 = [] := by
    unfold commitLight
    rw [hassign]
  exact hcommit

theorem deliverAll_nil (s : State) : deliverAll [] s = s := rfl

/-- The state after what the boundary of cycle `k` brings to the ring, once. -/
def afterRing (k : Nat) (s : State) : State :=
  if s.maps.boundary = some k then s else (ringBoundary k (modMaps (fun m => { m with boundary := some k }) s)).2

/-- The boundary in RUN with a span up and a map that runs on. -/
theorem cycleBoundary_runs {w x : State} (hk : k = cycleNow s) (hreset : s.reset_.inReset = false) (hlight : s.ring.nextLight = none)
    (hw : w = afterRing k s) (hfirst : s.maps.boundary ≠ some k) (hrun : w.hub = .run) (hspan : noSpanUp w = false) (hx : x = closeCycle w)
    (hactive : x.maps.active = true) (hsleep : sleepDue k x = false) (hnext : ∀ l, (takeChanges k x).maps.lastClosed = some l → l < k) :
    cycleBoundary s = ([], beginCycle k (takeChanges k x)) := by
  have hring : w = (ringBoundary k (modMaps (fun m => { m with boundary := some k }) s)).2 := by
    rw [hw, afterRing, if_neg hfirst]
  have hhands : (ringBoundary k (modMaps (fun m => { m with boundary := some k }) s)).1 = [] := ringBoundary_hands hlight
  have hstays : runOrIsolated w = ([], w) := by
    unfold runOrIsolated
    rw [hrun]
    dsimp only
    rw [hspan]
    rfl
  have hxhub : x.hub = .run := by
    rw [hx, hub_of_steady (steady_closeCycle w)]
    exact hrun
  have hlive : fieldLive x = true := by
    unfold fieldLive
    rw [hxhub]
    rfl
  have hlater : (match (takeChanges k x).maps.lastClosed with | some l => decide (k > l) | none => true) = true := by
    split
    · next l hl => exact decide_eq_true (hnext l hl)
    · rfl
  have hmaps : mapBoundary k w = ([], beginCycle k (takeChanges k x)) := by
    unfold mapBoundary
    rw [← hx]
    simp only [hxhub, hlive, hactive, hsleep, Bool.not_false, Bool.and_self, if_true]
    exact congrArg (Prod.mk []) (if_pos hlater)
  unfold cycleBoundary
  dsimp only
  rw [← hk, if_neg (by rw [hreset]; exact fun h => h.elim hfirst Bool.false_ne_true.elim), ← hring, hhands, hstays]
  dsimp only
  rw [hmaps]
  rfl

/-- A cycle that was packed closes as it stands (R282). -/
theorem closeCycle_packed {w : State} (h : w.maps.phase = .packed) : (closeCycle w).maps.lastClosed = some w.maps.cycle
    ∧ (closeCycle w).maps.copying = some w.maps.cycle
    ∧ slook (closeCycle w).maps.history (w.maps.cycle % 16) = some ⟨w.maps.cycle, (closeCycle w).maps.slots, (closeCycle w).maps.descs⟩ := by
  have hpublish : publish w = w := if_neg (by rw [h]; decide)
  have hstage : toStageC w = w := by
    unfold toStageC
    rw [hpublish]
    exact if_neg (by rw [h]; decide)
  have hpack : packAndClose w = w := by
    unfold packAndClose
    rw [hstage]
    exact if_neg (by rw [h]; decide)
  have hcycle : (recode (copyDone w)).maps.cycle = w.maps.cycle := congrArg Core.cycle ((core_recode _).trans (core_copyDone w))
  unfold closeCycle
  rw [if_neg (by rw [h]; decide), hpack]
  dsimp only
  generalize recode (copyDone w) = v at hcycle
  rw [← hcycle]
  exact ⟨rfl, rfl, slook_sins _ _ _⟩

/-- The first cycle of a hub at the end of BOOT (R397). -/
theorem firstCycle_boot {w : State} {st : HubState} (hk : k = cycleNow s) (hreset : s.reset_.inReset = false) (hlight : s.ring.nextLight = none)
    (hw : w = afterRing k s) (hboot : s.hub = .boot) (hstep : s.reset_.bootStep = 7) (hfield : fieldState s = some st) :
    firstCycle s = ((enterField st (modReset (fun r => { r with bootStep := 8 }) (takeEffect s.upd.inForce w))).1,
      beginCycle k (enterField st (modReset (fun r => { r with bootStep := 8 }) (takeEffect s.upd.inForce w))).2) := by
  have hring : (if s.maps.boundary = some k then ([], s) else ringBoundary k (modMaps (fun m => { m with boundary := some k }) s)) = ([], w) := by
    rw [hw, afterRing]
    split
    · rfl
    · exact Prod.ext (ringBoundary_hands hlight) rfl
  unfold firstCycle
  simp only [hboot, hstep, hfield]
  rw [hreset, if_neg Bool.false_ne_true, ← hk, hring]
  rfl

end

/-! ## The obligation -/

/-- Settles O36: the ring's part of a boundary hands nothing on, the close and the gather leave the hub's state, and a hub without held
frames enters ISOLATED with none to hand on. -/
theorem cycleBoundaries : Obligations.CycleBoundaries := by
  unfold Obligations.CycleBoundaries
  intro k s w x hk hreset hlight hw
  have hw : w = afterRing k s := hw
  refine ⟨fun _ hdone => ⟨_, commit_goOn s _, ?_⟩, fun hfirst hrun hspan hx hactive hsleep hnext htaken => ⟨_, commit_goOn s _, ?_⟩,
    fun hboot hstep hfield => ⟨_, commit_goOn s _, ?_⟩, fun hboot hstep hfield hheld => ⟨_, commit_goOn s _, ?_⟩,
    fun hboot hfield => ⟨_, commit_goOn s _, ?_⟩⟩
  · have hsame : cycleBoundary s = ([], s) := by
      unfold cycleBoundary
      exact if_pos (.inl (hk ▸ hdone))
    rw [hsame]
    rfl
  · rw [cycleBoundary_runs hk hreset hlight hw hfirst hrun hspan hx hactive hsleep hnext]
    obtain ⟨hcycle, hphase, hhub, -, -⟩ := beginCycle_begins (takeChanges k x) k
    refine ⟨rfl, hcycle, hphase, hhub.trans htaken, fun hpacked => ?_⟩
    rw [hx]
    exact closeCycle_packed hpacked
  · rw [firstCycle_boot hk hreset hlight hw hboot hstep hfield]
    generalize ht : modReset (fun r => { r with bootStep := 8 }) (takeEffect s.upd.inForce w) = t
    have height : t.reset_.bootStep = 8 := by rw [← ht]; rfl
    have henter : enterField .run t = ([], toHub .run none t) := if_neg (by decide)
    rw [henter]
    dsimp only
    rw [deliverAll_nil]
    obtain ⟨hhub, hboot', -⟩ := toHub_keeps t .run none
    obtain ⟨hcycle, hphase, hhub', hreset', -⟩ := beginCycle_begins (toHub .run none t) k
    exact ⟨rfl, hhub'.trans hhub, (congrArg ResetState.bootStep hreset').trans (hboot'.trans height), hcycle, hphase⟩
  · rw [firstCycle_boot hk hreset hlight hw hboot hstep hfield]
    generalize ht : modReset (fun r => { r with bootStep := 8 }) (takeEffect s.upd.inForce w) = t
    have height : t.reset_.bootStep = 8 := by rw [← ht]; rfl
    have hnone : t.sw.holdBack = [] := by
      rw [← ht]
      exact (windows_takeEffect w _).trans hheld
    have henter : enterField .isolated t = isolate t := if_pos rfl
    obtain ⟨hhands, hhub, hboot', hlocked⟩ := isolate_empty t hnone
    rw [henter, hhands]
    dsimp only
    rw [deliverAll_nil]
    obtain ⟨hcycle, hphase, hhub', hreset', hlocked'⟩ := beginCycle_begins (isolate t).2 k
    exact ⟨hhub'.trans hhub, (congrArg ResetState.bootStep hreset').trans (hboot'.trans height), hcycle, hphase, hlocked'.trans hlocked⟩
  · have hsame : firstCycle s = ([], s) := by
      unfold firstCycle
      split
      · next h =>
        rw [hfield] at h
        cases h
      · next h _ =>
        rw [hboot] at h
        cases h
      · rfl
    rw [hsame]
    rfl

end Sys2Proof.Proofs
end

section
/-! Sleep and wake: the entry at its boundary, the ports that go down, what wakes the hub, and the WAKE frame (R376 to R379). -/

namespace Sys2Proof.Proofs

open Sys2Proof Sys2Proof.Machine Sys2Proof.Laws

/-! ## The entry (R326, R376) -/

section
variable {s t : State}

theorem aside_forEach (l : List Nat) (f : Nat → State → State) (h : ∀ i s, aside (f i s) = aside s) (s : State) :
    aside (forEach l f s) = aside s := aside_foldl s _ (fun v i => h i v) l

/-- The change of the hub's state leaves power, maps and the commands in flight. -/
theorem toHub_rest (new : HubState) (cause : Option Nat) (s : State) : (toHub new cause s).power = s.power ∧ (toHub new cause s).maps = s.maps
    ∧ keys (toHub new cause s) = keys s := by
  have hleft : ∀ v : State, (if v.hub = .boot then
      modReset (fun x => { x with bootLastMs := if new = .off then x.bootLastMs else min 0xFFFF (since x.bootUp v / 2000) })
        (modCmd (fun x => { x with leftBootUp := v.time.up }) v) else v).power = v.power
      ∧ (if v.hub = .boot then
      modReset (fun x => { x with bootLastMs := if new = .off then x.bootLastMs else min 0xFFFF (since x.bootUp v / 2000) })
        (modCmd (fun x => { x with leftBootUp := v.time.up }) v) else v).maps = v.maps
      ∧ keys (if v.hub = .boot then
      modReset (fun x => { x with bootLastMs := if new = .off then x.bootLastMs else min 0xFFFF (since x.bootUp v / 2000) })
        (modCmd (fun x => { x with leftBootUp := v.time.up }) v) else v) = keys v := by
    intro v
    split <;> exact ⟨rfl, rfl, rfl⟩
  unfold toHub
  split
  · exact ⟨rfl, rfl, rfl⟩
  · cases cause with
    | some c => exact hleft s
    | none => exact hleft (draw s).2

/-- A command completes alone in flight. -/
theorem complete_one {y : Cmd} (h : s.cmd.inflight = [y]) (st : Status) (res : List Byte) :
    ∃ z, (complete y.session y.tag st res s).cmd.inflight = [z] ∧ z.session = y.session ∧ z.tag = y.tag ∧ isReady z = true := by
  unfold complete modCmd
  dsimp only
  rw [h, List.map_singleton, if_pos ⟨rfl, rfl⟩]
  refine ⟨_, rfl, ?_⟩
  split
  · next hphase => exact ⟨rfl, rfl, by unfold isReady; rw [hphase]⟩
  · exact ⟨rfl, rfl, rfl⟩

/-- What the entry ends and halts, before the hub sleeps. -/
def quieted (se : Nat) (tag : Tag) (s : State) : State :=
  forEach (List.range 32) (fun e s => onlyIf (leActive (leState s e)) (haltNow e) s)
    (forEach (List.range 128) (fun ch s => modChan ch keepItems (abortWaiters ch s))
      ((s.cmd.inflight.filter (endedBySleep se tag)).foldl (fun s c => complete c.session c.tag .aborted [] s) s))

theorem aside_quieted (se : Nat) (tag : Tag) (s : State) : aside (quieted se tag s) = aside s := by
  have hends : ∀ (ch : Nat) (v : State), aside (modChan ch keepItems (abortWaiters ch v)) = aside v := fun ch v => aside_abortWaiters v ch
  have hhalts : ∀ (e : Nat) (v : State), aside (onlyIf (leActive (leState v e)) (haltNow e) v) = aside v :=
    fun e v => aside_onlyIf v _ (aside_haltNow v e)
  exact (aside_forEach _ _ hhalts _).trans ((aside_forEach _ _ hends _).trans (aside_completes s Cmd.session Cmd.tag .aborted [] _))

/-- The hub falls asleep at the level asked. -/
def asleep (level : Nat) (s : State) : State :=
  toHub .sleep none (setFld 0x004 4 2 level (onlyIf (level == 3) (modTime (fun t => { t with holds := false, locked := false, good := 0 }))
    (modPower (fun p => { p with
      sleepLevel := level, sleepUp := s.time.up, portsDown := false, waking := false, wakeDone := false, wakeSource := 0 }) s)))

theorem asleep_keeps (level : Nat) (s : State) : (asleep level s).hub = .sleep ∧ (asleep level s).power.sleepLevel = level
    ∧ (asleep level s).power.sleepAt = s.power.sleepAt ∧ (asleep level s).maps = s.maps ∧ keys (asleep level s) = keys s := by
  unfold asleep
  generalize hv : setFld 0x004 4 2 level (onlyIf (level == 3) (modTime (fun t => { t with holds := false, locked := false, good := 0 }))
    (modPower (fun p => { p with
      sleepLevel := level, sleepUp := s.time.up, portsDown := false, waking := false, wakeDone := false, wakeSource := 0 }) s)) = v
  have hkept : v.power.sleepLevel = level ∧ v.power.sleepAt = s.power.sleepAt ∧ v.maps = s.maps ∧ keys v = keys s := by
    rw [← hv]
    cases level == 3 <;> exact ⟨rfl, rfl, rfl, rfl⟩
  obtain ⟨hlevel, hat, hmaps, hkeys⟩ := hkept
  obtain ⟨hpower, hmaps', hkeys'⟩ := toHub_rest .sleep none v
  exact ⟨(toHub_keeps v .sleep none).1, by rw [hpower, hlevel], by rw [hpower, hat], hmaps'.trans hmaps, hkeys'.trans hkeys⟩

/-- A sleep entry at its boundary. -/
theorem sleepEntry_due {level k se : Nat} {tag : Tag} (hat : s.power.sleepAt = some (level, k, se, tag)) (hlive : fieldLive s = true)
    (hdue : k ≤ cycleNow s) (hfree : sleepDenied level s = false) : sleepEntry s = complete se tag .ok [] (asleep level (quieted se tag
      (modMaps (fun m => { m with boundary := some (cycleNow s), changes := [] }) (closeCycle (modPower (fun p => { p with sleepAt := none }) s))))) := by
  have hallowed : sleepDenied level (modPower (fun p => { p with sleepAt := none }) s) = false := hfree
  have hnow : cycleNow s = cycleNow (modPower (fun p => { p with sleepAt := none }) s) := rfl
  rw [hnow]
  unfold sleepEntry asleep quieted
  rw [hat]
  dsimp only
  rw [hlive, hallowed, if_neg (by simp; omega), if_neg Bool.false_ne_true]

theorem inflight_of_keys {x : Cmd} (h : keys s = [(x.session, x.tag)]) : ∃ y, s.cmd.inflight = [y] ∧ y.session = x.session ∧ y.tag = x.tag := by
  obtain ⟨y, hy, hkey⟩ := List.map_eq_singleton_iff.mp h
  exact ⟨y, hy, congrArg Prod.fst hkey, congrArg Prod.snd hkey⟩

/-- The entry answers its command, with the hub asleep and no further cycle to run. -/
theorem sleepEntry_sleeps {level k : Nat} {x : Cmd} (hat : s.power.sleepAt = some (level, k, x.session, x.tag)) (hlive : fieldLive s = true)
    (hdue : k ≤ cycleNow s) (hfree : sleepDenied level s = false) (hin : s.cmd.inflight = [x]) :
    (sleepEntry s).hub = .sleep ∧ (sleepEntry s).power.sleepLevel = level ∧ (sleepEntry s).power.sleepAt = none
    ∧ (sleepEntry s).maps.boundary = some (cycleNow s) ∧ (sleepEntry s).maps.changes = []
    ∧ ∃ y, (sleepEntry s).cmd.inflight = [y] ∧ y.session = x.session ∧ y.tag = x.tag ∧ isReady y = true := by
  rw [sleepEntry_due hat hlive hdue hfree]
  have hsteady := steady_closeCycle (modPower (fun p => { p with sleepAt := none }) s)
  generalize closeCycle (modPower (fun p => { p with sleepAt := none }) s) = c at hsteady ⊢
  have hcat : c.power.sleepAt = none := congrArg PowerState.sleepAt (power_of_steady hsteady)
  have hckeys : keys c = [(x.session, x.tag)] := by
    have hkeys : keys (modPower (fun p => { p with sleepAt := none }) s) = [(x.session, x.tag)] := congrArg (List.map _) hin
    exact (keys_of_steady hsteady).trans hkeys
  generalize hv : modMaps (fun m => { m with boundary := some (cycleNow s), changes := [] }) c = v
  have hquiet := aside_quieted x.session x.tag v
  obtain ⟨hhub, hlevel, hsleepAt, hmaps, hkeys⟩ := asleep_keeps level (quieted x.session x.tag v)
  generalize asleep level (quieted x.session x.tag v) = u at hhub hlevel hsleepAt hmaps hkeys
  have hvkeys : keys v = keys c := by rw [← hv]; rfl
  have humaps : u.maps = v.maps := hmaps.trans (maps_of_aside hquiet)
  have huat : u.power.sleepAt = v.power.sleepAt := hsleepAt.trans (congrArg PowerState.sleepAt (power_of_aside hquiet))
  obtain ⟨y, hy, hse, htag⟩ := inflight_of_keys (hkeys.trans ((keys_of_aside hquiet).trans (hvkeys.trans hckeys)))
  rw [← hse, ← htag]
  refine ⟨hhub, hlevel, ?_, ?_, ?_, complete_one hy .ok []⟩
  · rw [complete_power, huat, ← hv]
    exact hcat
  · rw [complete_maps, humaps, ← hv]
    rfl
  · rw [complete_maps, humaps, ← hv]
    rfl

/-! ## Ports down (R377) -/

theorem failItem_engines (ch : Nat) (i : TxItem) (st : Status) (s : State) : (failItem ch i st s).engines = s.engines := by
  have hflush : ∀ v : State, (flushReport ch v).engines = v.engines := by
    intro v
    unfold flushReport
    split
    · split <;> rfl
    · rfl
  have hreport : ∀ (seq : Nat) (v : State), (report ch st seq v).engines = v.engines := fun seq v => onlyIf_engines v _ _ (hflush v)
  have hanswer : ∀ (res : List Byte) (v : State), (answerItem i st res v).engines = v.engines := by
    intro res v
    unfold answerItem
    split <;> rfl
  unfold failItem
  extract_lets t u
  have ht : t.engines = s.engines := by
    dsimp only [t]
    split <;> rfl
  have hu : u.engines = t.engines := by
    dsimp only [u]
    split
    · exact unitFault_engines t _ _ _
    · rfl
  exact (hanswer _ _).trans ((hreport _ u).trans (hu.trans ht))

theorem failAll_engines (ch : Nat) (is : List TxItem) (st : Status) (s : State) : (failAll ch is st s).engines = s.engines :=
  foldl_keep State.engines _ (fun v i => failItem_engines ch i st (removeItem ch i.seq v)) is s

theorem cutPush_engines (ch : Nat) (s : State) : (cutPush ch s).engines = s.engines := by
  unfold cutPush
  extract_lets ws i
  split
  · rfl
  · exact failItem_engines _ _ _ _

/-- Every channel's queued and cut items end with ABORTED. -/
def itemsEnd (s : State) : State := forEach (List.range 128) (fun ch s => cutPush ch (failAll ch (chan s ch).txq .aborted s)) s

theorem aside_itemsEnd (s : State) : aside (itemsEnd s) = aside s :=
  aside_forEach _ _ (fun ch v => (aside_cutPush _ ch).trans (aside_failAll v ch _ _)) s

theorem itemsEnd_engines (s : State) : (itemsEnd s).engines = s.engines :=
  forEach_keeps (g := State.engines) _ s fun ch v => (cutPush_engines ch _).trans (failAll_engines ch _ _ v)

/-- Channels and lines stand as in reset, and ring time is no longer locked. -/
def fieldDown (s : State) : State :=
  modTime (fun t => { t with locked := false, good := 0 }) { s with
    chans := (s.chans.map (fun e => (e.1, chanSleep e.2))).filter (fun e => e.2 != {})
    dl := { s.dl with lines := s.dl.lines.map (fun e => (e.1, { e.2 with rises := [] })), pend := [] } }

/-- What a sparse map reads is its default or one of its values. -/
theorem sget_all {α : Type} {P : α → Prop} {d : α} (hd : P d) {m : Sparse α} (h : ∀ e ∈ m, P e.2) (k : Nat) : P (sget d m k) := by
  induction m with
  | nil => exact hd
  | cons e t ih =>
    rw [sget]
    split
    · exact h e List.mem_cons_self
    · exact ih fun x hx => h x (List.mem_cons_of_mem _ hx)

theorem chan_fieldDown (s : State) (ch : Nat) : (chan (fieldDown s) ch).st = .off := by
  refine sget_all (P := fun c : Chan => c.st = .off) rfl (fun e he => ?_) ch
  obtain ⟨x, -, rfl⟩ := List.mem_map.mp ((List.mem_filter.mp he).1)
  rfl

/-- Outlets that lose their supply change nothing but the outlets. -/
theorem forEach_supplyOff_only (l : List Nat) (s : State) : forEach l outSupplyOff s =
    { s with power := { s.power with outlets := (forEach l outSupplyOff s).power.outlets } } := by
  induction l generalizing s with
  | nil => rfl
  | cons o t ih => exact ih (outSupplyOff o s)

theorem forEach_supplyOff_st {l : List Nat} {s : State} {o : Nat} (hwf : swf {} s.power.outlets = true)
    (ho : o ∈ l ∨ (outlet s o).st = .supplyOff) : (outlet (forEach l outSupplyOff s) o).st = .supplyOff := by
  induction l generalizing s with
  | nil => exact ho.resolve_left List.not_mem_nil
  | cons a t ih =>
    refine ih (s := outSupplyOff a s) (swf_sput _ _ _ _ hwf) ?_
    by_cases ha : o = a
    · subst ha
      exact .inr (congrArg Outlet.st (sget_sput _ _ _ _ hwf))
    · refine ho.imp (fun h => (List.mem_cons.mp h).resolve_left ha) fun h => ?_
      exact (congrArg Outlet.st (sget_sput_other _ _ _ _ _ ha)).trans h

theorem outletsOff_only (s : State) : outletsOff s = { s with power := { s.power with outlets := (outletsOff s).power.outlets } } := by
  unfold outletsOff
  exact forEach_supplyOff_only _ s

theorem outletsOff_st {o : Nat} (hwf : swf {} s.power.outlets = true) (ho : o < 32) : (outlet (outletsOff s) o).st = .supplyOff := by
  unfold outletsOff
  exact forEach_supplyOff_st hwf (.inl (List.mem_range.mpr ho))

theorem outlet_rails (n : Nat) (s : State) (o : Nat) : outlet (modPower (fun q => { q with rails := n }) s) o = outlet s o := rfl

/-- The ports of SL2 go down, and with them the field side but for the halted engines. -/
theorem sleepPortsDown_due (hsleep : s.hub = .sleep) (hlevel : s.power.sleepLevel = 2) (hports : s.power.portsDown = false)
    (hdue : s.power.sleepUp + mapDout s + 2000 ≤ s.time.up) : sleepPortsDown s = modPower (fun q => { q with rails := 0xBF })
      (outletsOff (modPower (fun p => { p with portsDown := true }) (fieldDown (itemsEnd (setSpan .west .adminDown (setSpan .east .adminDown s)))))) := by
  have hlater : ¬since s.power.sleepUp s < mapDout s + 2000 := by
    unfold since
    omega
  unfold sleepPortsDown
  dsimp only
  rw [if_neg (by simp [hsleep, hlevel, hports]; omega), if_neg (by omega)]
  unfold fieldDown itemsEnd
  rfl

theorem sleepPortsDown_sleeps (hsleep : s.hub = .sleep) (hlevel : s.power.sleepLevel = 2) (hports : s.power.portsDown = false)
    (hwf : swf {} s.power.outlets = true) (hdue : s.power.sleepUp + mapDout s + 2000 ≤ s.time.up) :
    (sleepPortsDown s).hub = .sleep ∧ (sleepPortsDown s).ring.east.span = .adminDown ∧ (sleepPortsDown s).ring.west.span = .adminDown
    ∧ (sleepPortsDown s).power.portsDown = true ∧ (sleepPortsDown s).dl.pend = [] ∧ (sleepPortsDown s).power.sleepLevel = 2
    ∧ (sleepPortsDown s).engines = s.engines ∧ (∀ o, o < 32 → (outlet (sleepPortsDown s) o).st = .supplyOff)
    ∧ ∀ ch, (chan (sleepPortsDown s) ch).st = .off := by
  rw [sleepPortsDown_due hsleep hlevel hports hdue]
  have heast := setSpan_moved .east .adminDown s
  have hwest := setSpan_moved .west .adminDown (setSpan .east .adminDown s)
  have hside := hwest.field.trans heast.field
  have hother := hwest.other_span.trans heast.span
  have hspan := hwest.span
  generalize setSpan .west .adminDown (setSpan .east .adminDown s) = v at hside hother hspan ⊢
  have hends := aside_itemsEnd v
  have hengines := itemsEnd_engines v
  generalize itemsEnd v = w at hends hengines ⊢
  have hring := ring_of_aside hends
  have hpower : w.power = s.power := (power_of_aside hends).trans (congrArg (·.2.1) hside)
  have hhub : w.hub = s.hub := (hub_of_aside hends).trans (congrArg Prod.fst hside)
  have hchans := chan_fieldDown w
  generalize hx : modPower (fun p => { p with portsDown := true }) (fieldDown w) = x
  have hxwf : swf {} x.power.outlets = true := by
    rw [← hx]
    exact (congrArg (fun p => swf {} p.outlets) hpower).trans hwf
  have houtlets : ∀ o, o < 32 → (outlet (outletsOff x) o).st = .supplyOff := fun o ho => outletsOff_st hxwf ho
  have honly : outletsOff x = { x with power := { x.power with outlets := (outletsOff x).power.outlets } } := outletsOff_only x
  generalize outletsOff x = y at houtlets honly ⊢
  have hlevel' : x.power.sleepLevel = s.power.sleepLevel := by
    rw [← hx]
    have hkept := congrArg PowerState.sleepLevel hpower
    exact hkept
  refine ⟨?_, ?_, ?_, ?_, ?_, ?_, ?_, fun o ho => (congrArg Outlet.st (outlet_rails 0xBF y o)).trans (houtlets o ho), fun ch => ?_⟩
  · rw [honly, ← hx]
    exact hhub.trans hsleep
  · rw [honly, ← hx]
    exact (congrArg (fun r => r.east.span) hring).trans hother
  · rw [honly, ← hx]
    exact (congrArg (fun r => r.west.span) hring).trans hspan
  · rw [honly, ← hx]
    rfl
  · rw [honly, ← hx]
    rfl
  · rw [honly]
    exact hlevel'.trans hlevel
  · rw [honly, ← hx]
    exact hengines.trans (congrArg (·.2.2) hside)
  · rw [honly, ← hx]
    exact hchans ch

/-! ## Wakes (R378, R379) -/

theorem chansWake_only (s : State) : (chansWake s).power = s.power ∧ (chansWake s).hub = s.hub :=
  ⟨forEach_keeps (g := State.power) _ s fun _ _ => rfl, forEach_keeps (g := State.hub) _ s fun _ _ => rfl⟩

theorem wakeSequenceEnd_light (v : Bool) (hsleep : s.hub = .sleep) (hwaking : s.power.waking = true) (hlevel : s.power.sleepLevel = 1)
    (hspan : noSpanUp s = false) : wakeSequenceEnd true v s = chansWake (bump 0x20104 (modPower (fun p => { p with
      waking := false, wakeDone := true, rails := 0xFF, lastSl := 1, lastSource := p.wakeSource
      lastMs := min 0xFFFF (since p.wakeUp s / 2000) }) s)) := by
  unfold wakeSequenceEnd
  dsimp only
  rw [if_neg (by simp [hsleep, hwaking, hlevel, hspan]), if_neg (by simp [hlevel]), hlevel, if_neg (by decide), if_neg (by decide)]

/-- A WAKE frame at the head reaches a hub in SL1 whose wake is enabled. -/
theorem wakeRx_light {f : Frame} (hhead : ctlHead s 0x0B 16 = some f) (hsleep : s.hub = .sleep) (hlevel : s.power.sleepLevel = 1)
    (hon : fld s 0x20014 7 1 = 1) : ∃ v : State, v = { s with sw := v.sw } ∧ wakeRx s =
      if f.dst = v.ring.node ∧ rd f.payload 4 4 = ringId v ∧ rd f.payload 8 8 = (myUid v).toNat then startWake 1 v else bump 0x20108 v := by
  have honly := (taken_dequeue .local 4 s).only
  refine ⟨dequeue .local 4 s, honly, (takeCtl_head _ hhead).trans ?_⟩
  generalize dequeue .local 4 s = v at honly ⊢
  have hon' : fld v 0x20014 7 1 = 1 := by
    rw [honly]
    exact hon
  exact if_neg (by rw [hon', honly]; simp [hsleep, hlevel])

theorem hostWrite_wake (n : Byte) (hfree : barFree s = true) : hostWrite 0x20018 n.toNat s = (wakeTx n.toNat s).2 := by
  have hbits : bits n.toNat 0 8 = n.toNat := by
    unfold bits
    have := n.isLt
    omega
  rw [hostWrite, if_pos hfree]
  exact congrArg (fun k => (wakeTx k s).2) hbits

/-- Settles O32: the entry closes the last cycle and answers from SLEEP; the ports of SL2 go down with the field side; a WAKE frame that
names this hub wakes it, and its sequence ends with the record; PWR_WAKE_TX sends the frame to a node of the light list. -/
theorem sleepEvents : Obligations.SleepEvents := by
  unfold Obligations.SleepEvents
  intro s
  refine ⟨fun level k x hat hlive hdue hfree hin => ⟨_, commit_goOn s _, sleepEntry_sleeps hat hlive hdue hfree hin⟩,
    fun hsleep hlevel hports hwf hdue => ⟨_, commit_goOn s _, sleepPortsDown_sleeps hsleep hlevel hports hwf hdue⟩,
    fun v hsleep hwaking hlevel hspan => ⟨_, commit_goOn s _, ?_⟩, fun f hhead hsleep hlevel hon hdone hrest => ⟨fun hdst hring huid => ?_, fun huid => ?_⟩,
    fun n l e hfree hzero hall hlight hknown hnumbered => effectIs_eq ?_, fun n hfree hlight => effectIs_eq ?_⟩
  · dsimp only
    rw [wakeSequenceEnd_light v hsleep hwaking hlevel hspan]
    obtain ⟨hpower, hhub⟩ := chansWake_only (bump 0x20104 (modPower (fun p => { p with
      waking := false, wakeDone := true, rails := 0xFF, lastSl := 1, lastSource := p.wakeSource
      lastMs := min 0xFFFF (since p.wakeUp s / 2000) }) s))
    rw [hpower, hhub]
    exact ⟨rfl, rfl, rfl, rfl, rfl, hsleep⟩
  · refine ⟨_, commit_goOn s _, ?_⟩
    obtain ⟨v, honly, hwake⟩ := wakeRx_light hhead hsleep hlevel hon
    have hours : f.dst = v.ring.node ∧ rd f.payload 4 4 = ringId v ∧ rd f.payload 8 8 = (myUid v).toNat := by
      rw [honly]
      exact ⟨hdst, hring, huid⟩
    have hlight : startWake 1 v = modPower (fun p => { p with waking := true, wakeSource := 1, wakeUp := v.time.up }) v := by
      refine startWake_light ?_ ?_ ?_ ?_
      · rw [honly, hsleep]
      · rw [honly, hdone]
      · rw [honly, hrest]
      · rw [honly, hlevel]
    rw [hwake, if_pos hours, hlight, honly]
    exact ⟨rfl, rfl, rfl⟩
  · refine ⟨_, commit_goOn s _, ?_⟩
    obtain ⟨v, honly, hwake⟩ := wakeRx_light hhead hsleep hlevel hon
    have hother : rd f.payload 8 8 ≠ (myUid v).toNat := by
      rw [honly]
      exact huid
    rw [hwake, if_neg fun h => hother h.2.2, honly]
    exact ⟨rfl, rfl⟩
  · have hn : ¬(n.toNat = 0 ∨ n.toNat = 255) := by
      refine not_or.mpr ⟨fun h => hzero (BitVec.eq_of_toNat_eq h), fun h => hall (BitVec.eq_of_toNat_eq h)⟩
    refine (hostWrite_wake n hfree).trans ?_
    unfold wakeTx
    dsimp only
    rw [hlight]
    dsimp only
    rw [hknown]
    dsimp only
    rw [if_neg hn, hnumbered]
    rfl
  · refine (hostWrite_wake n hfree).trans ?_
    unfold wakeTx
    dsimp only
    rw [hlight]
    rfl

end

end Sys2Proof.Proofs
end
